-- ==== Sys2Proof/Word.lean ====
section
/-! DEFINITION. The word types of the CLT-8320 model: payloads, control words, bytes and small lists of them. -/

namespace Sys2Proof

/-- A 64-bit payload, register or memory word. -/
abbrev Word := BitVec 64
/-- A 32-bit operation word, sequence word, operand immediate or control word. -/
abbrev Word32 := BitVec 32
/-- One byte of memory. -/
abbrev Byte := BitVec 8

/-- The two's-complement value of the low `w` bits of `n`. -/
def sextNat (w : Nat) (n : Nat) : Int :=
  let m := n % 2 ^ w
  if w = 0 then 0 else if m < 2 ^ (w - 1) then (m : Int) else (m : Int) - (2 ^ w : Nat)

/-- `i` modulo `2 ^ w`, as a natural number. -/
def wrapNat (w : Nat) (i : Int) : Nat := (i % ((2 ^ w : Nat) : Int)).toNat

end Sys2Proof
end

