-- ==== Sys2Proof/Syntax.lean ====
section
/-! DEFINITION. The syntax of everything the CLT-8320 executes: one constructor of `Instr` per row of
spec/opcode_table.json. PE operation words carry the fields of R142 and R146, control words those of R147,
engine commands the message of R153, and events the data that the acting agent supplies. -/
namespace Sys2Proof

/-- The place of one context of one PE: logical cluster 0 to 319, x and y 0 to 15, context 0 to 3 (R8, R10). -/
structure Site where
  cl : Nat
  x : Nat
  y : Nat
  ctx : Nat
deriving DecidableEq, Repr, Inhabited

/-- The engines that take messages (R258): matrix, copy and gather engines of cluster `place`, and the
collective engine of die `place`. -/
inductive EngineKind where
  | matrix | copy | gather | collective
deriving DecidableEq, Repr, Inhabited

/-- One engine of the device. -/
structure EngineId where
  kind : EngineKind
  place : Nat
deriving DecidableEq, Repr, Inhabited

/-- A PE operation word with the words that follow it (R142). Every field is kept as it stands, since R145
checks them when the word fires. Format T (R146) overlays `td`, `ta`, `tb`, `ae` on `sa` to `mod`. -/
structure PeWord where
  sub : BitVec 3
  fmt : BitVec 4
  sa : BitVec 3
  sb : BitVec 3
  sc : BitVec 3
  ei : BitVec 3
  dst : BitVec 2
  mod : BitVec 3
  x : Bool
  seq : Word32
  imm : Word32
deriving DecidableEq, Repr, Inhabited

/-- A control word less its opcode (R147): GD (or GA of format CB), GA (or GB), GB, and the low eleven bits. -/
structure CWord where
  gd : BitVec 5
  ga : BitVec 5
  gb : BitVec 5
  lo : BitVec 11
deriving DecidableEq, Repr, Inhabited

/-- An engine message (R153): its header less OPC, and its pointers. -/
structure Message where
  nptr : BitVec 4
  hpop : BitVec 4
  hpush : BitVec 4
  handler : BitVec 12
  reply : Word32
  ptrs : List Word
deriving DecidableEq, Repr, Inhabited

/-- The synchronising accesses that travel to another device (R82, R96). -/
inductive FyOp where
  | lda | stl | fence
  | amo (sub : Nat)
  | amx (sub : Nat)
  /-- The total of a reduction round, combined with the target (R116): operation and format. -/
  | red (op fmt : Nat)
  /-- Bytes, by their offset from the access's address, added as little-endian numbers to what stands there, as one access (R114, R268). -/
  | adds (parts : List (Nat × List Byte))
deriving DecidableEq, Repr, Inhabited

/-- What a Fyron packet carries (R343). The manual gives the header and names the traffic; the payloads are
given structure here. -/
inductive FyPayload where
  | memRead (pa : Nat) (n : Nat) (tag : Nat)
  /-- A write; where a packet cannot hold all its bytes, they come in several packets, performed with the last. -/
  | memWrite (pa : Nat) (bytes : List Byte) (last : Bool) (tag : Nat)
  /-- Bytes written, by their offset from `pa` in its line, as one write event (R94). -/
  | memParts (pa : Nat) (parts : List (Nat × List Byte)) (tag : Nat)
  /-- A synchronising access of `n` bytes (R96): its operation, operands v and c, and the scope of its page (R97). -/
  | memSync (pa n : Nat) (op : FyOp) (scope : Nat) (v c : Word) (tag : Nat)
  /-- The answer to a request: a value or bytes, the line's sequence tag, the scope record that a synchronising access found, and whether
  the owner has copies of the line still to invalidate (R85, R97). -/
  | response (tag : Nat) (value : Word) (seqTag : BitVec 16) (bytes : List Byte) (scopeRec : Option (Nat × Nat)) (more : Bool)
  /-- The answer to a request that consumes a line whose check fails, and has no effect (R369): the line's address. -/
  | failed (tag line : Nat)
  /-- The copies of a line that a write made stale are invalidated (R85). -/
  | completed (tag : Nat)
  | invalidate (pa : Nat)
  | invalidateAck (pa : Nat)
  /-- Elements of a contribution from element `off` on, of `total` (R343: a packet has at most 255 units). -/
  | collective (job grp rank opc : Nat) (ctl : Word) (off total : Nat) (values : List Nat)
  | reduction (inst grp node unitIdx : Nat) (value : Word)
  | management
deriving DecidableEq, Repr, Inhabited

/-- A packet with the device header of R343. -/
structure FyPacket where
  ddev : BitVec 10
  sdev : BitVec 10
  kind : BitVec 4
  tc : BitVec 3
  zero1 : BitVec 5
  len : BitVec 8
  hops : BitVec 6
  zero2 : BitVec 2
  pkey : BitVec 16
  payload : FyPayload
deriving DecidableEq, Repr, Inhabited

/-- The storage elements whose corrected errors are counted (R381). -/
inductive Element where
  | hbmRow (pa : Nat)
  | hbmChannel (stack : Nat) (pages : List Nat)
  | l2Bank (slice : Nat)
  | lsBank (cl bank : Nat)
  | wsGroup (die group : Nat)
  | cimMacro (cl m : Nat)
  | peConfig (cl x y : Nat)
deriving DecidableEq, Repr, Inhabited

/-- The data of an event: which unit, cluster, line, host, port or die acts or is acted on, and what the acting agent
supplies. An event reads the fields its meaning names; the others do not matter. -/
structure EvArgs where
  u : Nat := 0
  id : Nat := 0
  u2 : Nat := 0
  id2 : Nat := 0
  cl : Nat := 0
  line : Nat := 0
  die : Nat := 0
  i : Nat := 0
  q : Nat := 0
  k : Nat := 0
  site : Site := ⟨0, 0, 0, 0⟩
  x2 : Nat := 0
  y2 : Nat := 0
  src : Nat := 0
  dst : Nat := 0
  inst : Nat := 0
  node : Nat := 0
  grp : Nat := 0
  job : Nat := 0
  ph : Nat := 0
  host : Nat := 0
  port : Nat := 0
  pa : Nat := 0
  off : Nat := 0
  v : Word := 0#64
  bytes : List Byte := []
  nums : List Nat := []
  flag : Bool := false
  /-- A firmware event of the core that is not the owner: the hub discards it (R339). -/
  former : Bool := false
  /-- New switch words of PEs of the unit, by key (R301). -/
  words : List (Nat × List (BitVec 16)) := []
  draw : Nat := 0
  inlet : Nat := 0
  width : Nat := 0
  rate : Nat := 0
  pkt : FyPacket := ⟨0, 0, 0, 0, 0, 0, 0, 0, 0, .management⟩
  elem : Element := .hbmRow 0
  eng : EngineId := ⟨.matrix, 0⟩
deriving DecidableEq, Repr, Inhabited

/-- Every row of spec/opcode_table.json: PE operation words, control words, engine commands, and events, whose data
stand in the state (`EvArgs`). -/
inductive Instr where
  /-- ILL (R152). -/
  | ill (w : PeWord)
  /-- ADD (R165). -/
  | add (w : PeWord)
  /-- SUB (R165). -/
  | sub (w : PeWord)
  /-- NEG (R165). -/
  | neg (w : PeWord)
  /-- MUL (R165). -/
  | mul (w : PeWord)
  /-- MULH (R165). -/
  | mulh (w : PeWord)
  /-- MADD (R165). -/
  | madd (w : PeWord)
  /-- DIV (R165). -/
  | div (w : PeWord)
  /-- REM (R165). -/
  | rem (w : PeWord)
  /-- MIN (R165). -/
  | min (w : PeWord)
  /-- MAX (R165). -/
  | max (w : PeWord)
  /-- ABS (R165). -/
  | abs (w : PeWord)
  /-- ABSD (R165). -/
  | absd (w : PeWord)
  /-- ADDS (R165). -/
  | adds (w : PeWord)
  /-- SUBS (R165). -/
  | subs (w : PeWord)
  /-- CMP (R166). -/
  | cmp (w : PeWord)
  /-- AND (R167). -/
  | and (w : PeWord)
  /-- OR (R167). -/
  | or (w : PeWord)
  /-- XOR (R167). -/
  | xor (w : PeWord)
  /-- ANDN (R167). -/
  | andn (w : PeWord)
  /-- NOT (R167). -/
  | not (w : PeWord)
  /-- SHL (R168). -/
  | shl (w : PeWord)
  /-- SHR (R168). -/
  | shr (w : PeWord)
  /-- SRA (R168). -/
  | sra (w : PeWord)
  /-- ROT (R168). -/
  | rot (w : PeWord)
  /-- CLZ (R168). -/
  | clz (w : PeWord)
  /-- CTZ (R168). -/
  | ctz (w : PeWord)
  /-- POPC (R168). -/
  | popc (w : PeWord)
  /-- BEXT (R169). -/
  | bext (w : PeWord)
  /-- BINS (R169). -/
  | bins (w : PeWord)
  /-- SEXT (R170). -/
  | sext (w : PeWord)
  /-- ZEXT (R170). -/
  | zext (w : PeWord)
  /-- LEA (R171). -/
  | lea (w : PeWord)
  /-- BCHK (R172). -/
  | bchk (w : PeWord)
  /-- SEL (R173). -/
  | sel (w : PeWord)
  /-- MOVE (R174). -/
  | move (w : PeWord)
  /-- CONST_FREE (R175). -/
  | constFree (w : PeWord)
  /-- CONST_TRIGGERED (R175). -/
  | constTriggered (w : PeWord)
  /-- INV_OP (R176). -/
  | invOp (w : PeWord)
  /-- STEER (R177). -/
  | steer (w : PeWord)
  /-- MERGE (R178). -/
  | merge (w : PeWord)
  /-- WADV (R179). -/
  | wadv (w : PeWord)
  /-- TAGNEW (R182). -/
  | tagnew (w : PeWord)
  /-- TAGXL (R183). -/
  | tagxl (w : PeWord)
  /-- TAGEND (R184). -/
  | tagend (w : PeWord)
  /-- CNTR_SOURCE (R180). -/
  | cntrSource (w : PeWord)
  /-- CNTR_TRIGGERED (R180). -/
  | cntrTriggered (w : PeWord)
  /-- COLOR (R185). -/
  | color (w : PeWord)
  /-- COMMIT (R186). -/
  | commit (w : PeWord)
  /-- KILL (R186). -/
  | kill (w : PeWord)
  /-- GATE (R189). -/
  | gate (w : PeWord)
  /-- SINK (R190). -/
  | sink (w : PeWord)
  /-- SCALETOK (R193). -/
  | scaletok (w : PeWord)
  /-- WAITF (R191). -/
  | waitf (w : PeWord)
  /-- SETE (R192). -/
  | sete (w : PeWord)
  /-- FADD (R200). -/
  | fadd (w : PeWord)
  /-- FSUB (R200). -/
  | fsub (w : PeWord)
  /-- FMUL (R200). -/
  | fmul (w : PeWord)
  /-- FMA (R200). -/
  | fma (w : PeWord)
  /-- FMS (R200). -/
  | fms (w : PeWord)
  /-- FNMA (R200). -/
  | fnma (w : PeWord)
  /-- FMIN (R202). -/
  | fmin (w : PeWord)
  /-- FMAX (R202). -/
  | fmax (w : PeWord)
  /-- FABS (R201). -/
  | fabs (w : PeWord)
  /-- FNEG (R201). -/
  | fneg (w : PeWord)
  /-- FCMP (R203). -/
  | fcmp (w : PeWord)
  /-- FDIV (R204). -/
  | fdiv (w : PeWord)
  /-- FSQRT (R204). -/
  | fsqrt (w : PeWord)
  /-- FRCPE (R205). -/
  | frcpe (w : PeWord)
  /-- FRSQE (R205). -/
  | frsqe (w : PeWord)
  /-- FCLASS (R206). -/
  | fclass (w : PeWord)
  /-- FCVT (R208). -/
  | fcvt (w : PeWord)
  /-- FCVT_TILE (R209). -/
  | fcvtTile (w : PeWord)
  /-- FTOI (R210). -/
  | ftoi (w : PeWord)
  /-- ITOF (R211). -/
  | itof (w : PeWord)
  /-- FRND (R212). -/
  | frnd (w : PeWord)
  /-- CBD (R214). -/
  | cbd (w : PeWord)
  /-- CBE (R215). -/
  | cbe (w : PeWord)
  /-- LSUM (R216). -/
  | lsum (w : PeWord)
  /-- LDOT (R217). -/
  | ldot (w : PeWord)
  /-- LBC (R219). -/
  | lbc (w : PeWord)
  /-- LSHUF (R220). -/
  | lshuf (w : PeWord)
  /-- LPACK (R221). -/
  | lpack (w : PeWord)
  /-- LUNPK (R222). -/
  | lunpk (w : PeWord)
  /-- LEXT (R219). -/
  | lext (w : PeWord)
  /-- LINS (R219). -/
  | lins (w : PeWord)
  /-- LRED (R218). -/
  | lred (w : PeWord)
  /-- FSCALE (R223). -/
  | fscale (w : PeWord)
  /-- LD (R231). -/
  | ld (w : PeWord)
  /-- ST (R231). -/
  | st (w : PeWord)
  /-- LDLK (R236). -/
  | ldlk (w : PeWord)
  /-- PREF (R238). -/
  | pref (w : PeWord)
  /-- SPAN (R239). -/
  | span (w : PeWord)
  /-- LDSP (R234). -/
  | ldsp (w : PeWord)
  /-- STSP (R234). -/
  | stsp (w : PeWord)
  /-- LDWS (R235). -/
  | ldws (w : PeWord)
  /-- AMO (R243). -/
  | amo (w : PeWord)
  /-- AMX (R244). -/
  | amx (w : PeWord)
  /-- RED (R246). -/
  | red (w : PeWord)
  /-- FENCE (R241). -/
  | fence (w : PeWord)
  /-- FLUSHR (R242). -/
  | flushr (w : PeWord)
  /-- MEMNOP (R240). -/
  | memnop (w : PeWord)
  /-- LDA (R231). -/
  | lda (w : PeWord)
  /-- STL (R231). -/
  | stl (w : PeWord)
  /-- LDXS (R248). -/
  | ldxs (w : PeWord)
  /-- STXS (R250). -/
  | stxs (w : PeWord)
  /-- MMUL (R253). -/
  | mmul (w : PeWord)
  /-- MDRN (R254). -/
  | mdrn (w : PeWord)
  /-- MDRN_ZERO (R254). -/
  | mdrnZero (w : PeWord)
  /-- MDRN_MEM (R254). -/
  | mdrnMem (w : PeWord)
  /-- MBLD (R255). -/
  | mbld (w : PeWord)
  /-- SEND (R258). -/
  | send (w : PeWord)
  /-- TTQ (R258). -/
  | ttq (w : PeWord)
  /-- HOFF (R259). -/
  | hoff (w : PeWord)
  /-- HWAIT (R259). -/
  | hwait (w : PeWord)
  /-- TRAP (R284). -/
  | trap (w : PeWord)
  /-- BRK (R284). -/
  | brk (w : PeWord)
  /-- RDCTR (R285). -/
  | rdctr (w : PeWord)
  /-- RDST (R285). -/
  | rdst (w : PeWord)
  /-- WRST (R285). -/
  | wrst (w : PeWord)
  /-- UNASSIGNED_OPC (R152). -/
  | unassignedOpc (opc : BitVec 7) (w : PeWord)
  /-- SEQ_ADD (R275). -/
  | seqAdd (c : CWord)
  /-- SEQ_SUB (R275). -/
  | seqSub (c : CWord)
  /-- SEQ_AND (R275). -/
  | seqAnd (c : CWord)
  /-- SEQ_OR (R275). -/
  | seqOr (c : CWord)
  /-- SEQ_XOR (R275). -/
  | seqXor (c : CWord)
  /-- SEQ_SHL (R275). -/
  | seqShl (c : CWord)
  /-- SEQ_SHR (R275). -/
  | seqShr (c : CWord)
  /-- SEQ_SRA (R275). -/
  | seqSra (c : CWord)
  /-- SEQ_MUL (R275). -/
  | seqMul (c : CWord)
  /-- SEQ_MULH (R275). -/
  | seqMulh (c : CWord)
  /-- SEQ_DIV (R275). -/
  | seqDiv (c : CWord)
  /-- SEQ_REM (R275). -/
  | seqRem (c : CWord)
  /-- SLT (R275). -/
  | slt (c : CWord)
  /-- SLTU (R275). -/
  | sltu (c : CWord)
  /-- SEQ_MIN (R275). -/
  | seqMin (c : CWord)
  /-- SEQ_MAX (R275). -/
  | seqMax (c : CWord)
  /-- ADDI (R275). -/
  | addi (c : CWord)
  /-- ANDI (R275). -/
  | andi (c : CWord)
  /-- ORI (R275). -/
  | ori (c : CWord)
  /-- XORI (R275). -/
  | xori (c : CWord)
  /-- SHLI (R275). -/
  | shli (c : CWord)
  /-- SHRI (R275). -/
  | shri (c : CWord)
  /-- SRAI (R275). -/
  | srai (c : CWord)
  /-- LDHI (R275). -/
  | ldhi (c : CWord)
  /-- SLTI (R275). -/
  | slti (c : CWord)
  /-- LDG (R276). -/
  | ldg (c : CWord)
  /-- STG (R276). -/
  | stg (c : CWord)
  /-- AMOG (R276). -/
  | amog (c : CWord)
  /-- BEQ (R277). -/
  | beq (c : CWord)
  /-- BNE (R277). -/
  | bne (c : CWord)
  /-- BLT (R277). -/
  | blt (c : CWord)
  /-- BGE (R277). -/
  | bge (c : CWord)
  /-- BLTU (R277). -/
  | bltu (c : CWord)
  /-- BGEU (R277). -/
  | bgeu (c : CWord)
  /-- JAL (R277). -/
  | jal (c : CWord)
  /-- JR (R277). -/
  | jr (c : CWord)
  /-- CFGL (R278). -/
  | cfgl (c : CWord)
  /-- CFGS (R278). -/
  | cfgs (c : CWord)
  /-- QWAIT (R278). -/
  | qwait (c : CWord)
  /-- GATEO (R278). -/
  | gateo (c : CWord)
  /-- GATEC (R278). -/
  | gatec (c : CWord)
  /-- ISET (R278). -/
  | iset (c : CWord)
  /-- INJ (R278). -/
  | inj (c : CWord)
  /-- EXTR (R278). -/
  | extr (c : CWord)
  /-- BANKR (R123). -/
  | bankr (c : CWord)
  /-- RESZ (R124). -/
  | resz (c : CWord)
  /-- HOFFS (R279). -/
  | hoffs (c : CWord)
  /-- HWAITS (R279). -/
  | hwaits (c : CWord)
  /-- POST (R276). -/
  | post (c : CWord)
  /-- CANCL (R279). -/
  | cancl (c : CWord)
  /-- YIELD (R279). -/
  | yield (c : CWord)
  /-- WFE (R279). -/
  | wfe (c : CWord)
  /-- TRAPC (R279). -/
  | trapc (c : CWord)
  /-- ERET (R352). -/
  | eret (c : CWord)
  /-- MFS (R279). -/
  | mfs (c : CWord)
  /-- MTS (R279). -/
  | mts (c : CWord)
  /-- FENCEG (R276). -/
  | fenceg (c : CWord)
  /-- SENDC (R279). -/
  | sendc (c : CWord)
  /-- TTQC (R279). -/
  | ttqc (c : CWord)
  /-- GNUDGE (R276). -/
  | gnudge (c : CWord)
  /-- DONE (R278). -/
  | done (c : CWord)
  /-- NOPC (R279). -/
  | nopc (c : CWord)
  /-- RESERVED_CONTROL_OPCODE (R148). -/
  | reservedControlOpcode (op : BitVec 6) (c : CWord)
  /-- CMD_MBLD (R265). -/
  | cmdMbld (m : Message)
  /-- CMD_MMUL (R265). -/
  | cmdMmul (m : Message)
  /-- MACC (R265). -/
  | macc (m : Message)
  /-- CMD_MDRN (R265). -/
  | cmdMdrn (m : Message)
  /-- MQNT (R265). -/
  | mqnt (m : Message)
  /-- MZER (R265). -/
  | mzer (m : Message)
  /-- MCBT (R71). -/
  | mcbt (m : Message)
  /-- MGRP (R271). -/
  | mgrp (m : Message)
  /-- CPY (R266). -/
  | cpy (m : Message)
  /-- CPY2D (R266). -/
  | cpy2d (m : Message)
  /-- FILL (R266). -/
  | fill (m : Message)
  /-- WSFL (R266). -/
  | wsfl (m : Message)
  /-- CPYXS (R266). -/
  | cpyxs (m : Message)
  /-- GTH (R268). -/
  | gth (m : Message)
  /-- SCT (R268). -/
  | sct (m : Message)
  /-- SCTA (R268). -/
  | scta (m : Message)
  /-- GTHXS (R268). -/
  | gthxs (m : Message)
  /-- CRED (R269). -/
  | cred (m : Message)
  /-- CAGT (R269). -/
  | cagt (m : Message)
  /-- CRSC (R269). -/
  | crsc (m : Message)
  /-- CBCS (R269). -/
  | cbcs (m : Message)
  /-- CBAR (R269). -/
  | cbar (m : Message)
  /-- MODULE_RESET (R3). -/
  | moduleReset
  /-- HOST_LINK_TRAINING (R316). -/
  | hostLinkTraining
  /-- TOKEN_ARRIVAL (R25). -/
  | tokenArrival
  /-- HEAD_TOKEN_TO_MATCHING_STORE (R26). -/
  | headTokenToMatchingStore
  /-- MATCHING_STORE_REFILL (R27). -/
  | matchingStoreRefill
  /-- WAVE_HOLD_RELEASE (R31). -/
  | waveHoldRelease
  /-- TAGNEW_WAIT_END (R34). -/
  | tagnewWaitEnd
  /-- COLOUR_RELEASE (R35). -/
  | colourRelease
  /-- COMMIT_TOKEN_PASS (R186). -/
  | commitTokenPass
  /-- QUIESCENCE_REPORT (R41). -/
  | quiescenceReport
  /-- STORE_BUFFER_ISSUE (R102). -/
  | storeBufferIssue
  /-- GETS (R93). -/
  | gets
  /-- GETM (R93). -/
  | getm
  /-- UPG (R93). -/
  | upg
  /-- PUTM (R94). -/
  | putm
  /-- PUTE (R93). -/
  | pute
  /-- PUTS (R93). -/
  | puts
  /-- INV (R89). -/
  | inv
  /-- FWDS (R89). -/
  | fwds
  /-- FWDM (R89). -/
  | fwdm
  /-- DATA (R93). -/
  | data
  /-- ACK (R93). -/
  | ack
  /-- WACK (R95). -/
  | wack
  /-- HOME_STORE (R95). -/
  | homeStore
  /-- SYNC_ACCESS_AT_HOME (R96). -/
  | syncAccessAtHome
  /-- AMO_MERGE (R114). -/
  | amoMerge
  /-- RED_ROUND_COMPLETE (R116). -/
  | redRoundComplete
  /-- COLLECTIVE_ROUND_COMPLETE (R269). -/
  | collectiveRoundComplete
  /-- HOST_READ_SHARED (R320). -/
  | hostReadShared
  /-- HOST_READ_OWNERSHIP (R320). -/
  | hostReadOwnership
  /-- HOST_WRITEBACK (R320). -/
  | hostWriteback
  /-- HOST_EVICT_CLEAN (R320). -/
  | hostEvictClean
  /-- BICONFLICT (R321). -/
  | biconflict
  /-- FYRON_PACKET_RECEIVE (R343). -/
  | fyronPacketReceive
  /-- LANE_FAILURE (R379). -/
  | laneFailure
  /-- REFRESH_WINDOW_END (R136). -/
  | refreshWindowEnd
  /-- HANDOFF_PUSH (R137). -/
  | handoffPush
  /-- MATRIX_ISSUE (R256). -/
  | matrixIssue
  /-- MATRIX_RETIRE (R252). -/
  | matrixRetire
  /-- ENGINE_REPLY (R262). -/
  | engineReply
  /-- HANDLER_BUSY_TIMEOUT (R261). -/
  | handlerBusyTimeout
  /-- TILE_TASK_START (R303). -/
  | tileTaskStart
  /-- TILE_TASK_BLOCK_DONE (R271). -/
  | tileTaskBlockDone
  /-- UNIT_START (R299). -/
  | unitStart
  /-- UNIT_PLACEMENT (R294). -/
  | unitPlacement
  /-- QUANTUM_EXPIRY (R296). -/
  | quantumExpiry
  /-- PREEMPT_REQUEST (R361). -/
  | preemptRequest
  /-- DRAIN_COMPLETE (R361). -/
  | drainComplete
  /-- DRAIN_OVERRUN (R362). -/
  | drainOverrun
  /-- UNIT_RESTORE (R363). -/
  | unitRestore
  /-- DEADLINE_MISSED (R298). -/
  | deadlineMissed
  /-- WATCHDOG_EXPIRY (R368). -/
  | watchdogExpiry
  /-- MIGRATION (R301). -/
  | migration
  /-- NODE_EVALUATE (R289). -/
  | nodeEvaluate
  /-- LAUNCH_POOL_ADMIT (R292). -/
  | launchPoolAdmit
  /-- PHASE_CURRENT (R293). -/
  | phaseCurrent
  /-- PHASE_RUN (R293). -/
  | phaseRun
  /-- PHASE_END (R293). -/
  | phaseEnd
  /-- KICK_REGISTER_WRITE (R325). -/
  | kickRegisterWrite
  /-- KICK_STATUS_CLEAR (R325). -/
  | kickStatusClear
  /-- KICK (R334). -/
  | kick
  /-- KICK_PATCH_APPLY (R334). -/
  | kickPatchApply
  /-- WAIT_ENTRY (R335). -/
  | waitEntry
  /-- WAIT_REREAD (R335). -/
  | waitReread
  /-- CANCEL_ENTRY (R333). -/
  | cancelEntry
  /-- REGISTER_ENTRY (R336). -/
  | registerEntry
  /-- UNREGISTER_ENTRY (R336). -/
  | unregisterEntry
  /-- PHASE_ENTRY (R336). -/
  | phaseEntry
  /-- QUEUE_BIND (R337). -/
  | queueBind
  /-- GARNET_HEARTBEAT (R339). -/
  | garnetHeartbeat
  /-- COMMIT_POINT_RECORD (R338). -/
  | commitPointRecord
  /-- SPINEL_TAKEOVER (R339). -/
  | spinelTakeover
  /-- HANDOVER_GO (R340). -/
  | handoverGo
  /-- HANDOVER_COMMIT (R340). -/
  | handoverCommit
  /-- HANDOVER_ABORT (R340). -/
  | handoverAbort
  /-- STANDBY_RELOAD (R389). -/
  | standbyReload
  /-- UCMD_RESUME (R354). -/
  | ucmdResume
  /-- UCMD_END_FAULTED (R354). -/
  | ucmdEndFaulted
  /-- UCMD_CANCEL_LAUNCH (R354). -/
  | ucmdCancelLaunch
  /-- UCMD_MOVE_OVFT (R29). -/
  | ucmdMoveOvft
  /-- TLB_SHOOTDOWN (R360). -/
  | tlbShootdown
  /-- TLB_SHOOTDOWN_DONE (R360). -/
  | tlbShootdownDone
  /-- DEBUG_HALT (R367). -/
  | debugHalt
  /-- DEBUG_RESUME (R367). -/
  | debugResume
  /-- DEBUG_STEP (R367). -/
  | debugStep
  /-- POOLCFG_WRITE (R291). -/
  | poolcfgWrite
  /-- PWRCTL_WRITE (R385). -/
  | pwrctlWrite
  /-- ATTESTATION_QUOTE (R388). -/
  | attestationQuote
  /-- ATTESTATION_KEYS (R388). -/
  | attestationKeys
  /-- ATTESTATION_RESULT (R389). -/
  | attestationResult
  /-- REGISTER_WRITE (R2). -/
  | registerWrite
  /-- POWER_ALARM (R385). -/
  | powerAlarm
  /-- START_HOLD (R385). -/
  | startHold
  /-- OVERTEMP_PREEMPT (R385). -/
  | overtempPreempt
  /-- POWER_ALARM_END (R385). -/
  | powerAlarmEnd
  /-- START_HOLD_END (R385). -/
  | startHoldEnd
  /-- OVERTEMP_END (R385). -/
  | overtempEnd
  /-- CORRECTED_ERROR_THRESHOLD (R381). -/
  | correctedErrorThreshold
  /-- CLUSTER_REMAP (R380). -/
  | clusterRemap
  /-- UNIT_STATE_ERROR (R370). -/
  | unitStateError
  /-- INV_REPEAT (R176). -/
  | invRepeat
  /-- CNTR_SOURCE_EMIT (R180). -/
  | cntrSourceEmit
  /-- CNTR_TRIGGERED_EMIT (R180). -/
  | cntrTriggeredEmit
  /-- LDLK_LOAD (R236). -/
  | ldlkLoad
  /-- CONST_FREE_FIRE (R175). -/
  | constFreeFire
  /-- WFE_WAKE (R279). -/
  | wfeWake
  /-- BISNP_RESPONSE (R117). -/
  | bisnpResponse
  /-- HOST_SNOOP (R84). -/
  | hostSnoop
  /-- FIRMWARE_READY (R322). -/
  | firmwareReady
  /-- FYRON_PORT_TRAINING (R384). -/
  | fyronPortTraining
  /-- HOST_PORT_DOWN (R358). -/
  | hostPortDown
  /-- HANDOVER_MEASURED (R340). -/
  | handoverMeasured
  /-- HANDOVER_IMAGE_LOADED (R340). -/
  | handoverImageLoaded
deriving DecidableEq, Repr

end Sys2Proof
end

