-- ==== Sys2Proof/Machine/Fields.lean ====
section
/-! DEFINITION. What the entry of each PE opcode says of the fields of its word: the selectors it reads, the SUB, FMT
and DST codes it accepts and how it uses MOD and X (R142, R144, R145, R160 to R163, R195, R225 and the entries). -/

namespace Sys2Proof.Machine

/-- How an operation uses MOD (R142, R145 step 4, R160, R195): `zero` and `zeroInt` require 0 (else 0x003), `round` is
a rounding mode, `hint` a memory hint, `hintZero` a hint that must be 0 (else 0x002). -/
inductive ModUse where
  | zero | round | hint | hintZero
deriving DecidableEq, Repr

/-- How an operation uses X: `free` an operand immediate for selector 5, `param` X = 1 with a parameter and no
selector 5 (R163, R246, R284), `optParam` an optional parameter and no selector 5 (R225), `none` X = 0. -/
inductive XUse where
  | free | param | optParam | none
deriving DecidableEq, Repr

/-- The entry's demands on the word. `fmtMask` has bit f set when FMT f is accepted; `subMask` and `dstMask` likewise. -/
structure OpRule where
  rdA : Bool := true
  rdB : Bool := false
  rdC : Bool := false
  subMask : Nat := 1
  fmtMask : Nat := 1
  dstMask : Nat := 0b1111
  modUse : ModUse := .zero
  xUse : XUse := .free
  /-- Parameter bits the entry defines. -/
  parMask : Nat := 0xFFFFFFFF
deriving DecidableEq, Repr

/-- FMT masks of R165 (1 to 4), R200 (5 to 8), R208 (5 to 11), R167 (0 to 14) and R231. -/
def fInt : Nat := 0b11110
def fFlt : Nat := 0b111100000
def fFlt11 : Nat := 0b111111100000
def fAll : Nat := 0x7FFF

/-- The rule of a PE opcode (R152). MERGE, CONST, CNTR, SEND, TTQ and SETE have further demands, in `selOk`. -/
def opRule (opc : Nat) (sub : Nat) : OpRule :=
  match opc with
  | 0x01 | 0x02 | 0x04 => { rdB := true, fmtMask := fInt }
  | 0x03 | 0x0B => { fmtMask := fInt }
  | 0x06 => { rdB := true, rdC := true, fmtMask := fInt }
  | 0x05 | 0x07 | 0x08 | 0x09 | 0x0A | 0x0C | 0x0D | 0x0E => { rdB := true, subMask := 0b11, fmtMask := fInt }
  | 0x0F => { rdB := true, subMask := 0xFF, fmtMask := fInt }
  | 0x10 | 0x11 | 0x12 | 0x13 => { rdB := true, fmtMask := fAll }
  | 0x14 => { fmtMask := fAll }
  | 0x15 | 0x16 | 0x17 | 0x18 => { rdB := true, fmtMask := fInt }
  | 0x19 | 0x1A | 0x1B => { fmtMask := fInt }
  | 0x1C => { rdB := true, fmtMask := 0b110 }
  | 0x1D => { rdB := true, rdC := true, fmtMask := 0b110 }
  | 0x1E | 0x1F => { subMask := 0b111, fmtMask := fInt }
  | 0x20 => { rdB := true, subMask := 0xFF, fmtMask := 0x4002 }
  | 0x21 => { rdB := true, rdC := true, fmtMask := 0x401E }
  | 0x22 => { rdB := true, rdC := true, fmtMask := 0x7FFE }
  | 0x23 => { subMask := 0b11, fmtMask := fAll }
  | 0x24 => { rdB := true, fmtMask := fAll }
  | 0x25 => { rdB := true }
  | 0x30 => { rdB := true, subMask := 0b11 }
  | 0x31 => { rdB := true, rdC := sub == 0, subMask := 0b11 }
  | 0x32 | 0x35 | 0x3D => {}
  | 0x33 => { xUse := .param, parMask := 0xF }
  | 0x34 => { rdB := true }
  | 0x36 => { rdB := true, rdC := true, fmtMask := 0x4002 }
  | 0x37 => { xUse := .param, parMask := 0b11 }
  | 0x38 | 0x39 => { dstMask := 0b0001, xUse := .param, parMask := 0b11 }
  | 0x3A => { xUse := .param, parMask := 0xF }
  | 0x3B => { dstMask := 0b1000, xUse := .param, parMask := 0x1F }
  | 0x3C => { rdB := true, dstMask := 0b0001 }
  | 0x3E => { rdB := true, dstMask := 0b0001 }
  | 0x40 | 0x41 | 0x42 | 0x4B => { rdB := true, subMask := 0xFF, fmtMask := fFlt, modUse := .round }
  | 0x43 | 0x44 | 0x45 => { rdB := true, rdC := true, subMask := 0xFF, fmtMask := fFlt, modUse := .round }
  | 0x46 | 0x47 => { rdB := true, subMask := 0b01010101, fmtMask := fFlt }
  | 0x48 | 0x49 => { fmtMask := fFlt11 }
  | 0x4A => { rdB := true, subMask := 0xFF, fmtMask := fFlt }
  | 0x4C => { subMask := 0xFF, fmtMask := fFlt, modUse := .round }
  | 0x4D | 0x4E => { subMask := 0b00010001, fmtMask := fFlt }
  | 0x4F => { fmtMask := fFlt }
  | 0x50 => { subMask := 0xFF, fmtMask := fFlt11, modUse := .round }
  | 0x51 => { subMask := 0b01010101, fmtMask := fInt, modUse := .round }
  | 0x52 => { subMask := 0xFF, fmtMask := fFlt11, modUse := .round }
  | 0x53 => { subMask := 0b00010001, fmtMask := fFlt, modUse := .round }
  | 0x54 => { rdB := true, fmtMask := 0x100 }
  | 0x55 => { rdB := true, rdC := true, fmtMask := 0x1000 }
  | 0x56 => { subMask := 0xFF, fmtMask := 0x1FE, modUse := .round }
  | 0x57 => { rdB := true, rdC := true, subMask := 0xFF, fmtMask := fFlt11, modUse := .round }
  | 0x58 => { rdB := true, fmtMask := 0x3FFE }
  | 0x59 => { rdB := true, rdC := true, fmtMask := 0x1FFE }
  | 0x5A => { rdB := true, fmtMask := 0x0FDC, modUse := .round }
  | 0x5B => { subMask := 0b11, fmtMask := 0x07EE }
  | 0x5C => { rdB := true, fmtMask := 0x1FFE }
  | 0x5D => { rdB := true, rdC := true, fmtMask := 0x1FFE }
  | 0x5E => { subMask := 0b11, fmtMask := 0x1FE }
  | 0x5F => { rdB := true, subMask := 0xFF, fmtMask := fFlt, modUse := .round }
  | 0x60 => { fmtMask := fAll, modUse := .hint, xUse := .optParam, parMask := 0xFFFFFF07 }
  | 0x61 => { rdB := true, fmtMask := fAll, modUse := .hint, xUse := .optParam, parMask := 0xFFFFFF07 }
  | 0x62 => { rdB := true, fmtMask := 0x4002, dstMask := 0b0101, modUse := .hint, xUse := .optParam, parMask := 0xFFFFFF00 }
  | 0x63 => { fmtMask := 0x4000, dstMask := 0b1000, modUse := .hint, xUse := .none }
  | 0x64 => { subMask := 0b11, dstMask := 0b1000, modUse := .hint, xUse := .param, parMask := 0x7FF }
  | 0x65 => { fmtMask := fAll, xUse := .optParam, parMask := 0xFFFFFF07 }
  | 0x66 => { rdB := true, fmtMask := fAll, dstMask := 0b1000, xUse := .optParam, parMask := 0xFFFFFF07 }
  | 0x67 => { fmtMask := fAll, xUse := .optParam, parMask := 0xFFFFFF07 }
  | 0x68 => { rdB := true, subMask := 0xFF, fmtMask := 0b110, modUse := .hintZero, xUse := .none }
  | 0x69 => { rdB := true, rdC := (sub == 1 || sub == 3), subMask := 0xF, fmtMask := 0b10, modUse := .hintZero, xUse := .none }
  | 0x6A => { fmtMask := 0b1100110, dstMask := 0b1000, modUse := .hintZero, xUse := .param, parMask := 0xFFFF }
  | 0x6B => { subMask := 0xF, fmtMask := 0x4000, dstMask := 0b1001, modUse := .hintZero, xUse := .optParam, parMask := 0 }
  | 0x6C => { rdB := true, subMask := 0b111, fmtMask := 0x4000, dstMask := 0b1001, modUse := .hintZero, xUse := .optParam, parMask := 0 }
  | 0x6D => { dstMask := 0b1001, modUse := .hint, xUse := .none }
  | 0x6E => { fmtMask := fAll, modUse := .hintZero, xUse := .optParam, parMask := 0xFFFFFF07 }
  | 0x6F => { rdB := true, fmtMask := fAll, modUse := .hintZero, xUse := .optParam, parMask := 0xFFFFFF07 }
  | 0x74 | 0x75 => { rdB := true, fmtMask := 0x4000, dstMask := 0b1000, xUse := .none }
  | 0x76 | 0x77 => { fmtMask := 0xFFFF }
  | 0x78 => { dstMask := 0b1000, xUse := .param, parMask := 0x1F }
  | 0x79 => { dstMask := 0b1000, xUse := .none }
  | 0x7A => { subMask := 0b11 }
  | 0x7B => { xUse := .param, parMask := 0xFF }
  | 0x7C => { dstMask := 0b1001, xUse := .param, parMask := 0xFF }
  | _ => {}

/-- A selector that an entry reads, when X is a parameter, is not 5 (R163, R225). -/
def notFive (r : OpRule) (sel : BitVec 3) : Bool :=
  match r.xUse with
  | .free => true
  | _ => sel != 5#3

/-- Demands of single entries on their fields (R175, R180, R192, R217, R239, R258). An integer LPACK rounds nothing, so its MOD is 0
(R195, R221). -/
def selOk (opc : Nat) (w : PeWord) : Bool :=
  match opc with
  | 0x24 => (w.sa == 5#3 || w.sa == 6#3) && (w.sb == 6#3 || w.sb.ult 4#3)
  | 0x36 =>
    if w.sa == 6#3 && w.sb == 6#3 && w.sc == 6#3 then w.x && decide (w.imm.toNat &&& 0xFFFFFF0C = 0)
    else w.sa.ult 4#3
  | 0x3E => w.sb == 5#3 || w.sb == 6#3
  | 0x74 | 0x75 => w.sa.ult 4#3 && (w.sb == 6#3 || w.sb.ult 4#3)
  | 0x37 => w.imm.toNat % 4 != 0
  | 0x23 => w.sub == 1#3 || w.fmt == 0#4
  | 0x56 => w.fmt == 0#4 || !(w.fmt.ult 5#4) || (w.sub == 0#3 && w.mod == 0#3)
  | 0x5A => !(w.fmt.ult 5#4) || w.mod == 0#3
  | 0x64 =>
    if w.sub == 0#3 then decide (1 ≤ w.imm.toNat ∧ w.imm.toNat ≤ 32) else decide (1 ≤ w.imm.toNat ∧ w.imm.toNat ≤ 1024)
  | 0x60 | 0x6E | 0x65 | 0x67 => !(w.x && w.imm.getLsbD 2) || w.fmt == 1#4
  | 0x61 | 0x6F | 0x66 => !(w.x && w.imm.getLsbD 2)
  | _ => true

/-- Step 2 of R145 for format P: unread selectors hold 6, SUB and DST are assigned, MOD is 0 where it is not used,
the parameter has no undefined bit. A failure is cause 0x003. -/
def fieldsOk (opc : Nat) (w : PeWord) : Bool :=
  let r := opRule opc w.sub.toNat
  (if r.rdA then notFive r w.sa else w.sa == 6#3) &&
  (if r.rdB then notFive r w.sb else w.sb == 6#3) &&
  (if r.rdC then notFive r w.sc else w.sc == 6#3) &&
  r.subMask.testBit w.sub.toNat && r.dstMask.testBit w.dst.toNat &&
  (match r.modUse with
   | .zero => w.mod == 0#3
   | _ => true) &&
  (match r.xUse with
   | .free => true
   | .param => w.x && decide (w.imm.toNat &&& (0xFFFFFFFF ^^^ r.parMask) = 0)
   | .optParam => !w.x || decide (w.imm.toNat &&& (0xFFFFFFFF ^^^ r.parMask) = 0)
   | .none => !w.x) &&
  selOk opc w

/-- The tile-form FCVT (R209): SUB [23:22] is 0. -/
def fcvtTileFieldsOk (w : PeWord) : Bool :=
  w.sb == 6#3 && w.sc == 6#3 && (w.sub == 0#3 || w.sub == 4#3)

/-- TD, TA, TB and AE of format T (R146), read from the raw fields. -/
def tdOf (w : PeWord) : Nat := (w.sa.toNat * 2 + w.sb.toNat / 4) % 16
def taOf (w : PeWord) : Nat := (w.sb.toNat % 4) * 4 + w.sc.toNat / 2
def tbOf (w : PeWord) : Nat := (w.sc.toNat % 2) * 128 + w.ei.toNat * 16 + w.dst.toNat * 4 + w.mod.toNat / 2
def aeOf (w : PeWord) : Bool := w.mod.getLsbD 0

/-- Step 2 of R145 for format T (R146, R248, R250, R252 to R255): unused fields are 0, SUB is assigned, and the
matrix word has no field that the operation does not use. A failure is cause 0x003. -/
def tFieldsOk (opc : Nat) (w : PeWord) : Bool :=
  let par := if w.x then w.imm.toNat else 0
  match opc with
  | 0x70 => w.sub.ult 5#3 && taOf w == 0 && tbOf w == 0 && !aeOf w
  | 0x71 => w.sub == 0#3 && tdOf w == 0 && tbOf w == 0
  | 0x72 => w.sub.ult 3#3 && decide (tdOf w < 8) && decide (par &&& 0xFFFFFF00 = 0)
  | 0x73 =>
    decide (taOf w < 8) && tbOf w == 0 && !aeOf w &&
    (match w.sub.toNat with
     | 0 => decide (par &&& 0xFFFFC000 = 0)
     | 1 => tdOf w == 0 && decide (par &&& 0xFFFFC000 = 0)
     | 2 => decide (par &&& 0xFFFFDF00 = 0)
     | 3 => tdOf w == 0 && decide (par &&& 0xFFFFFF00 = 0)
     | _ => false)
  | 0x7D => w.sub == 0#3 && tdOf w == 0 && taOf w == 0 && !aeOf w && decide (par &&& 0xFFFFFF00 = 0)
  | _ => false

/-- IMM16 of formats CI and CB (R147). -/
def CWord.imm16 (c : CWord) : BitVec 16 := c.gb ++ c.lo
/-- OFF21 of format CJ (R147). -/
def CWord.off21 (c : CWord) : BitVec 21 := c.ga ++ c.gb ++ c.lo

/-- The fields that the table of R148 sets to 0, its ranges of IMM16 and its FN values, by OP. A failure is cause 0x0E1. A field that the
table neither uses nor sets to 0 (GD of POST, FENCEG and GNUDGE; GD and GA of GATEO, GATEC, RESZ, HOFFS, HWAITS, CANCL and TRAPC; GA of
EXTR and MFS; GD and IMM16 of SENDC and TTQC) is not read (DEDUCED, log 50). -/
def ctlFieldsOk (op : Nat) (c : CWord) : Bool :=
  let i := (CWord.imm16 c).toNat
  let noD := c.gd == 0#5
  let noA := c.ga == 0#5
  let noB := c.gb == 0#5
  match op with
  | 0x01 | 0x0D => decide (c.lo.toNat < 16)
  | 0x06 | 0x07 | 0x08 => decide (i < 64)
  | 0x18 => noD
  | 0x19 | 0x1A | 0x26 | 0x27 | 0x29 | 0x30 | 0x31 => noD && noA && noB && c.lo == 0#11
  | 0x1D => decide (c.lo.toNat < 4)
  | 0x1E => noD && decide (c.lo.toNat < 32) && c.lo.toNat % 16 != 15
  | 0x1F | 0x22 | 0x23 => decide (i < 16)
  | 0x20 => noD && decide (i = 0)
  | 0x21 => decide (i ≤ 32)
  | 0x25 => decide (i ≤ 4)
  | 0x28 => decide (i < 32)
  | 0x2A => decide (i < 256)
  | 0x2B => noD && decide (i < 256)
  | 0x2C => decide (i < 4)
  | 0x2F => c.lo == 0#11
  | _ => true

end Sys2Proof.Machine
end

