-- ==== Sys2Proof/Config.lean ====
section
/-! DEFINITION. What an implementation fixes, and the free values: opaque constants with no body, so that
nothing can be proved of their value. Each is named in the assumption log. -/

namespace Sys2Proof

/-- The silicon stepping, DEVID.STEP (R322): fixed at manufacture. Free (log 4). -/
opaque Config.stepping : BitVec 8
/-- The identity capability's words 0 to 3 (R386): serial number, module id, power-on hours, module resets.
Values of the device that module reset does not change. Free (log 4). -/
opaque Config.identity : Nat → Word
/-- Hub clocks of power-on time from manufacture to the start of the run (R386). Free (log 4). -/
opaque Config.powerOn : Nat
/-- Module energy in millijoules at a hub clock (R386): the manual gives no energy of an operation. Free (log 25). -/
opaque Config.energy : (hub : Word) → Word
/-- The matching store's set index, a hash of PE, context, queue and tag private to the hardware (R26). Free (log 4). -/
opaque Config.matchSet : (pe ctx queue lvl itag wave : Nat) → BitVec 10
/-- The digests of a firmware version (R388): bytes 0 to 63 of its SHA-512 measurement, 64 to 127 of its SHA3-512
measurement. Free (log 4). -/
opaque Config.measurement : (version : Word) → Nat → Byte
/-- The public key block of Topaz (R388). Free (log 4). -/
opaque Config.publicKey : Nat → Byte
/-- A byte the manual leaves open: the bytes of an overflow-table entry (R28) and of a signature (R388). The argument is the free-value counter of the state. Free (log 4). -/
opaque Config.freeByte : Nat → Byte
/-- A number the manual leaves open: the write events of a copy or gather command in a line, within its bounds (R94).
The argument is the free-value counter of the state. Free (log 4). -/
opaque Config.freeNat : Nat → Nat

/-- The number from which Garnet takes the next stop handle (R353), which the manual leaves open. The argument is a counter of the
state. Free (log 4). -/
opaque Config.freeHandle : Nat → Nat

/-- What a byte of memory that nothing has written reads as: 0. DESIGN CHOICE, unsafe (log 1). -/
def Config.unlistedByte : Byte := 0#8

/-- Size of device memory in bytes (R12). -/
def Config.memSize : Nat := 0x9000000000

end Sys2Proof
end

