-- ==== Sys2Proof/Machine/State.lean ====
section
/-! DEFINITION. The state of the CLT-8320 as plain data, and `State.reset`. Names follow the manual; the fields that
are the model's own (agenda, focus, curUnit, curEng, freeCtr, hostRx, msix) are marked so. -/

namespace Sys2Proof.Machine

/-- Bytes by address, in one canonical form: addresses strictly rising, no entry equal to `Config.unlistedByte`. -/
abbrev Memory := List Host.Cell

/-- The canonical form of a memory. -/
def Memory.canon : Memory → Bool
  | [] => true
  | (a, b) :: rest =>
    (b != Config.unlistedByte) && Memory.canon rest &&
      (match rest with
       | [] => true
       | (a', _) :: _ => decide (a < a'))

/-- `m.wf` says that `m` is in canonical form. -/
abbrev Memory.wf (m : Memory) : Prop := Memory.canon m = true

/-- A token (R20). -/
structure Token where
  payload : Word := 0#64
  fmt : BitVec 4 := 0#4
  ctx : BitVec 2 := 0#2
  lvl : BitVec 3 := 0#3
  itag : BitVec 8 := 0#8
  wave : BitVec 10 := 0#10
  col : BitVec 2 := 0#2
  last : Bool := false
  kind : BitVec 2 := 0#2
deriving DecidableEq, Repr, Inhabited

/-- A fault as it is raised: what R346 and R350 record of it. -/
structure Raised where
  cause : Nat := 0
  ctl : Bool := false
  addr : Word := 0#64
  tag : Token := {}
  d0 : Word := 0#64
  d1 : Word := 0#64
  /-- Where ERET returns for a control word (R349, R350). -/
  tepc : Word := 0#64
  /-- The store-buffer entry whose issue failed, or the matrix operation; 0 if none. -/
  entry : Nat := 0
  mat : Nat := 0
deriving DecidableEq, Repr, Inhabited

/-- An element register of a PE context (R19, R162). -/
structure EReg where
  full : Bool := false
  tag : BitVec 4 := 0#4
  val : Word := 0#64
deriving DecidableEq, Repr, Inhabited

/-- What a node holds between firings (R194, R365). -/
inductive NodeState where
  | idle
  /-- A busy INV: the value token, the next k and n (R176). -/
  | inv (t : Token) (k n : Nat)
  /-- A source-form CNTR: latched base, step and count, next k (R180). -/
  | cntrSrc (base step n : Word) (k : Nat)
  /-- A busy triggered CNTR (R180). -/
  | cntrTrig (t : Token) (base step : Word) (k n : Nat)
  /-- A busy LDLK, whose store-buffer entry is `id` (R236). -/
  | ldlk (id : Nat)
  /-- A result held by WADV under R31. -/
  | wadvHold (t : Token)
  /-- A token held by a closed GATE (R189). -/
  | gateHold (t : Token)
  /-- A TAGNEW that waits for a tag (R34); the exit count it will record. -/
  | tagnewWait (t : Token) (exits : Nat)
  /-- A COLOR that waits for its colour (R35). -/
  | colorWait (t : Token) (k : Nat)
deriving DecidableEq, Repr, Inhabited

/-- One result of a node on its way to the out port; results leave in firing order (R199). -/
inductive OutSlot where
  | ready (t : Token)
  /-- The result of a memory, matrix or FENCE operation not yet retired. -/
  | pending (id : Nat)
deriving DecidableEq, Repr, Inhabited

/-- One context of one PE of a unit. -/
structure PeCtx where
  hasOp : Bool := false
  op : Word32 := 0#32
  seq : Word32 := 0#32
  imm : Word32 := 0#32
  sw : List (BitVec 16) := []
  ereg : List EReg := []
  q : List (List Token) := []
  node : NodeState := .idle
  out : List OutSlot := []
  /-- A class T fault holds the firing until ERET, a resume or a cancel (R51). -/
  held : Option Raised := none
  halted : Bool := false
  stepOnce : Bool := false
  /-- The halt that a pre-emption lifted, which restore reapplies (R367). -/
  haltSaved : Bool := false
  constFired : Bool := false
  /-- The position the image gives the node: (x, y) (R363). -/
  home : Nat × Nat := (0, 0)
  /-- A stub forwards its tokens to this place of the cluster (R301). -/
  stub : Option (Nat × Nat) := none
deriving DecidableEq, Repr, Inhabited

/-- An entry of the matching store or of the overflow table (R26, R28). -/
structure MsEntry where
  rank : Nat
  x : Nat
  y : Nat
  q : Nat
  tok : Token
deriving DecidableEq, Repr, Inhabited

/-- One allocated tag: level, number, parent, exit count and allocation order (R33, R181). -/
structure TagEntry where
  lvl : Nat
  itag : Nat
  plvl : Nat := 0
  pitag : Nat := 0
  pwave : BitVec 10 := 0#10
  exits : Nat := 0
  order : Nat := 0
deriving DecidableEq, Repr, Inhabited

/-- A tile in a tile slot or a CIM slot: tile tag and image bytes as R65 lays them out. -/
structure Tile where
  tag : BitVec 4 := 0#4
  img : List Byte := []
deriving DecidableEq, Repr, Inhabited

/-- What a store-buffer entry asks of memory (09). -/
inductive MemOp where
  | ld | st | lda | stl | ldsp | stsp | ldws | ldlk | pref | span | amo | amx | red | fence | flushr | memnop
  | ldxs | stxs | mdrnMem | mbld
deriving DecidableEq, Repr, Inhabited

/-- How far a store-buffer entry has come (R102, R227). -/
inductive SbPhase where
  /-- Waits for its wave and its predecessor. -/
  | waiting
  /-- Failed at issue; waits for ERET, a resume or a cancel. -/
  | faulted
  /-- Issued and held: a coloured write (R37). -/
  | heldWrite
  /-- Issued; its access has not performed. -/
  | issued
  /-- Issued; waits for a Data, Ack or WAck of the home slice. -/
  | asked
  /-- Performed; waits for its write ack. -/
  | performed
  /-- Retired; kept until its wave ends, so that successors find it. -/
  | retired
deriving DecidableEq, Repr, Inhabited

/-- An entry of the store buffer (R101, R102, R365). `w.seq` holds its sequence word. -/
structure SbEntry where
  id : Nat
  site : Site
  op : MemOp
  opc : BitVec 7 := 0#7
  w : PeWord
  tok : Token
  a : Word := 0#64
  b : Word := 0#64
  c : Word := 0#64
  /-- Tags of A, B and C, four bits each (R365). -/
  tags : Nat := 0
  phase : SbPhase := .waiting
  /-- Issue order within the unit, 0 before issue (R103). -/
  ord : Nat := 0
  /-- A store that has not performed and whose value a load of its unit has taken (R103, R105). -/
  read : Bool := false
  /-- Virtual effective address and size in bytes. -/
  ea : Nat := 0
  n : Nat := 8
  /-- Extended physical address once translated (see `Memory`), memory type and page scope. -/
  xa : Nat := 0
  mt : Nat := 0
  scope : Nat := 2
  /-- The value a load has fixed, or the old value of an atomic. -/
  value : Word := 0#64
  seqTag : BitVec 16 := 0#16
  /-- The success bit of faddb. -/
  ok : Bool := false
  /-- The fault held by a coloured load (R37). -/
  heldFault : Option Raised := none
  /-- LDLK: tokens emitted so far. -/
  k : Nat := 0
  /-- LDWS: it has waited for a refresh window (trace counter 3, R366). -/
  waited : Bool := false
  /-- 0x06C was raised under SCOPESTOP: the result is held (R97). -/
  scopeStop : Bool := false
  /-- The span extent that a SPAN hint decided: words, or 2048 + lines; 0 for none (R239). -/
  ext : Nat := 0
  /-- The tile that STXS captured (R250), or the tile that a slot held before LDXS emptied it (R130, R248). -/
  tile : Tile := {}
  /-- A KILL decision has made it a no-operation (R39). -/
  killed : Bool := false
  /-- SWZ, the enables of UCTL and USTAT.RM at the firing (R198, R310). -/
  swz : BitVec 16 := 0#16
  uctl : BitVec 12 := 0#12
  rm : BitVec 3 := 0#3
  /-- Physical ranges of a FLUSHR (R242). -/
  ranges : List (Nat × Nat) := []
deriving DecidableEq, Repr, Inhabited

inductive UnitStatus where
  /-- A fresh unit whose place was given up again before it started (R288, R297). -/
  | ready
  /-- Placed on a region and not yet started (`none`) or not yet restored (`some`, with its stop handle if it has one). -/
  | placed (resume : Option (Option Nat))
  | running
  /-- Draining since a hub clock; `stop` is the handle of a unit that was stopped (R354). -/
  | draining (since : Nat) (stop : Option Nat)
  | stopped (handle : Nat)
  | saved (stop : Option Nat)
  | ended (status : Nat)
deriving DecidableEq, Repr, Inhabited

/-- What the sequencer waits for. -/
inductive SeqWait where
  | none
  /-- WFE: the line named, if any, its sequence tag then, and the die cycle at which it began. -/
  | wfe (line : Option Nat) (tag : Nat) (since : Nat)
  /-- FENCEG: the entries issued before this place must complete (R276). -/
  | fence (ord : Nat)
deriving DecidableEq, Repr, Inhabited

/-- IEEE and other sticky flags of USTAT (R64, R281). -/
structure Sticky where
  nx : Bool := false
  uf : Bool := false
  ofl : Bool := false
  dz : Bool := false
  nv : Bool := false
  tblinex : Bool := false
  narrow : Bool := false
deriving DecidableEq, Repr, Inhabited

/-- The configuration image a context holds or stages: address, CFGID, RSHAPE, TILE and the PEs described, by
region-relative key `rank * 256 + y * 16 + x`. -/
structure Image where
  addr : Word := 0#64
  /-- The index of the span predictor, which is private to the hardware (R88): no rule of the model reads it. -/
  cfgid : Nat := 0
  tile : Bool := false
  pes : List (Nat × PeCtx) := []
deriving DecidableEq, Repr, Inhabited

/-- A message in an engine's inbox, with the state of its sender that the command needs (R261, R262, R310). -/
structure InMsg where
  opc : BitVec 8 := 0#8
  msg : Message
  unit : Nat := 0
  job : Nat := 0
  cl : Nat := 0
  ctx : Nat := 0
  tag : Token := {}
  swz : BitVec 16 := 0#16
  /-- Die cycle at which BUSY was first found (R261). -/
  busySince : Option Nat := none
  popped : Bool := false
  /-- Address of the message (R346). -/
  addr : Nat := 0
  /-- The number under which its accesses to other devices are tracked (R82, R112). -/
  id : Nat := 0
  /-- Its checks of R261 up to the claim have passed; what is left are the waits of HPOP and of the operands. -/
  checked : Bool := false
  /-- The bytes or elements of a copy or gather command that have been performed (R362). -/
  at_ : Nat := 0
  /-- USTAT.RM of the sender at the SEND or SENDC (R61; log 48). -/
  rm : BitVec 3 := 0#3
deriving DecidableEq, Repr, Inhabited

/-- A part of a copy or gather command that is still to be performed (R263, R264, R266 to R268): `n` bytes, or a tile image, from
address `a` of space `ss` to address `d` of space `ds`; what has been read of it so far, and the tile format of an image that was read. -/
structure EngAcc where
  ss : Nat := 0
  a : Nat := 0
  ds : Nat := 0
  d : Nat := 0
  n : Nat := 0
  /-- The element is added at its destination (SCTA). -/
  add : Bool := false
  /-- A tile image (CPYXS, GTHXS), and whether it is transposed. -/
  tile : Bool := false
  tr : Bool := false
  fmt : Nat := 0
  got : List Byte := []
deriving DecidableEq, Repr, Inhabited

/-- A command accepted by an engine whose reply has not been sent (R262): the message, the engine, a cause for a
NACK, the flags it raised, and for a collective command whether its round has completed. -/
structure Run where
  m : InMsg
  eng : EngineId
  flags : Nat := 0
  /-- For a collective command, whether its round has completed. -/
  done : Bool := true
  /-- What a copy or gather command still has to do. -/
  plan : List EngAcc := []
  /-- The widest scope of the pages that it has written (R110). -/
  scope : Nat := 0
  /-- Its adds that other devices perform: the tag of the request, the virtual address and the page's scope (R97). -/
  asks : List (Nat × Nat × Nat) := []
deriving DecidableEq, Repr, Inhabited

/-- A CIM slot with the source it was loaded from (R134). -/
structure CimSlot where
  tile : Tile := {}
  src : Word := 0#64
  fmt : Nat := 0
deriving DecidableEq, Repr, Inhabited

/-- A matrix operation in queue M (R252, R256): fired on a PE (`msg = none`, with its word), or an engine command. -/
structure MatOp where
  id : Nat := 0
  opc : BitVec 8 := 0#8
  w : PeWord
  msg : Option InMsg := none
  unit : Nat := 0
  site : Site
  tok : Token := {}
  /-- The address of MBLD and MDRN.mem, or w0 of a command; w1; and whether the address is a W-space address. -/
  a : Word := 0#64
  b : Word := 0#64
  wspace : Bool := false
  /-- The store-buffer entry of a memory-class operation. -/
  sbId : Nat := 0
  issued : Bool := false
  /-- A fault found at issue keeps the operation from issuing until it is retried (R253). -/
  held : Bool := false
  /-- HPOP has been applied; the flags that the operation raised. -/
  popped : Bool := false
  flags : Nat := 0
  /-- USTAT.RM and the enables of UCTL at the firing (R61, R198). -/
  rm : BitVec 3 := 0#3
  uctl : BitVec 12 := 0#12
  /-- The tiles that it writes when it completes: tile slots, and a CIM slot. From its issue on these slots are empty (R130). -/
  fills : List (Nat × Tile) := []
  cimFill : Option (Nat × CimSlot) := none
  /-- The scope of the page that it has written (R110). -/
  scope : Nat := 0
deriving DecidableEq, Repr, Inhabited

/-- A codebook table (R71): its 16 bfloat16 entries, CBID and source. -/
structure Codebook where
  entries : List (BitVec 16) := []
  cbid : BitVec 16 := 0#16
  src : Word := 0#64
deriving DecidableEq, Repr, Inhabited

/-- An accumulator (R72): the lanes that are not zero by index 32i + j, ES, RV, CV and KD. -/
structure Acc where
  lanes : List Int := []
  es : Option Int := none
  rv : List (BitVec 2) := []
  cv : List (BitVec 2) := []
  kd : Nat := 0
deriving DecidableEq, Repr, Inhabited

/-- The engine state of one cluster that a pre-emption saves for the holder of the claim (R134, R364, R365). -/
structure EngSave where
  slots : List (Nat × Tile) := []
  acc : List (Nat × Acc) := []
  cim : List (Nat × CimSlot) := []
  tables : List (Nat × Codebook) := []
  handoff : List ((Nat × Nat) × Nat) := []
deriving DecidableEq, Repr, Inhabited

/-- A token on its way (R25, R286). `src` is the PE it left (or the site of an engine), `pos` the switch at which it stands: `inp` 0 the out
port there, 1 to 4 the input N, E, S, W on lane `lane`. A packet has `q = some n`: it is on the network-on-chip, on its way to queue n of the
PE at `pos` (R151). -/
structure Flight where
  src : Site
  pos : Site
  inp : Nat := 0
  lane : Nat := 0
  q : Option Nat := none
  tok : Token
deriving DecidableEq, Repr, Inhabited

/-- What has been used in the present arithmetic clock of a die, and cannot be used again in it (R176, R180, R286, R302). -/
inductive ClockUse where
  /-- PE(x,y) of cluster cl has had its turn to fire. -/
  | pe (cl x y : Nat)
  /-- A switch has moved a token onto a lane of its link `out`. -/
  | lane (cl x y out lane : Nat)
  /-- A token has entered a local queue. -/
  | queue (cl x y q : Nat)
  /-- A busy node has emitted. -/
  | node (site : Site)
deriving DecidableEq, Repr, Inhabited

/-- A route of a switch in one context, by its input, for the turns that contexts take at a lane (R286). -/
structure LaneRoute where
  x : Nat
  y : Nat
  ctx : Nat
  inp : Nat
  lane : Nat
deriving DecidableEq, Repr, Inhabited

/-- A unit: one region context and its control stream (R18). -/
structure UnitSt where
  id : Nat := 0
  job : Nat := 0
  inst : Nat := 0
  launch : Nat := 0
  /-- The node of the instance that launched it. -/
  node : Nat := 0
  queue : Nat := 0
  unitid : BitVec 12 := 0#12
  kseq : Nat := 0
  die : Nat := 0
  lead : Nat := 0
  rshape : Nat := 0
  ctx : Nat := 0
  started : Nat := 0
  status : UnitStatus := .running
  handler : Bool := false
  claim : Bool := false
  ccnt : Word := 0#64
  g : List Word := []
  tvec : Word := 0#64
  tepc : Word := 0#64
  tcause : BitVec 17 := 0#17
  taddr : Word := 0#64
  ttag : BitVec 25 := 0#25
  rm : BitVec 3 := 0#3
  flags : Sticky := {}
  /-- The flags raised in the present arithmetic clock: they survive a WRST of USTAT in it (R198). -/
  flagsNow : Sticky := {}
  /-- Colour k: 0 open, 1 committing, 2 killing (R281). -/
  col1 : Nat := 0
  col2 : Nat := 0
  col3 : Nat := 0
  uctl : BitVec 12 := 0#12
  ixb : List Word := []
  ixs : List Word := []
  ixn : List Word := []
  lvl : List (BitVec 9) := []
  ovft : Word := 0#64
  swz : BitVec 16 := 0#16
  fired : Word := 0#64
  gates : BitVec 16 := 0xFFFF#16
  sinks : List (Nat × List Token) := []
  active : Option Image := none
  staged : Option Image := none
  tags : List TagEntry := []
  tagOrder : Nat := 1
  /-- Tags (level, number) freed, and colours decided, in the present arithmetic clock (R184, R187). -/
  freed : List (Nat × Nat) := []
  decided : List Nat := []
  /-- Open wave of an invocation, by `(lvl, itag)`; absent is wave 0 (R102). -/
  openWave : List ((Nat × Nat) × BitVec 10) := []
  /-- Pending SPAN hints by level, ITAG and wave, each until the next access of its wave has issued (R239). -/
  spanHints : List ((Nat × Nat × Nat) × Nat) := []
  pes : List (Nat × PeCtx) := []
  ms : List MsEntry := []
  ovf : List MsEntry := []
  sb : List SbEntry := []
  nextId : Nat := 1
  /-- The class T fault the handler was entered for, and those that wait (R351). -/
  curFault : Option (Option Nat × Raised) := none
  pend : List (Option Nat × Raised) := []
  /-- The quiescence tree has reported the context quiescent (R41). -/
  quiet : Bool := false
  wait : SeqWait := .none
  /-- The word whose taken branch led to CCNT, until CCNT has been fetched (R349). -/
  cameFrom : Option Word := none
  /-- The line last read by LDG (R279). -/
  ldgLine : Option Nat := none
  /-- Control words, by address, whose access waits for another device, with the tag of the request (R82). -/
  ctlAsked : List (Word × Nat) := []
  /-- Control words, by address, whose access has performed and raised 0x06C under SCOPESTOP, with the value held (R97). -/
  ctlHeld : List (Word × Word) := []
  replies : List (Token × Word32) := []
  watchdog : Nat := 0
  quantum : Nat := 0
  /-- Counter of issues, for `SbEntry.ord`. -/
  ordCtr : Nat := 1
  saveArea : Nat := 0
  /-- A drain that overran (R362); the engine state, messages, commands and matrix operations that the save took, by rank. -/
  overrun : Bool := false
  savedEng : List (Nat × EngSave) := []
  savedMsgs : List (EngineKind × InMsg) := []
  savedRuns : List Run := []
  savedMq : List MatOp := []
  /-- Tokens that stood on links when the unit was saved (R50). -/
  savedFlights : List Flight := []
  /-- Ranks of clusters whose whole-cluster halt a pre-emption lifted (R367). -/
  haltRanks : List Nat := []
  /-- A resume of the unit that has been asked for while no unit may resume (R354, R385). -/
  resumeDue : Bool := false
deriving DecidableEq, Repr, Inhabited

inductive Mesi where
  | I | S | E | M
deriving DecidableEq, Repr, Inhabited

/-- An L1 span (R86): 4 KiB region PA[51:12], first and last word, state, base frame, the words. -/
structure Span where
  region : Nat
  s : Nat
  e : Nat
  mesi : Mesi
  base : Nat := 0
  words : List Word32
  /-- An access with hint 3 has met the span: it leaves last (R88). -/
  keep : Bool := false
deriving DecidableEq, Repr, Inhabited

/-- A host's state of a half-line (R117). -/
inductive HState where
  | Hi | Hs | Hx
deriving DecidableEq, Repr, Inhabited

/-- A directory entry (R93): copies in clusters, sequence tag, scope record (scope, domain), the hosts' states of
half 0 and half 1, copies held by other devices (R85), the
outstanding snoops: (host, half) for data and (host, 2 + half) to invalidate, or (1000 + device, 0) (R117, R85), and the STXS
(unit, entry) that holds the line until its whole image is written (R99). -/
structure DirEntry where
  mesi : Mesi := .I
  sharers : List Nat := []
  tag : BitVec 16 := 0#16
  scopeRec : Option (Nat × Nat) := none
  a0 : HState := .Hi
  a1 : HState := .Hi
  b0 : HState := .Hi
  b1 : HState := .Hi
  remote : List Nat := []
  snoops : List (Nat × Nat) := []
  lock : Option (Nat × Nat) := none
deriving DecidableEq, Repr, Inhabited

/-- The messages between clusters and homes that the table names (R93, R95). -/
inductive MsgKind where
  | getS | getM | upg | putM | putE | putS | inv | fwdS | fwdM | data | ack | wack | homeStore | sync
deriving DecidableEq, Repr, Inhabited

/-- A message in flight: its kind, the line, the cluster that sent or receives it, and where one entry asked for it
the unit and the entry. `withData` marks GetM with data; `words` are the (word index, value) pairs it carries; `more` are the (unit,
entry) pairs of further AMOs merged with its own (R114). -/
structure CohMsg where
  kind : MsgKind
  line : Nat
  cl : Nat
  unit : Nat := 0
  id : Nat := 0
  mesi : Mesi := .S
  withData : Bool := true
  words : List (Nat × Word32) := []
  more : List (Nat × Nat) := []
  /-- Of a request for a span: the words accessed, and the words of its extent, in the line's region, and whether hint 3 asks for it (R88). -/
  w0 : Nat := 0
  w1 : Nat := 0
  lo : Nat := 0
  hi : Nat := 0
  keep : Bool := false
deriving DecidableEq, Repr, Inhabited

/-- A cached translation (R359): holder (cluster, or 320 + die), job, first page, pages, and the leaf. -/
structure TlbEntry where
  holder : Nat
  job : Nat
  vpage : Nat
  pages : Nat
  level : Nat
  pte : Word
deriving DecidableEq, Repr, Inhabited

structure Cluster where
  lsJob : Option Nat := none
  roles : Word := 0#64
  lsMode : Bool := false
  claim : Option Nat := none
  slots : List (Nat × Tile) := []
  acc : List (Nat × Acc) := []
  /-- The accumulator of the tile-task context (R133). -/
  taskAcc : Acc := {}
  cim : List (Nat × CimSlot) := []
  tables : List (Nat × Codebook) := []
  /-- Handoff counts by (producer code, consumer code) (R137). -/
  handoff : List ((Nat × Nat) × Nat) := []
  inMatrix : List InMsg := []
  inCopy : List InMsg := []
  inGather : List InMsg := []
  mq : List MatOp := []
  spans : List Span := []
  trace : List ((Nat × Nat) × Nat) := []
  /-- The routes that have moved a token, the one served last at the end: the turns of R286. -/
  served : List LaneRoute := []
  pending : Bool := false
  unavail : Bool := false
deriving DecidableEq, Repr, Inhabited

/-- A tile-task record the scheduler holds (R270): address, submitting unit, job and cluster, header, operand words w0 to w3,
D4, successor list, completion word and counter; its place in the order of submission; the arithmetic clock in which it became ready,
plus 1 (0: it waits; R303); the blocks handed out, the (block, cluster) pairs that run, and the counts of R272. -/
structure TileTask where
  addr : Nat := 0
  unit : Nat := 0
  job : Nat := 0
  cl : Nat := 0
  hdr : Word := 0#64
  words : List Word := []
  d4 : Word := 0#64
  succ : Word := 0#64
  done : Word := 0#64
  cnt : Nat := 0
  sub : Nat := 0
  rdy : Nat := 0
  nextBlk : Nat := 0
  running : List (Nat × Nat) := []
  ok : Nat := 0
  bad : Nat := 0
  /-- The number under which its accesses to other devices are tracked, and USTAT.RM of its unit at the submission (log 48). -/
  id : Nat := 0
  rm : BitVec 3 := 0#3
  /-- The widest scope of the pages that its blocks have written (R110). -/
  scope : Nat := 0
  /-- Its end (R272): 0 before its completion word, then 1 and the successors whose counters are decremented; and the request of an AMO on
  a counter of another device. -/
  stage : Nat := 0
  asked : Option Nat := none
deriving DecidableEq, Repr, Inhabited

structure Die where
  cyc : Word := 0#64
  /-- The pointer p of R302. It advances in every arithmetic clock, so that the PEs of a die agree on it. -/
  pePtr : Nat := 0
  /-- What has been used in this clock. -/
  used : List ClockUse := []
  powered : Bool := false
  run : Bool := false
  wsJob : Option Nat := none
  wsPhase : Option Nat := none
  inColl : List InMsg := []
  tasks : List TileTask := []
  /-- Counter of records submitted (R303). -/
  subCtr : Nat := 1
  lastStart : Option Nat := none
  /-- Charges per job (R295). -/
  charges : List (Nat × Nat) := []
  /-- A phase of a job that ran units on the die has ended since a unit was last placed there (R380). -/
  remap : Bool := false
deriving DecidableEq, Repr, Inhabited

/-- A job bound to a mapped queue (R337). -/
structure Job where
  queue : Nat := 0
  host : Nat := 0
  cls : Nat := 2
  weight : Nat := 1
  lsMode : Bool := false
  tileShare : Bool := false
  deadline : Nat := 0
  ptroot : Nat := 0
  roles : Word := 0#64
  cdone : Word := 0#64
  phasesOk : Nat := 0
  phasesBad : Nat := 0
  openPhases : Nat := 0
  cancelled : Bool := false
  ended : Bool := false
  missed : Bool := false
  curPhase : Option Nat := none
  /-- Clusters halted as a whole by the debugger, and single PEs (cluster, x, y), in every context of the job (R367). -/
  haltCl : List Nat := []
  haltPe : List (Nat × Nat × Nat) := []
  debugHold : Bool := false
  dbgReason : Nat := 0
  /-- Die cycles per die at which the job began to wait (starvation guard, R295). -/
  waitSince : List (Nat × Nat) := []
deriving DecidableEq, Repr, Inhabited

/-- A mapped queue (R325): 16 entries of 64 bytes at most, and what its thread does. -/
structure Queue where
  job : Option Nat := none
  eseq : BitVec 16 := 1#16
  entries : List (List Byte) := []
  blocked : Bool := false
  ovf : Bool := false
  foreign : Bool := false
  short : Bool := false
  host : Nat := 0
  /-- A kick held until the object's instances have ended (R334): the entry, its patches (slot, value), and the hub clock at which the
  thread took it (R291). -/
  holding : Option (List Byte × List (Nat × Nat) × Nat) := none
  /-- The wait in progress: the entry, and whether its first failed read has been recorded (R335). -/
  waiting : Option (List Byte × Bool) := none
  /-- An unregister in progress (R336). -/
  unreg : Option (List Byte) := none
deriving DecidableEq, Repr, Inhabited

/-- The registers of a fault ring (R341). -/
structure FaultRing where
  base : Nat := 0
  size : Nat := 0
  head : BitVec 32 := 0#32
  tail : BitVec 32 := 0#32
  lost : BitVec 32 := 0#32
deriving DecidableEq, Repr, Inhabited

/-- A registered graph object (R336): job, handle, virtual base. -/
structure GObject where
  job : Nat
  handle : Nat
  base : Word
deriving DecidableEq, Repr, Inhabited

/-- The state of a node of an instance (R289). -/
inductive NodeSt where
  | waiting
  /-- Eligible launch that waits in Jasper for a pool entry (R292), or a node on hold. -/
  | eligible
  /-- In the pending-launch pool or with units running: units started, ended complete, ended otherwise. -/
  | running
  | ended (status : Nat)
deriving DecidableEq, Repr, Inhabited

structure NodeRec where
  st : NodeSt := .waiting
  inPool : Bool := false
  started : Nat := 0
  ok : Nat := 0
  bad : Nat := 0
  cancelled : Bool := false
  /-- An eligible node that waits for its HOLD word; the word is to be read (again) (R289). -/
  held : Bool := false
  due : Bool := true
  /-- What may have asked for its word since: a GNUDGE of the job, by virtual address (true), or a host's write, by line (false). -/
  nudges : List (Bool × Nat) := []
deriving DecidableEq, Repr, Inhabited

/-- A graph instance, level 2 of R43. -/
structure Instance where
  id : Nat
  job : Nat
  queue : Nat
  handle : Nat
  base : Word
  kseq : Nat
  phase : Option Nat
  cdone : Word
  hubTaken : Nat
  nodes : List NodeRec
  ok : Nat := 0
  bad : Nat := 0
  cancelled : Bool := false
  status : Option Nat := none
deriving DecidableEq, Repr, Inhabited

inductive PhaseSt where
  | waiting | fill | run | ended
deriving DecidableEq, Repr, Inhabited

/-- A phase, level 3 of R43, with its held dies and collective group table (R293, R336). -/
structure Phase where
  id : Nat
  job : Nat
  dies : Nat
  groupTable : Word
  /-- The sequence number of the entry that opened it (R44). -/
  kseq : Nat := 0
  cdone : Word
  st : PhaseSt := .waiting
  closed : Bool := false
  ok : Nat := 0
  bad : Nat := 0
  cancelled : Bool := false
  groups : List (Nat × List (Nat × Nat)) := []
  /-- The dies on which units of the job have run during the phase (R380). -/
  ran : List Nat := []
deriving DecidableEq, Repr, Inhabited

/-- A contribution to a reduction round (R115): NODE, unit index, cluster (320 + device for another device) and value; and its place in
its unit: the unit (0 for another device), invocation and issue order. -/
structure RedPart where
  node : Nat
  idx : Nat
  cl : Nat
  value : Word
  uid : Nat := 0
  lvl : BitVec 3 := 0#3
  itag : BitVec 8 := 0#8
  ord : Nat := 0
deriving DecidableEq, Repr, Inhabited

/-- A reduction round (R115): the instance, the group, the contributions. `applied` is set when the result has been applied at the target:
the group's completion word is still to be incremented (R116). -/
structure RedRound where
  inst : Nat
  grp : Nat
  parts : List RedPart
  applied : Bool := false
  /-- The scope of the target's page, once the result has been applied. -/
  scope : Nat := 2
  /-- The number under which its accesses to other devices are tracked (R82). -/
  id : Nat := 0
deriving DecidableEq, Repr, Inhabited

/-- Work of the device's own machinery that waits for a host's or another device's answer (R85, R117). -/
inductive DevOp where
  /-- A completion word of a job: address, value, and the LAUNCH and KSEQ of its level (R44). -/
  | word (job va v launch kseq : Nat)
  /-- A record for a fault ring (R341). It is a release at system scope: the requests to other devices made before request `tag`, and the
  invalidations of other devices' copies of `lines`, must be complete first. -/
  | record (ring : Nat) (bytes : List Byte) (tag : Nat) (lines : List Nat)
  /-- Bytes of a save area (R361). -/
  | area (pa : Nat) (bytes : List Byte)
  /-- A request of another device (R82). -/
  | packet (p : FyPacket)
deriving DecidableEq, Repr, Inhabited

/-- One contribution to a collective round: its rank, its command (`none` for a participant on another device), opcode, control
word, the elements of its source, and how many there are (a participant on another device sends them in several packets). -/
structure CollPart where
  rank : Nat
  m : Option InMsg := none
  opc : Nat := 0
  ctl : Word := 0#64
  dst : Word := 0#64
  src : List Nat := []
  total : Nat := 0
deriving DecidableEq, Repr, Inhabited

/-- A collective round (R269): job, group and contributions. -/
structure CollRound where
  job : Nat
  phase : Nat
  grp : Nat
  parts : List CollPart
deriving DecidableEq, Repr, Inhabited

/-- The state of the power manager and its registers (R385). -/
structure Power where
  spacing : Nat := 8
  limit : Nat := 2400
  draw : Nat := 0
  inlet : Nat := 0
  alarm : Bool := false
  hold : Bool := false
  crit : Bool := false
  alarms : Nat := 0
  since : Nat := 0
  /-- The hub clocks since which every measurement has been calm (R385: draw and inlet at which the alarm ends), and cool. -/
  calm : Option Nat := none
  cool : Option Nat := none
deriving DecidableEq, Repr, Inhabited

/-- A Fyron or host port (R384). -/
structure Port where
  state : Nat := 0
  width : Nat := 0
  rate : Nat := 0
  drop : Nat := 0
  spareUsed : Bool := false
deriving DecidableEq, Repr, Inhabited

/-- What a journal record says (R338). -/
inductive Decision where
  | entryAccepted | entryRefused | instanceCreated | nodeEligible | launchInPool
  | unitPlaced | unitPreempted | unitResumed | unitEnded | phaseChanged | objectRegistered | commitPoint
deriving DecidableEq, Repr, Inhabited

/-- A record of the journal: its serial number and the decision (R338). -/
structure JournalRec where
  serial : Nat
  what : Decision
deriving DecidableEq, Repr, Inhabited

/-- The firmware complex: journal, Spinel and handover (R338 to R340), Topaz (R388). -/
structure Firmware where
  mstate : Nat := 0
  owner : Bool := false
  nostby : Bool := false
  hovr : Bool := false
  jserial : Nat := 0
  jcommit : Nat := 0
  /-- The ring of the journal, its last 8192 records, oldest first; the serial number of the last record that the core which follows the
  journal has replayed; and that up to which a core that has taken over must replay before its threads resume (R338, R339). -/
  ring : List JournalRec := []
  replayed : Nat := 0
  resumeAt : Nat := 0
  /-- The hub clock of the last commit point (R338). -/
  committedAt : Option Nat := none
  hstage : Nat := 0
  hstate : Nat := 0
  hgo : Nat := 0
  heartbeat : Nat := 0
  verActive : Word := 0#64
  verStandby : Word := 0#64
  verStaged : Word := 0#64
  attNonce : List Word := []
  attDst : Nat := 0
  attBusy : Bool := false
  attDone : Bool := false
  attErr : Bool := false
  attKind : Nat := 0
  /-- The KIND of the request in progress. -/
  attWork : Nat := 0
  attHost : Nat := 0
  /-- What Topaz sampled for the request in progress (R389), and the hub clock of its last sample. -/
  attSample : Option (List Byte) := none
  sampledAt : Option Nat := none
deriving DecidableEq, Repr, Inhabited

/-- Registers of W2 that belong to the ports or to the debugger (R354, R360, R366). -/
structure Window2 where
  ucmdJob : Nat := 0
  ucmdAct : Nat := 0
  ucmdHandle : Nat := 0
  ucmdErr : Bool := false
  uargA : Word := 0#64
  uargB : Word := 0#64
  tlbVaA : Word := 0#64
  tlbVaB : Word := 0#64
  tlbNpA : BitVec 32 := 0#32
  tlbNpB : BitVec 32 := 0#32
  tlbJob : Nat := 0
  tlbBusy : Bool := false
  tlbDone : Bool := false
  /-- Accesses (unit, entry) translated with removed entries and not yet performed (R360). -/
  tlbPend : List (Nat × Nat) := []
  dbgJob : Nat := 0
  dbgAtt : Bool := false
  dbgAct : Nat := 0
  dbgWhole : Bool := false
  dbgCl : Nat := 0
  dbgX : Nat := 0
  dbgY : Nat := 0
  dbgSelA : Word := 0#64
  dbgSelB : Word := 0#64
  poolD : Nat := 8
deriving DecidableEq, Repr, Inhabited

/-- Counters and masks of the capabilities (R383 to R386). -/
structure Fleet where
  clSpare : List Nat := [4, 4, 4, 4]
  retired : List Nat := [0, 0, 0, 0]
  /-- Spare HBM channels of each stack: CHSPARE. A remap at module reset takes one from its Reset value (R379; log 31). -/
  chSpare : List Nat := [1, 1, 1, 1, 1, 1, 1, 1, 1, 1, 1, 1]
  chPend : List Nat := []
  rowRep : Nat := 0
  peFail : Nat := 0
  peFailed : List (Nat × Nat × Nat) := []
  /-- The corrected errors of each storage element: the hub clocks at which they were logged (R381). -/
  corrected : List (Element × List Nat) := []
  /-- Telemetry words 5 to 23 that this model counts, by word number (R386). -/
  tele : List (Nat × Nat) := []
  /-- Module resets since the start of the run, and the hub clocks before the last of them: what module reset does not clear (R386). -/
  resets : Nat := 0
  upTime : Nat := 0
deriving DecidableEq, Repr, Inhabited

/-- Who moves next (the model's own field, log 2). -/
inductive Pick where
  /-- One arithmetic clock of PE(x,y) of cluster cl (R302). -/
  | pe (cl x y : Nat)
  /-- The sequencer of unit u executes its next control word (R274). -/
  | word (u : Nat)
  /-- An engine takes the message at the head of its inbox (R261). -/
  | msg (e : EngineId)
  /-- An engine performs accesses of its command `run`: the parts named of what is left of it (R263). -/
  | access (run : Nat) (parts : List Nat)
  /-- An event of the table. -/
  | event (i : Instr) (a : EvArgs)
  /-- One arithmetic clock passes on a die; one hub clock passes (R13). -/
  | clock (die : Nat)
  | hubClock
  /-- A host writes bytes of its own memory (environment; R84, R319). -/
  | hostMem (pa : Nat) (bytes : List Byte)
  /-- A host grants the device a half-line of its memory in a state: the answer to a CXL.cache request (environment; R317, R319). -/
  | hostGrant (half : Nat) (st : Mesi)
  /-- A host's CXL.mem request at an address of its own, which the HDM decoder of its port maps (environment; R318). -/
  | hostCxl (i : Instr) (addr : Nat) (a : EvArgs)
  /-- Sedon programs the HDM decoder of a port to cover a region at a decoder base, or takes it out (`none`) (R318). -/
  | hdmDecoder (host region : Nat) (base : Option Nat)
  /-- Sedon changes the assignment code of a region (R324). -/
  | assignRegion (region code : Nat)
  /-- A storage element logs a corrected error (environment; R381, R386). -/
  | correctedError (e : Element)
  /-- The core that follows the journal replays its next record (R339). -/
  | replay
  /-- A port begins to train its link (environment; R384). -/
  | portTraining (port : Nat)
  /-- A line's stored code word begins to fail its check (environment; R369). -/
  | memError (line : Nat)
  /-- A host programs BAR 0, 2 or 4 of its port's function (environment; R316). -/
  | barWrite (host bar v : Nat)
  /-- A host writes `n` bytes, little-endian `v`, at an address of its own, which the BARs of its port decode (environment; R316, R333). -/
  | busWrite (host addr n v : Nat)
  /-- A host reads 8 bytes at an address that the BARs of its port decode (environment; R316). -/
  | busRead (host addr : Nat)
deriving DecidableEq, Repr

/-- The machine. -/
structure State where
  mem : Memory := []
  wst : Memory := []
  lsm : Memory := []
  hmem : Memory := []
  /-- Lines whose stored code word fails its check (R369). -/
  bad : List Nat := []
  dir : List (Nat × DirEntry) := []
  net : List CohMsg := []
  /-- Packets that leave, each with the Fyron port that the routing table gives its destination (R343). -/
  fyOut : List (Nat × FyPacket) := []
  /-- Requests sent to other devices and not answered: tag, unit, store-buffer entry (0: none). -/
  fyWait : List (Nat × Nat × Nat) := []
  /-- Answers not yet taken: tag, value, sequence tag and the scope record that the home held (R97). -/
  fyDone : List (Nat × Word × BitVec 16 × Option (Nat × Nat)) := []
  /-- Answers not yet taken that a line's check fails: tag, and the physical address of the line (R369). -/
  fyFail : List (Nat × Nat) := []
  /-- Writes to other devices that are answered, whose owner has copies still to invalidate: tag, unit, entry or command (R85, R108). -/
  fyOpen : List (Nat × Nat × Nat) := []
  /-- The same as seen by the owner: tag, the device that wrote, and the lines. -/
  fyOwe : List (Nat × Nat × List Nat) := []
  /-- The bytes of a write of another device whose last packet has not come: device and tag. -/
  fyFrag : List ((Nat × Nat) × List Byte) := []
  /-- What waits for a host or another device, oldest first. -/
  devPend : List DevOp := []
  /-- Lines of other devices held read-only in L2 (R85): line and bytes. -/
  fyL2 : List (Nat × List Byte) := []
  fyTag : Nat := 1
  fyRoute : List (Nat × Nat) := []
  fyParts : List (BitVec 16) := []
  tlb : List TlbEntry := []
  clusters : List (Nat × Cluster) := []
  dies : List Die := []
  units : List (Nat × UnitSt) := []
  nextUnit : Nat := 1
  startCtr : Nat := 1
  flights : List Flight := []
  runs : List Run := []
  jobs : List (Nat × Job) := []
  queues : List Queue := []
  rings : List FaultRing := []
  objects : List GObject := []
  insts : List Instance := []
  nextInst : Nat := 1
  phases : List Phase := []
  nextPhase : Nat := 1
  reds : List RedRound := []
  colls : List CollRound := []
  handlerBase : List (Nat × Nat) := []
  hub : Word := 0#64
  devNum : BitVec 10 := 0#10
  /-- Region assignment codes by region (R324); absent is 0. -/
  regions : List (Nat × Nat) := []
  /-- The HDM decoders: for each (host, region) that one covers, the decoder base, an address of the host (R318). -/
  decoders : List ((Nat × Nat) × Nat) := []
  /-- Half-lines of host memory that the device holds, with the state that the host granted (R319), and those requested: the half-line, and
  whether for ownership. A half-line is numbered by its address over 64. -/
  hostHalf : List (Nat × Mesi) := []
  hostAsk : List (Nat × Bool) := []
  /-- Clusters reserved for a deadline unit: cluster, and the unit's (instance, node, index) (R297). -/
  reserved : List (Nat × (Nat × Nat × Nat)) := []
  fw : Firmware := {}
  w2 : Window2 := {}
  pow : Power := {}
  ports : List Port := []
  /-- The bases of BARs 0, 2 and 4 of the function at each host port (R316). -/
  bars : List (List Nat) := []
  fleet : Fleet := {}
  /-- Model's own: a counter for the free values from which stop handles are taken (R353, log 4). -/
  nextHandle : Nat := 1
  saveNext : Nat := 0x8F00000000
  /-- Model's own: data returned to the hosts (host, address, bytes). -/
  hostRx : List (Nat × Nat × List Byte) := []
  /-- Model's own: MSI-X vectors sent, oldest first: that of mapped queue q is q, that of the device fault queue 32 (R317, R341; log 34). -/
  msix : List Nat := []
  /-- Model's own: a counter for free values (log 4). -/
  freeCtr : Nat := 0
  /-- Model's own: who moves next, and for whom the instruction runs (log 2). -/
  agenda : List Pick := []
  focus : Site := ⟨0, 0, 0, 0⟩
  curUnit : Nat := 0
  curEng : EngineId := ⟨.matrix, 0⟩
  ev : EvArgs := {}
deriving DecidableEq, Repr

/-- Why the machine stops with a fault. No instruction of this hardware stops the machine: every cause of R344 is
taken, recorded or escalated (R345). -/
inductive Fault where
  /-- Never raised; the outcome exists for the host's interface. Safe. -/
  | none
deriving DecidableEq, Repr

/-- Why an instruction is refused. -/
inductive Refusal where
  /-- Raised by an arm of `exec` whose instruction is not modelled, by name. Safe: nothing can be proved of it. -/
  | notModelled (mnemonic : String)
deriving DecidableEq, Repr

/-- The machine right after module reset (R3): every register at its Reset value, memories with nothing listed,
counters 0 (R14), sequence tags 0 (R93), 32 mapped queues, 33 fault rings, 16 Fyron ports and 2 host ports. Values
that the manual does not give are those of the assumption log (1, 3). -/
def State.reset : State :=
  { dies := [{}, {}, {}, {}]
    queues := List.replicate 32 {}
    rings := List.replicate 33 {}
    ports := List.replicate 18 {}
    bars := [[0, 0, 0], [0, 0, 0]]
    fw := { attNonce := List.replicate 8 0#64 } }

end Sys2Proof.Machine
end

