-- ==== Sys2Proof/Machine/Lists.lean ====
section
/-! DEFINITION. The shared operations on finite maps, lists and byte memories: association lists by key, the canonical
memory of `Host.Cell`s, and the little-endian readings of R1. -/

namespace Sys2Proof.Machine

/-- The value that `l` gives `k`, first match. -/
def aget {κ α : Type} [DecidableEq κ] : List (κ × α) → κ → Option α
  | [], _ => none
  | (k', v) :: r, k => if k' = k then some v else aget r k

/-- `l` with `k` mapped to `v`: in its place if it has one, else at the end. -/
def aset {κ α : Type} [DecidableEq κ] : List (κ × α) → κ → α → List (κ × α)
  | [], k, v => [(k, v)]
  | (k', v') :: r, k, v => if k' = k then (k, v) :: r else (k', v') :: aset r k v

/-- `l` without `k`. -/
def adel {κ α : Type} [DecidableEq κ] : List (κ × α) → κ → List (κ × α)
  | [], _ => []
  | (k', v') :: r, k => if k' = k then adel r k else (k', v') :: adel r k

/-- The value of `k`, or `d`. -/
def agetD {κ α : Type} [DecidableEq κ] (l : List (κ × α)) (k : κ) (d : α) : α :=
  match aget l k with
  | some v => v
  | none => d

/-- Element `i` replaced by its image. -/
def lmod {α : Type} : List α → Nat → (α → α) → List α
  | [], _, _ => []
  | x :: r, 0, f => f x :: r
  | x :: r, i + 1, f => x :: lmod r i f

/-- Element `i`, or `d`. -/
def lget {α : Type} : List α → Nat → α → α
  | [], _, d => d
  | x :: _, 0, _ => x
  | _ :: r, i + 1, d => lget r i d

/-- The list without its element `i`. -/
def ldel {α : Type} : List α → Nat → List α
  | [], _ => []
  | _ :: r, 0 => r
  | x :: r, i + 1 => x :: ldel r i

/-- The index of the first element that satisfies `p`. -/
def lfind {α : Type} (p : α → Bool) : List α → Option Nat
  | [] => none
  | x :: r => if p x then some 0 else (lfind p r).map (· + 1)

/-- `n` copies of zero if the list is short, so that element `i` exists, and element `i` set. -/
def lput {α : Type} (d : α) : List α → Nat → α → List α
  | [], 0, v => [v]
  | [], i + 1, v => d :: lput d [] i v
  | _ :: r, 0, v => v :: r
  | x :: r, i + 1, v => x :: lput d r i v

/-- The numbers from `a`, `n` of them. -/
def upFrom (a : Nat) : Nat → List Nat
  | 0 => []
  | n + 1 => a :: upFrom (a + 1) n

/-- The byte at `a`. -/
def Memory.rd : Memory → Nat → Byte
  | [], _ => Config.unlistedByte
  | (a', b) :: r, a => if a' = a then b else if a < a' then Config.unlistedByte else Memory.rd r a

/-- `m` with the byte at `a` set, in canonical form. -/
def Memory.wr : Memory → Nat → Byte → Memory
  | [], a, b => if b = Config.unlistedByte then [] else [(a, b)]
  | (a', b') :: r, a, b =>
    if a < a' then (if b = Config.unlistedByte then (a', b') :: r else (a, b) :: (a', b') :: r)
    else if a' = a then (if b = Config.unlistedByte then r else (a, b) :: r)
    else (a', b') :: Memory.wr r a b

/-- `n` bytes from `a` upward. -/
def Memory.rdBytes (m : Memory) (a : Nat) : Nat → List Byte
  | 0 => []
  | n + 1 => m.rd a :: Memory.rdBytes m (a + 1) n

/-- Bytes written from `a` upward. -/
def Memory.wrBytes (m : Memory) (a : Nat) : List Byte → Memory
  | [] => m
  | b :: r => Memory.wrBytes (m.wr a b) (a + 1) r

/-- The number whose bytes, least significant first, are these (R1). -/
def leNat : List Byte → Nat
  | [] => 0
  | b :: r => b.toNat + 256 * leNat r

/-- The low `n` bytes of `v`, least significant first (R1). -/
def leBytes : Nat → Nat → List Byte
  | 0, _ => []
  | n + 1, v => BitVec.ofNat 8 v :: leBytes n (v / 256)

/-- `n` bytes from `a`, as a number. -/
def Memory.rdN (m : Memory) (a n : Nat) : Nat := leNat (m.rdBytes a n)
/-- The low `n` bytes of `v` written from `a`. -/
def Memory.wrN (m : Memory) (a n v : Nat) : Memory := m.wrBytes a (leBytes n v)

/-- Bits [hi:lo] of a number. -/
def bits (v hi lo : Nat) : Nat := v / 2 ^ lo % 2 ^ (hi + 1 - lo)
/-- Bits [hi:lo] of a word. -/
def wbits (v : Word) (hi lo : Nat) : Nat := bits v.toNat hi lo
/-- One bit of a number. -/
def bit (v i : Nat) : Bool := v / 2 ^ i % 2 == 1
/-- A Bool as a bit. -/
def b2n (b : Bool) : Nat := if b then 1 else 0
/-- A number as a word, modulo 2^64. -/
abbrev wd (n : Nat) : Word := BitVec.ofNat 64 n

end Sys2Proof.Machine
end

