-- ==== Sys2Proof/Machine/Flags.lean ====
section
/-! DEFINITION. Number formats and the rounding and flag rules (R52 to R64, R197): decoding to exact values, exact
arithmetic on them, and the one result stage of R63. Flags are bit masks: bit f is NV, DZ, OF, UF, NX for f = 0 to 4. -/

namespace Sys2Proof.Machine

/-- A floating-point value, exact: a NaN (quiet or signalling), an infinity, or `(-1)^neg * m * 2^e`. -/
inductive FpVal where
  | nan (signalling : Bool)
  | inf (neg : Bool)
  | fin (neg : Bool) (m : Nat) (e : Int)
deriving DecidableEq, Repr, Inhabited

/-- A floating-point format (R52, R54). `maxMag` is the code of the largest finite value less its sign. -/
structure FFmt where
  width : Nat
  fbits : Nat
  bias : Nat
  maxMag : Nat
  hasInf : Bool
  hasNan : Bool
  cnan : Nat
deriving DecidableEq, Repr

def fmtF64 : FFmt := ⟨64, 52, 1023, 0x7FEFFFFFFFFFFFFF, true, true, 0x7FF8000000000000⟩
def fmtF32 : FFmt := ⟨32, 23, 127, 0x7F7FFFFF, true, true, 0x7FC00000⟩
def fmtF16 : FFmt := ⟨16, 10, 15, 0x7BFF, true, true, 0x7E00⟩
def fmtBf16 : FFmt := ⟨16, 7, 127, 0x7F7F, true, true, 0x7FC0⟩
def fmtE4m3 : FFmt := ⟨8, 3, 7, 0x7E, false, true, 0x7F⟩
def fmtE5m2 : FFmt := ⟨8, 2, 15, 0x7B, true, true, 0x7E⟩
def fmtE2m1 : FFmt := ⟨4, 1, 1, 0x7, false, false, 0⟩

/-- The floating-point format of a tag (R57); tags 5 to 11 have one. -/
def ffmtOf (tag : Nat) : FFmt :=
  match tag with
  | 5 => fmtF64
  | 6 => fmtF32
  | 7 => fmtF16
  | 8 => fmtBf16
  | 9 => fmtE4m3
  | 10 => fmtE5m2
  | _ => fmtE2m1

/-- The number of lanes of a tag (R57); untyped and addr payloads are one lane. -/
def lanesOf (tag : Nat) : Nat :=
  match tag with
  | 2 | 6 => 2
  | 3 | 7 | 8 => 4
  | 4 | 9 | 10 => 8
  | 11 | 12 => 16
  | 13 => 64
  | _ => 1

/-- The lane width of a tag (R56). -/
def laneW (tag : Nat) : Nat := 64 / lanesOf tag

/-- Lane `l` of width `w` (R56). -/
def lane (v : Word) (w l : Nat) : Nat := v.toNat / 2 ^ (w * l) % 2 ^ w

/-- All lanes, lane 0 first. -/
def lanes (v : Word) (tag : Nat) : List Nat := (upFrom 0 (lanesOf tag)).map (lane v (laneW tag))

/-- The payload with these lanes of width `w`, lane 0 first. -/
def joinLanes (w : Nat) : List Nat → Nat
  | [] => 0
  | x :: r => x % 2 ^ w + 2 ^ w * joinLanes w r

def joinW (w : Nat) (l : List Nat) : Word := wd (joinLanes w l)

/-- The sign bit of a code. -/
def signOf (F : FFmt) (c : Nat) : Bool := bit c (F.width - 1)
/-- A code less its sign. -/
def magOf (F : FFmt) (c : Nat) : Nat := c % 2 ^ (F.width - 1)
/-- A magnitude with a sign. -/
def withSign (F : FFmt) (neg : Bool) (mag : Nat) : Nat := (if neg then 2 ^ (F.width - 1) else 0) + mag

/-- The code of infinity less its sign. -/
def infMag (F : FFmt) : Nat := 2 ^ (F.width - 1) - 2 ^ F.fbits

/-- The exact value of a code (R52, R53). -/
def decodeFp (F : FFmt) (c : Nat) : FpVal :=
  let neg := signOf F c
  let mag := magOf F c
  if F.maxMag < mag then
    if F.hasInf && mag == infMag F then .inf neg
    else .nan (F.hasInf && !bit mag (F.fbits - 1))
  else
    let ex := mag / 2 ^ F.fbits
    let fr := mag % 2 ^ F.fbits
    if ex = 0 then .fin neg fr (1 - F.bias - F.fbits) else .fin neg (2 ^ F.fbits + fr) (ex - F.bias - F.fbits : Int)

/-- FZI: a subnormal is replaced by zero of its sign (R62). -/
def fziCode (F : FFmt) (fzi : Bool) (c : Nat) : Nat :=
  if fzi && magOf F c < 2 ^ F.fbits then withSign F (signOf F c) 0 else c

def FpVal.isNan : FpVal → Bool
  | .nan _ => true
  | _ => false
def FpVal.isSnan : FpVal → Bool
  | .nan s => s
  | _ => false
def FpVal.isZero : FpVal → Bool
  | .fin _ m _ => m == 0
  | _ => false
def FpVal.isInf : FpVal → Bool
  | .inf _ => true
  | _ => false
def FpVal.neg? : FpVal → Bool
  | .nan _ => false
  | .inf n => n
  | .fin n _ _ => n
/-- The negation of a value. -/
def FpVal.negate : FpVal → FpVal
  | .nan s => .nan s
  | .inf n => .inf (!n)
  | .fin n m e => .fin (!n) m e

/-- `m * 2^e` rounded to a multiple of `2^q` under mode 0 RNE, 1 RTZ, 2 RDN, 3 RUP, 4 RNA (R61): the multiple, and
whether it is inexact. -/
def roundAt (mode : Nat) (neg : Bool) (m : Nat) (e q : Int) : Nat × Bool :=
  if q ≤ e then (m * 2 ^ (e - q).toNat, false)
  else
    let k := (q - e).toNat
    let hi := m / 2 ^ k
    let lo := m % 2 ^ k
    let half := 2 ^ (k - 1)
    let up : Bool :=
      match mode with
      | 0 => decide (half < lo) || (lo == half && hi % 2 == 1)
      | 1 => false
      | 2 => neg && lo != 0
      | 3 => !neg && lo != 0
      | _ => decide (half ≤ lo)
    (if up then hi + 1 else hi, lo != 0)

/-- The exponent of the leading bit of `m * 2^e`, for `m` not 0. -/
def topExp (m : Nat) (e : Int) : Int := e + (Nat.log2 m : Nat)

/-- A finite non-zero value rounded to a format with `fbits` fraction bits and an unbounded exponent: significand,
quantum, inexact. -/
def roundFree (fbits mode : Nat) (neg : Bool) (m : Nat) (e : Int) : Nat × Int × Bool :=
  let q := topExp m e - fbits
  let (s, ix) := roundAt mode neg m e q
  (s, q, ix)

/-- The smallest quantum of a format. -/
def qMin (F : FFmt) : Int := 1 - F.bias - F.fbits

/-- Compare `a * 2^p < b * 2^q`. -/
def ltScaled (a : Nat) (p : Int) (b : Nat) (q : Int) : Bool :=
  if p ≤ q then decide (a < b * 2 ^ (q - p).toNat) else decide (a * 2 ^ (p - q).toNat < b)

/-- The result stage of R63 for a floating-point destination, with SAT and FZO (R62): code and flags. -/
def deliverFp (F : FFmt) (mode : Nat) (fzo sat : Bool) (x : FpVal) : Nat × Nat :=
  match x with
  | .nan _ => if F.hasNan then (F.cnan, 0) else (0, 1)
  | .inf n =>
    if sat then (withSign F n F.maxMag, 0)
    else if F.hasInf then (withSign F n (infMag F), 0)
    else if F.hasNan then (F.cnan, 1)
    else (withSign F n F.maxMag, 0)
  | .fin n m e =>
    if m = 0 then (withSign F n 0, 0)
    else
      let (s0, q0, ix0) := roundFree F.fbits mode n m e
      let maxM := 2 ^ F.fbits + F.maxMag % 2 ^ F.fbits
      let maxQ := (F.maxMag / 2 ^ F.fbits : Nat) - F.bias - F.fbits
      if ltScaled maxM maxQ s0 q0 then
        if sat then (withSign F n F.maxMag, 4 + 16)
        else if F.hasInf then
          let toInf : Bool :=
            match mode with
            | 1 => false
            | 2 => n
            | 3 => !n
            | _ => true
          (withSign F n (if toInf then infMag F else F.maxMag), 4 + 16)
        else if F.hasNan then (F.cnan, 4 + 16)
        else (withSign F n F.maxMag, 4 + 16)
      else
        let tiny := ltScaled s0 q0 (2 ^ F.fbits) (qMin F)
        let q := if q0 < qMin F then qMin F else q0
        let (s, ix) := if q = q0 then (s0, ix0) else roundAt mode n m e q
        let mag := (q - qMin F).toNat * 2 ^ F.fbits + s
        if fzo && decide (mag < 2 ^ F.fbits) then (withSign F n 0, 8 + 16)
        else if tiny && (ix || fzo) then (withSign F n mag, 8 + 16)
        else (withSign F n mag, if ix then 16 else 0)

/-- The result stage of R63 for an integer destination of width `w` (R210): pattern and flags. -/
def deliverInt (w : Nat) (unsigned : Bool) (mode : Nat) (x : FpVal) : Nat × Nat :=
  let lo : Int := if unsigned then 0 else -((2 ^ (w - 1) : Nat) : Int)
  let hi : Int := if unsigned then ((2 ^ w : Nat) : Int) - 1 else ((2 ^ (w - 1) : Nat) : Int) - 1
  match x with
  | .nan _ => (0, 1)
  | .inf n => (wrapNat w (if n then lo else hi), 1)
  | .fin n m e =>
    let (s, ix) := roundAt mode n m e 0
    let t : Int := if n then -(s : Int) else s
    if t < lo then (wrapNat w lo, 1)
    else if hi < t then (wrapNat w hi, 1)
    else (wrapNat w t, if ix then 16 else 0)

/-- A signed number on the scale `2^e`, for `e` not above the value's exponent. -/
def scaled (e : Int) : FpVal → Int
  | .fin n m e' => let s := m * 2 ^ (e' - e).toNat; if n then -(s : Int) else s
  | _ => 0

/-- The least exponent of a list of finite values. -/
def minExp : List FpVal → Int
  | [] => 0
  | [.fin _ _ e] => e
  | .fin _ _ e :: r => let e' := minExp r; if e < e' then e else e'
  | _ :: r => minExp r

/-- An exact sum with the zero sign of R197, and whether it is invalid (opposite infinities). NaN terms give a NaN. -/
def sumFp (mode : Nat) (ts : List FpVal) : FpVal × Bool :=
  let pos := ts.any (fun t => t.isInf && !t.neg?)
  let neg := ts.any (fun t => t.isInf && t.neg?)
  if pos && neg then (.nan false, true)
  else if ts.any FpVal.isNan then (.nan false, false)
  else if pos || neg then (.inf neg, false)
  else
    let e := minExp ts
    let s := ts.foldl (fun acc t => acc + scaled e t) 0
    if s = 0 then
      if ts.all (fun t => t.isZero && t.neg?) then (.fin true 0 0, false)
      else (.fin (mode == 2) 0 0, false)
    else (.fin (decide (s < 0)) s.natAbs e, false)

/-- An exact product, and whether it is invalid (0 times infinity). -/
def mulFp (a b : FpVal) : FpVal × Bool :=
  if a.isNan || b.isNan then
    (.nan false, false)
  else
    let n := a.neg? != b.neg?
    match a, b with
    | .fin _ m e, .fin _ m' e' => (.fin n (m * m') (e + e'), false)
    | _, _ => if a.isZero || b.isZero then (.nan false, true) else (.inf n, false)

/-- NV for a signalling operand (R53). -/
def snanFlag (ts : List FpVal) : Nat := if ts.any FpVal.isSnan then 1 else 0
/-- NV for an invalid operation. -/
def nvFlag (b : Bool) : Nat := if b then 1 else 0

/-- A quotient `a / b` of finite values, `b` not zero, with enough bits that the last one is a sticky bit (R204). -/
def divFin (n : Bool) (m : Nat) (e : Int) (m' : Nat) (e' : Int) : FpVal :=
  let k := 130 + Nat.log2 m'
  let q := m * 2 ^ k / m'
  let r := m * 2 ^ k % m'
  .fin n (2 * q + (if r = 0 then 0 else 1)) (e - e' - k - 1)

/-- The integer square root by bits from `b - 1` down. -/
def isqrtGo (n : Nat) : Nat → Nat → Nat
  | 0, r => r
  | b + 1, r => let t := r + 2 ^ b; if t * t ≤ n then isqrtGo n b t else isqrtGo n b r

def isqrt (n : Nat) : Nat := isqrtGo n (Nat.log2 n / 2 + 1) 0

/-- The root of a finite positive value, with a sticky last bit (R204). -/
def sqrtFin (m : Nat) (e : Int) : FpVal :=
  let k : Nat := 140 + (if (e % 2 = 0) then 0 else 1)
  let v := m * 2 ^ k
  let r := isqrt v
  .fin false (2 * r + (if r * r = v then 0 else 1)) ((e - k) / 2 - 1)

/-- The reciprocal root of a finite positive value, with a sticky last bit (R205). -/
def rsqrtFin (m : Nat) (e : Int) : FpVal :=
  let m1 := if e % 2 = 0 then m else 2 * m
  let e1 : Int := if e % 2 = 0 then e else e - 1
  let t := 80 + Nat.log2 m1
  let r := isqrt (2 ^ (2 * t) / m1)
  .fin false (2 * r + (if r * r * m1 = 2 ^ (2 * t) then 0 else 1)) (-(t : Int) - e1 / 2 - 1)

/-- A value rounded to `p` significant bits, to nearest even, exponent unbounded (R205). -/
def roundSig (p : Nat) (x : FpVal) : FpVal :=
  match x with
  | .fin n m e => if m = 0 then x else let (s, q, _) := roundFree (p - 1) 0 n m e; .fin n s q
  | _ => x

/-- `a < b` for values that are no NaN; -0 equals +0. -/
def ltFp (a b : FpVal) : Bool :=
  match a, b with
  | .inf n, .inf n' => n && !n'
  | .inf n, _ => n
  | _, .inf n' => !n'
  | _, _ => let e := minExp [a, b]; decide (scaled e a < scaled e b)

def eqFp (a b : FpVal) : Bool := !ltFp a b && !ltFp b a

/-- An integer as an exact value (R211). -/
def intFp (i : Int) : FpVal := .fin (decide (i < 0)) i.natAbs 0

/-- The effective rounding mode of MOD with USTAT.RM (R61); `none` is cause 0x001. -/
def roundMode (mod rm : BitVec 3) : Option Nat :=
  if mod.ult 5#3 then some mod.toNat
  else if mod == 5#3 then (if rm.ult 5#3 then some rm.toNat else none)
  else none

/-- The flags of a `Sticky` set from a mask (R64); bit 5 is TBLINEX (R71). -/
def Sticky.raise (s : Sticky) (f : Nat) : Sticky :=
  { s with nv := s.nv || bit f 0, dz := s.dz || bit f 1, ofl := s.ofl || bit f 2, uf := s.uf || bit f 3, nx := s.nx || bit f 4
           tblinex := s.tblinex || bit f 5 }

/-- Both sets of flags. -/
def Sticky.join (a b : Sticky) : Sticky :=
  { nx := a.nx || b.nx, uf := a.uf || b.uf, ofl := a.ofl || b.ofl, dz := a.dz || b.dz, nv := a.nv || b.nv
    tblinex := a.tblinex || b.tblinex, narrow := a.narrow || b.narrow }

end Sys2Proof.Machine
end

