-- ==== Sys2Proof/Machine/Operands.lean ====
section
/-! DEFINITION. Operand forms of PE words: the tags each operand position accepts (R59, the entries of 07 to 10), the
operand that selectors 5 and 6 present (R142, R143, R160, R196), and the checks of R145 on word and operands. -/

namespace Sys2Proof.Machine

/-- An operand as an operation receives it: payload and format tag. -/
structure Opnd where
  v : Word := 0#64
  t : Nat := 0
deriving DecidableEq, Repr, Inhabited

/-- What an operation computes from its operands: a result with its tag and the flags raised, by lane mask; or a
cause with its DETAIL0 (R346). -/
inductive Calc where
  | ok (v : Word) (t : Nat) (fl : List (Nat × Nat))
  | trap (cause : Nat) (d0 : Word)
deriving DecidableEq, Repr

/-- What an operation reads besides its operands: USTAT.RM and the element registers. -/
structure Env where
  rm : BitVec 3 := 0#3
  ereg : List EReg := []

/-- The tags that operands A, B, C may carry, as bit masks, for opcode, FMT and SUB. -/
def tagMasks (opc fmt : Nat) (_sub : Nat) : Nat × Nat × Nat :=
  let f := 2 ^ fmt
  let any := 0x7FFF
  match opc with
  | 0x10 | 0x11 | 0x12 | 0x13 | 0x14 => (f ||| 1, f ||| 1, any)
  | 0x20 => (f, 0b10, any)
  | 0x21 => if fmt = 14 then (f, 0x4002, 0x4002) else (f, f, f)
  | 0x22 => (0x2002, f ||| 1, f ||| 1)
  | 0x23 | 0x24 | 0x32 | 0x33 | 0x34 | 0x35 | 0x37 | 0x38 | 0x39 | 0x3A | 0x3B | 0x3C | 0x3D | 0x3E => (any, any, any)
  | 0x25 => (any, 0b10, any)
  | 0x30 => (any, 0x2002, any)
  | 0x31 => if _sub % 2 = 0 then (0x2002, any, any) else (any, any, any)
  | 0x36 => (0b10, f, 0b10)
  | 0x50 | 0x51 => (0xFE0, any, any)
  | 0x52 => (0x1E, any, any)
  | 0x54 => (0x1000, 0b10, any)
  | 0x55 => (0x100, 0b10, 0x1000)
  | 0x57 => (f, f, if fmt ≤ 6 then 0x20 else 0x40)
  | 0x58 | 0x5C => (f, 0b10, any)
  | 0x59 => (f, 0b10, f)
  | 0x5A =>
    match fmt with
    | 2 => (0b10, 0b10, any)
    | 3 => (0b100, 0b100, any)
    | 4 => (0b1000, 0b1000, any)
    | 6 => (0x20, 0x20, any)
    | 7 | 8 => (0x40, 0x40, any)
    | 9 | 10 => (0x180, 0x180, any)
    | _ => (0x600, 0x600, any)
  | 0x5B =>
    match fmt with
    | 1 => (0b100, any, any)
    | 2 => (0b1000, any, any)
    | 3 => (0b10000, any, any)
    | 5 => (0x40, any, any)
    | 6 => (0x180, any, any)
    | 7 | 8 => (0x600, any, any)
    | _ => (0x800, any, any)
  | 0x5D => (f, f, 0b10)
  | 0x5F => (f, if fmt = 5 then 0b10 else if fmt = 6 then 0b100 else 0b1000, any)
  | 0x60 | 0x63 | 0x6E => (0x4000, any, any)
  | 0x61 | 0x66 | 0x6F => (if opc = 0x66 then 0b10 else 0x4000, f ||| 1, any)
  | 0x62 => (0x4000, 0b10, any)
  | 0x64 => (any, any, any)
  | 0x65 | 0x67 => (0b10, any, any)
  | 0x68 => (0x4000, f, any)
  | 0x69 => (0x4000, 0b10, 0b10)
  | 0x6A => (f, any, any)
  | 0x6B => (0x4000, any, any)
  | 0x6C => (0x4000, 0b10, any)
  | 0x6D => (any, any, any)
  | 0x74 | 0x75 => (0x4000, any, any)
  | 0x76 | 0x77 | 0x78 | 0x79 | 0x7A | 0x7B => (any, any, any)
  | 0x7C => (0b11, any, any)
  | _ => (f, f, f)

/-- The least set bit below 16. -/
def lowBit (m : Nat) : Nat := ((upFrom 0 16).find? (fun i => m.testBit i)).getD 0

/-- The tag for which selector 5 forms an operand with accepted tags `mask` (R160, R196). The data of LPACK are not read as integers,
and are formed for FMT (R143). The source of ITOF is formed for tag 1, as an operand that is read as an integer (DESIGN CHOICE, log 44). -/
def formTag (opc fmt mask : Nat) : Nat :=
  if mask.testBit fmt || opc == 0x5A then fmt
  else if mask.testBit 1 then 1
  else if opc = 0x5F then lowBit mask
  else fmt

/-- The tag that the zero of selector 6 carries: FMT if the position accepts it, else the least tag it accepts. -/
def zeroTag (fmt mask : Nat) : Nat := if mask.testBit fmt then fmt else lowBit mask

/-- `n` equal lanes of width `w`. -/
def splat (w n x : Nat) : Word := joinW w (List.replicate n x)

/-- binary32 widened exactly to binary64, a NaN with the same upper fraction bits (R143). -/
def widen32 (c : Nat) : Word :=
  match decodeFp fmtF32 c with
  | .nan _ => wd ((if bit c 31 then 2 ^ 63 else 0) + 0x7FF * 2 ^ 52 + c % 2 ^ 23 * 2 ^ 29)
  | x => wd (deliverFp fmtF64 0 false false x).1

/-- The 32-bit immediate as an operand of tag `t` (R143). -/
def immVal (t : Nat) (imm : Word32) : Word :=
  let n := imm.toNat
  match t with
  | 1 => imm.signExtend 64
  | 5 => widen32 n
  | 2 | 6 => splat 32 2 n
  | 3 | 7 | 8 => splat 16 4 n
  | 4 | 9 | 10 => splat 8 8 n
  | 11 | 12 => splat 4 16 n
  | _ => wd n

/-- The tag check of R59 on operand `p`: tag 15 is 0x026, a tag outside `mask` 0x020 + p. DETAIL0 as R346. -/
def tagFault (p : Nat) (o : Opnd) (mask : Nat) : Option (Nat × Word) :=
  if o.t = 15 then some (0x026, wd (o.t + 16 * p))
  else if mask.testBit o.t then none
  else some (0x020 + p, wd (o.t + 16 * p))

/-- The masks against which operands are checked. LPACK and LUNPK report a wrong pair as 0x004 in their entries. -/
def checkMasks (opc fmt sub : Nat) : Nat × Nat × Nat :=
  if opc = 0x5A then (0x7FFE, 0x7FFF, 0x7FFF) else if opc = 0x5B then (0x7FFE, 0x7FFF, 0x7FFF) else tagMasks opc fmt sub

/-- Step 6 of R145 in ascending operand position, for the operands the word reads. -/
def tagFaults (opc : Nat) (w : PeWord) (a b c : Opnd) : Option (Nat × Word) :=
  let r := opRule opc w.sub.toNat
  let m := checkMasks opc w.fmt.toNat w.sub.toNat
  let fa := if r.rdA then tagFault 0 a m.1 else none
  let fb := if r.rdB then tagFault 1 b m.2.1 else none
  let fc := if r.rdC then tagFault 2 c m.2.2 else none
  match fa, fb, fc with
  | some x, _, _ => some x
  | _, some x, _ => some x
  | _, _, x => x

/-- Whether a word names selector 5 in a position its entry reads. -/
def usesImm (opc : Nat) (w : PeWord) : Bool :=
  let r := opRule opc w.sub.toNat
  (r.rdA && w.sa == 5#3) || (r.rdB && w.sb == 5#3) || (r.rdC && w.sc == 5#3)

/-- Steps 2 to 5 of R145 for format P: the cause of the first check that fails. -/
def wordFault (opc : Nat) (rm : BitVec 3) (w : PeWord) : Option Nat :=
  let r := opRule opc w.sub.toNat
  if !fieldsOk opc w then some 0x003
  else if !r.fmtMask.testBit w.fmt.toNat then some 0x004
  else if (opc == 0x1E || opc == 0x1F) && decide (laneW w.fmt.toNat < 8 * 2 ^ w.sub.toNat) then some 0x004
  else
    match r.modUse with
    | .zero => if usesImm opc w && !w.x then some 0x005 else none
    | .round => if (roundMode w.mod rm).isNone then some 0x001 else if usesImm opc w && !w.x then some 0x005 else none
    | .hint => if 4#3 < w.mod then some 0x002 else if usesImm opc w && !w.x then some 0x005 else none
    | .hintZero => if w.mod != 0#3 then some 0x002 else if usesImm opc w && !w.x then some 0x005 else none

/-- The result of an operation that raises no flag. -/
def plain (v : Word) (t : Nat) : Calc := .ok v t []

/-- Lane results of width `w` with the flags of each lane (R64). -/
def laneCalc (w t : Nat) (rs : List (Nat × Nat)) : Calc :=
  .ok (joinW w (rs.map Prod.fst)) t
    ((rs.zip (upFrom 0 rs.length)).filterMap (fun p => if p.1.2 = 0 then none else some (2 ^ p.2, p.1.2)))

/-- The union of the flags of a result. -/
def flagUnion (fl : List (Nat × Nat)) : Nat := fl.foldl (fun a p => a ||| p.2) 0
/-- The lanes that raised flag `f`. -/
def flagLanes (fl : List (Nat × Nat)) (f : Nat) : Nat :=
  fl.foldl (fun a p => if bit p.2 f then a ||| p.1 else a) 0

/-- The lowest raised flag whose trap is enabled in UCTL (R64): TNV [0], TDZ, TOF, TUF, TNX [4]. -/
def trapFlag (enables flags : Nat) : Option Nat := (upFrom 0 5).find? (fun f => bit flags f && bit enables f)

end Sys2Proof.Machine
end

