-- ==== Sys2Proof/Machine/Units.lean ====
section
/-! DEFINITION. Where things are: clusters, dies, regions, sites and ranks (R8 to R10, R17), and the accessors through
which every other file reads and writes clusters, units, PEs and jobs. -/

namespace Sys2Proof.Machine

/-- The die of a logical cluster (R8). -/
def dieOf (cl : Nat) : Nat := cl / 80

/-- `f` applied to the value of `k`, if it has one. -/
def amod {κ α : Type} [DecidableEq κ] (l : List (κ × α)) (k : κ) (f : α → α) : List (κ × α) :=
  match aget l k with
  | some v => aset l k (f v)
  | none => l

def State.unit (s : State) (u : Nat) : UnitSt := agetD s.units u {}
def State.setUnit (s : State) (u : Nat) (v : UnitSt) : State := { s with units := aset s.units u v }
def State.modUnit (s : State) (u : Nat) (f : UnitSt → UnitSt) : State := { s with units := amod s.units u f }
def State.cluster (s : State) (c : Nat) : Cluster := agetD s.clusters c {}
def State.modCluster (s : State) (c : Nat) (f : Cluster → Cluster) : State :=
  { s with clusters := aset s.clusters c (f (s.cluster c)) }
def State.die (s : State) (d : Nat) : Die := lget s.dies d {}
def State.modDie (s : State) (d : Nat) (f : Die → Die) : State := { s with dies := lmod s.dies d f }
def State.job (s : State) (j : Nat) : Job := agetD s.jobs j {}
def State.modJob (s : State) (j : Nat) (f : Job → Job) : State := { s with jobs := amod s.jobs j f }
def State.queue (s : State) (q : Nat) : Queue := lget s.queues q {}
def State.modQueue (s : State) (q : Nat) (f : Queue → Queue) : State := { s with queues := lmod s.queues q f }

/-- A telemetry counter goes up by `n`, modulo 2^64 (R386). -/
def State.count (s : State) (k n : Nat) : State :=
  { s with fleet := { s.fleet with tele := aset s.fleet.tele k ((agetD s.fleet.tele k 0 + n) % 2 ^ 64) } }

/-- The journal's ring holds its last 8192 records (R338). -/
def ringPush (l : List JournalRec) (r : JournalRec) : List JournalRec := if l.length < 8192 then l ++ [r] else l.tail ++ [r]
/-- A decision is written to the journal: its record takes the next serial number (R338). -/
def State.journal (s : State) (d : Decision) : State :=
  { s with fw := { s.fw with jserial := s.fw.jserial + 1, ring := ringPush s.fw.ring ⟨s.fw.jserial + 1, d⟩ } }

/-- Garnet waits for a standby that lags the whole ring behind (R338); an event of the core that is not the owner is discarded (R339). -/
def State.garnet (s : State) (body : State → State) : State :=
  if s.ev.former || (!s.fw.nostby && decide (s.fw.replayed + 8192 ≤ s.fw.jserial)) then s else body s
/-- The same for what a thread of a mapped queue does: after a takeover the threads resume when the journal has been replayed (R339). -/
def State.thread (s : State) (body : State → State) : State := if s.fw.replayed < s.fw.resumeAt then s else s.garnet body

/-- Clusters of the unit's region (R17). -/
def UnitSt.size (u : UnitSt) : Nat := 2 ^ u.rshape
/-- Whether a unit holds its region: it is placed, and neither saved nor ended. -/
def UnitSt.inRegion (u : UnitSt) : Bool :=
  match u.status with
  | .ready => false
  | .saved _ => false
  | .ended _ => false
  | _ => true
/-- Whether a unit's PEs fire: running, or draining (R361 step 3). -/
def UnitSt.fires (u : UnitSt) : Bool :=
  match u.status with
  | .running => true
  | .draining _ none => true
  | _ => false
/-- Whether operations of the unit that have issued go on to complete: those of a stopped unit do (R353, R354). -/
def UnitSt.completes (u : UnitSt) : Bool :=
  match u.status with
  | .running => true
  | .draining _ _ => true
  | .stopped _ => true
  | _ => false
def UnitSt.isRunning (u : UnitSt) : Bool :=
  match u.status with
  | .running => true
  | _ => false
def UnitSt.isDraining (u : UnitSt) : Bool :=
  match u.status with
  | .draining _ _ => true
  | _ => false
def UnitSt.isEnded (u : UnitSt) : Bool :=
  match u.status with
  | .ended _ => true
  | _ => false
/-- Whether cluster `cl` lies in the unit's region. -/
def UnitSt.covers (u : UnitSt) (cl : Nat) : Bool := decide (u.lead ≤ cl) && decide (cl < u.lead + u.size)
/-- The clusters of a region. -/
def UnitSt.clusterList (u : UnitSt) : List Nat := upFrom u.lead u.size

/-- Flags are raised in USTAT; they survive a write of it in the same arithmetic clock (R64, R198). -/
def UnitSt.raiseFlags (u : UnitSt) (f : Nat) : UnitSt := { u with flags := u.flags.raise f, flagsNow := u.flagsNow.raise f }
/-- USTAT.NARROW is raised (R132). -/
def UnitSt.raiseNarrow (u : UnitSt) : UnitSt := { u with flags := { u.flags with narrow := true }, flagsNow := { u.flagsNow with narrow := true } }

/-- The region-relative key of a PE: rank * 256 + y * 16 + x. -/
def peKey (rank x y : Nat) : Nat := rank * 256 + y * 16 + x
def UnitSt.keyOf (u : UnitSt) (st : Site) : Nat := peKey (st.cl - u.lead) st.x st.y
def UnitSt.siteOf (u : UnitSt) (key : Nat) : Site := ⟨u.lead + key / 256, key % 16, key / 16 % 16, u.ctx⟩

/-- The unit that holds context `ctx` of cluster `cl`. -/
def State.unitAt (s : State) (cl ctx : Nat) : Option Nat :=
  (s.units.find? (fun p => p.2.inRegion && p.2.covers cl && p.2.ctx == ctx)).map Prod.fst

/-- One PE context of a unit; a PE that the image leaves empty has no entry (R17). -/
def UnitSt.pe (u : UnitSt) (key : Nat) : PeCtx := agetD u.pes key {}
def UnitSt.setPe (u : UnitSt) (key : Nat) (p : PeCtx) : UnitSt := { u with pes := aset u.pes key p }
def UnitSt.modPe (u : UnitSt) (key : Nat) (f : PeCtx → PeCtx) : UnitSt := u.setPe key (f (u.pe key))
def PeCtx.queue (p : PeCtx) (q : Nat) : List Token := lget p.q q []
def PeCtx.setQueue (p : PeCtx) (q : Nat) (l : List Token) : PeCtx := { p with q := lput [] p.q q l }
def PeCtx.reg (p : PeCtx) (e : Nat) : EReg := lget p.ereg e {}
def PeCtx.setReg (p : PeCtx) (e : Nat) (r : EReg) : PeCtx := { p with ereg := lput {} p.ereg e r }
/-- OPC of a PE's operation word. -/
def PeCtx.opc (p : PeCtx) : BitVec 7 := p.op.extractLsb' 25 7
/-- The operation word, sequence word and immediate that a PE holds. -/
def PeCtx.word (p : PeCtx) : PeWord :=
  { sub := p.op.extractLsb' 22 3, fmt := p.op.extractLsb' 18 4, sa := p.op.extractLsb' 15 3, sb := p.op.extractLsb' 12 3
    sc := p.op.extractLsb' 9 3, ei := p.op.extractLsb' 6 3, dst := p.op.extractLsb' 4 2, mod := p.op.extractLsb' 1 3
    x := p.op.getLsbD 0, seq := p.seq, imm := p.imm }
/-- A PE that consumes tokens: it holds an operation that is not routes-only (R140). -/
def PeCtx.consumes (p : PeCtx) : Bool := p.hasOp && p.opc != 0x7F#7

/-- The store-buffer entry `id` of a unit. -/
def UnitSt.entry? (u : UnitSt) (id : Nat) : Option SbEntry := u.sb.find? (fun e => e.id == id)
def UnitSt.modEntry (u : UnitSt) (id : Nat) (f : SbEntry → SbEntry) : UnitSt :=
  { u with sb := u.sb.map (fun e => if e.id == id then f e else e) }
def UnitSt.delEntry (u : UnitSt) (id : Nat) : UnitSt := { u with sb := u.sb.filter (fun e => e.id != id) }
/-- Entries that count against the buffer: retired ones are only kept as issued sequence numbers. -/
def UnitSt.liveSb (u : UnitSt) : List SbEntry := u.sb.filter (fun e => e.phase != .retired)

/-- Colour state k of a unit: 0 open, 1 committing, 2 killing. -/
def UnitSt.colState (u : UnitSt) (k : Nat) : Nat :=
  match k with
  | 1 => u.col1
  | 2 => u.col2
  | 3 => u.col3
  | _ => 0
def UnitSt.setCol (u : UnitSt) (k v : Nat) : UnitSt :=
  match k with
  | 1 => { u with col1 := v }
  | 2 => { u with col2 := v }
  | 3 => { u with col3 := v }
  | _ => u
/-- The colour as it counts now: a committing colour counts as 0 (R38). -/
def UnitSt.effCol (u : UnitSt) (c : BitVec 2) : BitVec 2 := if u.colState c.toNat = 1 then 0#2 else c
/-- A token of a killing colour (R39). -/
def UnitSt.killed (u : UnitSt) (t : Token) : Bool := u.colState t.col.toNat == 2

/-- Kinds that a colour holds (R37, R234, R241, R242). A coloured RED waits at its node instead, as R229 says of it. -/
def MemOp.held : MemOp → Bool
  | .st | .stl | .amo | .amx | .stsp | .fence | .flushr => true
  | _ => false
/-- A live store-buffer entry that is a write of a colour not yet decided, whether or not its turn has come (R36, R37). -/
def UnitSt.coloured (u : UnitSt) (e : SbEntry) : Bool :=
  e.op.held && !e.killed && e.phase != .retired && u.effCol e.tok.col != 0#2

/-- The general register g of a unit; g0 reads 0 (R148). -/
def UnitSt.greg (u : UnitSt) (g : BitVec 5) : Word := if g = 0#5 then 0#64 else lget u.g g.toNat 0#64
/-- A write of g; a write to g0 is discarded (R148). -/
def UnitSt.setG (u : UnitSt) (g : BitVec 5) (v : Word) : UnitSt :=
  if g = 0#5 then u else { u with g := lput 0#64 u.g g.toNat v }

/-- Bank roles of a cluster (R121). -/
def Cluster.role (c : Cluster) (k : Nat) : Nat := c.roles.toNat / 4 ^ k % 4
/-- The banks of one role, ascending. -/
def Cluster.banks (c : Cluster) (r : Nat) : List Nat := (upFrom 0 32).filter (fun k => c.role k == r)
/-- The number of cache banks, nc of R86. -/
def Cluster.nc (c : Cluster) : Nat := (c.banks 0).length

/-- Bytes of a token in memory form (R151): bytes 12 to 15 are zero. -/
def tokenNat (t : Token) : Nat :=
  t.payload.toNat + 2 ^ 64 * (t.fmt.toNat + 16 * (t.ctx.toNat + 4 * (t.lvl.toNat + 8 * (t.itag.toNat + 256 *
    (t.wave.toNat + 1024 * (t.col.toNat + 4 * (b2n t.last + 2 * t.kind.toNat)))))))

/-- The TTAG layout of a token (R283). -/
def ttagOf (t : Token) : Nat :=
  t.wave.toNat + 2 ^ 10 * (t.itag.toNat + 256 * (t.lvl.toNat + 8 * (t.col.toNat + 4 * t.ctx.toNat)))

end Sys2Proof.Machine
end

