-- ==== Sys2Proof/Machine/Memory.lean ====
section
/-! DEFINITION. Memory behind the store buffers: home slices, L1 spans, sequence tags, hosts' half-lines and other
devices' lines (R79 to R97, R117). Extended physical addresses name one space: device memory at its PA, host memory
(MT 3) at 2^52 + PA, memory of Fyron device d at 2^53 + 2^40 d + DPA (R82, R84). A line is an address div 128. -/

namespace Sys2Proof.Machine

def hostBase : Nat := 2 ^ 52
def fabBase : Nat := 2 ^ 53
/-- Which memory an extended address names. -/
def isHostXa (xa : Nat) : Bool := decide (hostBase ≤ xa) && decide (xa < fabBase)
def isFabXa (xa : Nat) : Bool := decide (fabBase ≤ xa)
def isDevXa (xa : Nat) : Bool := decide (xa < Config.memSize)

/-- The home slice of a device-memory address (R80): package slice number. -/
def homeSlice (pa : Nat) : Nat :=
  let die := bits pa 8 7 ^^^ bits pa 22 21
  let h := bits pa 24 9 ^^^ bits pa 40 25 ^^^ bits pa 51 41
  192 * die + h % 192

/-- The home's value of a byte. A fabric byte is that of the read-only copy held here (R85). -/
def State.homeByte (s : State) (xa : Nat) : Byte :=
  if isFabXa xa then lget (agetD s.fyL2 (xa / 128) []) (xa % 128) Config.unlistedByte
  else if isHostXa xa then s.hmem.rd (xa - hostBase)
  else s.mem.rd xa

/-- A byte written at its home. Bytes of other devices are not written here. -/
def State.putHome (s : State) (xa : Nat) (b : Byte) : State :=
  if isFabXa xa then s
  else if isHostXa xa then { s with hmem := s.hmem.wr (xa - hostBase) b }
  else { s with mem := s.mem.wr xa b }
def State.putHomeBytes (s : State) (xa : Nat) : List Byte → State
  | [] => s
  | b :: r => State.putHomeBytes (s.putHome xa b) (xa + 1) r

/-- The directory entry of a line; absent is the reset entry (R93). No entry is ever evicted (DESIGN CHOICE, log 49). -/
def State.dirOf (s : State) (line : Nat) : DirEntry := agetD s.dir line {}
def State.modDir (s : State) (line : Nat) (f : DirEntry → DirEntry) : State :=
  { s with dir := aset s.dir line (f (s.dirOf line)) }
/-- One write event of a line (R94). -/
def State.bumpTag (s : State) (line : Nat) : State := s.modDir line (fun d => { d with tag := d.tag + 1#16 })

/-- A span covers word `w` (4-byte words of its region). -/
def Span.has (sp : Span) (region w : Nat) : Bool := sp.region == region && decide (sp.s ≤ w) && decide (w ≤ sp.e)
/-- The region and the first word of a line. -/
def lineRegion (line : Nat) : Nat := line / 32
def lineWord (line : Nat) : Nat := line % 32 * 32
/-- A span touches a line. -/
def Span.touches (sp : Span) (line : Nat) : Bool :=
  sp.region == lineRegion line && decide (sp.s ≤ lineWord line + 31) && decide (lineWord line ≤ sp.e)
/-- The part of a span in words a to b, if any. Its base frame follows its first line (R86). -/
def Span.part (sp : Span) (nc a b : Nat) : Option Span :=
  let lo := if a < sp.s then sp.s else a
  let hi := if sp.e < b then sp.e else b
  if hi < lo then none
  else some { sp with
    s := lo, e := hi
    base := if nc = 0 then sp.base else (sp.base + (lo / 32 - sp.s / 32)) % nc
    words := (sp.words.drop (lo - sp.s)).take (hi + 1 - lo) }
/-- The number of lines of a span. -/
def Span.lines (sp : Span) : Nat := sp.e / 32 + 1 - sp.s / 32
/-- Span `a` ends where `b` begins, at a line boundary, in the same state and with its frames before those of `b` (R89). -/
def Span.joins (nc : Nat) (a b : Span) : Bool :=
  a.region == b.region && a.mesi == b.mesi && a.e + 1 == b.s && b.s % 32 == 0 && (a.base + a.lines) % nc == b.base % nc && decide (a.lines + b.lines ≤ nc)
/-- A span added to others: those that it joins become one with it (R89). -/
def mergeSpan (nc : Nat) : Nat → Span → List Span → List Span
  | 0, sp, l => l ++ [sp]
  | fuel + 1, sp, l =>
    match lfind (fun t => Span.joins nc t sp || Span.joins nc sp t) l with
    | none => l ++ [sp]
    | some i =>
      let t := lget l i sp
      if Span.joins nc t sp then mergeSpan nc fuel { t with e := sp.e, words := t.words ++ sp.words, keep := t.keep || sp.keep } (ldel l i)
      else mergeSpan nc fuel { sp with e := t.e, words := sp.words ++ t.words, keep := t.keep || sp.keep } (ldel l i)
/-- The spans of a cluster after some have changed state: those that now join become one (R89). -/
def Cluster.joinSpans (c : Cluster) : Cluster := { c with spans := c.spans.foldl (fun l sp => mergeSpan c.nc 2 sp l) [] }
/-- The value of a word of a span. -/
def Span.wordAt (sp : Span) (w : Nat) : Word32 := lget sp.words (w - sp.s) 0#32
/-- The byte of a 32-bit word. -/
def byteOf32 (w : Word32) (i : Nat) : Byte := BitVec.ofNat 8 (w.toNat / 256 ^ i)
/-- A 32-bit word with one byte replaced. -/
def setByte32 (w : Word32) (i : Nat) (b : Byte) : Word32 :=
  BitVec.ofNat 32 (w.toNat / 256 ^ (i + 1) * 256 ^ (i + 1) + b.toNat * 256 ^ i + w.toNat % 256 ^ i)

/-- The latest value of a byte in its line's coherence order (R105): an M span's, else that of a writeback on its way,
else the home's. -/
def State.cohByte (s : State) (xa : Nat) : Byte :=
  let w := xa % 4096 / 4
  match s.clusters.findSome? (fun p => (p.2.spans.find? (fun sp => sp.mesi == .M && sp.has (xa / 4096) w))) with
  | some sp => byteOf32 (sp.wordAt w) (xa % 4)
  | none =>
    match s.net.findSome? (fun m => if m.kind == .putM && m.line == xa / 128 then aget m.words w else none) with
    | some v => byteOf32 v (xa % 4)
    | none => s.homeByte xa
/-- Bytes in coherence order. -/
def State.cohBytes (s : State) (xa : Nat) : Nat → List Byte
  | 0 => []
  | n + 1 => s.cohByte xa :: State.cohBytes s (xa + 1) n
def State.cohN (s : State) (xa n : Nat) : Nat := leNat (s.cohBytes xa n)

/-- Words of a span piece written to its home. -/
def State.writeWords (s : State) (region : Nat) : List (Nat × Word32) → State
  | [] => s
  | (w, v) :: r => State.writeWords (s.putHomeBytes (region * 4096 + w * 4) (leBytes 4 v.toNat)) region r
/-- The (word, value) pairs of a span. -/
def Span.pairs (sp : Span) : List (Nat × Word32) := (upFrom sp.s sp.words.length).zip sp.words

/-- The line taken out of a list of spans: what remains, split at line boundaries, and the pieces of the line (R89). -/
def cutLine (nc line : Nat) : List Span → List Span × List Span
  | [] => ([], [])
  | sp :: r =>
    let t := cutLine nc line r
    if sp.touches line then
      let a := lineWord line
      let before := if a = 0 then none else sp.part nc 0 (a - 1)
      let after := sp.part nc (a + 32) 1023
      (before.toList ++ after.toList ++ t.1, (sp.part nc a (a + 31)).toList ++ t.2)
    else (sp :: t.1, t.2)

/-- The message with which an evicted span leaves, one for each of its lines (R89). -/
def evictMsgs (cl : Nat) (sp : Span) : List CohMsg :=
  (upFrom (sp.s / 32) (sp.e / 32 + 1 - sp.s / 32)).map (fun k =>
    { kind := if sp.mesi == .M then .putM else if sp.mesi == .E then .putE else .putS
      line := sp.region * 32 + k, cl := cl
      words := if sp.mesi == .M then sp.pairs.filter (fun p => p.1 / 32 == k) else [] })
/-- The spans of one set. -/
def setSpans (region : Nat) (l : List Span) : List Span := l.filter (fun sp => sp.region % 256 == region % 256)
/-- A set has 16 span tags (R86). -/
def tagsOk (region : Nat) (l : List Span) : Bool := decide ((setSpans region l).length ≤ 16)

/-- A line is cut out of a cluster's spans, and its pieces are given; `back` says that they will be put back. Where too few tags are free
for the cut, what is left of the spans leaves with Put messages (R89). -/
def State.splitLine (s : State) (cl line : Nat) (back : Bool) : State × List Span :=
  let c := s.cluster cl
  let r := cutLine c.nc line c.spans
  if tagsOk (lineRegion line) (r.1 ++ (if back then r.2 else [])) then (s.modCluster cl (fun c => { c with spans := r.1 }), r.2)
  else
    let stay := c.spans.filter (fun sp => !sp.touches line)
    let gone := r.1.filter (fun sp => !stay.contains sp)
    let s1 := s.modCluster cl (fun c => { c with spans := stay })
    ({ s1 with net := s1.net ++ gone.flatMap (evictMsgs cl) }, r.2)
/-- Dirty words of a line's pieces go home as one write event (R94). -/
def State.writeBack (s : State) (line : Nat) (pieces : List Span) : State :=
  let dirty := (pieces.filter (fun sp => sp.mesi == .M)).flatMap Span.pairs
  if dirty.isEmpty then s else (s.writeWords (lineRegion line) dirty).bumpTag line
/-- A span in M or E downgraded to S in one line: it splits, or, where too few tags are free, is in S as a whole and sends a Put message for
each of its other lines (R89). -/
def State.shareLineOf (s : State) (cl line : Nat) : State :=
  let c := s.cluster cl
  let r := cutLine c.nc line c.spans
  let down (sp : Span) : Span := { sp with mesi := .S }
  if tagsOk (lineRegion line) (r.1 ++ r.2) then s.modCluster cl (fun c => { c with spans := r.1 ++ r.2.map down }.joinSpans)
  else
    let hit := c.spans.filter (fun sp => sp.touches line && sp.mesi != .S)
    let msgs := (hit.flatMap (evictMsgs cl)).filter (fun m => m.line != line)
    let s1 := s.modCluster cl (fun c => { c with spans := c.spans.map (fun sp => if sp.touches line then down sp else sp) })
    { s1 with net := s1.net ++ msgs }
/-- One cluster gives up its line, or keeps it in S: dirty words go home as one write event (R89, R94). -/
def State.takeLine (s : State) (cl line : Nat) (keep : Bool) : State :=
  let c := s.cluster cl
  if !c.spans.any (fun sp => sp.touches line) then s
  else if keep then
    (if c.spans.any (fun sp => sp.touches line && sp.mesi != .S) then (s.shareLineOf cl line).writeBack line (cutLine c.nc line c.spans).2 else s)
  else
    let r := s.splitLine cl line false
    r.1.writeBack line r.2

/-- Writebacks of a line still on their way reach the home, one event each; their senders hold it no more. -/
def State.flushPuts (s : State) (line : Nat) : State :=
  let ms := s.net.filter (fun m => m.kind == .putM && m.line == line)
  let s1 := { s with net := s.net.filter (fun m => !(m.kind == .putM && m.line == line)) }
  ms.foldl (fun s m => ((s.writeWords (lineRegion line) m.words).bumpTag line).modDir line (fun d =>
    { d with sharers := if (s.cluster m.cl).spans.any (fun sp => sp.touches line) then d.sharers else d.sharers.filter (· != m.cl) })) s1

/-- Every cluster's copy of a line is given up, or downgraded to S where `keep` says so. -/
def State.recallBut (s : State) (line : Nat) (keep : Nat → Bool) : State :=
  let s1 := (s.clusters.map Prod.fst).foldl (fun s cl => s.takeLine cl line (keep cl)) (s.flushPuts line)
  if (aget s1.dir line).isNone then s1
  else s1.modDir line (fun d =>
    let sh := d.sharers.filter keep
    { d with mesi := if sh.isEmpty then .I else .S, sharers := sh })
/-- Every cluster's copy of a line is downgraded to S (a read performed at the home) or given up (a write). -/
def State.recall (s : State) (line : Nat) (keep : Bool) : State := s.recallBut line (fun _ => keep)

/-- The half of its line in which a byte lies (R117). -/
def halfOf (xa : Nat) : Nat := xa / 64 % 2
def DirEntry.host (d : DirEntry) (host half : Nat) : HState :=
  match host, half with
  | 0, 0 => d.a0
  | 0, _ => d.a1
  | _, 0 => d.b0
  | _, _ => d.b1
def DirEntry.setHost (d : DirEntry) (host half : Nat) (h : HState) : DirEntry :=
  match host, half with
  | 0, 0 => { d with a0 := h }
  | 0, _ => { d with a1 := h }
  | _, 0 => { d with b0 := h }
  | _, _ => { d with b1 := h }
/-- The (host, half) pairs that must be snooped before a device access to these halves performs (R117). -/
def DirEntry.blockers (d : DirEntry) (halves : List Nat) (isWrite : Bool) : List (Nat × Nat) :=
  halves.flatMap (fun h => ([0, 1].filter (fun host =>
    match d.host host h with
    | .Hi => false
    | .Hs => isWrite
    | .Hx => true)).map (fun host => (host, h)))
/-- The halves of `line` that bytes [xa, xa+n) touch. -/
def touchedHalves (line xa n : Nat) : List Nat :=
  [0, 1].filter (fun h => decide (xa < line * 128 + h * 64 + 64) && decide (line * 128 + h * 64 < xa + n))
/-- The lines that bytes [xa, xa+n) touch. -/
def touchedLines (xa n : Nat) : List Nat := if n = 0 then [] else upFrom (xa / 128) ((xa + n - 1) / 128 + 1 - xa / 128)

/-- I, S, E, M by strength (R319). -/
def Mesi.rank : Mesi → Nat
  | .I => 0
  | .S => 1
  | .E => 2
  | .M => 3
/-- The half-lines of host memory that make up a line of it. -/
def hostHalves (line : Nat) : List Nat := [(line * 128 - hostBase) / 64, (line * 128 - hostBase) / 64 + 1]
/-- What a host has granted of a half-line (R319). -/
def State.halfState (s : State) (h : Nat) : Mesi := agetD s.hostHalf h .I
/-- The device's state of a line of host memory: the weaker of its two halves (R319). -/
def State.hostLine (s : State) (line : Nat) : Mesi :=
  (hostHalves line).foldl (fun m h => if (s.halfState h).rank < m.rank then s.halfState h else m) .M
/-- The state of a line of host memory that an access needs: a read S, a write E. -/
def needRank (isWrite : Bool) : Nat := if isWrite then 2 else 1
/-- The half-lines of a line of host memory that an access lacks are requested from the host over CXL.cache (R84, R317, R319). -/
def State.askHost (s : State) (isWrite : Bool) (line : Nat) : State :=
  (hostHalves line).foldl (fun s h =>
    if needRank isWrite ≤ (s.halfState h).rank || s.hostAsk.contains (h, isWrite) || s.hostAsk.contains (h, true) then s
    else { s with hostAsk := s.hostAsk ++ [(h, isWrite)] }) s
/-- Half-lines of host memory that the device has written are in M (R319). -/
def State.dirtyHalves (s : State) (xa n : Nat) : State :=
  if !isHostXa xa || n = 0 then s
  else { s with hostHalf := ((upFrom ((xa - hostBase) / 64) ((xa + n - 1 - hostBase) / 64 + 1 - (xa - hostBase) / 64))).foldl (fun l h =>
    amod l h (fun _ => Mesi.M)) s.hostHalf }

/-- Whether hosts let a device access perform now, and no STXS holds a line of it (R99, R117): no host holds a half of device memory against
it, and the device holds both halves of a line of host memory in the state it needs (R319). -/
def State.hostReady (s : State) (xa n : Nat) (isWrite : Bool) : Bool :=
  isFabXa xa || (touchedLines xa n).all (fun l => (s.dirOf l).lock.isNone &&
    (!isDevXa xa || ((s.dirOf l).blockers (touchedHalves l xa n) isWrite).isEmpty) &&
    (!isHostXa xa || decide (needRank isWrite ≤ (s.hostLine l).rank)))
/-- What an access waits for is asked of the hosts: back-invalidate snoops for device memory (R117), half-lines of host memory (R319). A
line that an STXS holds is not snooped until it is released (R99). -/
def State.sendSnoops (s : State) (xa n : Nat) (isWrite : Bool) : State :=
  if isHostXa xa then (touchedLines xa n).foldl (fun s l => s.askHost isWrite l) s
  else if !isDevXa xa then s
  else (touchedLines xa n).foldl (fun s l =>
    let b := ((s.dirOf l).blockers (touchedHalves l xa n) isWrite).filter (fun p => !(s.dirOf l).snoops.any (fun q => q.1 == p.1 && q.2 % 2 == p.2))
    if b.isEmpty || (s.dirOf l).lock.isSome then s else s.modDir l (fun d => { d with snoops := d.snoops ++ b.map (fun p => (p.1, p.2 + 2 * b2n isWrite)) })) s

/-- A byte written into the cluster's spans that hold it. -/
def Span.putByte (sp : Span) (xa : Nat) (b : Byte) (m : Mesi) : Span :=
  let w := xa % 4096 / 4
  if sp.has (xa / 4096) w then { sp with mesi := m, words := lmod sp.words (w - sp.s) (fun v => setByte32 v (xa % 4) b) } else sp
/-- Bytes written into a cluster's own spans, which are then in state `m` (R91). -/
def State.l1Put (s : State) (cl xa : Nat) (m : Mesi) : List Byte → State
  | [] => s
  | b :: r => State.l1Put (s.modCluster cl (fun c => { c with spans := c.spans.map (fun sp => sp.putByte xa b m) })) cl (xa + 1) m r
/-- The same, and spans that then join become one (R89). -/
def State.l1Write (s : State) (cl xa : Nat) (m : Mesi) (bs : List Byte) : State := (s.l1Put cl xa m bs).modCluster cl Cluster.joinSpans
/-- LEN of a payload in 16-byte units (log 12). -/
def fyLen : FyPayload → Nat
  | .memRead _ _ _ => 1
  | .memWrite _ bs _ _ => 1 + (bs.length + 15) / 16
  | .memParts _ ps _ => 1 + ps.length
  | .memSync _ _ (.adds ps) _ _ _ _ => 2 + ps.length
  | .memSync _ _ _ _ _ _ _ => 2
  | .response _ _ _ bs _ _ => 2 + (bs.length + 15) / 16
  | .failed _ _ => 1
  | .completed _ => 1
  | .invalidate _ => 1
  | .invalidateAck _ => 1
  | .collective _ _ _ _ _ _ _ vs => 2 + (vs.length + 1) / 2
  | .reduction _ _ _ _ _ => 2
  | .management => 0
/-- The device header of a packet as 64 bits (R343). -/
def FyPacket.header (p : FyPacket) : Word :=
  p.ddev ++ p.sdev ++ p.kind ++ p.tc ++ p.zero1 ++ p.len ++ p.hops ++ p.zero2 ++ p.pkey
/-- The whole 256-byte flits of a packet (R343). -/
def fyFlits (len : Nat) : Nat := (8 + 16 * len + 255) / 256
/-- A list cut into pieces of `k`; the fuel bounds their number. -/
def pieces {α : Type} (k : Nat) : Nat → List α → List (List α)
  | 0, l => [l]
  | n + 1, l => if l.length ≤ k then [l] else l.take k :: pieces k n (l.drop k)
/-- A payload in packets of at most 255 units each (R343). -/
def fyFragments : FyPayload → List FyPayload
  | .memWrite pa bs _ tag =>
    let ps := pieces 2048 (bs.length / 2048) bs
    (upFrom 0 ps.length).map (fun i => .memWrite pa (lget ps i []) (i + 1 == ps.length) tag)
  | .collective job grp rank opc ctl _ _ vs =>
    let ps := pieces 480 (vs.length / 480) vs
    (upFrom 0 ps.length).map (fun i => .collective job grp rank opc ctl (480 * i) vs.length (lget ps i []))
  | p => [p]
/-- One packet handed to the Fyron ports with the header of R343. HOPS and PKEY are the device's settings (log 12). -/
def State.fyPacket (s : State) (ddev : Nat) (kind : Nat) (pl : FyPayload) : State :=
  let s1 := s.count 19 (fyFlits (fyLen pl))
  let p : FyPacket := { ddev := BitVec.ofNat 10 ddev, sdev := s.devNum, kind := BitVec.ofNat 4 kind, tc := 0, zero1 := 0
                        len := BitVec.ofNat 8 (fyLen pl), hops := 63, zero2 := 0, pkey := s.fyParts.headD 0, payload := pl }
  { s1 with fyOut := s.fyOut ++ [(agetD s.fyRoute ddev 0, p)] }
/-- A payload sent to a device, in as many packets as it takes (R343). -/
def State.fySend (s : State) (ddev : Nat) (kind : Nat) (pl : FyPayload) : State :=
  (fyFragments pl).foldl (fun s p => s.fyPacket ddev kind p) s

/-- Every copy of a line held by another device is invalidated (R85); the acknowledgement is awaited as (1000 + device). -/
def State.invRemote (s : State) (line : Nat) : State :=
  if (s.dirOf line).remote.isEmpty then s
  else
    let ds := (s.dirOf line).remote
    let s1 := ds.foldl (fun s d => s.fySend d 2 (.invalidate (line * 128))) s
    s1.modDir line (fun d => { d with remote := [], snoops := d.snoops ++ ds.map (fun x => (1000 + x, 0)) })
/-- Whether invalidations of other devices' copies are still to be acknowledged. -/
def State.remotePending (s : State) (line : Nat) : Bool := (s.dirOf line).snoops.any (fun p => decide (1000 ≤ p.1))

/-- A write performed at the home of device or host memory, one event for each line (R94): other copies are given up. -/
def State.homeWrite (s : State) (xa : Nat) (bs : List Byte) : State :=
  let ls := touchedLines xa bs.length
  let s1 := ls.foldl (fun s l => (s.recall l false).invRemote l) s
  (ls.foldl (fun s l => s.bumpTag l) (s1.putHomeBytes xa bs)).dirtyHalves xa bs.length
/-- Bytes written, or added as little-endian numbers, at places of one line, as one write event (R94). -/
def State.homeParts (s : State) (xa : Nat) (add : Bool) (ps : List (Nat × List Byte)) : State :=
  let l := xa / 128
  let s1 := (s.recall l false).invRemote l
  let s2 := ps.foldl (fun (s : State) p =>
    let a := xa + p.1
    let n := p.2.length
    (s.putHomeBytes a (if add then leBytes n ((s.cohN a n + leNat p.2) % 256 ^ n) else p.2)).dirtyHalves a n) s1
  s2.bumpTag l
/-- A write to device memory by the device's own machinery. -/
def State.devWrite (s : State) (pa : Nat) (bs : List Byte) : State := s.homeWrite pa bs
/-- A store performed at the home for a cluster that keeps its copies of the line in S, updated (R95). -/
def State.homeWriteKeep (s : State) (cl xa : Nat) (bs : List Byte) : State :=
  let ls := touchedLines xa bs.length
  let s1 := ls.foldl (fun s l => (s.recallBut l (· == cl)).invRemote l) s
  let s2 := ls.foldl (fun s l => s.bumpTag l) (s1.putHomeBytes xa bs)
  (s2.l1Write cl xa .S bs).dirtyHalves xa bs.length
/-- A read performed at the home: M copies elsewhere are written back (FwdS). -/
def State.homeRead (s : State) (xa n : Nat) : State × List Byte :=
  let s1 := (touchedLines xa n).foldl (fun s l => s.recall l true) s
  (s1, s1.cohBytes xa n)

/-- Frame f belongs to a span (R86). -/
def Span.inFrame (sp : Span) (nc f : Nat) : Bool := decide ((f + nc - sp.base % nc) % nc < sp.lines)
/-- The lowest-numbered run of `k` free contiguous frames of a set (R88). -/
def freeRun (nc k : Nat) (spans : List Span) (region : Nat) : Option Nat :=
  let l := setSpans region spans
  (upFrom 0 nc).find? (fun f => (upFrom 0 k).all (fun i => !l.any (fun sp => sp.inFrame nc ((f + i) % nc))))
/-- The first span of a set leaves the L1, one that hint 3 keeps only if there is no other: the replacement order is private otherwise (R88;
DESIGN CHOICE, log 42). -/
def State.evictOne (s : State) (cl region : Nat) : State :=
  let c := s.cluster cl
  let inSet (sp : Span) : Bool := sp.region % 256 == region % 256
  match (lfind (fun sp => inSet sp && !sp.keep) c.spans).or (lfind inSet c.spans) with
  | none => s
  | some i =>
    let sp := lget c.spans i { region := 0, s := 0, e := 0, mesi := .I, words := [] }
    { (s.modCluster cl (fun c => { c with spans := ldel c.spans i })) with net := s.net ++ evictMsgs cl sp }
/-- A run of `k` frames and a tag, evicting as needed (R88); the fuel is the number of tags. -/
def State.makeRoom (s : State) (cl region k : Nat) : Nat → State × Option Nat
  | 0 => (s, none)
  | fuel + 1 =>
    let c := s.cluster cl
    match freeRun c.nc k c.spans region with
    | some f => if (setSpans region c.spans).length < 16 then (s, some f) else State.makeRoom (s.evictOne cl region) cl region k fuel
    | none => State.makeRoom (s.evictOne cl region) cl region k fuel

/-- A span is added to a cluster's L1. -/
def State.addSpan (s : State) (cl : Nat) (sp : Span) : State :=
  s.modCluster cl (fun c => { c with spans := mergeSpan c.nc 2 sp c.spans })

/-- The gaps between a cluster's spans in words a to b of a region, as (first, last), ascending. -/
def gapsFrom (present : Nat → Bool) : List Nat → List (Nat × Nat)
  | [] => []
  | w :: r =>
    if present w then gapsFrom present r
    else
      match gapsFrom present r with
      | (x, y) :: l => if x = w + 1 then (w, y) :: l else (w, w) :: (x, y) :: l
      | [] => [(w, w)]
/-- The gaps in words a to b that hold some word of w0 to w1 (R88). -/
def State.gaps (s : State) (cl region a b w0 w1 : Nat) : List (Nat × Nat) :=
  let c := s.cluster cl
  (gapsFrom (fun w => c.spans.any (fun sp => sp.has region w)) (upFrom a (b + 1 - a))).filter (fun g => decide (g.1 ≤ w1) && decide (w0 ≤ g.2))
/-- Words a to b become present as one span in state `m` in a run of frames of its own, as coherence order has them; at most nc lines
(R87, R88). -/
def State.installGap (s : State) (cl region : Nat) (m : Mesi) (keep : Bool) (g : Nat × Nat) : State :=
  let nc := (s.cluster cl).nc
  let b := Nat.min g.2 ((g.1 / 32 + nc) * 32 - 1)
  let words : List Word32 := (upFrom g.1 (b + 1 - g.1)).map (fun w => BitVec.ofNat 32 (s.cohN (region * 4096 + w * 4) 4))
  match s.makeRoom cl region (b / 32 + 1 - g.1 / 32) 17 with
  | (s1, some f) => s1.addSpan cl { region := region, s := g.1, e := b, mesi := m, base := f, words := words, keep := keep }
  | (s1, none) => s1
/-- The gaps of words a to b that an access of words w0 to w1 meets are filled in state `m`; words that are held stay as they are
(R87 to R89). -/
def State.installSpan (s : State) (cl region a b w0 w1 : Nat) (m : Mesi) (keep : Bool) : State :=
  if (s.cluster cl).nc = 0 then s else (s.gaps cl region a b w0 w1).foldl (fun s g => s.installGap cl region m keep g) s
/-- No span of a region's set has frame `f`. -/
def frameFree (nc f region : Nat) (spans : List Span) : Bool := !(setSpans region spans).any (fun sp => sp.inFrame nc f)
/-- An M span that word `w` can extend, at its end or at its start, where R87 allows it: in the same line, or into the next line or the line
before if the frame that follows, or precedes, is free (R90). -/
def Span.takesWord (c : Cluster) (region w : Nat) (sp : Span) : Bool :=
  sp.region == region && sp.mesi == .M &&
    ((sp.e + 1 == w && (w % 32 != 0 || (decide (sp.lines < c.nc) && frameFree c.nc ((sp.base + sp.lines) % c.nc) region c.spans))) ||
     (sp.s == w + 1 && (w % 32 != 31 || (decide (sp.lines < c.nc) && frameFree c.nc ((sp.base + c.nc - 1) % c.nc) region c.spans))))
/-- The span so extended. -/
def Span.extendWord (nc w : Nat) (v : Word32) (sp : Span) : Span :=
  if sp.e + 1 = w then { sp with e := w, words := sp.words ++ [v] }
  else { sp with s := w, words := v :: sp.words, base := if w % 32 = 31 then (sp.base + nc - 1) % nc else sp.base }
/-- A write-only span (R90): word `w` extends an M span next to it where R87 allows, or begins a span of its own. -/
def State.installWord (s : State) (cl region : Nat) (w : Nat) : State :=
  let c := s.cluster cl
  if c.nc = 0 || c.spans.any (fun sp => sp.has region w) then s
  else
    let v : Word32 := BitVec.ofNat 32 (s.cohN (region * 4096 + w * 4) 4)
    match lfind (Span.takesWord c region w) c.spans with
    | some i => s.modCluster cl (fun c => { c with spans := lmod c.spans i (Span.extendWord c.nc w v) }.joinSpans)
    | none => s.installGap cl region .M false (w, w)
/-- An access with hint 3 has met these words of a cluster's spans (R88). -/
def State.keepSpans (s : State) (cl region w0 w1 : Nat) : State :=
  s.modCluster cl (fun c => { c with spans := c.spans.map (fun sp =>
    if sp.region == region && decide (sp.s ≤ w1) && decide (w0 ≤ sp.e) then { sp with keep := true } else sp) })

/-- Bytes of a cluster's own spans that cover all of [xa, xa+n), if they do. -/
def State.l1Bytes (s : State) (cl xa n : Nat) : Option (List Byte) :=
  let c := s.cluster cl
  (upFrom xa n).mapM (fun x =>
    (c.spans.find? (fun sp => sp.has (x / 4096) (x % 4096 / 4))).map (fun sp => byteOf32 (sp.wordAt (x % 4096 / 4)) (x % 4)))
/-- Whether every word of [xa, xa+n) is in a span of the cluster in M or E. -/
def State.l1Owns (s : State) (cl xa n : Nat) : Bool :=
  (upFrom xa n).all (fun x => (s.cluster cl).spans.any (fun sp => sp.has (x / 4096) (x % 4096 / 4) && (sp.mesi == .M || sp.mesi == .E)))
/-- Every span of a cluster is written back and dropped (R121, R123). -/
def State.flushL1 (s : State) (cl : Nat) : State :=
  let c := s.cluster cl
  { (s.modCluster cl (fun c => { c with spans := [] })) with net := s.net ++ c.spans.flatMap (evictMsgs cl) }

end Sys2Proof.Machine
end

