-- ==== Sys2Proof/Machine/Translate.lean ====
section
/-! DEFINITION. Translation (R355 to R359): page-table walks, cached translations, and the checks of an access on its page. -/

namespace Sys2Proof.Machine

/-- The kinds of access that a translation checks (R358). `patch` is Garnet's patch write (R334). -/
inductive Acc5 where
  | load | store | atomic | fetch | fence | flushClean | flushInv | tileLoad | tileStore | patch
deriving DecidableEq, Repr

/-- A kind that writes its page (R357, R358). -/
def Acc5.writes : Acc5 → Bool
  | .store | .atomic | .flushInv | .tileStore | .patch => true
  | _ => false

/-- A fault of a translation: cause, DETAIL0 (the entry) and DETAIL1 (level and access code) of R346. -/
structure TFault where
  cause : Nat
  d0 : Word := 0#64
  d1 : Word := 0#64
deriving DecidableEq, Repr

/-- The outcome of a translation: an extended physical address with memory type and scope; a fault; or a wait for a
host's answer to a snoop. -/
inductive TrRes where
  | ok (xa mt scope : Nat)
  | fault (f : TFault)
  | wait
deriving DecidableEq, Repr

/-- The level-l index of a virtual address (R355). -/
def walkIndex (va l : Nat) : Nat :=
  match l with
  | 0 => bits va 55 55
  | 1 => bits va 54 42
  | 2 => bits va 41 29
  | _ => bits va 28 16

/-- Fields of an entry (R355). -/
def pteV (e : Nat) : Bool := bit e 0
def pteR (e : Nat) : Bool := bit e 1
def pteW (e : Nat) : Bool := bit e 2
def pteX (e : Nat) : Bool := bit e 3
def pteScope (e : Nat) : Nat := bits e 6 4
def pteRD (e : Nat) : Bool := bit e 7
def pteCG (e : Nat) : Nat := bits e 9 8
def pteMT (e : Nat) : Nat := bits e 11 10
def pteA (e : Nat) : Bool := bit e 12
def pteD (e : Nat) : Bool := bit e 13
def ptePPN (e : Nat) : Nat := bits e 51 16
def ptePageBase (e : Nat) : Nat := ptePPN e * 65536

/-- A malformed leaf (R358). -/
def malformedLeaf (e l : Nat) : Bool :=
  bits e 15 14 != 0 || pteCG e == 3 || (l == 2 && (pteCG e != 0 || ptePPN e % 8192 != 0))
/-- A malformed table entry: a bit other than V, PPN and SW (R355). -/
def malformedTable (e : Nat) : Bool := bits e 15 1 != 0 || bits e 55 52 != 0

/-- The walk of R358 to a leaf: its level, its address and its value; or the fault and the level. -/
inductive WalkRes where
  | leaf (level addr entry : Nat)
  | fault (cause level entry : Nat)
  | wait (addr : Nat)
deriving DecidableEq, Repr

def walkFrom (s : State) (va : Nat) : Nat → Nat → Nat → WalkRes
  | 0, _, _ => .fault 0x09D 3 0
  | fuel + 1, l, t =>
    let a := t + 8 * walkIndex va l
    if !isDevXa t then .fault (0x093 + 4 * l) l 0
    else if !s.hostReady a 8 false then .wait a
    else if s.bad.contains (a / 128) then .fault (0x092 + 4 * l) l 0
    else
      let e := s.cohN a 8
      if !pteV e then .fault (0x090 + 4 * l) l e
      else if pteR e || pteW e || pteX e then
        if l < 2 || malformedLeaf e l then .fault (0x091 + 4 * l) l e else .leaf l a e
      else if l == 3 || malformedTable e then .fault (0x091 + 4 * l) l e
      else walkFrom s va fuel (l + 1) (ptePageBase e)

def walk (s : State) (root va : Nat) : WalkRes := walkFrom s va 4 0 root

/-- Whether the host port that a host-memory address uses is up (R358, R317). -/
def State.hostPortUp (s : State) (pa : Nat) : Bool :=
  (lget s.ports (16 + bits pa 51 51) {}).state == 2

/-- The address that leaf `e` of level `l` gives `va`. -/
def leafAddr (e l va : Nat) : Nat :=
  if l = 2 then ptePPN e / 8192 * 2 ^ 29 + va % 2 ^ 29 else ptePageBase e + va % 65536

/-- The checks of R358 on a leaf; `none` is no fault. A patch write checks V and the form of the leaf only. -/
def leafFault (s : State) (e l va : Nat) (k : Acc5) : Option Nat :=
  if k == .patch then none
  else if pteScope e > 4 then some 0x08A
  else if (k == .load || k == .flushClean || k == .flushInv || k == .tileLoad) && !pteR e then some 0x080
  else if (k == .store || k == .flushInv || k == .tileStore) && !pteW e then some 0x081
  else if k == .atomic && !(pteR e && pteW e) then some 0x083
  else if k == .fetch && !pteX e then some 0x082
  else if (k == .tileLoad || k == .tileStore) && pteMT e == 3 then some 0x084
  else if pteMT e == 3 && !s.hostPortUp (leafAddr e l va) then some 0x085
  else if k.writes && pteRD e then some 0x08C
  else none

/-- The extended address of a physical address on a page of memory type `mt` (R82, R84). -/
def State.extend (s : State) (pa mt : Nat) : Nat :=
  if mt = 3 then hostBase + pa
  else if !bit pa 51 && bit pa 50 then
    (if bits pa 49 40 = s.devNum.toNat then pa % 2 ^ 40 else fabBase + pa % 2 ^ 50)
  else pa
/-- The checks of R81 and R82 on a translated address; `none` is no fault. -/
def State.rangeFault (_ : State) (pa mt scope : Nat) : Bool :=
  if mt = 3 then false
  else if !bit pa 51 && bit pa 50 then decide (Config.memSize ≤ pa % 2 ^ 40) || decide (scope < 3)
  else !isDevXa pa

/-- A cached translation of `va` for a holder (R359). -/
def tlbHit (s : State) (holder job va : Nat) : Option TlbEntry :=
  s.tlb.find? (fun t => t.holder == holder && t.job == job && decide (t.vpage ≤ va / 65536) && decide (va / 65536 < t.vpage + t.pages))
/-- A leaf with its PPN offset by `d` pages, modulo 2^36 (R356). -/
def ppnAdd (e d : Nat) : Nat := e / 2 ^ 52 * 2 ^ 52 + (ptePPN e + d) % 2 ^ 36 * 65536 + e % 65536
/-- The leaf that a cached entry gives `va`: PPN offset within a group (R356). -/
def TlbEntry.leafFor (t : TlbEntry) (va : Nat) : Nat :=
  if t.level = 2 then t.pte.toNat else ppnAdd t.pte.toNat (va / 65536 - t.vpage)
/-- The pages that a leaf covers, and its first page (R355, R356). -/
def leafSpan (e l va : Nat) : Nat × Nat :=
  let p := va / 65536
  let n := if l = 2 then 8192 else if pteCG e = 1 then 32 else if pteCG e = 2 then 512 else 1
  (p / n * n, n)
/-- A walk's result is cached for a holder, as the leaf of the first page of its span; the oldest entry goes when the TLB is full (R359). -/
def State.tlbFill (s : State) (holder job va e l cap : Nat) : State :=
  let sp := leafSpan e l va
  let base := if l = 2 then e else ppnAdd e (2 ^ 36 - (va / 65536 - sp.1))
  let t : TlbEntry := { holder := holder, job := job, vpage := sp.1, pages := sp.2, level := l, pte := wd base }
  let rest := s.tlb.filter (fun x => !(x.holder == holder && x.job == job && x.vpage == sp.1))
  let full := decide (cap ≤ (rest.filter (fun x => x.holder == holder)).length)
  let rest' := if full then
      match lfind (fun x : TlbEntry => x.holder == holder) rest with
      | some i => ldel rest i
      | none => rest
    else rest
  { s with tlb := rest' ++ [t] }

/-- Translate `va` for an access of kind `k` of a job from cluster `cl` (R358, R359); `acc` is the access code of
R346. A hit of the cluster's or the die's TLB serves unless a write finds D = 0; a walk sets A, and D for a write (R357). -/
def translate (s : State) (cl job va : Nat) (k : Acc5) (acc : Nat) : State × TrRes :=
  let va := va % 2 ^ 56
  let use (s : State) (e l : Nat) : State × TrRes :=
    match leafFault s e l va k with
    | some c => (s, .fault ⟨c, wd e, wd (l + 16 * acc)⟩)
    | none =>
      let pa := leafAddr e l va
      if s.rangeFault pa (pteMT e) (pteScope e) then (s, .fault ⟨0x063, 0#64, 0#64⟩)
      else (s, .ok (s.extend pa (pteMT e)) (pteMT e) (pteScope e))
  let hit := match tlbHit s cl job va with
    | some t => some t
    | none => tlbHit s (320 + dieOf cl) job va
  match hit.filter (fun t => !k.writes || pteD t.pte.toNat) with
  | some t => use s (t.leafFor va) t.level
  | none =>
    match walk s (s.job job).ptroot va with
    | .wait a => (s.sendSnoops a 8 false, .wait)
    | .fault c l e => (s, .fault ⟨c, wd e, wd (l + 16 * acc)⟩)
    | .leaf l a e =>
      match leafFault s e l va k with
      | some c => (s, .fault ⟨c, wd e, wd (l + 16 * acc)⟩)
      | none =>
        let e1 := e ||| 2 ^ 12 ||| (if k.writes then 2 ^ 13 else 0)
        if e1 != e && !s.hostReady a 8 true then (s.sendSnoops a 8 true, .wait)
        else
          let s1 := if e1 = e then s else s.devWrite a (leBytes 8 e1)
          use ((s1.tlbFill cl job va e1 l 256).tlbFill (320 + dieOf cl) job va e1 l 8192) e1 l

/-- The page of `va` is read-duplicate, by the translation that a cluster or its die holds (R120, R238). -/
def heldRD (s : State) (cl job va : Nat) : Bool :=
  let va := va % 2 ^ 56
  ((tlbHit s cl job va).or (tlbHit s (320 + dieOf cl) job va)).any (fun t => pteRD (t.leafFor va))

/-- Where a job's translation of `va` points now, without any effect; 0 when it points nowhere. -/
def State.peekXa (s : State) (cl job va : Nat) : Nat :=
  let va := va % 2 ^ 56
  match (tlbHit s cl job va).or (tlbHit s (320 + dieOf cl) job va) with
  | some t => s.extend (leafAddr (t.leafFor va) t.level va) (pteMT (t.leafFor va))
  | none =>
    match walk s (s.job job).ptroot va with
    | .leaf l _ e => s.extend (leafAddr e l va) (pteMT e)
    | _ => 0

/-- Translate and require the host halves of device memory for a read or a write of `n` bytes. -/
def translateReady (s : State) (cl job va n : Nat) (k : Acc5) (acc : Nat) : State × TrRes :=
  match translate s cl job va k acc with
  | (s1, .ok xa mt sc) =>
    if s1.hostReady xa n k.writes then (s1, .ok xa mt sc) else (s1.sendSnoops xa n k.writes, .wait)
  | r => r

/-- The physical address that an extended one stands for (R82, R84). -/
def physOf (xa : Nat) : Nat := if isFabXa xa then 2 ^ 50 + (xa - fabBase) else if isHostXa xa then xa - hostBase else xa
/-- Cause 0x160 of an access that consumes a line whose check fails (R369). -/
def badLine (s : State) (xa n : Nat) : Option TFault :=
  ((touchedLines xa n).find? (fun l => s.bad.contains l)).map (fun l => ⟨0x160, 0#64, wd (physOf (l * 128))⟩)

/-- A request to the device that owns a fabric address, made for a unit's entry or command `who` = (unit, number), or (0, 0) (R82). -/
def State.fyRequest (s : State) (xa : Nat) (who : Nat × Nat) (pl : Nat → FyPayload) : State :=
  { s.fySend ((xa - fabBase) / 2 ^ 40) 0 (pl s.fyTag) with fyTag := s.fyTag + 1, fyWait := s.fyWait ++ [(s.fyTag, who.1, who.2)] }
/-- `n` bytes at a translated address that the hosts let us read, at once: at their home or in coherence order. A line of another device
must be held here (R85); else it is requested, for (0, line), and the read waits. -/
def State.readXa (s : State) (xa n : Nat) : State × Except TrRes (List Byte) :=
  if isFabXa xa then
    if (touchedLines xa n).all (fun l => (aget s.fyL2 l).isSome) then
      (match badLine s xa n with
       | some f => (s, .error (.fault f))
       | none => (s, .ok (s.cohBytes xa n)))
    else
      let miss := (touchedLines xa n).filter (fun l => (aget s.fyL2 l).isNone && !s.fyWait.any (fun p => p.2 == (0, l)))
      (miss.foldl (fun s l => s.fyRequest (l * 128) (0, l) (fun t => .memRead (l * 128 % 2 ^ 40) 128 t)) s, .error .wait)
  else
    match badLine s xa n with
    | some f => (s, .error (.fault f))
    | none => let r := s.homeRead xa n; (r.1, .ok r.2)
/-- Read `n` bytes of G space within one page at once, at their home or in coherence order. -/
def readG (s : State) (cl job va n : Nat) (k : Acc5) (acc : Nat) : State × Except TrRes (List Byte) :=
  match translateReady s cl job va n k acc with
  | (s1, .ok xa _ _) => s1.readXa xa n
  | (s1, r) => (s1, .error r)

/-- A read through the cluster's L1 at a translated address: its own spans serve it, or it is read (R89). -/
def State.readNearXa (s : State) (cl xa n mt : Nat) : State × Except TrRes (List Byte) :=
  match (if mt = 2 || isFabXa xa then none else s.l1Bytes cl xa n), badLine s xa n with
  | some _, some f => (s, .error (.fault f))
  | some bs, none => (s, .ok bs)
  | none, _ => s.readXa xa n
/-- The same for a virtual address. -/
def readNear (s : State) (cl job va n : Nat) (k : Acc5) (acc : Nat) : State × Except TrRes (List Byte) :=
  match translateReady s cl job va n k acc with
  | (s1, .ok xa mt _) => s1.readNearXa cl xa n mt
  | (s1, r) => (s1, .error r)
/-- Bytes written at a translated address: at the home, or sent to the device that owns it; the read-only copy held here goes (R85). -/
def State.writeXa (s : State) (who : Nat × Nat) (xa : Nat) (bs : List Byte) : State :=
  if isFabXa xa then
    ({ s with fyL2 := (touchedLines xa bs.length).foldl adel s.fyL2 } : State).fyRequest xa who (fun t => .memWrite (xa % 2 ^ 40) bs true t)
  else s.homeWrite xa bs
/-- Write bytes of G space within one page at once. -/
def writeG (s : State) (who : Nat × Nat) (cl job va : Nat) (bs : List Byte) (k : Acc5) (acc : Nat) : State × Option TrRes :=
  match translateReady s cl job va bs.length k acc with
  | (s1, .ok xa _ _) => (s1.writeXa who xa bs, none)
  | (s1, r) => (s1, some r)
/-- Requests to other devices that a unit's entry or command, or everything of the unit, still has open: not answered, or answered with
copies still to invalidate (R85, R108). -/
def State.fyPending (s : State) (p : Nat × Nat → Bool) : Bool := (s.fyWait ++ s.fyOpen).any (fun t => t.2.1 != 0 && p t.2)
/-- Some line of this device has copies on other devices that are still to be invalidated (R85). -/
def State.anyRemote (s : State) : Bool := s.dir.any (fun p => p.2.snoops.any (fun q => decide (1000 ≤ q.1)))
/-- A release of unit `uid` at fabric or system scope may complete (R108): its earlier writes to other devices are complete, and remote
copies of what was written here are gone. -/
def State.fabricReleased (s : State) (uid : Nat) : Bool := !s.fyPending (fun w => w.1 == uid) && !s.anyRemote

end Sys2Proof.Machine
end

