-- ==== Sys2Proof/Machine/Objects.lean ====
section
/-! DEFINITION. Graph objects, launch descriptors and tables in memory, as the device's own machinery reads them (R327 to
R330, R336, R337): through the job's page table, in coherence order. -/

namespace Sys2Proof.Machine

/-- A number read from G space of a job without any effect; bytes that do not translate read 0 (registration has
checked an object's pages, R331). -/
def peekG (s : State) (job va n : Nat) : Nat :=
  match walk s (s.job job).ptroot (va % 2 ^ 56) with
  | .leaf l _ e =>
    let pa := leafAddr e l (va % 2 ^ 56)
    s.cohN (s.extend pa (pteMT e)) n
  | _ => 0

/-- A piece of an object within one page waits for a host, or for the device that owns it: the state with the requests sent (R85, R117). -/
def State.pieceWaits (s : State) (job va n : Nat) : Option State :=
  match walk s (s.job job).ptroot (va % 2 ^ 56) with
  | .wait a => some (s.sendSnoops a 8 false)
  | .fault _ _ _ => none
  | .leaf l _ e =>
    let xa := s.extend (leafAddr e l (va % 2 ^ 56)) (pteMT e)
    if !s.hostReady xa n false then some (s.sendSnoops xa n false)
    else if !isFabXa xa then none
    else
      match s.readXa xa n with
      | (s1, .error .wait) => some s1
      | _ => none
/-- A host holds a part of a range exclusively, or of the tables that map it: the state with the snoops sent (R117). The device's own
machinery takes up the object of an instance only when none does (log 9). -/
def State.rangeWaits (s : State) (job va n : Nat) : Option State :=
  (upFrom (va / 65536) ((va + n - 1) / 65536 + 1 - va / 65536)).findSome? (fun p =>
    let lo := Nat.max va (p * 65536)
    s.pieceWaits job lo (Nat.min (va + n) (p * 65536 + 65536) - lo))
/-- The same of the graph object at `base`. -/
def State.objectWaits (s : State) (job base : Nat) : Option State :=
  (s.rangeWaits job base 64).or (s.rangeWaits job base (peekG s job (base + 4) 4))

/-- The same of the objects of every running instance, which the pool compares (R291). -/
def State.anyObjectWaits (s : State) : Option State :=
  (s.insts.filter (fun i => i.status.isNone)).findSome? (fun i => s.objectWaits i.job i.base.toNat)

/-- A launch descriptor (R329). -/
structure LaunchDesc where
  entry : Nat
  args : Nat
  image : Nat
  nunit : Nat
  g1 : Nat
  g2 : Nat
  dies : Nat
  rshape : Nat
  ovfBase : Nat
  ovfCap : Nat
  uctl : Nat
  lvl : Nat
  cdone : Nat
deriving DecidableEq, Repr

def launchDesc (s : State) (job base idx : Nat) : LaunchDesc :=
  let a := base + peekG s job (base + 20) 4 + 64 * idx
  let d := peekG s job a 64
  { entry := bits d 63 0, args := bits d 127 64, image := bits d 191 128, nunit := bits d 207 192 + 1
    g1 := bits d 223 208 + 1, g2 := bits d 239 224 + 1, dies := bits d 247 240, rshape := bits d 255 248
    ovfBase := bits d 319 256, ovfCap := bits d 351 320, uctl := bits d 383 352, lvl := bits d 447 384, cdone := bits d 511 448 }
def LaunchDesc.usesWeight (d : LaunchDesc) : Bool := bit d.dies 4
def LaunchDesc.fill (d : LaunchDesc) : Bool := bit d.dies 5
def LaunchDesc.claim (d : LaunchDesc) : Bool := bit d.dies 6

/-- A node table entry (R328). -/
structure NodeDesc where
  kind : Nat
  hold : Bool
  arg : Nat
  depth : Nat
  ndep : Nat
  cond : Nat
  body : Nat
  nbody : Nat
  depOff : Nat
deriving DecidableEq, Repr

def nodeDesc (s : State) (job base i : Nat) : NodeDesc :=
  let d := peekG s job (base + peekG s job (base + 16) 4 + 32 * i) 32
  { kind := bits d 7 0, hold := bit d 8, arg := bits d 31 16, depth := bits d 47 32, ndep := bits d 63 48
    cond := bits d 127 64, body := bits d 143 128, nbody := bits d 159 144, depOff := bits d 255 192 }
/-- The nodes on which node `i` depends. -/
def nodeDeps (s : State) (job base i : Nat) : List Nat :=
  let d := nodeDesc s job base i
  (upFrom 0 d.ndep).map (fun k => peekG s job (base + d.depOff + 2 * k) 2)
/-- Header counts (R327). -/
def objNodes (s : State) (job base : Nat) : Nat := peekG s job (base + 8) 2
def objLaunches (s : State) (job base : Nat) : Nat := peekG s job (base + 10) 2
def objPatches (s : State) (job base : Nat) : Nat := peekG s job (base + 12) 2
def objReds (s : State) (job base : Nat) : Nat := peekG s job (base + 14) 2

/-- A reduction group entry (R330). -/
structure RedGroup where
  target : Nat
  op : Nat
  fmt : Nat
  count : Nat
  launch : Nat
  listOff : Nat
  done : Nat
deriving DecidableEq, Repr

def redGroup (s : State) (job base g : Nat) : RedGroup :=
  let d := peekG s job (base + peekG s job (base + 28) 4 + 64 * g) 64
  { target := bits d 63 0, op := bits d 71 64, fmt := bits d 79 72, count := bits d 95 80, launch := bits d 111 96
    listOff := bits d 191 128, done := bits d 255 192 }
/-- The declared contributors (NODE, unit index) of a group. -/
def redContributors (s : State) (job base g : Nat) : List (Nat × Nat) :=
  let r := redGroup s job base g
  (upFrom 0 r.count).map (fun k => let c := peekG s job (base + r.listOff + 4 * k) 4; (bits c 7 0, bits c 27 16))

/-- The instance with this id. -/
def State.inst? (s : State) (i : Nat) : Option Instance := s.insts.find? (fun x => x.id == i)
def State.modInst (s : State) (i : Nat) (f : Instance → Instance) : State :=
  { s with insts := s.insts.map (fun x => if x.id == i then f x else x) }
def State.phase? (s : State) (i : Nat) : Option Phase := s.phases.find? (fun x => x.id == i)
def State.modPhase (s : State) (i : Nat) (f : Phase → Phase) : State :=
  { s with phases := s.phases.map (fun x => if x.id == i then f x else x) }
/-- The launch descriptor of a unit. -/
def State.descOf (s : State) (u : UnitSt) : LaunchDesc :=
  match s.inst? u.inst with
  | some i => launchDesc s u.job i.base.toNat u.launch
  | none => launchDesc s u.job 0 u.launch

end Sys2Proof.Machine
end

