-- ==== Sys2Proof/Machine/Ops.lean ====
section
/-! DEFINITION. The shared operations over units: fault records, taking an exception and returning from it, escalation,
the ends of levels with their completion words, cancels, quiescence and colour counts (R36, R41, R44 to R46, R341, R345 to
R353). -/

namespace Sys2Proof.Machine

/-! ### Fault records -/

/-- A fault record before it is laid out (R346). -/
structure FaultRec where
  cause : Nat
  src : Nat := 2
  stop : Bool := false
  uend : Bool := false
  hnd : Bool := false
  handle : Nat := 0
  cl : Nat := 0x1FF
  x : Nat := 0
  y : Nat := 0
  ctx : Nat := 0
  nounit : Bool := true
  nope : Bool := true
  job : Nat := 0
  unitid : Nat := 0
  launch : Nat := 0
  kseq : Nat := 0
  ccnt : Nat := 0
  ttag : Nat := 0
  addr : Nat := 0
  d0 : Nat := 0
  d1 : Nat := 0
deriving DecidableEq, Repr

/-- The 64 bytes of a record (R346). -/
def FaultRec.bytes (r : FaultRec) : List Byte :=
  leBytes 2 (r.cause % 512 + 512 * (r.src % 4) + 2048 * b2n r.stop + 4096 * b2n r.uend + 8192 * b2n r.hnd) ++
  leBytes 2 r.handle ++ leBytes 2 r.cl ++ leBytes 1 (r.x % 16 + 16 * (r.y % 16)) ++
  leBytes 1 (r.ctx % 4 + 64 * b2n r.nounit + 128 * b2n r.nope) ++
  leBytes 4 r.job ++ leBytes 2 r.unitid ++ leBytes 2 r.launch ++ leBytes 2 r.kseq ++ leBytes 6 0 ++
  leBytes 8 r.ccnt ++ leBytes 8 r.ttag ++ leBytes 8 r.addr ++ leBytes 8 r.d0 ++ leBytes 8 r.d1

/-- The place of a ring's next record (R341). -/
def FaultRing.slot (q : FaultRing) : Nat := q.base + 64 * (q.head.toNat % 2 ^ q.size)
/-- The bytes of a record put into a ring (R341): at FQBASE + 64 (n mod 2^FQSIZE), followed by the ring's MSI-X vector, or counted in
FQLOST. -/
def State.putRecord (s : State) (ring : Nat) (bs : List Byte) : State :=
  let q := lget s.rings ring {}
  if q.size < 4 || (q.head - q.tail).toNat = 2 ^ q.size then
    { s with rings := lmod s.rings ring (fun q => { q with lost := q.lost + 1#32 }) }
  else
    let s1 := s.devWrite q.slot bs
    { s1 with rings := lmod s1.rings ring (fun q => { q with head := q.head + 1#32 }), msix := s1.msix ++ [ring] }
/-- A word or a record of the device itself, not yet written. -/
def DevOp.isOwn : DevOp → Bool
  | .packet _ => false
  | _ => true
/-- A request to another device made before request `tag` is open: those for a read-only copy, (0, line), do not count. -/
def State.openBefore (s : State) (tag : Nat) : Bool :=
  (s.fyWait ++ s.fyOpen).any (fun t => decide (t.1 < tag) && !(t.2.1 == 0 && t.2.2 != 0))
/-- A record for a ring waits for what the device has sent to other devices before it, as a release at system scope (R108, R341), and for the
hosts that hold its place (R117). -/
def State.recordWaits (s : State) (ring tag : Nat) (lines : List Nat) : Bool :=
  s.openBefore tag || lines.any s.remotePending || !s.hostReady (lget s.rings ring {}).slot 64 true
/-- A record written to a ring, or kept until it can be, behind the words and records before it (R341; log 9). -/
def State.writeRecordBytes (s : State) (ring : Nat) (bs : List Byte) : State :=
  let lines := (s.dir.map Prod.fst).filter s.remotePending
  if s.devPend.any DevOp.isOwn || s.recordWaits ring s.fyTag lines then
    let s1 := s.sendSnoops (lget s.rings ring {}).slot 64 true
    { s1 with devPend := s1.devPend ++ [.record ring bs s1.fyTag lines] }
  else s.putRecord ring bs
def State.writeRecord (s : State) (ring : Nat) (r : FaultRec) : State := s.writeRecordBytes ring r.bytes
/-- Bytes of a save area written by the device, or kept until the hosts have answered (R117; log 9). -/
def State.writeAreaBytes (s : State) (pa : Nat) (bs : List Byte) : State :=
  if s.devPend.any DevOp.isOwn || !s.hostReady pa bs.length true then
    let s1 := s.sendSnoops pa bs.length true
    { s1 with devPend := s1.devPend ++ [.area pa bs] }
  else s.devWrite pa bs
/-- The ring of a job: that of the mapped queue it is bound to, or the device ring (R347). -/
def State.ringOf (s : State) (job : Nat) : Nat :=
  match aget s.jobs job with
  | some j => j.queue
  | none => 32
/-- A record of the device (R341). -/
def State.devRecord (s : State) (cause src : Nat) : State := s.writeRecord 32 { cause := cause, src := src }
/-- A record that names a job and no unit. -/
def State.jobRecord (s : State) (job cause src : Nat) (addr d0 d1 : Nat) : State :=
  s.writeRecord (s.ringOf job) { cause := cause, src := src, job := job, addr := addr, d0 := d0, d1 := d1 }

/-- The fields of a record that name a unit. -/
def unitRec (u : UnitSt) (cause src : Nat) : FaultRec :=
  { cause := cause, src := src, cl := u.lead, ctx := u.ctx, nounit := false, job := u.job, unitid := u.unitid.toNat
    launch := u.launch, kseq := u.kseq, ccnt := u.ccnt.toNat, hnd := u.handler }
/-- The record of a raised fault of a unit, at PE `key` or at a control word. -/
def faultRec (u : UnitSt) (key : Option Nat) (r : Raised) : FaultRec :=
  let b := unitRec u r.cause (if r.ctl then 1 else if r.cause = 0x111 then 2 else 0)
  let b := { b with ttag := if r.ctl then 0 else ttagOf r.tag, addr := r.addr.toNat, d0 := r.d0.toNat, d1 := r.d1.toNat }
  match key with
  | some k => let st := u.siteOf k; { b with cl := st.cl, x := st.x, y := st.y, nope := false }
  | none => b
/-- A record for unit `uid`, written to its job's ring. -/
def State.unitRecord (s : State) (uid : Nat) (r : FaultRec) : State := s.writeRecord (s.ringOf (s.unit uid).job) r

/-! ### Quiescence and colours -/

/-- A flight that belongs to a unit. -/
def UnitSt.ownsFlight (u : UnitSt) (f : Flight) : Bool := u.covers f.pos.cl && f.pos.ctx == u.ctx
/-- A token that a node holds. -/
def NodeState.token? : NodeState → Option Token
  | .wadvHold t => some t
  | .gateHold t => some t
  | .tagnewWait t _ => some t
  | .colorWait t _ => some t
  | .inv t _ _ => some t
  | .cntrTrig t _ _ _ _ => some t
  | _ => none
/-- The tokens of a PE context: queued, held in the node, and results on their way to the out port. -/
def PeCtx.tokens (p : PeCtx) : List Token :=
  p.q.flatten ++ p.node.token?.toList ++ p.out.filterMap (fun o => match o with
    | .ready t => some t
    | .pending _ => none)
/-- All tokens of a unit, outside sinks. -/
def State.tokensOf (s : State) (u : UnitSt) : List Token :=
  (u.pes.flatMap (fun p => p.2.tokens)) ++ u.ms.map MsEntry.tok ++ u.ovf.map MsEntry.tok ++
    (s.flights.filter u.ownsFlight).map Flight.tok

/-- The exact counter of colour k (R36): tokens; the writes of colour k in the store buffer, which are held from their firing on (R37);
and held faults. -/
def State.colourCount (s : State) (u : UnitSt) (k : Nat) : Nat :=
  ((s.tokensOf u).filter (fun t => t.kind == 0#2 && t.col.toNat == k)).length +
  (u.sb.filter (fun e => e.tok.col.toNat == k && ((e.op.held && !e.killed && e.phase != .retired) || e.heldFault.isSome))).length

/-- Engine commands that a unit has outstanding (R41). -/
def State.commandsOf (s : State) (uid : Nat) : Nat :=
  let inb (l : List InMsg) : Nat := (l.filter (fun m => m.unit == uid)).length
  (s.clusters.foldl (fun n p => n + inb p.2.inMatrix + inb p.2.inCopy + inb p.2.inGather +
    (p.2.mq.filter (fun o => o.unit == uid)).length) 0) +
  (s.dies.foldl (fun n d => n + inb d.inColl) 0) + (s.runs.filter (fun r => r.m.unit == uid)).length

/-- The region of a unit is quiescent in its context (R41). -/
def State.quiescent (s : State) (uid : Nat) (u : UnitSt) : Bool :=
  (s.tokensOf u).isEmpty && u.liveSb.isEmpty && decide (s.commandsOf uid = 0)

/-! ### The ends of levels -/

/-- What a job's units, and the device for them, wrote to fabric and system scope is complete (R112). -/
def State.jobReleased (s : State) (job : Nat) : Bool :=
  !s.fyPending (fun w => (s.unit w.1).job == job) && !(s.fyWait ++ s.fyOpen).any (fun t => t.2 == (0, 0)) && !s.anyRemote
/-- What ended units of a job had sent to a home has its write acks (R45, R108). -/
def State.leftDone (s : State) (job : Nat) : Bool :=
  s.units.all (fun p => p.2.job != job || !p.2.isEnded || p.2.sb.all (fun e => e.phase == .retired))
/-- A release of a work level of a job at scope `sc` may complete (R44, R108, R112). -/
def State.levelReleased (s : State) (job sc : Nat) : Bool := s.leftDone job && (decide (sc < 3) || s.jobReleased job)
/-- The device's own write of `n` bytes through a job's page table (R44, R334, R336): at its home, or sent to the device that owns
the page; or a cause; or a wait for a host's answer. A `store` is a release: `rel` says when it may be made at the scope of its page (R44,
R110, R112). -/
def State.garnetWrite (s : State) (job va n v : Nat) (k : Acc5) (rel : State → Nat → Bool := fun s sc => s.levelReleased job sc) :
    State × Option TrRes :=
  match translateReady s 0 job va n k 4 with
  | (s1, .ok xa _ sc) =>
    if k == .store && va % n != 0 then (s1, some (.fault ⟨0x060, 0#64, 0#64⟩))
    else if k == .store && !rel s1 sc then (s1, some .wait)
    else (s1.writeXa (0, 0) xa (leBytes n v), none)
  | (s1, r) => (s1, some r)
/-- The work level that a record names: LAUNCH and KSEQ (R44). -/
structure LevelId where
  launch : Nat := 0
  kseq : Nat := 0
/-- A completion word written through the job's page table, or kept until the hosts have answered and what it releases is complete (R44; log
9): it goes behind the words of the job before it. A fault leaves no word and writes a record that names the job and the level. -/
def State.putWord (s : State) (job va v : Nat) (l : LevelId) : State :=
  let keep (s : State) : State := { s with devPend := s.devPend ++ [.word job va v l.launch l.kseq] }
  if s.devPend.any (fun o => match o with
    | .word j _ _ _ _ => j == job
    | _ => false) then keep s
  else
    match s.garnetWrite job va 8 v .store with
    | (s1, some (.fault f)) => s1.writeRecord (s1.ringOf job)
        { cause := f.cause, src := 2, job := job, launch := l.launch, kseq := l.kseq, addr := va, d0 := f.d0.toNat, d1 := f.d1.toNat }
    | (s1, some _) => keep s1
    | (s1, none) => s1
/-- The completion word of a level (R44). -/
def State.completionWord (s : State) (job : Nat) (l : LevelId) (va : Word) (ndone nfail level status : Nat) : State :=
  if va = 0#64 then s
  else s.putWord job va.toNat (ndone % 2 ^ 32 * 2 ^ 32 + (if nfail > 0xFFFF then 0xFFFF else nfail) * 2 ^ 16 + level * 2 ^ 12 + status) l

/-- STATUS of a level (R44). -/
def levelStatus (cancelled : Bool) (nfail : Nat) : Nat := if cancelled then 2 else if nfail > 0 then 3 else 1

/-- The phase loses an instance that has ended. -/
def State.countPhase (s : State) (ph : Option Nat) (status : Nat) : State :=
  match ph with
  | none => s
  | some p => s.modPhase p (fun x => if status = 1 then { x with ok := x.ok + 1 } else { x with bad := x.bad + 1 })

/-- How a node has ended. -/
def NodeRec.ended? (n : NodeRec) : Option Nat :=
  match n.st with
  | .ended st => some st
  | _ => none
def NodeRec.isRunning (n : NodeRec) : Bool :=
  match n.st with
  | .running => true
  | _ => false
/-- An instance whose nodes have all ended ends with its completion word (R44). -/
def State.settleInst (s : State) (i : Nat) : State :=
  match s.inst? i with
  | none => s
  | some inst =>
    if inst.status.isSome || inst.nodes.any (fun n => n.ended?.isNone) then s
    else
      let ok := (inst.nodes.filter (fun n => n.ended? == some 1)).length
      let bad := inst.nodes.length - ok
      let st := levelStatus inst.cancelled bad
      let s1 := s.modInst i (fun x => { x with status := some st, ok := ok, bad := bad })
      (s1.completionWord inst.job { kseq := inst.kseq } inst.cdone ok bad 2 st).countPhase inst.phase st

/-- The body nodes of a node (R328). -/
def bodyOf (d : NodeDesc) : List Nat := upFrom d.body d.nbody
/-- A cond, switch or arm node that runs ends when every body node has ended; its status is 3 when one of them failed. A
while waits for Jasper to read its word again (R289). -/
def State.settleParents (s : State) (i : Nat) : Nat → State
  | 0 => s
  | fuel + 1 =>
    match s.inst? i with
    | none => s
    | some inst =>
      let ready := (upFrom 0 inst.nodes.length).filter (fun n =>
        let d := nodeDesc s inst.job inst.base.toNat n
        (lget inst.nodes n {}).isRunning && d.kind != 0 && d.kind != 2 &&
          (bodyOf d).all (fun b => (lget inst.nodes b {}).ended?.isSome))
      if ready.isEmpty then s
      else
        let s1 := s.modInst i (fun x => { x with nodes := ready.foldl (fun ns n =>
          let d := nodeDesc s inst.job inst.base.toNat n
          let bad := (bodyOf d).any (fun b => (lget ns b {}).ended? != some 1)
          lmod ns n (fun r => { r with st := .ended (if bad then 3 else 1) })) x.nodes })
        State.settleParents s1 i fuel

/-- A node of an instance ends with a status; parents and the instance follow. -/
def State.endNode (s : State) (i n status : Nat) : State :=
  let s1 := s.modInst i (fun x => { x with nodes := lmod x.nodes n (fun r => { r with st := .ended status, inPool := false }) })
  (s1.settleParents i 8).settleInst i

/-- A unit of a launch node has ended: NDONE or NFAIL; when all have, the launch ends with its word (R43, R44). -/
def State.countUnit (s : State) (i n status : Nat) : State :=
  match s.inst? i with
  | none => s
  | some inst =>
    let s1 := s.modInst i (fun x => { x with nodes := lmod x.nodes n (fun r =>
      if status = 1 then { r with ok := r.ok + 1 } else { r with bad := r.bad + 1 }) })
    let r := lget (match s1.inst? i with
      | some x => x.nodes
      | none => []) n {}
    let nd := nodeDesc s inst.job inst.base.toNat n
    let d := launchDesc s inst.job inst.base.toNat nd.arg
    if r.ok + r.bad < d.nunit || !r.isRunning then s1
    else
      let st := levelStatus r.cancelled r.bad
      (s1.completionWord inst.job { launch := nd.arg, kseq := inst.kseq } (wd d.cdone) r.ok r.bad 1 st).endNode i n st

/-- Another unit of the job holds a cluster too. -/
def State.sharesCluster (s : State) (uid : Nat) (cl : Nat) : Bool :=
  s.units.any (fun p => p.1 != uid && p.2.job == (s.unit uid).job && p.2.inRegion && p.2.covers cl)
/-- The halts of a unit are lifted (R367): the flags of its PEs, and the halts of clusters and PEs that no other unit of the job shares; those
of whole clusters and of PEs are kept for restore. A pre-emption or a cancel sets REASON 4. DEBUG-HOLD ends when no part of the job is halted. -/
def State.liftHalts (s : State) (uid : Nat) (reason : Bool) : State :=
  let u := s.unit uid
  let whole := (s.job u.job).haltCl.filter u.covers
  if !u.inRegion || (whole.isEmpty && !u.pes.any (fun p => p.2.halted)) then s
  else
    let gone (c : Nat) : Bool := u.covers c && !s.sharesCluster uid c
    let s1 := s.modUnit uid (fun u => { u with
      pes := u.pes.map (fun p => (p.1, { p.2 with haltSaved := p.2.halted, halted := false, stepOnce := false }))
      haltRanks := whole.map (fun c => c - u.lead) })
    let s2 := s1.modJob u.job (fun j => { j with
      dbgReason := if reason then 4 else j.dbgReason, haltCl := j.haltCl.filter (fun c => !gone c), haltPe := j.haltPe.filter (fun p => !gone p.1) })
    let j := s2.job u.job
    let still := !j.haltCl.isEmpty || !j.haltPe.isEmpty || s2.units.any (fun p => p.2.job == u.job && p.2.pes.any (fun x => x.2.halted))
    s2.modJob u.job (fun j => { j with debugHold := still })

/-- What an ended unit leaves: no tokens, no claim, no engine messages, no halts; its status (R43, R129, R367). Of its store buffer there stay
the operations that have left it, until they complete (R45). -/
def State.endUnit (s0 : State) (uid status : Nat) : State :=
  let s := s0.liftHalts uid (status == 2)
  let u := s.unit uid
  let s1 := { s with flights := if u.inRegion then s.flights.filter (fun f => !u.ownsFlight f) else s.flights }
  let s2 := u.clusterList.foldl (fun s c => s.modCluster c (fun k =>
    { k with claim := if k.claim == some uid then none else k.claim, handoff := if k.claim == some uid then [] else k.handoff
             inMatrix := k.inMatrix.filter (fun m => m.unit != uid), inCopy := k.inCopy.filter (fun m => m.unit != uid)
             inGather := k.inGather.filter (fun m => m.unit != uid), mq := k.mq.filter (fun o => o.unit != uid) })) s1
  let s3 := { s2 with dies := s2.dies.map (fun (d : Die) => { d with inColl := d.inColl.filter (fun m => m.unit != uid) }),
                      runs := s2.runs.filter (fun r => r.m.unit != uid) }
  let s4 := s3.modUnit uid (fun u => { u with
    status := .ended status, pes := [], ms := [], ovf := [], sb := u.sb.filter (fun e => e.phase == .asked || e.phase == .performed), sinks := [], pend := [], curFault := none
    gates := 0#16, tags := [], wait := .none, claim := false, replies := [] })
  (s4.journal .unitEnded).countUnit u.inst u.node status

/-! ### Taking an exception -/

/-- A fault whose class always stops the unit (R345, class S). -/
def isStopCause (c : Nat) : Bool := c == 0x0A3 || c == 0x111

/-- Entering the unit-level handler for a class T fault (R350). -/
def UnitSt.enterHandler (u : UnitSt) (key : Option Nat) (r : Raised) : UnitSt :=
  { u with tcause := BitVec.ofNat 17 ((if r.ctl then 2 ^ 16 else 0) + r.cause), taddr := r.addr
           ttag := if r.ctl then 0#25 else BitVec.ofNat 25 (ttagOf r.tag)
           tepc := if r.ctl then r.tepc else u.ccnt
           handler := true, ccnt := u.tvec, curFault := some (key, r), wait := .none }

/-- The stop handle of a unit that is stopped, drains as stopped, or is saved as stopped. -/
def UnitSt.stopHandle (u : UnitSt) : Option Nat :=
  match u.status with
  | .stopped h => some h
  | .draining _ h => h
  | .saved h => h
  | .placed (some h) => h
  | _ => none
/-- The stop handles in use. -/
def State.usedHandles (s : State) : List Nat := s.units.filterMap (fun p => p.2.stopHandle)
/-- A stop handle of 16 bits, not 0 and unique among the stopped units (R353): the first unused one from a free value on (log 4). -/
def State.newHandle (s : State) : Nat :=
  let used := s.usedHandles
  (((upFrom 0 (used.length + 1)).map (fun i => (Config.freeHandle s.nextHandle + i) % 65535 + 1)).find? (fun h => !used.contains h)).getD 1

/-- Escalation (R353): the unit stops with a stop handle and a record; a draining unit ends faulted. -/
def State.escalate (s : State) (uid : Nat) (key : Option Nat) (r : Raised) : State :=
  let u := s.unit uid
  if u.isDraining then
    (s.unitRecord uid { faultRec u key r with uend := true }).endUnit uid 3
  else
    let h := s.newHandle
    let s1 := { s with nextHandle := s.nextHandle + 1 }
    let s2 := s1.unitRecord uid { faultRec u key r with stop := true, handle := h }
    s2.modUnit uid (fun u => { u with
      status := .stopped h, curFault := some (key, r), wait := .none
      tepc := if u.handler then u.tepc else if r.ctl then r.tepc else u.ccnt
      pend := if u.handler then u.curFault.toList ++ u.pend else u.pend })

/-- Taking a class T fault (R345, R350, R351, R353): the handler takes it, it waits behind the one being handled, or it
escalates. This is the one operation through which every fault of a firing, an issue or a control word goes. -/
def State.takeFault (s : State) (uid : Nat) (key : Option Nat) (r : Raised) : State :=
  let u := s.unit uid
  match u.status with
  | .running =>
    if isStopCause r.cause then s.escalate uid key r
    else if u.handler then
      (if r.ctl then s.escalate uid key r else s.modUnit uid (fun u => { u with pend := u.pend ++ [(key, r)] }))
    else if u.tvec = 0#64 then s.escalate uid key r
    else s.modUnit uid (fun u => u.enterHandler key r)
  | .draining _ _ => s.escalate uid key r
  | .stopped _ => s.modUnit uid (fun u => { u with pend := u.pend ++ [(key, r)] })
  | _ => s

/-- A fault raised at a firing of PE `key`: the firing is held, then the fault is taken (R51, R164). -/
def State.faultAt (s : State) (uid key : Nat) (r : Raised) : State :=
  (s.modUnit uid (fun u => u.modPe key (fun p => { p with held := some r }))).takeFault uid (some key) r

/-- The order in which waiting faults are taken (R351): control words first, then ascending (cluster rank, y, x). -/
def nextPending : List (Option Nat × Raised) → Option ((Option Nat × Raised) × List (Option Nat × Raised))
  | [] => none
  | p :: r =>
    match nextPending r with
    | none => some (p, [])
    | some (q, rest) =>
      let before := !p.2.ctl && (q.2.ctl || decide (q.1.getD 0 < p.1.getD 0))
      if before then some (q, p :: rest) else some (p, r)

/-- Retry what a fault held (R164, R352): the firing, the store-buffer issue, or the matrix operation, each with the enables of UCTL and the
USTAT.RM of now; under SCOPESTOP the result is released. -/
def State.retryHeld (s : State) (uid : Nat) (f : Option Nat × Raised) : State :=
  let s1 := match f.1 with
    | some k => s.modUnit uid (fun u => u.modPe k (fun p => { p with held := if p.held == some f.2 then none else p.held }))
    | none => s
  let s2 := if f.2.entry = 0 then s1
    else s1.modUnit uid (fun u => u.modEntry f.2.entry (fun e =>
      if e.phase == .faulted then { e with scopeStop := false, phase := .waiting, uctl := u.uctl, rm := u.rm } else { e with scopeStop := false }))
  if f.2.mat = 0 then s2
  else
    let u := s2.unit uid
    let hit (o : MatOp) : Bool := o.unit == uid && o.id == f.2.mat && o.held
    let again (l : List MatOp) : List MatOp :=
      l.filter (fun o => !hit o) ++ (l.filter hit).map (fun o => { o with held := false, uctl := u.uctl, rm := u.rm })
    (u.clusterList.foldl (fun s c => s.modCluster c (fun k => { k with mq := again k.mq })) s2).modUnit uid (fun u => { u with savedMq := again u.savedMq })

/-- Return from a handler (R351, R352): CCNT := TEPC, handler mode left, the held firing retried, and the next waiting
fault taken. -/
def State.returnFault (s : State) (uid : Nat) : State :=
  let u := s.unit uid
  let s1 := match u.curFault with
    | some f => s.retryHeld uid f
    | none => s
  let s2 := s1.modUnit uid (fun u => { u with ccnt := u.tepc, handler := false, curFault := none })
  match nextPending u.pend with
  | none => s2
  | some (f, rest) => (s2.modUnit uid (fun u => { u with pend := rest })).takeFault uid f.1 f.2

/-! ### Cancels (R45, R46, R264) -/

/-- The tile-task records of some units are discarded with STATUS 0x02, unless their word has been written; their blocks stop (R303). -/
def State.dropTasks (s : State) (p : UnitSt → Bool) : State :=
  let mine (t : TileTask) : Bool := p (s.unit t.unit)
  let gone := s.dies.flatMap (fun d => d.tasks.filter (fun t => mine t && t.stage == 0))
  gone.foldl (fun s t => let u := s.unit t.unit; s.completionWord t.job { launch := u.launch, kseq := u.kseq } t.done t.ok t.bad 0 2)
    { s with dies := s.dies.map (fun (d : Die) => { d with tasks := d.tasks.filter (fun t => !mine t) }) }

/-- Steps 1 to 3 of R45 on one unit and its end with STATUS 0x02. Operations that have left the store buffer complete. -/
def State.cancelUnit (s : State) (uid : Nat) : State :=
  if (s.unit uid).isEnded then s else (s.dropTasks (fun u => u.id == uid)).endUnit uid 2

/-- The live units of an instance, or of one node of it. -/
def State.unitsOf (s : State) (p : UnitSt → Bool) : List Nat :=
  (s.units.filter (fun x => !x.2.isEnded && p x.2)).map Prod.fst

/-- The record of a cancelled level (R45 step 5): cause 0x108 + L. -/
def State.cancelRecord (s : State) (job level : Nat) (r : FaultRec) : State :=
  s.writeRecord (s.ringOf job) { r with cause := 0x108 + level, src := 2, job := job }

/-- A launch node is cancelled at level 1, or within a higher level. -/
def State.cancelNode (s : State) (i n : Nat) : State :=
  let s0 := s.dropTasks (fun u => u.inst == i && u.node == n)
  let s1 := { s0.modInst i (fun x => { x with nodes := lmod x.nodes n (fun r => { r with cancelled := true }) }) with
    reserved := s0.reserved.filter (fun p => !(p.2.1 == i && p.2.2.1 == n)) }
  let s2 := (s1.unitsOf (fun u => u.inst == i && u.node == n)).foldl State.cancelUnit s1
  match s2.inst? i with
  | none => s2
  | some inst =>
    let r := lget inst.nodes n {}
    if r.ended?.isSome then s2
    else
      let nd := nodeDesc s inst.job inst.base.toNat n
      let s3 := if nd.kind = 0 && r.isRunning then
          let d := launchDesc s inst.job inst.base.toNat nd.arg
          s2.completionWord inst.job { launch := nd.arg, kseq := inst.kseq } (wd d.cdone) r.ok (d.nunit - r.ok) 1 2
        else s2
      s3.endNode i n 2

/-- An instance is cancelled (level 2), its nodes first; its reduction rounds are discarded (R115). -/
def State.cancelInst (s : State) (i : Nat) : State :=
  match s.inst? i with
  | none => s
  | some inst =>
    if inst.status.isSome then s
    else
      let s1 := s.modInst i (fun x => { x with cancelled := true })
      let s2 := (upFrom 0 inst.nodes.length).reverse.foldl (fun s n => s.cancelNode i n) s1
      { s2 with reds := s2.reds.filter (fun r => r.inst != i) }

/-- The phase ends with its word; its dies return to FILL, and stay held unless the job's next phase has begun (R293, R44). The dies on which
its units ran may be remapped (R380). -/
def State.endPhase (s : State) (p : Nat) : State :=
  match s.phase? p with
  | none => s
  | some ph =>
    if ph.st == .ended then s
    else
      let st := levelStatus ph.cancelled ph.bad
      let s1 := s.modPhase p (fun x => { x with st := .ended, closed := true })
      let begun := s.phases.any (fun x => x.job == ph.job && decide (p < x.id) && x.st != .waiting)
      let s2 := { s1 with dies := s1.dies.mapIdx (fun k (d : Die) =>
                            let e := if d.wsPhase == some p then { d with run := false, wsPhase := none, wsJob := if begun then none else d.wsJob } else d
                            if ph.ran.contains k then { e with remap := true } else e),
                          colls := s1.colls.filter (fun c => c.phase != p) }
      let s3 := (s2.journal .phaseChanged).completionWord ph.job { kseq := ph.kseq } ph.cdone ph.ok ph.bad 3 st
      s3.modJob ph.job (fun j => { j with
        phasesOk := j.phasesOk + (if st = 1 then 1 else 0), phasesBad := j.phasesBad + (if st = 1 then 0 else 1)
        openPhases := j.openPhases - 1, curPhase := if j.curPhase == some p then none else j.curPhase })
/-- A phase is cancelled (level 3), its instances first. Tile-task records of its units are discarded, of instances that have ended too (R303). -/
def State.cancelPhase (s : State) (p : Nat) : State :=
  match s.phase? p with
  | none => s
  | some ph =>
    if ph.st == .ended then s
    else
      let s1 := (s.dropTasks (fun u => (s.inst? u.inst).any (fun i => i.phase == some p))).modPhase p (fun x => { x with cancelled := true })
      let s2 := ((s.insts.filter (fun i => i.phase == some p && i.status.isNone)).map Instance.id).foldl State.cancelInst s1
      s2.endPhase p
/-- The job's word is written when its last open phase has ended (R43, R44); its cached translations go (R359). -/
def State.endJob (s : State) (j : Nat) : State :=
  match aget s.jobs j with
  | none => s
  | some jb =>
    if jb.ended || jb.openPhases != 0 then s
    else
      let s1 := s.completionWord j {} jb.cdone jb.phasesOk jb.phasesBad 4 (levelStatus jb.cancelled jb.phasesBad)
      { (s1.modJob j (fun x => { x with ended := true })) with
        tlb := s1.tlb.filter (fun t => t.job != j), dies := s1.dies.map (fun d => if d.wsJob == some j then { d with wsJob := none } else d) }
/-- A job is cancelled (level 4): its phases, instances outside phases, and the entries of its queue (R45, R333). -/
def State.cancelJob (s : State) (j : Nat) : State :=
  let s1 := (s.dropTasks (fun u => u.job == j)).modJob j (fun x => { x with cancelled := true })
  let s2 := ((s.phases.filter (fun p => p.job == j)).map Phase.id).foldl State.cancelPhase s1
  let s3 := ((s.insts.filter (fun i => i.job == j && i.status.isNone)).map Instance.id).foldl State.cancelInst s2
  let s4 := s3.modQueue (s.job j).queue (fun q => { q with entries := [], blocked := false, waiting := none, holding := none, unreg := none })
  s4.endJob j

/-- A cancel of level L of the work that contains unit `uid`, with its one record (R43, R45, R46). -/
def State.cancelFrom (s : State) (uid level : Nat) : State :=
  let u := s.unit uid
  let r := unitRec u 0 1
  match level with
  | 0 => (s.cancelRecord u.job 0 r).cancelUnit uid
  | 1 => (s.cancelRecord u.job 1 r).cancelNode u.inst u.node
  | 2 => (s.cancelRecord u.job 2 r).cancelInst u.inst
  | 3 =>
    match (s.inst? u.inst).bind Instance.phase with
    | some p => (s.cancelRecord u.job 3 r).cancelPhase p
    | none => s
  | _ => (s.cancelRecord u.job 4 r).cancelJob u.job

/-- A progress of the unit restarts its watchdog (R368). -/
def State.progress (s : State) (uid : Nat) : State := s.modUnit uid (fun u => { u with watchdog := 0 })

end Sys2Proof.Machine
end

