-- ==== Sys2Proof/Machine/Fabric.lean ====
section
/-! DEFINITION. The switch fabric and the firing of a PE: routes (R150, R286), out ports (R199), operand matching (R23 to
R26, R30 to R33), the checks of R145 in order, consumption, delivery and flags (R64, R162). -/

namespace Sys2Proof.Machine

/-! ### Routes -/

/-- A switch word read in its place: a route or an extension with its input and output, or a packet head (R150). -/
inductive SwItem where
  | route (inp inLane out lane hops : Nat)
  | head (tag : Nat)
deriving DecidableEq, Repr

/-- The switch words of a PE; `prev` is the input of the route word before an extension. -/
def swItems (prev : Nat × Nat) : List (BitVec 16) → List SwItem
  | [] => []
  | w :: r =>
    let n := w.toNat
    let out := bits n 10 8
    let ln := bits n 7 5
    match bits n 15 14 with
    | 0 => .route (bits n 13 11) ln out ln 1 :: swItems (bits n 13 11, ln) r
    | 1 => .route prev.1 prev.2 out ln 1 :: swItems prev r
    | 2 => .route (bits n 13 11) ln out ln (bits n 4 3 + 1) :: swItems (bits n 13 11, ln) r
    | _ =>
      if bits n 4 0 = 1 then
        match r with
        | a :: b :: r' => .head (a.toNat + 65536 * b.toNat) :: swItems prev r'
        | _ => []
      else swItems prev r

/-- The place `k` PEs away over link `out` (0 N, 1 E, 2 S, 3 W), and the input by which it is entered; `none` off the
fabric (R10). -/
def hop (x y out k : Nat) : Option (Nat × Nat × Nat) :=
  match out with
  | 0 => if k ≤ y then some (x, y - k, 3) else none
  | 1 => if x + k ≤ 15 then some (x + k, y, 4) else none
  | 2 => if y + k ≤ 15 then some (x, y + k, 1) else none
  | _ => if k ≤ x then some (x - k, y, 2) else none

/-- The outputs of a route word for input `inp`, lane `lane` (any lane at the out port): output, lane, PEs travelled. -/
def SwItem.out? (inp lane : Nat) : SwItem → Option (Nat × Nat × Nat)
  | .route i l o ln h => if i == inp && (inp == 0 || l == lane) then some (o, ln, h) else none
  | .head _ => none
/-- The route tag of a packet head. -/
def SwItem.tag? : SwItem → Option Nat
  | .head t => some t
  | .route _ _ _ _ _ => none

/-- A route tag read as a place and a queue (R151). -/
def routeSite (tag : Nat) : Site × Nat :=
  (⟨bits tag 31 23, bits tag 22 19, bits tag 18 15, bits tag 12 11⟩, bits tag 14 13)

/-- The switch words at a place of the region. -/
def UnitSt.switchAt (u : UnitSt) (pos : Site) : List SwItem := swItems (0, 0) (u.pe (u.keyOf pos)).sw
/-- The outputs of the route that takes a token at a switch (R150). -/
def UnitSt.outsAt (u : UnitSt) (pos : Site) (inp lane : Nat) : List (Nat × Nat × Nat) := (u.switchAt pos).filterMap (SwItem.out? inp lane)
/-- The places and queues of the packet heads of a PE (R150, R286). -/
def UnitSt.headsAt (u : UnitSt) (pos : Site) : List (Site × Nat) := (u.switchAt pos).filterMap (fun i => i.tag?.map routeSite)

/-- The node whose operation takes the tokens that reach a PE: its own, or, at a stub, the node to which it forwards them (R301). -/
def UnitSt.nodeAt (u : UnitSt) (pos : Site) : Option Nat :=
  match (u.pe (u.keyOf pos)).stub with
  | some q => some (u.keyOf { pos with x := q.1, y := q.2 })
  | none => if (u.pe (u.keyOf pos)).consumes then some (u.keyOf pos) else none
/-- Where the node stands now that the image puts at a place: the route tags of a program name places of the image (R48, R301; DEDUCED, log
67). -/
def UnitSt.placeOf (u : UnitSt) (pos : Site) : Site :=
  match u.pes.find? (fun p => p.2.consumes && p.1 / 256 + u.lead == pos.cl && p.2.home == (pos.x, pos.y)) with
  | some p => u.siteOf p.1
  | none => pos

/-- A token stands at an input of a switch; the out port is one input whatever the lane. -/
def Flight.stands (f : Flight) (pos : Site) (inp lane : Nat) : Bool :=
  f.q.isNone && f.pos == pos && f.inp == inp && (inp == 0 || f.lane == lane)
/-- A link lane, or the out port, holds one token of a context (R286; log 43). COMMIT and KILL tokens take no place (R186). -/
def State.laneFree (s : State) (pos : Site) (inp lane : Nat) : Bool :=
  !s.flights.any (fun f => f.tok.kind == 0#2 && f.stands pos inp lane)
/-- Where a token on output `out`, lane `lane` stands next, `h` PEs on; `none` for a local queue. -/
def nextPlace (pos : Site) (o : Nat × Nat × Nat) : Option (Site × Nat × Nat) :=
  if 4 ≤ o.1 then none else (hop pos.x pos.y o.1 o.2.2).map (fun p => ({ pos with x := p.1, y := p.2.1 }, p.2.2, o.2.1))
/-- The local queues, by PE, that a token at an input of a switch reaches by the routes as they stand; the fuel bounds the path. -/
def UnitSt.reach (u : UnitSt) : Nat → Site → Nat → Nat → List (Site × Nat)
  | 0, _, _, _ => []
  | fuel + 1, pos, inp, lane =>
    (u.outsAt pos inp lane).flatMap (fun o =>
      if 4 ≤ o.1 then [(pos, o.1 - 4)]
      else
        match nextPlace pos o with
        | some (p, i, l) => UnitSt.reach u fuel p i l
        | none => []) ++ (if inp = 0 then u.headsAt pos else [])
/-- The queues that a flight is on its way to. -/
def UnitSt.leads (u : UnitSt) (f : Flight) : List (Site × Nat) :=
  match f.q with
  | some q => [(f.pos, q)]
  | none => u.reach 256 f.pos f.inp f.lane
/-- The stubs that forward to PE `key` (R301). -/
def UnitSt.stubsTo (u : UnitSt) (key : Nat) : List Site :=
  (u.pes.filter (fun p => p.2.stub == some (key % 16, key / 16 % 16) && p.1 / 256 == key / 256)).map (fun p => u.siteOf p.1)
/-- A migrated node waits at its new PE while results that left the old one are on links or packets (R301 step 2). -/
def State.stubBusy (s : State) (uid key : Nat) : Bool :=
  ((s.unit uid).stubsTo key).any (fun st => s.flights.any (fun f => f.tok.kind == 0#2 && f.src == st))
/-- A token on a direct route waits before queue q of a migrated node while a token on an old route is on its way to it (R301 step 6). -/
def State.directWaits (s : State) (uid : Nat) (pos : Site) (q : Nat) : Bool :=
  let u := s.unit uid
  (u.stubsTo (u.keyOf pos)).any (fun st => s.flights.any (fun g => g.tok.kind == 0#2 && u.ownsFlight g && (u.leads g).contains (st, q)))
/-- A result can leave PE `key` for its out port. -/
def State.portFree (s : State) (uid key : Nat) : Bool := s.laneFree ((s.unit uid).siteOf key) 0 0 && !s.stubBusy uid key

/-- A token leaves a node: it stands at the out port; where the port has no route and no packet head it is discarded (R228). -/
def State.emit (s : State) (uid key : Nat) (t : Token) : State :=
  let u := s.unit uid
  let h := u.siteOf key
  if (u.outsAt h 0 0).isEmpty && (u.headsAt h).isEmpty then s
  else { s.modUnit uid (fun u => { u with quiet := false }) with flights := s.flights ++ [{ src := h, pos := h, tok := t }] }

/-- Results leave the node in firing order: the ready ones at the head go while the out port takes them (R199). -/
def State.drainOut (s : State) (uid key : Nat) : Nat → State
  | 0 => s
  | fuel + 1 =>
    match ((s.unit uid).pe key).out with
    | .ready t :: r =>
      if s.portFree uid key then
        let s1 := s.modUnit uid (fun u => u.modPe key (fun p => { p with out := r }))
        State.drainOut (s1.emit uid key t) uid key fuel
      else s
    | _ => s
/-- A result goes to the out port behind those of earlier firings; one of a killing colour is annihilated (R39). -/
def State.sendOut (s : State) (uid key : Nat) (t : Token) : State :=
  let u := s.unit uid
  if u.killed t then s
  else
    let t1 := { t with col := u.effCol t.col }
    let out := (u.pe key).out
    if out.isEmpty && s.portFree uid key then s.emit uid key t1
    else s.modUnit uid (fun u => u.modPe key (fun p => { p with out := p.out ++ [.ready t1] }))
/-- The pending result `id` of PE `key` is known, or will not come (`none`); what it held back leaves. -/
def State.resolveOut (s : State) (uid key id : Nat) (t : Option Token) : State :=
  let u := s.unit uid
  let f (o : OutSlot) : Option OutSlot :=
    match o with
    | .ready x => some (.ready x)
    | .pending i => if i = id then t.map OutSlot.ready else some (.pending i)
  let out := (u.pe key).out.filterMap f
  (s.modUnit uid (fun u => u.modPe key (fun p => { p with out := out }))).drainOut uid key (out.length + 1)
/-- A result that the out port has not taken holds the node back: back-pressure (R286). -/
def PeCtx.portBlocked (p : PeCtx) : Bool :=
  match p.out with
  | .ready _ :: _ => true
  | _ => false

/-- What the present clock of a cluster's die has used (R286, R302). -/
def State.usedNow (s : State) (cl : Nat) (c : ClockUse) : Bool := (s.die (dieOf cl)).used.contains c
def State.useNow (s : State) (cl : Nat) (c : ClockUse) : State := s.modDie (dieOf cl) (fun d => { d with used := d.used ++ [c] })

/-! ### Matching -/

/-- Equal (LVL, ITAG, WAVE). -/
def Token.sameTag (a b : Token) : Bool := a.lvl == b.lvl && a.itag == b.itag && a.wave == b.wave
/-- Equal invocation. -/
def Token.sameInv (a b : Token) : Bool := a.lvl == b.lvl && a.itag == b.itag

/-- The allocation order of an invocation; one that the tag map does not hold counts as oldest (R33). -/
def UnitSt.age (u : UnitSt) (lvl itag : Nat) : Nat :=
  match u.tags.find? (fun t => t.lvl == lvl && t.itag == itag) with
  | some t => t.order
  | none => 0
/-- Wave w is older than w' (R30). -/
def waveOlder (w w' : BitVec 10) : Bool := let d := (w' - w).toNat; decide (0 < d) && decide (d ≤ 511)
/-- The oldest tag first: the oldest invocation, then the oldest wave (R23). Invocations of different levels are compared by the order of
their allocation, then by level, then by ITAG: R33 ages the tags of one level only (DESIGN CHOICE, log 45). -/
def UnitSt.older (u : UnitSt) (a b : Token) : Bool :=
  if a.sameInv b then waveOlder a.wave b.wave
  else
    let x := u.age a.lvl.toNat a.itag.toNat
    let y := u.age b.lvl.toNat b.itag.toNat
    decide (x < y) || (x == y && (a.lvl.ult b.lvl || (a.lvl == b.lvl && a.itag.ult b.itag)))
/-- The oldest token of a list. -/
def UnitSt.oldest (u : UnitSt) : List Token → Option Token
  | [] => none
  | t :: r =>
    match u.oldest r with
    | none => some t
    | some x => if u.older x t then some x else some t

/-- The tokens available to queue q of PE `key`: its head and its matching-store entries (R23). -/
def UnitSt.avail (u : UnitSt) (key q : Nat) : List Token :=
  ((u.pe key).queue q).take 1 ++
    (u.ms.filter (fun e => e.rank * 256 + e.y * 16 + e.x == key && e.q == q)).map MsEntry.tok
/-- One token is taken from the queue's head or from the matching store. -/
def UnitSt.takeTok (u : UnitSt) (key q : Nat) (t : Token) : UnitSt :=
  match (u.pe key).queue q with
  | h :: r =>
    if h = t then u.modPe key (fun p => p.setQueue q r)
    else { u with ms := u.ms.erase { rank := key / 256, x := key % 16, y := key / 16 % 16, q := q, tok := t } }
  | [] => { u with ms := u.ms.erase { rank := key / 256, x := key % 16, y := key / 16 % 16, q := q, tok := t } }

/-- Tokens of killing colours are annihilated where the PE would consume them (R39). A token of colour 0 that would have fired with one
of them stays in its queue (DESIGN CHOICE, log 46). -/
def UnitSt.purge (u : UnitSt) (key : Nat) : UnitSt :=
  if u.col1 != 2 && u.col2 != 2 && u.col3 != 2 then u
  else
    let p := u.pe key
    { (u.setPe key { p with q := p.q.map (fun l => l.filter (fun t => !u.killed t)) }) with
      ms := u.ms.filter (fun e => !(e.rank * 256 + e.y * 16 + e.x == key && u.killed e.tok)) }

/-- The queues that a word's selectors name (R23). -/
def selQueues (w : PeWord) : List Nat :=
  let l := [w.sa, w.sb, w.sc].filterMap (fun s => if s.ult 4#3 then some s.toNat else none)
  l.foldr (fun q acc => if acc.contains q then acc else q :: acc) []
/-- The queues whose tokens the operation of a PE consumes: those its selectors name (R23), q0 in format T (R146), none where the PE holds no
operation or routes only (R140). -/
def PeCtx.queues (p : PeCtx) : List Nat :=
  if !p.consumes then []
  else if p.opc == 0x70#7 || p.opc == 0x71#7 || p.opc == 0x72#7 || p.opc == 0x73#7 || p.opc == 0x7D#7 then [0]
  else selQueues p.word
/-- Whether the operation of a PE consumes tokens of queue q (R140, R278; DEDUCED, log 40). -/
def PeCtx.takes (p : PeCtx) (q : Nat) : Bool := p.queues.contains q
/-- Selector 4 finds e[EI] full (R23). -/
def eregReady (w : PeWord) (p : PeCtx) : Bool :=
  !(w.sa == 4#3 || w.sb == 4#3 || w.sc == 4#3) || (p.reg w.ei.toNat).full

/-- The tokens of one tag, one from each queue of `qs`, oldest tag first; `ok` limits the tokens considered. -/
def UnitSt.matchSet (u : UnitSt) (key : Nat) (qs : List Nat) (ok : Token → Bool) : Option (List (Nat × Token)) :=
  match qs with
  | [] => none
  | q :: rest =>
    let cand := ((u.avail key q).filter ok).filter (fun t =>
      rest.all (fun q' => (u.avail key q').any (fun t' => ok t' && t.sameTag t')))
    match u.oldest cand with
    | none => none
    | some t => some ((q, t) :: rest.filterMap (fun q' => ((u.avail key q').find? (fun t' => ok t' && t.sameTag t')).map (fun t' => (q', t'))))

/-! ### Firing -/

/-- What a firing has: its operands, the tokens it takes, and the tag, colour and LAST of R24 and R35. -/
structure Gathered where
  a : Opnd := {}
  b : Opnd := {}
  c : Opnd := {}
  toks : List (Nat × Token) := []
  tok : Token := {}
  env : Env := {}
deriving Inhabited

/-- The outcome of the readiness and the checks of a firing: nothing fires (in the state given); a cause; or it goes. -/
inductive FirePrep where
  | wait (s : State)
  | fault (s : State) (uid key : Nat) (r : Raised)
  | go (s : State) (uid key : Nat) (g : Gathered)

/-- The colour of R35 over operand tokens: `none` is cause 0x0A8. -/
def UnitSt.joinCol (u : UnitSt) (ts : List Token) : Option (BitVec 2) :=
  ts.foldl (fun acc t => acc.bind (fun c =>
    let k := u.effCol t.col
    if c = 0#2 then some k else if k = 0#2 || k = c then some c else none)) (some 0#2)
/-- LAST is the OR over the operand tokens (R24). -/
def joinLast (ts : List Token) : Bool := ts.any Token.last

/-- The operand of a selector (R142, R143); selector 7 and selector 4 read e[EI]. -/
def operandOf (opc : Nat) (w : PeWord) (p : PeCtx) (toks : List (Nat × Token)) (sel : BitVec 3) (mask : Nat) : Opnd :=
  if sel.ult 4#3 then
    match aget toks sel.toNat with
    | some t => ⟨t.payload, t.fmt.toNat⟩
    | none => {}
  else if sel == 5#3 then let t := formTag opc w.fmt.toNat mask; ⟨immVal t w.imm, t⟩
  else if sel == 6#3 then ⟨0#64, zeroTag w.fmt.toNat mask⟩
  else let r := p.reg w.ei.toNat; ⟨r.val, r.tag.toNat⟩

/-- The three operands of a word. -/
def operandsOf (opc : Nat) (w : PeWord) (p : PeCtx) (toks : List (Nat × Token)) : Opnd × Opnd × Opnd :=
  let m := tagMasks opc w.fmt.toNat w.sub.toNat
  (operandOf opc w p toks w.sa m.1, operandOf opc w p toks w.sb m.2.1, operandOf opc w p toks w.sc m.2.2)

/-- A selector 7 that finds e[EI] empty (R23). -/
def emptySel7 (w : PeWord) (p : PeCtx) : Bool :=
  (w.sa == 7#3 || w.sb == 7#3 || w.sc == 7#3) && !(p.reg w.ei.toNat).full

/-- A PE context in which an operation may fire now: its unit runs or drains, the node is idle, not held by a fault, not
halted, and not held back by its out port. -/
def PeCtx.free (p : PeCtx) : Bool :=
  p.held.isNone && (!p.halted || p.stepOnce) && p.stub.isNone && !p.portBlocked && (match p.node with
    | .idle => true
    | _ => false)

/-- The PE that the focus names: unit, its key; `none` when no unit's PE may fire there. -/
def State.focusPe (s : State) : Option (Nat × Nat) :=
  match s.unitAt s.focus.cl s.focus.ctx with
  | none => none
  | some uid =>
    let u := s.unit uid
    if u.fires && (u.pe (u.keyOf s.focus)).free && !s.stubBusy uid (u.keyOf s.focus) then some (uid, u.keyOf s.focus) else none

/-- A fault of a firing: the cause, the tag of the firing and DETAIL0. -/
def raise (cause : Nat) (tok : Token) (d0 : Word := 0#64) : Raised := { cause := cause, tag := tok, d0 := d0 }

/-- The checks of R145 on a word whose tokens are chosen, then selector 7, operand tags and colours (R23, R35, R59). -/
def checkFiring (opc : Nat) (w : PeWord) (s : State) (uid key : Nat) (toks : List (Nat × Token)) : FirePrep :=
  let u := s.unit uid
  let p := u.pe key
  let t0 : Token := (toks.map Prod.snd).headD {}
  match wordFault opc u.rm w with
  | some c => .fault s uid key (raise c t0)
  | none =>
    if emptySel7 w p then .fault s uid key (raise 0x028 t0)
    else
      let o := operandsOf opc w p toks
      match tagFaults opc w o.1 o.2.1 o.2.2 with
      | some (c, d) => .fault s uid key (raise c t0 d)
      | none =>
        match u.joinCol (toks.map Prod.snd) with
        | none => .fault s uid key (raise 0x0A8 t0)
        | some col => .go s uid key { a := o.1, b := o.2.1, c := o.2.2, toks := toks, env := { rm := u.rm, ereg := p.ereg }
                                      tok := { t0 with ctx := BitVec.ofNat 2 u.ctx, col := col, last := joinLast (toks.map Prod.snd), kind := 0#2 } }

/-- Readiness under R23 and the checks, for an operation whose queue operands match by tag. `ok` limits the tokens it
accepts now, `more` is a further condition on the PE. -/
def prepFire (opc : Nat) (w : PeWord) (s : State) (ok : UnitSt → Token → Bool := fun _ _ => true)
    (more : PeCtx → Bool := fun _ => true) : FirePrep :=
  match s.focusPe with
  | none => .wait s
  | some (uid, key) =>
    let u := (s.unit uid).purge key
    let s1 := s.setUnit uid u
    if !eregReady w (u.pe key) || !more (u.pe key) then .wait s1
    else
      match u.matchSet key (selQueues w) (ok u) with
      | none => .wait s1
      | some toks => checkFiring opc w s1 uid key toks

/-- Operand tokens are consumed. -/
def UnitSt.consume (u : UnitSt) (key : Nat) (toks : List (Nat × Token)) : UnitSt :=
  toks.foldl (fun u p => u.takeTok key p.1 p.2) u

/-- A PE's contexts of a job, changed in each of the job's units over its cluster. -/
def State.modJobPe (s : State) (job cl x y : Nat) (f : PeCtx → PeCtx) : State :=
  { s with units := s.units.map (fun (p : Nat × UnitSt) =>
      if p.2.job == job && p.2.inRegion && p.2.covers cl then
        (p.1, { p.2 with pes := p.2.pes.map (fun q => if q.1 == peKey (cl - p.2.lead) x y then (q.1, f q.2) else q) })
      else p) }
/-- A firing has taken place: FIRED, the watchdog, a debugger's step, which is used up in every context of the job (R280, R367, R368). -/
def State.fired (s : State) (uid key : Nat) : State :=
  let p := (s.unit uid).pe key
  let s1 := (s.count (5 + dieOf (s.unit uid).lead) 1).modUnit uid (fun u => { (if p.stepOnce then u.modPe key (fun p => { p with stepOnce := false }) else u) with
    fired := u.fired + 1#64, watchdog := 0 })
  if p.stepOnce then
    (s1.modJob (s.unit uid).job (fun j => { j with dbgReason := 3 })).modJobPe (s.unit uid).job ((s.unit uid).lead + key / 256) (key % 16) (key / 16 % 16)
      (fun p => { p with stepOnce := false })
  else s1

/-- The tokens of a firing are consumed and it counts. -/
def State.commitFiring (s : State) (uid key : Nat) (toks : List (Nat × Token)) : State :=
  (s.modUnit uid (fun u => u.consume key toks)).fired uid key

/-- A result goes where DST sends it: e[EI] for 0b01 and 0b10, the out port for 0b00 and 0b10 (R142, R162). -/
def State.deliver (s : State) (uid key : Nat) (w : PeWord) (t : Token) : State :=
  let s1 := if w.dst == 1#2 || w.dst == 2#2 then
      s.modUnit uid (fun u => u.modPe key (fun p => p.setReg w.ei.toNat ⟨true, t.fmt, t.payload⟩))
    else s
  if w.dst == 0#2 || w.dst == 2#2 then s1.sendOut uid key t else s1

/-- A computed result: its flags are set (R64); an enabled trap takes the lowest cause and nothing else happens; else the
operands are consumed and the result delivered with the firing's tag, colour and LAST (R24). -/
def finishCalc (w : PeWord) (s : State) (uid key : Nat) (g : Gathered) (r : Calc) : State :=
  match r with
  | .trap c d => s.faultAt uid key (raise c g.tok d)
  | .ok v t fl =>
    let s1 := s.modUnit uid (fun u => u.raiseFlags (flagUnion fl))
    match trapFlag (s.unit uid).uctl.toNat (flagUnion fl) with
    | some f => s1.faultAt uid key (raise (0x040 + f) g.tok (wd (flagLanes fl f)))
    | none => (s1.commitFiring uid key g.toks).deliver uid key w { g.tok with payload := v, fmt := BitVec.ofNat 4 t }

/-- The firing of an operation that computes a result from its operands and nothing else. -/
def fireCalc (opc : Nat) (f : PeWord → Env → Opnd → Opnd → Opnd → Calc) (w : PeWord) (s : State) : State :=
  match prepFire opc w s with
  | .wait s1 => s1
  | .fault s1 uid key r => s1.faultAt uid key r
  | .go s1 uid key g => finishCalc w s1 uid key g (f w g.env g.a g.b g.c)

/-! ### The wave window -/

/-- The live waves of an invocation (R31): tokens in queues, on links, in the matching store or the overflow table, and
store-buffer entries. -/
def State.liveWaves (s : State) (u : UnitSt) (t : Token) : List (BitVec 10) :=
  ((u.pes.flatMap (fun p => p.2.q.flatten)) ++ u.ms.map MsEntry.tok ++ u.ovf.map MsEntry.tok ++
    (s.flights.filter u.ownsFlight).map Flight.tok ++ u.liveSb.map SbEntry.tok).filterMap
      (fun x => if x.sameInv t && x.kind == 0#2 then some x.wave else none)
/-- The oldest of some waves (R30, R31). -/
def oldestWave : List (BitVec 10) → Option (BitVec 10)
  | [] => none
  | w :: r =>
    match oldestWave r with
    | none => some w
    | some x => if waveOlder x w then some x else some w
/-- A result may be emitted: its wave is not 512 or more beyond the oldest live wave, and no drain holds it (R31, R361). Waves
are told apart modulo 1024 by R30: the 511 waves behind the oldest live one are older than it, so 512 is the only distance at which a
result is beyond the window, and nodes that advance by one wave are held there. -/
def State.windowOpen (s : State) (uid : Nat) (t : Token) : Bool :=
  let u := s.unit uid
  if u.isDraining then false
  else
    match oldestWave (s.liveWaves u t) with
    | none => true
    | some w => (t.wave - w).toNat != 512

def State.setNode (s : State) (uid key : Nat) (n : NodeState) : State :=
  s.modUnit uid (fun u => u.modPe key (fun p => { p with node := n }))

/-- The outcome of an instruction that always answers a next state. -/
abbrev nextS (s : State) : Host.Outcome State Fault Refusal := .next s

end Sys2Proof.Machine
end

