-- ==== Sys2Proof/Machine/Buffer.lean ====
section
/-! DEFINITION. The store buffer (R101 to R109, R225 to R230): how a memory-class word enters it, when an entry issues, what
its issue checks, which entries may perform, and what retiring delivers. -/

namespace Sys2Proof.Machine

/-! ### Fields of sequence words and access parameters -/

/-- The sequence word (R101). -/
def seqPred (w : PeWord) : Nat := (w.seq.extractLsb' 22 10).toNat
def seqOwn (w : PeWord) : Nat := (w.seq.extractLsb' 12 10).toNat
def seqSucc (w : PeWord) : Nat := (w.seq.extractLsb' 2 10).toNat
def seqPx (w : PeWord) : Bool := w.seq.getLsbD 1
def seqSx (w : PeWord) : Bool := w.seq.getLsbD 0

/-- DISP and LOFF: bits [31:8] of the parameter, signed (R226, R236). -/
def dispOf (w : PeWord) : Int := if w.x then sextNat 24 (w.imm.toNat / 256) else 0
/-- The access size in bytes (R226). -/
def sizeOf (w : PeWord) : Nat := if w.x then 8 / 2 ^ (w.imm.toNat % 4) else 8
/-- Address plus displacement modulo 2^56 (R226). -/
def addDisp (a : Word) (d : Int) : Nat := wrapNat 56 ((a.toNat : Int) + d)
/-- L-space and W-space addresses (R226): unbounded; one below zero is given as a value beyond every space. -/
def flatAddr (a : Word) (d : Int) : Nat := if (a.toNat : Int) + d < 0 then 2 ^ 72 else ((a.toNat : Int) + d).toNat
/-- Natural alignment of an unbounded address (R227). -/
def aligned (a : Word) (d : Int) (n : Nat) : Bool := ((a.toNat : Int) + d) % (n : Int) == 0
/-- What a load of `n` bytes delivers (R231). -/
def loadVal (w : PeWord) (n v : Nat) : Word :=
  if n = 8 then wd v else if w.x && w.imm.getLsbD 2 then BitVec.ofInt 64 (sextNat (8 * n) v) else wd v

/-! ### The L space -/

/-- Extended addresses of L-space and W-space bytes, beside those of `Memory`. -/
def lBase : Nat := 2 ^ 60
def wBase : Nat := 2 ^ 61
/-- The place of an L-space byte in the banks of cluster `cl` under SWZ (R126): `lsm` address, or a cause. -/
def lspace (c : Cluster) (cl : Nat) (swz : Nat) (a : Nat) : Except Nat Nat :=
  let banks := c.banks 1
  let ns := banks.length
  let rsh := bits swz 15 11
  let rw := bits swz 10 8
  if ns * 32768 ≤ a then .error 0x065
  else if !bit swz 0 then .ok (cl * 2 ^ 20 + lget banks (a / 32768) 0 * 32768 + a % 32768)
  else if 2 ^ ns.log2 != ns || 5 < rw || (0 < rw && decide (rsh < 7 + ns.log2)) then .error 0x066
  else
    let ch := a / 128
    let row := a / 2 ^ rsh % 2 ^ rw
    .ok (cl * 2 ^ 20 + lget banks (((ch % 32) ^^^ row) % ns) 0 * 32768 + ch / ns * 128 + a % 128)

/-! ### Entering -/

/-- Kinds of which a coloured one whose issue faults keeps its fault (R37). -/
def MemOp.coloredLoad : MemOp → Bool
  | .ld | .lda | .ldsp | .ldws => true
  | _ => false
/-- Format T operations, which have no DST (R146, R228). -/
def MemOp.formatT : MemOp → Bool
  | .ldxs | .stxs | .mdrnMem | .mbld => true
  | _ => false
/-- Whether an operation leaves a result for the out port, and for e[EI] (R228, R231, R232, R243, R244). -/
def SbEntry.toOut (e : SbEntry) : Bool := e.op.formatT || e.w.dst == 0#2 || e.w.dst == 2#2
def SbEntry.toReg (e : SbEntry) : Bool := !e.op.formatT && (e.w.dst == 1#2 || e.w.dst == 2#2)

/-- What a firing puts into the buffer, or its cause and address. -/
inductive MemReq where
  | bad (cause addr : Nat) (d0 : Word)
  | entry (ea n : Nat)

/-- The full buffer of R104: 64 entries, of which 48 may hold coloured writes. -/
def UnitSt.sbFull (u : UnitSt) (op : MemOp) (col : BitVec 2) : Bool :=
  decide (64 ≤ u.liveSb.length) ||
    (op.held && col != 0#2 && decide (48 ≤ (u.liveSb.filter u.coloured).length))
/-- OWN is 1023 or is taken in this wave of the invocation (R101). -/
def UnitSt.badOwn (u : UnitSt) (w : PeWord) (t : Token) : Bool :=
  seqOwn w == 1023 || u.sb.any (fun e => e.tok.sameTag t && seqOwn e.w == seqOwn w)

/-- The entry is made, the firing is counted, a result slot is kept at the out port and the named register is emptied. -/
def State.enterBuffer (s : State) (uid key : Nat) (toks : List (Nat × Token)) (e : SbEntry) : State :=
  let s1 := s.commitFiring uid key toks
  let id := (s1.unit uid).nextId
  let e := { e with id := id }
  s1.modUnit uid (fun u =>
    let u1 := u.modPe key (fun p =>
      let p1 := if e.toReg && e.op != .ldlk then p.setReg e.w.ei.toNat {} else p
      if e.toOut && e.op != .ldlk then { p1 with out := p1.out ++ [.pending id] } else p1)
    { u1 with nextId := id + 1, sb := u1.sb ++ [e], quiet := false })

/-- A memory-class word that fires (R227): readiness, R145, the checks of its entry, R101, then it enters the buffer. R227 gives cause 0x0AA no
place among the other causes of a firing; it is tested last (DESIGN CHOICE, log 61). -/
def fireMem (opc : Nat) (op : MemOp) (ok : UnitSt → Token → Bool) (req : State → Nat → PeWord → Gathered → MemReq)
    (w : PeWord) (s : State) : State :=
  match prepFire opc w s ok with
  | .wait s1 => s1
  | .fault s1 uid key r => s1.faultAt uid key r
  | .go s1 uid key g =>
    let u := s1.unit uid
    if u.sbFull op g.tok.col then s1
    else
      match req s1 uid w g with
      | .bad c a d => s1.faultAt uid key { cause := c, addr := wd a, tag := g.tok, d0 := d }
      | .entry ea n =>
        if u.badOwn w g.tok then s1.faultAt uid key (raise 0x0AA g.tok)
        else
          s1.enterBuffer uid key g.toks { id := 0, site := u.siteOf key, op := op, opc := BitVec.ofNat 7 opc, w := w, tok := g.tok
                                          a := g.a.v, b := g.b.v, c := g.c.v, tags := g.a.t + 16 * g.b.t + 256 * g.c.t, ea := ea, n := n
                                          swz := u.swz, uctl := u.uctl, rm := u.rm }

/-! ### Issue -/

/-- Operations that count as issued only when they have performed: LDLK with its last load (R237), LDXS with the read and the flags of
its image, which are part of its issue (R227, R249), RED when its contribution leaves the buffer (R247). -/
def MemOp.late (o : MemOp) : Bool := o == .ldlk || o == .ldxs || o == .red
/-- Whether an entry counts as issued for R102. -/
def SbEntry.issued? (e : SbEntry) : Bool :=
  match e.phase with
  | .waiting => false
  | .faulted => false
  | .retired => true
  | _ => !e.op.late
/-- The open wave of an invocation (R102). -/
def UnitSt.openWaveOf (u : UnitSt) (t : Token) : BitVec 10 := agetD u.openWave (t.lvl.toNat, t.itag.toNat) 0#10
/-- An entry of the invocation that failed at issue has its place before `e`, or before every place yet to be given (R227): a write that a
colour held may fail after its successors and later waves were let go. -/
def UnitSt.behindFault (u : UnitSt) (e : SbEntry) : Bool :=
  u.sb.any (fun x => x.phase == .faulted && x.id != e.id && x.tok.sameInv e.tok && x.ord != 0 && (e.ord == 0 || decide (x.ord < e.ord)))
/-- The two conditions of R102, and that of R227. -/
def UnitSt.canIssue (u : UnitSt) (e : SbEntry) : Bool :=
  decide ((u.openWaveOf e.tok - e.tok.wave).toNat < 512) && !u.behindFault e &&
    (let wave := u.sb.filter (fun x => x.tok.sameTag e.tok && x.issued?)
     if seqPx e.w then wave.any (fun x => !seqSx x.w && seqSucc x.w == seqOwn e.w)
     else seqPred e.w == 1023 || wave.any (fun x => seqOwn x.w == seqPred e.w))
/-- An entry has issued: the next wave opens when it ends its wave (R102). Issued numbers of waves 512 or more behind are
dropped: no live wave is that old (R31). -/
def UnitSt.noteIssued (u : UnitSt) (e : SbEntry) : UnitSt :=
  if seqSucc e.w == 1023 && !seqSx e.w && e.tok.wave == u.openWaveOf e.tok then
    let nw := e.tok.wave + 1#10
    { u with openWave := aset u.openWave (e.tok.lvl.toNat, e.tok.itag.toNat) nw
             sb := u.sb.filter (fun x => !(x.phase == .retired && x.heldFault.isNone && x.tok.sameInv e.tok && decide (512 ≤ (nw - x.tok.wave).toNat))) }
  else u

/-- The wave of an entry, as a key of pending hints. -/
def SbEntry.waveKey (e : SbEntry) : Nat × Nat × Nat := (e.tok.lvl.toNat, e.tok.itag.toNat, e.tok.wave.toNat)
/-- An entry takes its place in program order (R103): its first turn gives the place, and consumes the pending SPAN hint of its wave
(R239). -/
def UnitSt.takePlace (u : UnitSt) (e : SbEntry) : UnitSt :=
  let h := agetD u.spanHints e.waveKey 0
  let u1 := u.modEntry e.id (fun x => if x.ord = 0 then { x with ord := u.ordCtr, ext := h } else x)
  { u1 with ordCtr := u.ordCtr + 1, watchdog := 0, spanHints := adel u.spanHints e.waveKey }
/-- An entry issues with its translated address (R102, R227). -/
def State.markIssued (s : State) (uid : Nat) (e : SbEntry) (xa mt scope : Nat) : State :=
  s.modUnit uid (fun u =>
    let u1 := (u.takePlace e).modEntry e.id (fun x => { x with phase := .issued, xa := xa, mt := mt, scope := scope })
    if e.op.late then u1 else u1.noteIssued e)
/-- The turn of a coloured write (R37, R104): it takes its place and counts as issued, so that its successors go on; it is held and has
not been translated. `xa` is where its page table puts it now, for loads that it covers; 0 for nowhere. -/
def State.markHeld (s : State) (uid : Nat) (e : SbEntry) (xa : Nat) : State :=
  s.modUnit uid (fun u => ((u.takePlace e).modEntry e.id (fun x => { x with phase := .heldWrite, xa := xa })).noteIssued e)

/-! ### Retiring -/

/-- The results of an entry: payload and tag for the out port and for e[EI] (R228, R231, R232, R243, R244). -/
def SbEntry.results (e : SbEntry) : (Word × BitVec 4) × (Word × BitVec 4) :=
  let tag : Word × BitVec 4 := (e.seqTag.setWidth 64, 1#4)
  match e.op with
  | .ld | .lda | .ldsp | .ldws => ((e.value, e.w.fmt), (e.value, e.w.fmt))
  | .st | .stl => (tag, tag)
  | .amo => ((e.value, e.w.fmt), tag)
  | .amx => ((e.value, 1#4), if e.w.sub == 3#3 then (if e.ok then 1#64 else 0#64, 1#4) else (e.value, 1#4))
  | _ => ((0#64, 1#4), (0#64, 1#4))

/-- An entry retires: its results are delivered and its sequence number stays (R102, R111). -/
def State.retire (s : State) (uid id : Nat) : State :=
  let u := s.unit uid
  match u.entry? id with
  | none => s
  | some e =>
    if u.isEnded then s.modUnit uid (fun u => u.delEntry id)
    else
      let key := u.keyOf e.site
      let r := e.results
      let s1 := s.modUnit uid (fun u =>
        let u1 := u.modEntry id (fun x => { x with phase := .retired })
        let u2 := if e.op.late then u1.noteIssued e else u1
        let u3 := { u2 with watchdog := 0 }
        if e.toReg && e.op != .ldlk then u3.modPe key (fun p => p.setReg e.w.ei.toNat ⟨true, r.2.2, r.2.1⟩) else u3)
      let t : Token := { e.tok with payload := r.1.1, fmt := r.1.2, col := u.effCol e.tok.col }
      if e.toOut && e.op != .ldlk then s1.resolveOut uid key id (if e.killed || u.killed t then none else some t) else s1
/-- A killed entry whose turn has come keeps its sequence number and does nothing (R39). -/
def State.retireKilled (s : State) (uid : Nat) (e : SbEntry) : State :=
  let u := s.unit uid
  let s1 := s.modUnit uid (fun u => ((u.takePlace e).modEntry e.id (fun x => { x with phase := .retired, killed := true })).noteIssued e)
  if e.toOut then s1.resolveOut uid (u.keyOf e.site) e.id none else s1
/-- A fault of an entry: a coloured load keeps it and retires with a payload of zero (R37); else the entry waits as
faulted and the fault is taken (R227). -/
def State.sbFault (s : State) (uid : Nat) (e : SbEntry) (cause addr : Nat) (d0 d1 : Word) : State :=
  let u := s.unit uid
  let r : Raised := { cause := cause, addr := wd addr, tag := e.tok, d0 := d0, d1 := d1, entry := e.id }
  if e.op.coloredLoad && u.effCol e.tok.col != 0#2 then
    let s1 := s.modUnit uid (fun u => ((u.takePlace e).modEntry e.id (fun x => { x with
      heldFault := if e.killed || u.killed e.tok then none else some { r with entry := 0 }, value := 0#64 })).noteIssued e)
    s1.retire uid e.id
  else
    (s.modUnit uid (fun u => u.modEntry e.id (fun x => { x with phase := .faulted }))).takeFault uid (some (u.keyOf e.site)) r

/-! ### Order of performing -/

/-- G-space loads and stores of R107. -/
def SbEntry.loads (e : SbEntry) : Bool :=
  match e.op with
  | .ld | .lda | .ldlk | .ldxs => true
  | .mbld => e.c != 1#64
  | _ => false
def SbEntry.stores (e : SbEntry) : Bool :=
  match e.op with
  | .st | .stl | .amo | .amx | .red | .stxs | .flushr | .mdrnMem => true
  | _ => false
def SbEntry.lspace (e : SbEntry) : Bool := e.op == .ldsp || e.op == .stsp
/-- An entry that has performed: its value is fixed or its write is visible. -/
def SbEntry.done (e : SbEntry) : Bool := e.phase == .performed || e.phase == .retired
/-- Bytes overlap. -/
def overlap (a n b m : Nat) : Bool := decide (a < b + m) && decide (b < a + n)
/-- Two entries of one space; a held write may have no translated address (R37): it is then known by the virtual one. -/
def SbEntry.overlaps (x e : SbEntry) : Bool :=
  x.lspace == e.lspace && (if x.xa = 0 || e.xa = 0 then overlap x.ea x.n e.ea e.n else overlap x.xa x.n e.xa e.n)
/-- The lines of a range, as a range. -/
def lineRange (a n : Nat) : Nat × Nat := (a / 128 * 128, (a + n - 1) / 128 * 128 + 128 - a / 128 * 128)
/-- The line ranges that an entry touches: those of its translated pages for FLUSHR (R242). -/
def SbEntry.lineRanges (e : SbEntry) : List (Nat × Nat) :=
  if e.op == .flushr then (e.ranges.filter (fun r => r.2 != 0)).map (fun r => lineRange r.1 r.2)
  else if e.xa = 0 || e.n = 0 then [] else [lineRange e.xa e.n]
/-- Two entries touch one 128-byte line. -/
def SbEntry.sameLine (x e : SbEntry) : Bool :=
  if x.phase == .heldWrite && x.xa = 0 then
    let a := lineRange x.ea x.n
    let b := lineRange e.ea e.n
    x.lspace == e.lspace && overlap a.1 a.2 b.1 b.2
  else x.lineRanges.any (fun a => e.lineRanges.any (fun b => overlap a.1 a.2 b.1 b.2))
/-- The live entries of the same invocation before `e` in program order (R103). -/
def UnitSt.earlier (u : UnitSt) (e : SbEntry) : List SbEntry :=
  u.sb.filter (fun x => x.id != e.id && x.tok.sameInv e.tok && x.ord != 0 && decide (x.ord < e.ord) && x.phase != .retired)
/-- The held coloured writes of the context before `e` (R104). -/
def UnitSt.heldBefore (u : UnitSt) (e : SbEntry) : List SbEntry :=
  u.sb.filter (fun x => x.phase == .heldWrite && x.ord != 0 && decide (x.ord < e.ord))
/-- The fences of the context before `e` that have not completed (R109, R241). -/
def UnitSt.fencesBefore (u : UnitSt) (e : SbEntry) : List SbEntry :=
  u.sb.filter (fun x => x.op == .fence && x.ord != 0 && decide (x.ord < e.ord) && x.phase != .retired)
/-- Accesses of the context whose value no load, and no atomic, of another invocation may be older than: stores that have not performed and
whose value a load has taken (R103, R105). -/
def UnitSt.readBefore (u : UnitSt) (e : SbEntry) : List SbEntry :=
  u.sb.filter (fun x => x.read && !x.done && !x.tok.sameInv e.tok && x.overlaps e)
/-- Such an access pends whose value the sequencer, too, may have by now: it reads nothing older (R105). -/
def UnitSt.readPends (u : UnitSt) (e : SbEntry) : Bool := u.sb.any (fun x => x.read && !x.done && x.overlaps e)
/-- The pending STXS of the context before `e` (R251). -/
def UnitSt.stxsBefore (u : UnitSt) (e : SbEntry) : List SbEntry :=
  u.sb.filter (fun x => x.op == .stxs && x.ord != 0 && decide (x.ord < e.ord) && x.phase != .retired && x.overlaps e)

/-- A store holds its write ack: its entry has retired (R108, R111). -/
def SbEntry.acked (e : SbEntry) : Bool := e.phase == .retired
/-- Whether `e` may perform, as far as the entry `x` of its invocation before it matters (R107). A release waits until every
earlier store has its write ack, at whatever scope (R108). A load that waits for a store to its line is treated in `forward`. -/
def orderedAfter (e x : SbEntry) : Bool :=
  if e.lspace then (if x.lspace then x.done || (e.op == .ldsp) else true)
  else if x.lspace || x.op == .fence then true
  else
    (!(x.sameLine e) || x.done || ((e.op == .ld || e.op == .ldlk) && (x.op == .st || x.op == .stl))) &&
    (!(x.loads && e.stores) || x.done) &&
    (!(x.op == .lda || x.op == .amx) || x.done) &&
    (!(e.op == .stl || e.op == .amx) || (if x.stores then x.acked else x.done))
/-- Whether a fence `x` of the context lets a later access `e` perform before it completes (R109): only FENCE.R, and what is no store.
An L-space access is no access to G space, and no FENCE orders it. -/
def passesFence (e x : SbEntry) : Bool := e.lspace || e.op == .ldws || (e.op == .mbld && !e.loads) || (x.w.sub == 1#3 && !e.stores)
/-- Whether `e` may perform now. -/
def UnitSt.mayPerform (u : UnitSt) (e : SbEntry) : Bool :=
  (u.earlier e).all (orderedAfter e) && (u.fencesBefore e).all (passesFence e) &&
    (if e.op == .ld || e.op == .ldlk || e.op == .lda then (u.stxsBefore e).isEmpty else true) &&
    (if e.loads || e.op == .ldsp || e.op == .amo || e.op == .amx then (u.readBefore e).isEmpty else true) &&
    (if e.op == .stl || e.op == .amx || e.op == .fence then (u.heldBefore e).isEmpty
     else if e.stores then (u.heldBefore e).all (fun x => !x.sameLine e) else true)

/-- A reduction contribution of the entry's invocation, before it in program order, whose round is not yet applied (R108, R247). -/
def State.redPending (s : State) (uid : Nat) (e : SbEntry) : Bool :=
  s.reds.any (fun r => !r.applied && r.parts.any (fun p => p.uid == uid && p.lvl == e.tok.lvl && p.itag == e.tok.itag && decide (p.ord < e.ord)))
/-- Whether a FENCE completes (R109, R241): `sub` is its kind. A FENCE.R is a release: its earlier stores have their write acks. -/
def State.fenceDone (s : State) (uid : Nat) (e : SbEntry) : Bool :=
  let before := ((s.unit uid).earlier e).filter (fun x => x.op != .fence)
  let a := before.all (fun x => !x.loads || x.done)
  let w := before.all (fun x => !x.stores || x.acked) && !s.redPending uid e
  match e.w.sub.toNat with
  | 0 => a
  | 1 => before.all SbEntry.done && w
  | 2 => w
  | _ => a && w

/-- What the buffer itself gives a load: the value and colour of the youngest earlier store that covers it; a wait when one
covers it in part or has no value yet; or nothing (R103, R104). -/
inductive Fwd where
  | none
  | wait
  | val (v : Nat) (col : BitVec 2)

/-- The youngest entry of a list. -/
def youngest : List SbEntry → Option SbEntry
  | [] => none
  | x :: r =>
    match youngest r with
    | none => some x
    | some y => if y.ord < x.ord then some x else some y
/-- A load has taken its value from the buffer: the stores that it overlaps are marked, as far as they have not performed. -/
def UnitSt.noteRead (u : UnitSt) (e : SbEntry) : UnitSt :=
  { u with sb := u.sb.map (fun x =>
    if (x.stores || x.op == .stsp) && !x.done && x.ord != 0 && decide (x.ord < e.ord) && x.phase != .heldWrite && x.tok.sameInv e.tok && x.overlaps e
    then { x with read := true } else x) }
def UnitSt.forward (u : UnitSt) (e : SbEntry) : Fwd :=
  let pend := (u.earlier e).filter (fun x => (x.stores || x.op == .stsp) && !x.done)
  let c := (pend ++ (u.heldBefore e).filter (fun x => !pend.contains x && (x.stores || x.op == .stsp))).filter (fun x => x.overlaps e)
  match youngest c with
  | Option.none => if pend.any (fun x => x.phase != .heldWrite && x.sameLine e) then .wait else .none
  | some x =>
    let a := if x.xa = 0 then x.ea else x.xa
    let b := if x.xa = 0 then e.ea else e.xa
    if (x.op == .st || x.op == .stl || x.op == .stsp) && decide (a ≤ b) && decide (b + e.n ≤ a + x.n) then
      .val (x.b.toNat / 256 ^ (b - a) % 256 ^ e.n) (u.effCol x.tok.col)
    else .wait

/-- A load's value is fixed: it retires. -/
def State.loadDone (s : State) (uid : Nat) (e : SbEntry) (v : Nat) (col : BitVec 2) : State :=
  (s.modUnit uid (fun u => u.modEntry e.id (fun x => { x with
    value := loadVal x.w x.n v, tok := if col = 0#2 then x.tok else { x.tok with col := col } }))).retire uid e.id

end Sys2Proof.Machine
end

