-- ==== Sys2Proof/Machine/Tiles.lean ====
section
/-! DEFINITION. XS tiles, codebooks and accumulators (R65 to R74): images, transposition, quantisation, products and drains,
as functions of data. -/

namespace Sys2Proof.Machine

/-- Bytes of an image of a tile tag (R65). -/
def imageLen (tag : Nat) : Nat :=
  match tag with
  | 1 => 1568
  | 2 => 1056
  | 3 | 4 => 544
  | 5 | 6 => 2048
  | 7 => 4096
  | _ => 0
/-- Code width b and fraction bits F of an XS format (R67, R68). -/
def codeBits (tag : Nat) : Nat := if tag = 1 then 12 else if tag = 2 then 8 else 4
def fracBits (tag : Nat) : Nat := if tag = 1 then 10 else if tag = 2 then 6 else if tag = 3 then 2 else 0

/-- `n` codes of `b` bits, lowest first (R67). -/
def unpackCodes (b : Nat) : Nat → Nat → List Nat
  | 0, _ => []
  | n + 1, v => v % 2 ^ b :: unpackCodes b n (v / 2 ^ b)
/-- Codes of `b` bits as one number. -/
def packCodes (b : Nat) : List Nat → Nat
  | [] => 0
  | c :: r => c % 2 ^ b + 2 ^ b * packCodes b r
/-- The byte of an image. -/
def imgByte (img : List Byte) (i : Nat) : Nat := (lget img i 0#8).toNat
/-- The 32 micro-exponents at byte `base` of a header (R66). -/
def microOf (img : List Byte) (base : Nat) : List Nat := unpackCodes 2 32 (leNat ((img.drop base).take 8))
/-- A header that a load accepts (R66): FCODE 1 to 4 and reserved bytes zero. -/
def headerOk (img : List Byte) : Bool :=
  decide (1 ≤ imgByte img 0) && decide (imgByte img 0 ≤ 4) && decide (leNat ((img.drop 20).take 12) = 0)

/-- A 32 by 32 list transposed. -/
def transpose32 {α : Type} (d : α) (l : List α) : List α :=
  (upFrom 0 1024).map (fun n => lget l (n % 32 * 32 + n / 32) d)
/-- Rows of 32. -/
def rows32 {α : Type} : Nat → List α → List (List α)
  | 0, _ => []
  | n + 1, l => l.take 32 :: rows32 n (l.drop 32)

/-- Significands of an XS tile (R67, R68): signed codes, or the code itself for XSC4. -/
def tileCodes (tag : Nat) (img : List Byte) : List Nat := unpackCodes (codeBits tag) 1024 (leNat (img.drop 32))
/-- An XS image from its parts (R66): E = 0 has zero vectors and payload, CBID stands only in XSC4. -/
def mkXs (tag e : Nat) (rx cx : List Nat) (cbid : Nat) (codes : List Nat) : List Byte :=
  let z := decide (e = 0)
  leBytes 1 tag ++ leBytes 1 e ++ leBytes 8 (if z then 0 else packCodes 2 rx) ++ leBytes 8 (if z then 0 else packCodes 2 cx) ++
    leBytes 2 (if tag = 4 then cbid else 0) ++ leBytes 12 0 ++
    leBytes (imageLen tag - 32) (if z then 0 else packCodes (codeBits tag) codes)
/-- CBID of an image. -/
def imgCbid (img : List Byte) : Nat := leNat ((img.drop 18).take 2)
/-- The image that a store of a slot writes (R66, R250). -/
def storedImage (tag : Nat) (img : List Byte) : List Byte :=
  if 5 ≤ tag then img.take (imageLen tag)
  else mkXs tag (imgByte img 1) (microOf img 2) (microOf img 10) (imgCbid img) (tileCodes tag img)

/-- Bytes of one element of a raw tile. -/
def rawBytes (tag : Nat) : Nat := if tag = 7 then 4 else 2
/-- The elements of a raw tile, row-major (R65). -/
def rawElems (tag : Nat) (img : List Byte) : List Nat := unpackCodes (8 * rawBytes tag) 1024 (leNat img)
def rawImage (tag : Nat) (es : List Nat) : List Byte := leBytes (imageLen tag) (packCodes (8 * rawBytes tag) es)

/-- The transpose of a tile (R68, R248): bits move, scales exchange. -/
def transposeTile (tag : Nat) (img : List Byte) : List Byte :=
  if 5 ≤ tag then rawImage tag (transpose32 0 (rawElems tag img))
  else leBytes 1 (imgByte img 0) ++ leBytes 1 (imgByte img 1) ++ (img.drop 10).take 8 ++ (img.drop 2).take 8 ++ (img.drop 18).take 14 ++
    leBytes (imageLen tag - 32) (packCodes (codeBits tag) (transpose32 0 (tileCodes tag img)))

/-! ### Quantisation (R69) -/

/-- The greatest of some integers. -/
def maxInt : List Int → Option Int
  | [] => none
  | x :: r =>
    match maxInt r with
    | none => some x
    | some y => some (if x < y then y else x)
def minInt : List Int → Option Int
  | [] => none
  | x :: r =>
    match minInt r with
    | none => some x
    | some y => some (if y < x then y else x)
/-- `min(3, x)` as a micro-exponent. -/
def cap3 (x : Int) : Nat := if 3 < x then 3 else x.toNat
/-- floor(log2 |v|) of a finite non-zero value. -/
def expOf : FpVal → Option Int
  | .fin _ m e => if m = 0 then none else some (topExp m e)
  | _ => none
/-- Quantisation of 1024 exact values into XS12, XS8 or XS4: image and flags (R69). FZI has been applied before. -/
def quantise (tag : Nat) (vs0 : List FpVal) : List Byte × Nat :=
  let b := codeBits tag
  let F : Int := fracBits tag
  let nanF : Nat := if vs0.any FpVal.isNan then 1 else 0
  let vs := vs0.map (fun v => if v.isNan then FpVal.fin false 0 0 else v)
  let es := vs.map expOf
  let anyInf := vs.any FpVal.isInf
  if es.all Option.isNone && !anyInf then (mkXs tag 0 [] [] 0 [], nanF)
  else
    let M := (maxInt (es.filterMap id)).getD 0
    let rows := rows32 32 es
    let rx := rows.map (fun r => match maxInt (r.filterMap id) with
      | some e => cap3 (M - e)
      | none => 3)
    let cols := rows32 32 (transpose32 none es)
    let cx := cols.map (fun c => match minInt ((rx.zip c).filterMap (fun p => p.2.map (fun e => M - (p.1 : Nat) - e))) with
      | some d => cap3 d
      | none => 3)
    let E0 := M + 127
    if E0 < 1 then (mkXs tag 0 [] [] 0 [], nanF + 8 + 16)
    else
      let E : Int := if 254 < E0 then 254 else E0
      let f0 := nanF ||| (if 254 < E0 then 4 + 16 else 0)
      let lim := 2 ^ (b - 1) - 1
      let scale := rx.flatMap (fun r => cx.map (fun c => 127 + F - E + (r : Nat) + (c : Nat)))
      let rs := List.zipWith (fun v (k : Int) =>
        match v with
        | .fin n m e =>
          let r := roundAt 0 n m (e + k) 0
          let s := if lim < r.1 then lim else r.1
          (wrapNat b (if n then -(s : Int) else s), if r.2 || decide (lim < r.1) then 16 else 0)
        | .inf n => (wrapNat b (if n then -(lim : Int) else lim), 4)
        | .nan _ => (0, 0)) vs scale
      (mkXs tag E.toNat rx cx 0 (rs.map Prod.fst), rs.foldl (fun a p => a ||| p.2) f0)

/-- The exact values of a raw tile; FZI flushes subnormal inputs (R69). -/
def rawValues (tag : Nat) (fzi : Bool) (img : List Byte) : List FpVal :=
  let F := if tag = 5 then fmtF16 else if tag = 6 then fmtBf16 else fmtF32
  (rawElems tag img).map (fun c => decodeFp F (fziCode F fzi c))

/-! ### Codebooks (R71) -/

/-- tmax of a table. -/
def tmaxOf (es : List Nat) : Int := (maxInt ((es.map (decodeFp fmtBf16)).filterMap expOf)).getD 0
/-- The held significands of a table, with the flags NV (bit 0) and TBLINEX (bit 5). -/
def heldTable (es : List Nat) : List Int × Nat :=
  let t := tmaxOf es
  let rs := es.map (fun c =>
    match decodeFp fmtBf16 c with
    | .fin n m e =>
      let r := roundAt 0 n m (e + 10 - t) 0
      let s := if 2047 < r.1 then 2047 else r.1
      ((if n then -(s : Int) else (s : Int)), if r.2 || decide (2047 < r.1) then 32 else 0)
    | _ => (0, 1))
  (rs.map Prod.fst, rs.foldl (fun a p => a ||| p.2) 0)

/-! ### Products and drains (R72 to R74) -/

/-- A matrix operand: E, fraction bits F, vectors and rows of significands. -/
structure XsView where
  e : Nat
  f : Int
  rx : List Nat
  cx : List Nat
  rows : List (List Int)

/-- An XS operand; `tab` is the held table of its CBID for XSC4. -/
def viewTile (tag : Nat) (img : List Byte) (tab : List Nat) : XsView :=
  let held := (heldTable tab).1
  let sig := (tileCodes tag img).map (fun c => if tag = 4 then lget held c 0 else sextNat (codeBits tag) c)
  { e := imgByte img 1, f := if tag = 4 then 10 - tmaxOf tab else fracBits tag
    rx := microOf img 2, cx := microOf img 10, rows := rows32 32 sig }

/-- The exact sum of products of a row and a column with their shifts. -/
def dotShift : List Int → List Int → List Nat → Int
  | a :: as, b :: bs, k :: ks => a * b * (2 ^ k : Nat) + dotShift as bs ks
  | _, _, _ => 0
/-- The 1024 products p(i, j) of R73. -/
def products (A B : XsView) : List Int :=
  let sh := List.zipWith (fun c r => 6 - c - r) A.cx B.rx
  let colsB := rows32 32 (transpose32 0 B.rows.flatten)
  A.rows.flatMap (fun r => colsB.map (fun c => dotShift r c sh))
/-- Accumulator lanes: none listed means all are zero. -/
def accLanes (l : List Int) : List Int := if l.isEmpty then List.replicate 1024 0 else l
def trimLanes (l : List Int) : List Int := if l.all (· == 0) then [] else l
/-- A lane of an accumulator fits in 40 bits. -/
def fits40 (i : Int) : Bool := decide (-(2 ^ 39 : Int) ≤ i) && decide (i ≤ 2 ^ 39 - 1)

/-- MMUL with SUB 0 set, 1 accumulate, 2 negate-accumulate (R73): the new accumulator or the cause. -/
def mmulAcc (sub : Nat) (A B : XsView) (acc : Acc) : Except Nat Acc :=
  if sub != 0 && acc.kd = 8 then .error 0x02C
  else
    let zeroIn := A.e = 0 || B.e = 0
    let esIn : Int := (A.e : Int) + (B.e : Int) - A.f - B.f
    let rxA := A.rx.map (BitVec.ofNat 2)
    let cxB := B.cx.map (BitVec.ofNat 2)
    let kd := if sub = 0 then 1 else acc.kd + 1
    let base : Acc := if sub = 0 then { lanes := [], es := none, rv := acc.rv, cv := acc.cv, kd := kd } else { acc with kd := kd }
    if zeroIn then .ok (if sub = 0 then { base with lanes := [], es := acc.es } else base)
    else
      let p := products A B
      let neg (l : List Int) : List Int := if sub = 2 then l.map (- ·) else l
      let add (a b : List Int) : List Int := List.zipWith (· + ·) (accLanes a) b
      let fin (a : Acc) (new : List Int) : Except Nat Acc := if new.all fits40 then .ok { a with lanes := trimLanes new } else .error 0x02D
      match base.es with
      | none => fin { base with es := some esIn, rv := rxA, cv := cxB } (add base.lanes (neg p))
      | some es =>
        if rxA != acc.rv || cxB != acc.cv then .error 0x02D
        else if es ≤ esIn then fin base (add base.lanes (neg (p.map (· * (2 ^ (esIn - es).toNat : Nat)))))
        else fin { base with es := some esIn } (add ((accLanes base.lanes).map (· * (2 ^ (es - esIn).toNat : Nat))) (neg p))

/-- The exact values of an accumulator's lanes (R74). -/
def accValues (acc : Acc) : List FpVal :=
  match acc.es with
  | none => List.replicate 1024 (.fin false 0 0)
  | some es =>
    let exps := acc.rv.flatMap (fun r => acc.cv.map (fun c => es - 260 - (r.toNat : Int) - (c.toNat : Int)))
    List.zipWith (fun v e => if v = 0 then FpVal.fin false 0 0 else FpVal.fin (decide (v < 0)) v.natAbs e) (accLanes acc.lanes) exps
/-- The F32 image of a drain under MOD, FZO and SAT, with its flags (R74). -/
def drainF32 (mode : Nat) (fzo sat : Bool) (acc : Acc) : List Byte × Nat :=
  let rs := (accValues acc).map (deliverFp fmtF32 mode fzo sat)
  (rawImage 7 (rs.map Prod.fst), rs.foldl (fun a p => a ||| p.2) 0)
/-- An accumulator cleared (R72). -/
def zeroAcc (acc : Acc) : Acc := { acc with lanes := [], es := none, kd := 0 }

end Sys2Proof.Machine
end

