-- ==== Sys2Proof/Machine/Access.lean ====
section
/-! DEFINITION. Accesses of many bytes and of tiles by engines and tile operations: ranges cut at pages, checked before any
byte moves (R261), tile images (R65, R98 to R100), tile slots (R128 to R130), and the firing of format T words (R146). -/

namespace Sys2Proof.Machine

/-! ### Ranges -/

/-- A range cut at 64 KiB pages. -/
def pageCuts : Nat → Nat → Nat → List (Nat × Nat)
  | 0, _, _ => []
  | fuel + 1, va, n =>
    if n = 0 then []
    else
      let room := 65536 - va % 65536
      if n ≤ room then [(va, n)] else (va, room) :: pageCuts fuel ((va + room) % 2 ^ 56) (n - room)
def cuts (va n : Nat) : List (Nat × Nat) := pageCuts (n / 65536 + 2) (va % 2 ^ 56) n

/-- One access that a command will make. -/
structure Probe where
  va : Nat
  n : Nat
  k : Acc5
  acc : Nat := 4

/-- Whether accesses may all be made now: the first fault, or a wait for a host or another device, or none. -/
def State.probe (s : State) (cl job : Nat) : List Probe → State × Option TrRes
  | [] => (s, none)
  | p :: r =>
    match translateReady s cl job p.va p.n p.k p.acc with
    | (s1, .ok xa _ _) =>
      if p.k.writes then State.probe s1 cl job r
      else if isFabXa xa then
        match readG s1 cl job p.va p.n p.k p.acc with
        | (s2, .ok _) => State.probe s2 cl job r
        | (s2, .error e) => (s2, some e)
      else
        match badLine s1 xa p.n with
        | some f => (s1, some (.fault f))
        | none => State.probe s1 cl job r
    | (s1, e) => (s1, some e)
/-- The accesses of a range. -/
def probesOf (va n : Nat) (k : Acc5) : List Probe := (cuts va n).map (fun p => { va := p.1, n := p.2, k := k })

/-- A range read, which `probe` has found readable. -/
def State.readCuts (s : State) (cl job : Nat) (k : Acc5) : List (Nat × Nat) → State × List Byte
  | [] => (s, [])
  | p :: r =>
    match readG s cl job p.1 p.2 k 4 with
    | (s1, .ok b) => let x := State.readCuts s1 cl job k r; (x.1, b ++ x.2)
    | (s1, .error _) => let x := State.readCuts s1 cl job k r; (x.1, List.replicate p.2 0#8 ++ x.2)
def State.readRange (s : State) (cl job va n : Nat) (k : Acc5 := .load) : State × List Byte := s.readCuts cl job k (cuts va n)
/-- A range written, which `probe` has found writable. -/
def State.writeCuts (s : State) (who : Nat × Nat) (cl job : Nat) (k : Acc5) (bs : List Byte) : List (Nat × Nat) → State
  | [] => s
  | p :: r => State.writeCuts (writeG s who cl job p.1 (bs.take p.2) k 4).1 who cl job k (bs.drop p.2) r
def State.writeRange (s : State) (who : Nat × Nat) (cl job va : Nat) (bs : List Byte) (k : Acc5 := .store) : State :=
  s.writeCuts who cl job k bs (cuts va bs.length)

/-! ### Tile slots -/

/-- A slot's bank is present (R128). -/
def Cluster.slotBank (c : Cluster) (k : Nat) : Bool := decide ((if k < 8 then 0 else 1) < (c.banks 2).length)
/-- The tile of a slot; an absent entry is empty (R130). -/
def Cluster.slot (c : Cluster) (k : Nat) : Tile := agetD c.slots k {}
def Cluster.setSlot (c : Cluster) (k : Nat) (t : Tile) : Cluster := { c with slots := if t.tag = 0#4 then adel c.slots k else aset c.slots k t }
def Cluster.cimSlot (c : Cluster) (k : Nat) : CimSlot := agetD c.cim k {}
def Cluster.accOf (c : Cluster) (a : Nat) : Acc := agetD c.acc a {}
def Cluster.setAcc (c : Cluster) (a : Nat) (x : Acc) : Cluster := { c with acc := aset c.acc a x }
/-- The unit holds the engine claim of a cluster (R129). -/
def State.claims (s : State) (cl uid : Nat) : Bool := (s.cluster cl).claim == some uid
/-- The table whose CBID is `id` (R131). -/
def Cluster.tableOf (c : Cluster) (id : Nat) : Option (List Nat) :=
  (c.tables.find? (fun t => t.2.cbid.toNat == id)).map (fun t => t.2.entries.map BitVec.toNat)

/-! ### Tile images in memory -/

/-- The outcome of reading a tile image. -/
inductive ImgRes where
  | ok (tag : Nat) (img : List Byte)
  | wait
  | fault (f : TFault)

/-- An image of tile format `fmt` (0: FCODE decides) read at once from G space (R65, R66, R98, R248); `near`: through the L1. -/
def State.readImage (s : State) (cl job va fmt : Nat) (k : Acc5) (acc : Nat) (near : Bool := false) : State × ImgRes :=
  let get (s : State) (n : Nat) : State × Except TrRes (List Byte) := if near then readNear s cl job va n k acc else readG s cl job va n k acc
  let whole (s : State) (tag : Nat) : State × ImgRes :=
    let len := imageLen tag
    if 4096 < va % 4096 + len then (s, .fault ⟨0x061, 0#64, 0#64⟩)
    else
      match get s len with
      | (s1, .ok b) =>
        if tag ≤ 4 && !headerOk b then (s1, .fault ⟨0x027, 0#64, 0#64⟩)
        else if tag ≤ 4 && fmt != 0 && imgByte b 0 != fmt then (s1, .fault ⟨0x027, 0#64, 0#64⟩)
        else (s1, .ok tag b)
      | (s1, .error (.fault f)) => (s1, .fault f)
      | (s1, .error _) => (s1, .wait)
  if va % 128 != 0 then (s, .fault ⟨0x061, 0#64, 0#64⟩)
  else if fmt != 0 then whole s fmt
  else
    match get s 32 with
    | (s1, .ok h) => if headerOk h then whole s1 (imgByte h 0) else (s1, .fault ⟨0x027, 0#64, 0#64⟩)
    | (s1, .error (.fault f)) => (s1, .fault f)
    | (s1, .error _) => (s1, .wait)

/-- The format of an image in the weight store (R65, R255): FMT, or what FCODE says. -/
def State.imageTagW (s : State) (wa fmt : Nat) : Nat := if fmt = 0 then (s.wst.rd wa).toNat else fmt
/-- The bytes of such an image; of one whose FCODE names no format only the header is read. -/
def State.imageLenW (s : State) (wa fmt : Nat) : Nat :=
  let tag := s.imageTagW wa fmt
  if tag < 1 || 4 < tag then 32 else imageLen tag
/-- The same from the weight store (R255): W addresses, no translation. -/
def State.readImageW (s : State) (wa fmt : Nat) : ImgRes :=
  let tag := s.imageTagW wa fmt
  let b := s.wst.rdBytes wa (imageLen tag)
  if wa % 128 != 0 then .fault ⟨0x061, 0#64, 0#64⟩
  else if tag < 1 || 4 < tag then .fault ⟨0x027, 0#64, 0#64⟩
  else if 4096 < wa % 4096 + imageLen tag then .fault ⟨0x061, 0#64, 0#64⟩
  else if !headerOk b || imgByte b 0 != tag then .fault ⟨0x027, 0#64, 0#64⟩
  else .ok tag b

/-- The bank group of W[11:8] is not in its refresh window (R136). -/
def State.refreshed (s : State) (wa : Nat) : Bool :=
  let c := (s.die (wa / 2 ^ 28)).cyc.toNat % 2048
  let g := bits wa 11 8
  !(decide (g * 128 ≤ c) && decide (c < g * 128 + 96))
/-- Every bank group that a range of the weight store touches is out of its window. -/
def State.refreshedRange (s : State) (wa n : Nat) : Bool :=
  (upFrom (wa / 256) ((wa + n - 1) / 256 + 1 - wa / 256)).all (fun k => s.refreshed (k * 256))

/-! ### Format T firings (R146) -/

/-- FMT codes a format T operation accepts (R248, R250, R253 to R255). -/
def tFmtOk (opc sub fmt : Nat) : Bool :=
  match opc with
  | 0x70 => if sub ≤ 1 then decide (fmt ≤ 7) else if sub ≤ 3 then decide (fmt ≤ 1) else fmt == 5 || fmt == 6
  | 0x71 => decide (fmt ≤ 7)
  | 0x72 => decide (fmt ≤ 3)
  | 0x73 => if sub ≤ 1 then fmt == 0 || fmt == 7 else if sub = 2 then decide (1 ≤ fmt) && decide (fmt ≤ 3) else fmt == 0
  | _ => decide (fmt ≤ 4)
/-- The tags that the q0 token may carry. -/
def tMask (opc sub : Nat) : Nat :=
  if opc = 0x72 || (opc = 0x73 && sub != 1) then 0x7FFF else if opc = 0x7D then 0x4002 else 0x4000
/-- The matrix word (R252). -/
def matWord (w : PeWord) : Nat := if w.x then w.imm.toNat else 0
/-- DETAIL0 of causes 0x020 to 0x026: the tag found, and the operand position as R59 numbers it (R346). -/
def tagDetail (tag pos : Nat) : Word := wd (tag % 16 + 16 * pos)
/-- Handoff codes that R137 forbids to queue `self`. -/
def badHandoff (self c : Nat) : Bool := c == self || decide (6 ≤ c)

/-- Readiness and checks of a format T word: q0 holds a token of colour 0 (R229, R252), fields, FMT, MOD, tag. -/
def prepFireT (opc : Nat) (w : PeWord) (s : State) : FirePrep :=
  match s.focusPe with
  | none => .wait s
  | some (uid, key) =>
    let u := (s.unit uid).purge key
    let s1 := s.setUnit uid u
    match u.matchSet key [0] (fun t => u.effCol t.col == 0#2) with
    | none => .wait s1
    | some toks =>
      let t0 : Token := (toks.map Prod.snd).headD {}
      let m := matWord w
      let usesMod := opc == 0x73 && decide (w.sub.toNat ≤ 1)
      if !tFieldsOk opc w then .fault s1 uid key (raise 0x003 t0)
      else if !tFmtOk opc w.sub.toNat w.fmt.toNat then .fault s1 uid key (raise 0x004 t0)
      else if usesMod && (roundMode (BitVec.ofNat 3 (m / 256)) u.rm).isNone then .fault s1 uid key (raise 0x001 t0)
      else
        match tagFault 0 ⟨t0.payload, t0.fmt.toNat⟩ (tMask opc w.sub.toNat) with
        | some (c, d) => .fault s1 uid key (raise c t0 d)
        | none =>
          .go s1 uid key { a := ⟨t0.payload, t0.fmt.toNat⟩, toks := toks, env := { rm := u.rm, ereg := (u.pe key).ereg }
                           tok := { t0 with ctx := BitVec.ofNat 2 u.ctx, col := 0#2, kind := 0#2 } }

end Sys2Proof.Machine
end

