-- ==== Sys2Proof/Machine/Integer.lean ====
section
/-! DEFINITION. What the operations of PE rows 0x00 to 0x2F compute (R165 to R174): results from operands, no state. -/

namespace Sys2Proof.Machine

/-- A lane-by-lane integer operation of one operand, without flags. -/
def laneInt1 (w : PeWord) (f : (width : Nat) → Nat → Nat) (a : Opnd) : Calc :=
  let t := w.fmt.toNat
  plain (joinW (laneW t) ((lanes a.v t).map (f (laneW t)))) t

/-- A lane-by-lane integer operation of two operands, without flags. -/
def laneInt2 (w : PeWord) (f : (width : Nat) → Nat → Nat → Nat) (a b : Opnd) : Calc :=
  let t := w.fmt.toNat
  plain (joinW (laneW t) (List.zipWith (f (laneW t)) (lanes a.v t) (lanes b.v t))) t

/-- The value of a lane, signed unless SUB[22] is 1 (R144). -/
def laneVal (u : Bool) (width n : Nat) : Int := if u then (n : Int) else sextNat width n

/-- The `.u` variant. -/
def isU (w : PeWord) : Bool := w.sub.getLsbD 0

/-- The range of a lane (R165). -/
def laneMin (u : Bool) (width : Nat) : Int := if u then 0 else -((2 ^ (width - 1) : Nat) : Int)
def laneMax (u : Bool) (width : Nat) : Int :=
  if u then ((2 ^ width : Nat) : Int) - 1 else ((2 ^ (width - 1) : Nat) : Int) - 1
def clampInt (lo hi i : Int) : Int := if i < lo then lo else if hi < i then hi else i

def calcAdd (w : PeWord) (_ : Env) (a b _ : Opnd) : Calc := laneInt2 w (fun _ x y => x + y) a b
def calcSub (w : PeWord) (_ : Env) (a b _ : Opnd) : Calc := laneInt2 w (fun n x y => x + 2 ^ n - y) a b
def calcNeg (w : PeWord) (_ : Env) (a _ _ : Opnd) : Calc := laneInt1 w (fun n x => 2 ^ n - x) a
def calcMul (w : PeWord) (_ : Env) (a b _ : Opnd) : Calc := laneInt2 w (fun _ x y => x * y) a b
def calcMulh (w : PeWord) (_ : Env) (a b _ : Opnd) : Calc :=
  laneInt2 w (fun n x y => wrapNat n (laneVal (isU w) n x * laneVal (isU w) n y / ((2 ^ n : Nat) : Int))) a b
def calcMadd (w : PeWord) (_ : Env) (a b c : Opnd) : Calc :=
  let t := w.fmt.toNat
  plain (joinW (laneW t) (List.zipWith (· + ·) (List.zipWith (· * ·) (lanes a.v t) (lanes b.v t)) (lanes c.v t))) t

/-- DIV and REM of one lane: quotient, remainder, flags (R165). -/
def divRem (u : Bool) (n x y : Nat) : Nat × Nat × Nat :=
  if y = 0 then (2 ^ n - 1, x, 2)
  else
    let p := laneVal u n x
    let q := laneVal u n y
    (wrapNat n (Int.tdiv p q), wrapNat n (Int.tmod p q), 0)

def calcDiv (w : PeWord) (_ : Env) (a b _ : Opnd) : Calc :=
  let t := w.fmt.toNat
  laneCalc (laneW t) t (List.zipWith (fun x y => let r := divRem (isU w) (laneW t) x y; (r.1, r.2.2)) (lanes a.v t) (lanes b.v t))
def calcRem (w : PeWord) (_ : Env) (a b _ : Opnd) : Calc :=
  let t := w.fmt.toNat
  laneCalc (laneW t) t (List.zipWith (fun x y => let r := divRem (isU w) (laneW t) x y; (r.2.1, r.2.2)) (lanes a.v t) (lanes b.v t))
def calcMin (w : PeWord) (_ : Env) (a b _ : Opnd) : Calc :=
  laneInt2 w (fun n x y => if laneVal (isU w) n y < laneVal (isU w) n x then y else x) a b
def calcMax (w : PeWord) (_ : Env) (a b _ : Opnd) : Calc :=
  laneInt2 w (fun n x y => if laneVal (isU w) n x < laneVal (isU w) n y then y else x) a b
def calcAbs (w : PeWord) (_ : Env) (a _ _ : Opnd) : Calc := laneInt1 w (fun n x => wrapNat n (sextNat n x).natAbs) a
def calcAbsd (w : PeWord) (_ : Env) (a b _ : Opnd) : Calc :=
  laneInt2 w (fun n x y => (laneVal (isU w) n x - laneVal (isU w) n y).natAbs) a b
def calcAdds (w : PeWord) (_ : Env) (a b _ : Opnd) : Calc :=
  laneInt2 w (fun n x y => wrapNat n (clampInt (laneMin (isU w) n) (laneMax (isU w) n)
    (laneVal (isU w) n x + laneVal (isU w) n y))) a b
def calcSubs (w : PeWord) (_ : Env) (a b _ : Opnd) : Calc :=
  laneInt2 w (fun n x y => wrapNat n (clampInt (laneMin (isU w) n) (laneMax (isU w) n)
    (laneVal (isU w) n x - laneVal (isU w) n y))) a b

/-- The condition of CMP on one lane (R166). -/
def cmpCond (sub n x y : Nat) : Bool :=
  match sub with
  | 0 => x == y
  | 1 => x != y
  | 2 => decide (sextNat n x < sextNat n y)
  | 3 => decide (sextNat n x ≤ sextNat n y)
  | 4 => decide (x < y)
  | 5 => decide (x ≤ y)
  | 6 => x &&& y != 0
  | _ => x &&& y == 0

def calcCmp (w : PeWord) (_ : Env) (a b _ : Opnd) : Calc :=
  let t := w.fmt.toNat
  plain (joinW 1 (List.zipWith (fun x y => b2n (cmpCond w.sub.toNat (laneW t) x y)) (lanes a.v t) (lanes b.v t))) 13

def calcAnd (w : PeWord) (_ : Env) (a b _ : Opnd) : Calc := plain (a.v &&& b.v) w.fmt.toNat
def calcOr (w : PeWord) (_ : Env) (a b _ : Opnd) : Calc := plain (a.v ||| b.v) w.fmt.toNat
def calcXor (w : PeWord) (_ : Env) (a b _ : Opnd) : Calc := plain (a.v ^^^ b.v) w.fmt.toNat
def calcAndn (w : PeWord) (_ : Env) (a b _ : Opnd) : Calc := plain (a.v &&& ~~~b.v) w.fmt.toNat
def calcNot (w : PeWord) (_ : Env) (a _ _ : Opnd) : Calc := plain (~~~a.v) w.fmt.toNat

def calcShl (w : PeWord) (_ : Env) (a b _ : Opnd) : Calc := laneInt2 w (fun n x y => x * 2 ^ (y % n)) a b
def calcShr (w : PeWord) (_ : Env) (a b _ : Opnd) : Calc := laneInt2 w (fun n x y => x / 2 ^ (y % n)) a b
def calcSra (w : PeWord) (_ : Env) (a b _ : Opnd) : Calc :=
  laneInt2 w (fun n x y => wrapNat n (sextNat n x / ((2 ^ (y % n) : Nat) : Int))) a b
def calcRot (w : PeWord) (_ : Env) (a b _ : Opnd) : Calc :=
  laneInt2 w (fun n x y => x * 2 ^ (y % n) % 2 ^ n + x / 2 ^ (n - y % n)) a b
/-- Leading zeros of `x` in `n` bits. -/
def clzNat (n x : Nat) : Nat := if x = 0 then n else n - 1 - Nat.log2 x
/-- Trailing zeros of `x` in `n` bits. -/
def ctzNat (n x : Nat) : Nat := ((upFrom 0 n).find? (fun i => x.testBit i)).getD n
/-- One bits of `x` in `n` bits. -/
def popNat (n x : Nat) : Nat := (upFrom 0 n).foldl (fun s i => s + b2n (x.testBit i)) 0
def calcClz (w : PeWord) (_ : Env) (a _ _ : Opnd) : Calc := laneInt1 w clzNat a
def calcCtz (w : PeWord) (_ : Env) (a _ _ : Opnd) : Calc := laneInt1 w ctzNat a
def calcPopc (w : PeWord) (_ : Env) (a _ _ : Opnd) : Calc := laneInt1 w popNat a

/-- BEXT of one lane under control `y` (R169). -/
def bextLane (n x y : Nat) : Nat :=
  let pos := bits y 5 0
  let len := bits y 14 8
  if n ≤ pos || len == 0 then 0 else x / 2 ^ pos % 2 ^ (Nat.min len (n - pos))
/-- BINS of one lane (R169). -/
def binsLane (n x y z : Nat) : Nat :=
  let pos := bits y 5 0
  let len := bits y 14 8
  if n ≤ pos || len == 0 then x
  else
    let le := Nat.min len (n - pos)
    x / 2 ^ (pos + le) * 2 ^ (pos + le) + z % 2 ^ le * 2 ^ pos + x % 2 ^ pos
def calcBext (w : PeWord) (_ : Env) (a b _ : Opnd) : Calc := laneInt2 w bextLane a b
def calcBins (w : PeWord) (_ : Env) (a b c : Opnd) : Calc :=
  let t := w.fmt.toNat
  plain (joinW (laneW t) ((List.zipWith (fun x (y : Nat × Nat) => binsLane (laneW t) x y.1 y.2) (lanes a.v t)
    ((lanes b.v t).zip (lanes c.v t))))) t

/-- The source width of SEXT and ZEXT (R144). -/
def extWidth (w : PeWord) : Nat := 8 * 2 ^ (w.sub.toNat % 4)
def calcSext (w : PeWord) (_ : Env) (a _ _ : Opnd) : Calc :=
  if laneW w.fmt.toNat < extWidth w then .trap 0x004 0#64
  else laneInt1 w (fun n x => wrapNat n (sextNat (extWidth w) x)) a
def calcZext (w : PeWord) (_ : Env) (a _ _ : Opnd) : Calc :=
  if laneW w.fmt.toNat < extWidth w then .trap 0x004 0#64
  else laneInt1 w (fun _ x => x % 2 ^ extWidth w) a

/-- `a + (b << s)` modulo 2^56 with bits [63:56] of `a` (R58, R171). -/
def addrAdd (a : Word) (d : Nat) : Word :=
  wd (a.toNat / 2 ^ 56 * 2 ^ 56 + (a.toNat + d) % 2 ^ 56)

def calcLea (w : PeWord) (_ : Env) (a b _ : Opnd) : Calc :=
  let d := b.v.toNat * 2 ^ w.sub.toNat % 2 ^ 64
  if w.fmt = 14#4 then plain (addrAdd a.v d) 14 else plain (wd (a.v.toNat + d)) w.fmt.toNat

def calcBchk (w : PeWord) (_ : Env) (a b c : Opnd) : Calc :=
  let t := w.fmt.toNat
  let g (o : Opnd) : List Nat := if t = 14 then [o.v.toNat % 2 ^ 56] else lanes o.v t
  let bad := List.zipWith (fun x (y : Nat × Nat) => b2n !(decide (y.2 ≤ x) && decide (x < y.1))) (g a) ((g b).zip (g c))
  let m := joinLanes 1 bad
  if m = 0 then plain a.v t else .trap 0x048 (wd m)

def calcSel (w : PeWord) (_ : Env) (a b c : Opnd) : Calc :=
  let t := w.fmt.toNat
  if a.t = 13 then
    plain (joinW (laneW t) (List.zipWith (fun l (y : Nat × Nat) => if a.v.getLsbD l then y.1 else y.2)
      (upFrom 0 (lanesOf t)) ((lanes b.v t).zip (lanes c.v t)))) t
  else plain (if a.v = 0#64 then c.v else b.v) t

def calcMove (w : PeWord) (_ : Env) (a _ _ : Opnd) : Calc :=
  if w.sub.getLsbD 0 then plain a.v w.fmt.toNat else plain a.v a.t

end Sys2Proof.Machine
end

