-- ==== Sys2Proof/Machine/Float.lean ====
section
/-! DEFINITION. What the operations of PE rows 0x40 to 0x5F compute (R195 to R223, R75, R76): results and flags from
operands, no state. -/

namespace Sys2Proof.Machine

/-- FZI, FZO and SAT of SUB (R144). -/
def fziBit (w : PeWord) : Bool := w.sub.getLsbD 2
def fzoBit (w : PeWord) : Bool := w.sub.getLsbD 1
def satBit (w : PeWord) : Bool := w.sub.getLsbD 0
/-- The effective mode of MOD; the word check has refused the others. -/
def modeOf (w : PeWord) (env : Env) : Nat := (roundMode w.mod env.rm).getD 0

/-- A lane of tag `t` as a value, after FZI. -/
def fpLane (fzi : Bool) (t : Nat) (c : Nat) : FpVal := decodeFp (ffmtOf t) (fziCode (ffmtOf t) fzi c)

/-- Deliver an exact lane value of tag `t` under the word's MOD, FZO and SAT, with the flags raised before. -/
def roundLane (w : PeWord) (env : Env) (t : Nat) (x : FpVal) (f0 : Nat) : Nat × Nat :=
  let (c, f) := deliverFp (ffmtOf t) (modeOf w env) (fzoBit w) (satBit w) x
  (c, f ||| f0)

/-- A rounding operation of two operands, lane by lane; `f` gives the exact value and the flags it raises. -/
def laneFp2 (w : PeWord) (env : Env) (f : Nat → FpVal → FpVal → FpVal × Nat) (a b : Opnd) : Calc :=
  let t := w.fmt.toNat
  laneCalc (laneW t) t (List.zipWith (fun x y =>
    let r := f (modeOf w env) (fpLane (fziBit w) t x) (fpLane (fziBit w) t y)
    roundLane w env t r.1 r.2) (lanes a.v t) (lanes b.v t))

/-- An exact sum of two with its flags. -/
def addExact (mode : Nat) (x y : FpVal) : FpVal × Nat :=
  let r := sumFp mode [x, y]
  (r.1, snanFlag [x, y] ||| nvFlag r.2)
/-- An exact product with its flags. -/
def mulExact (_ : Nat) (x y : FpVal) : FpVal × Nat :=
  let r := mulFp x y
  (r.1, snanFlag [x, y] ||| nvFlag r.2)
/-- `±(x * y) ± z` with its flags; 0 times infinity is invalid even with a quiet NaN addend (R54, R200). -/
def fmaExact (negP negC : Bool) (mode : Nat) (x y z : FpVal) : FpVal × Nat :=
  let p := mulFp x y
  let p1 := if negP then p.1.negate else p.1
  let z1 := if negC then z.negate else z
  let s := sumFp mode [p1, z1]
  (if p.2 then .nan false else s.1, snanFlag [x, y, z] ||| nvFlag (p.2 || s.2))

def calcFadd (w : PeWord) (env : Env) (a b _ : Opnd) : Calc := laneFp2 w env addExact a b
def calcFsub (w : PeWord) (env : Env) (a b _ : Opnd) : Calc := laneFp2 w env (fun m x y => addExact m x y.negate) a b
def calcFmul (w : PeWord) (env : Env) (a b _ : Opnd) : Calc := laneFp2 w env mulExact a b

/-- A fused operation, lane by lane (R200). -/
def laneFma (w : PeWord) (env : Env) (negP negC : Bool) (a b c : Opnd) : Calc :=
  let t := w.fmt.toNat
  laneCalc (laneW t) t (List.zipWith (fun x (y : Nat × Nat) =>
    let r := fmaExact negP negC (modeOf w env) (fpLane (fziBit w) t x) (fpLane (fziBit w) t y.1) (fpLane (fziBit w) t y.2)
    roundLane w env t r.1 r.2) (lanes a.v t) ((lanes b.v t).zip (lanes c.v t)))
def calcFma (w : PeWord) (env : Env) (a b c : Opnd) : Calc := laneFma w env false false a b c
def calcFms (w : PeWord) (env : Env) (a b c : Opnd) : Calc := laneFma w env false true a b c
def calcFnma (w : PeWord) (env : Env) (a b c : Opnd) : Calc := laneFma w env true false a b c

/-- Minimum or maximum of two lane codes of format F (R202): the chosen code and flags. -/
def minMaxCode (F : FFmt) (isMax num : Bool) (x y : Nat) : Nat × Nat :=
  let vx := decodeFp F x
  let vy := decodeFp F y
  let f := snanFlag [vx, vy]
  if vx.isNan && vy.isNan then (F.cnan, f)
  else if vx.isNan then (if num then y else F.cnan, f)
  else if vy.isNan then (if num then x else F.cnan, f)
  else
    let less : Bool := ltFp vx vy || (eqFp vx vy && vx.neg? && !vy.neg?)
    (if less == isMax then y else x, f)

def laneMinMax (w : PeWord) (isMax : Bool) (a b : Opnd) : Calc :=
  let t := w.fmt.toNat
  let F := ffmtOf t
  laneCalc (laneW t) t (List.zipWith (fun x y => minMaxCode F isMax (fzoBit w) (fziCode F (fziBit w) x) (fziCode F (fziBit w) y))
    (lanes a.v t) (lanes b.v t))
def calcFmin (w : PeWord) (_ : Env) (a b _ : Opnd) : Calc := laneMinMax w false a b
def calcFmax (w : PeWord) (_ : Env) (a b _ : Opnd) : Calc := laneMinMax w true a b

def calcFabs (w : PeWord) (_ : Env) (a _ _ : Opnd) : Calc :=
  let t := w.fmt.toNat
  plain (joinW (laneW t) ((lanes a.v t).map (magOf (ffmtOf t)))) t
def calcFneg (w : PeWord) (_ : Env) (a _ _ : Opnd) : Calc :=
  let t := w.fmt.toNat
  let F := ffmtOf t
  plain (joinW (laneW t) ((lanes a.v t).map (fun c => withSign F (!signOf F c) (magOf F c)))) t

/-- FCMP of one lane (R203): condition and flags. -/
def fcmpLane (cond : Nat) (x y : FpVal) : Nat × Nat :=
  let un := x.isNan || y.isNan
  match cond with
  | 0 => (b2n (!un && eqFp x y), snanFlag [x, y])
  | 1 => (b2n (!un && ltFp x y), nvFlag un)
  | 2 => (b2n (!un && !ltFp y x), nvFlag un)
  | _ => (b2n un, snanFlag [x, y])
def calcFcmp (w : PeWord) (_ : Env) (a b _ : Opnd) : Calc :=
  let t := w.fmt.toNat
  laneCalc 1 13 (List.zipWith (fun x y => fcmpLane (w.sub.toNat % 4) (fpLane (fziBit w) t x) (fpLane (fziBit w) t y))
    (lanes a.v t) (lanes b.v t))

/-- The exact quotient and its flags (R204). -/
def divExact (_ : Nat) (x y : FpVal) : FpVal × Nat :=
  if x.isNan || y.isNan then (.nan false, snanFlag [x, y])
  else
    let n := x.neg? != y.neg?
    match x, y with
    | .inf _, .inf _ => (.nan false, 1)
    | .inf _, _ => (.inf n, 0)
    | _, .inf _ => (.fin n 0 0, 0)
    | .fin _ m e, .fin _ m' e' =>
      if m' = 0 then (if m = 0 then (.nan false, 1) else (.inf n, 2))
      else if m = 0 then (.fin n 0 0, 0) else (divFin n m e m' e', 0)
    | _, _ => (.nan false, 0)
def calcFdiv (w : PeWord) (env : Env) (a b _ : Opnd) : Calc := laneFp2 w env divExact a b

/-- The exact root and its flags (R204). -/
def sqrtExact (x : FpVal) : FpVal × Nat :=
  match x with
  | .nan s => (.nan false, nvFlag s)
  | .inf n => if n then (.nan false, 1) else (.inf false, 0)
  | .fin n m e => if m = 0 then (.fin n 0 0, 0) else if n then (.nan false, 1) else (sqrtFin m e, 0)
def calcFsqrt (w : PeWord) (env : Env) (a _ _ : Opnd) : Calc :=
  let t := w.fmt.toNat
  laneCalc (laneW t) t ((lanes a.v t).map (fun x => let r := sqrtExact (fpLane (fziBit w) t x); roundLane w env t r.1 r.2))

/-- The precision of the estimates (R205). -/
def estBits (t : Nat) : Nat := Nat.min 12 ((ffmtOf t).fbits + 1)
/-- 1/x before the p-bit rounding. -/
def rcpExact (x : FpVal) : FpVal × Nat :=
  divExact 0 (.fin false 1 0) x
/-- 1/√x before the p-bit rounding. -/
def rsqExact (x : FpVal) : FpVal × Nat :=
  match x with
  | .nan s => (.nan false, nvFlag s)
  | .inf n => if n then (.nan false, 1) else (.fin false 0 0, 0)
  | .fin n m e => if m = 0 then (.inf n, 2) else if n then (.nan false, 1) else (rsqrtFin m e, 0)
def laneEst (w : PeWord) (f : FpVal → FpVal × Nat) (a : Opnd) : Calc :=
  let t := w.fmt.toNat
  laneCalc (laneW t) t ((lanes a.v t).map (fun x =>
    let r := f (fpLane (fziBit w) t x)
    let d := deliverFp (ffmtOf t) 0 false false (roundSig (estBits t) r.1)
    (d.1, d.2 ||| r.2)))
def calcFrcpe (w : PeWord) (_ : Env) (a _ _ : Opnd) : Calc := laneEst w rcpExact a
def calcFrsqe (w : PeWord) (_ : Env) (a _ _ : Opnd) : Calc := laneEst w rsqExact a

/-- The class bit of a code (R206). -/
def fclassBit (F : FFmt) (c : Nat) : Nat :=
  match decodeFp F c with
  | .nan s => if s then 8 else 9
  | .inf n => if n then 0 else 7
  | .fin n m _ =>
    if m = 0 then (if n then 3 else 4)
    else if magOf F c < 2 ^ F.fbits then (if n then 2 else 5) else (if n then 1 else 6)
/-- The integer tag with the lanes of floating-point tag `t` (R206, R223). -/
def intTagOf (t : Nat) : Nat := if t = 5 then 1 else if t = 6 then 2 else 3
def calcFclass (w : PeWord) (_ : Env) (a _ _ : Opnd) : Calc :=
  let t := w.fmt.toNat
  plain (joinW (laneW t) ((lanes a.v t).map (fun c => 2 ^ fclassBit (ffmtOf t) c))) (intTagOf t)

/-- Convert the first min(source lanes, FMT lanes) lanes; the others are zero (R207). -/
def convLanes (w : PeWord) (src : Opnd) (f : Nat → Nat × Nat) : Calc :=
  let t := w.fmt.toNat
  laneCalc (laneW t) t (((lanes src.v src.t).take (lanesOf t)).map f)

def calcFcvt (w : PeWord) (env : Env) (a _ _ : Opnd) : Calc :=
  convLanes w a (fun c => let x := fpLane (fziBit w) a.t c; roundLane w env w.fmt.toNat x (snanFlag [x]))
def calcFtoi (w : PeWord) (env : Env) (a _ _ : Opnd) : Calc :=
  convLanes w a (fun c => deliverInt (laneW w.fmt.toNat) (w.sub.getLsbD 1) (modeOf w env) (fpLane (fziBit w) a.t c))
def calcItof (w : PeWord) (env : Env) (a _ _ : Opnd) : Calc :=
  convLanes w a (fun c => roundLane w env w.fmt.toNat (intFp (laneVal (fziBit w) (laneW a.t) c)) 0)

/-- FRND of one lane (R212): the rounded value in its own format, sign kept, NV alone for a signalling NaN. -/
def frndLane (F : FFmt) (mode : Nat) (c : Nat) : Nat × Nat :=
  match decodeFp F c with
  | .nan s => (F.cnan, nvFlag s)
  | .inf _ => (c, 0)
  | .fin n m e =>
    let s := (roundAt mode n m e 0).1
    if s = 0 then (withSign F n 0, 0) else ((deliverFp F 0 false false (.fin n s 0)).1, 0)
def calcFrnd (w : PeWord) (env : Env) (a _ _ : Opnd) : Calc :=
  let t := w.fmt.toNat
  laneCalc (laneW t) t ((lanes a.v t).map (fun c => frndLane (ffmtOf t) (modeOf w env) (fziCode (ffmtOf t) (fziBit w) c)))

/-- Entry k of the codebook in e4 to e7 (R213). -/
def tableEntry (er : List EReg) (k : Nat) : Nat := lane (lget er (4 + k / 4) {}).val 16 (k % 4)
/-- The tag fault of e4 to e7 (R213), in register order. -/
def tableFault (er : List EReg) : Option (Nat × Word) :=
  ((upFrom 4 4).findSome? (fun i => tagFault 2 ⟨(lget er i {}).val, (lget er i {}).tag.toNat⟩ 0x100))

def calcCbd (_ : PeWord) (env : Env) (a b _ : Opnd) : Calc :=
  match tableFault env.ereg with
  | some (c, d) => .trap c d
  | none =>
    let q := b.v.toNat % 4
    plain (joinW 16 ((upFrom 0 4).map (fun l => tableEntry env.ereg (lane a.v 4 (4 * q + l))))) 8

/-- The distance between finite values as (m, e) pairs compared on one scale; an infinite entry is farther than any. -/
def distLt (v x y : FpVal) : Bool :=
  match x.isInf, y.isInf with
  | true, _ => false
  | false, true => true
  | false, false =>
    let e := minExp [v, x, y]
    decide ((scaled e v - scaled e x).natAbs < (scaled e v - scaled e y).natAbs)

/-- The lowest index of `cand` that no later one beats under `better`. -/
def pickBest (better : FpVal → FpVal → Bool) : List (Nat × FpVal) → Option (Nat × FpVal)
  | [] => none
  | p :: r =>
    match pickBest better r with
    | none => some p
    | some q => if better q.2 p.2 then some q else some p

/-- CBE of one lane (R215): index and flags. -/
def cbeLane (table : List FpVal) (v : FpVal) : Nat × Nat :=
  if v.isNan then (0, 1)
  else
    let cand := ((upFrom 0 16).zip table).filter (fun p => !p.2.isNan)
    match v with
    | .inf n =>
      match pickBest (fun x y => if n then ltFp x y else ltFp y x) cand with
      | none => (0, 1)
      | some p => (p.1, 0)
    | _ =>
      match pickBest (distLt v) cand with
      | none => (0, 1)
      | some p => (p.1, if eqFp p.2 v then 0 else 16)
def calcCbe (_ : PeWord) (env : Env) (a b c : Opnd) : Calc :=
  match tableFault env.ereg with
  | some (k, d) => .trap k d
  | none =>
    let q := b.v.toNat % 4
    let table := (upFrom 0 16).map (fun k => decodeFp fmtBf16 (tableEntry env.ereg k))
    let rs := (lanes a.v 8).map (fun x => cbeLane table (decodeFp fmtBf16 x))
    let old := lanes c.v 12
    .ok (joinW 4 (old.take (4 * q) ++ rs.map Prod.fst ++ old.drop (4 * q + 4))) 12
      ((rs.zip (upFrom 0 4)).filterMap (fun p => if p.1.2 = 0 then none else some (2 ^ p.2, p.1.2)))

/-- One level of the tree of R75 on codes: pairs added and rounded, with the mask of source lanes each covers. -/
def lsumLevel (f : Nat → Nat → Nat × Nat) : List (Nat × Nat) → List (Nat × Nat) × List (Nat × Nat)
  | (x, mx) :: (y, my) :: r =>
    let s := f x y
    let rest := lsumLevel f r
    ((s.1, mx ||| my) :: rest.1, if s.2 = 0 then rest.2 else (mx ||| my, s.2) :: rest.2)
  | r => (r, [])
/-- The levels of the tree of R75. -/
def lsumTree (f : Nat → Nat → Nat × Nat) : Nat → List (Nat × Nat) → Nat × List (Nat × Nat)
  | 0, l => ((l.headD (0, 0)).1, [])
  | k + 1, l =>
    let r := lsumLevel f l
    let t := lsumTree f k r.1
    (t.1, r.2 ++ t.2)

def calcLsum (w : PeWord) (env : Env) (a _ _ : Opnd) : Calc :=
  let t := w.fmt.toNat
  let n := lanesOf t
  if t ≤ 4 then
    plain (splat (laneW t) n ((lanes a.v t).foldl (· + ·) 0)) t
  else if n = 1 then
    let x := fpLane (fziBit w) t a.v.toNat
    match x with
    | .nan s => .ok (wd (ffmtOf t).cnan) t (if s then [(1, 1)] else [])
    | _ => plain (wd (fziCode (ffmtOf t) (fziBit w) a.v.toNat)) t
  else
    let add (x y : Nat) : Nat × Nat :=
      let r := addExact (modeOf w env) (fpLane (fziBit w) t x) (fpLane (fziBit w) t y)
      roundLane w env t r.1 r.2
    let r := lsumTree add (Nat.log2 n) ((lanes a.v t).zip ((upFrom 0 n).map (2 ^ ·)))
    .ok (splat (laneW t) n r.1) t r.2

/-- An exact dot product plus an addend (R76): value and flags. -/
def dotExact (mode : Nat) (xs : List (FpVal × FpVal)) (c : FpVal) : FpVal × Nat :=
  let ps := xs.map (fun p => mulFp p.1 p.2)
  let inv := ps.any Prod.snd
  let s := sumFp mode (ps.map Prod.fst ++ [c])
  (if inv then .nan false else s.1, snanFlag (c :: (xs.map Prod.fst ++ xs.map Prod.snd)) ||| nvFlag (inv || s.2))

def calcLdot (w : PeWord) (env : Env) (a b c : Opnd) : Calc :=
  let t := w.fmt.toNat
  let rt := if t ≤ 6 then 5 else 6
  let ps := ((lanes a.v t).map (fpLane (fziBit w) t)).zip ((lanes b.v t).map (fpLane (fziBit w) t))
  let groups := if t ≤ 6 then [ps] else [ps.take (lanesOf t / 2), ps.drop (lanesOf t / 2)]
  laneCalc (laneW rt) rt (List.zipWith (fun g cc =>
    let r := dotExact (modeOf w env) g (fpLane (fziBit w) rt cc)
    roundLane w env rt r.1 r.2) groups (lanes c.v rt))

/-- An index operand modulo the lane count (R196, R219). -/
def laneIdx (b : Opnd) (n : Nat) : Nat := b.v.toNat % 64 % n
def calcLbc (w : PeWord) (_ : Env) (a b _ : Opnd) : Calc :=
  let t := w.fmt.toNat
  let n := lanesOf t
  plain (splat (laneW t) n (lane a.v (laneW t) (laneIdx b n))) t
def calcLext (w : PeWord) (_ : Env) (a b _ : Opnd) : Calc :=
  let t := w.fmt.toNat
  plain (wd (lane a.v (laneW t) (laneIdx b (lanesOf t)))) t
def calcLins (w : PeWord) (_ : Env) (a b c : Opnd) : Calc :=
  let t := w.fmt.toNat
  plain (joinW (laneW t) (lmod (lanes a.v t) (laneIdx c (lanesOf t)) (fun _ => lane b.v (laneW t) 0))) t
def calcLshuf (w : PeWord) (_ : Env) (a b c : Opnd) : Calc :=
  let t := w.fmt.toNat
  let n := lanesOf t
  plain (joinW (laneW t) ((upFrom 0 n).map (fun l =>
    let j := lane b.v (64 / n) l % (2 * n)
    if j < n then lane a.v (laneW t) j else lane c.v (laneW t) (j - n)))) t

/-- The source tags that LPACK and LUNPK pair with FMT. -/
def pairTag (opc fmt tag : Nat) : Bool := (tagMasks opc fmt 0).1.testBit tag

/-- LPACK: the zero of selector 6 carries the tag of the other operand. Its lane mask names result lanes (DESIGN CHOICE, log 47). -/
def calcLpack (w : PeWord) (env : Env) (a b _ : Opnd) : Calc :=
  let t := w.fmt.toNat
  let ta := if w.sa == 6#3 then b.t else a.t
  let tb := if w.sb == 6#3 then ta else b.t
  if !pairTag 0x5A t ta then .trap 0x004 0#64
  else if tb = 15 then .trap 0x026 (wd (15 + 16))
  else if tb != ta then .trap 0x021 (wd (tb + 16))
  else
    let src := lanes a.v ta ++ lanes b.v tb
    if t ≤ 4 then plain (joinW (laneW t) src) t
    else laneCalc (laneW t) t (src.map (fun c =>
      let x := fpLane false ta c
      let d := deliverFp (ffmtOf t) (modeOf w env) false false x
      (d.1, d.2 ||| snanFlag [x])))

/-- LUNPK: its lane mask names result lanes (DESIGN CHOICE, log 47). -/
def calcLunpk (w : PeWord) (_ : Env) (a _ _ : Opnd) : Calc :=
  let t := w.fmt.toNat
  if !pairTag 0x5B t a.t then .trap 0x004 0#64
  else
    let n := lanesOf t
    let src := ((lanes a.v a.t).drop (if w.sub.getLsbD 0 then n else 0)).take n
    if t ≤ 4 then plain (joinW (laneW t) (src.map (fun c => wrapNat (laneW t) (sextNat (laneW a.t) c)))) t
    else laneCalc (laneW t) t (src.map (fun c =>
      let x := fpLane false a.t c
      ((deliverFp (ffmtOf t) 0 false false x).1, snanFlag [x])))

/-- LRED (R218): its lane mask names the source lanes that hold a signalling NaN (DESIGN CHOICE, log 47). -/
def calcLred (w : PeWord) (_ : Env) (a _ _ : Opnd) : Calc :=
  let t := w.fmt.toNat
  let n := lanesOf t
  let isMin := w.sub.getLsbD 0
  if t ≤ 4 then
    let better (x y : Nat) : Bool := if isMin then decide (sextNat (laneW t) y < sextNat (laneW t) x) else decide (sextNat (laneW t) x < sextNat (laneW t) y)
    plain (splat (laneW t) n ((lanes a.v t).foldl (fun acc y => if better acc y then y else acc) (lane a.v (laneW t) 0))) t
  else
    let F := ffmtOf t
    let ls := lanes a.v t
    let r := if ls.any (fun c => (decodeFp F c).isNan) then F.cnan
      else ls.foldl (fun acc y => (minMaxCode F (!isMin) false acc y).1) (lane a.v (laneW t) 0)
    .ok (splat (laneW t) n r) t
      ((ls.zip (upFrom 0 n)).filterMap (fun p => if (decodeFp F p.1).isSnan then some (2 ^ p.2, 1) else none))

/-- FSCALE (R223): x * 2^k. Beyond 5000 either way every finite x other than 0 overflows or is tiny alike. -/
def calcFscale (w : PeWord) (env : Env) (a b _ : Opnd) : Calc :=
  let t := w.fmt.toNat
  let it := intTagOf t
  laneCalc (laneW t) t (List.zipWith (fun x y =>
    let v := fpLane (fziBit w) t x
    let k := clampInt (-5000) 5000 (sextNat (laneW it) y)
    let r : FpVal := match v with
      | .fin n m e => .fin n m (e + k)
      | v => v
    roundLane w env t r (snanFlag [v])) (lanes a.v t) (lanes b.v it))

end Sys2Proof.Machine
end

