-- ==== Sys2Proof/Machine/RowMemory.lean ====
section
/-! DEFINITION. The meanings of PE rows 0x60 to 0x6F: what a memory-class word checks at its firing and puts into the store
buffer (R225 to R247). Their effects on memory are those of the issue and of the events at the home slices. -/

namespace Sys2Proof.Machine

/-- An operation that any colour may fire. -/
def anyColour (_ : UnitSt) (_ : Token) : Bool := true
/-- An operation that waits until its operands have colour 0 (R229). -/
def colour0 (u : UnitSt) (t : Token) : Bool := u.effCol t.col == 0#2

/-- A G-space access with an access parameter: its effective address and its alignment (R226, R227). -/
def reqG (_ : State) (_ : Nat) (w : PeWord) (g : Gathered) : MemReq :=
  let ea := addDisp g.a.v (dispOf w)
  if ea % sizeOf w != 0 then .bad 0x060 ea 0#64 else .entry ea (sizeOf w)
/-- An L-space or W-space access (R226, R227). -/
def reqFlat (_ : State) (_ : Nat) (w : PeWord) (g : Gathered) : MemReq :=
  let ea := flatAddr g.a.v (dispOf w)
  if !aligned g.a.v (dispOf w) (sizeOf w) then .bad 0x060 ea 0#64 else .entry ea (sizeOf w)
/-- An atomic of `n` bytes (R81, R243, R244). -/
def reqAtomic (n : Nat) (_ : State) (_ : Nat) (_ : PeWord) (g : Gathered) : MemReq :=
  let ea := g.a.v.toNat % 2 ^ 56
  if ea % n != 0 then .bad 0x060 ea 0#64 else .entry ea n
/-- An address without an alignment rule (R236, R238, R241, R242). -/
def reqAddr (n : Nat) (_ : State) (_ : Nat) (_ : PeWord) (g : Gathered) : MemReq := .entry (g.a.v.toNat % 2 ^ 56) n
/-- No address (R239, R240). -/
def reqNone (_ : State) (_ : Nat) (_ : PeWord) (_ : Gathered) : MemReq := .entry 0 0

/-- LD (R231). -/
def execLd (w : PeWord) (s : State) : Host.Outcome State Fault Refusal := nextS (fireMem 0x60 .ld anyColour reqG w s)
/-- ST (R231). -/
def execSt (w : PeWord) (s : State) : Host.Outcome State Fault Refusal := nextS (fireMem 0x61 .st anyColour reqG w s)
/-- LDA (R231). -/
def execLda (w : PeWord) (s : State) : Host.Outcome State Fault Refusal := nextS (fireMem 0x6E .lda anyColour reqG w s)
/-- STL (R231). -/
def execStl (w : PeWord) (s : State) : Host.Outcome State Fault Refusal := nextS (fireMem 0x6F .stl anyColour reqG w s)
/-- LDSP (R234). -/
def execLdsp (w : PeWord) (s : State) : Host.Outcome State Fault Refusal := nextS (fireMem 0x65 .ldsp anyColour reqFlat w s)
/-- STSP (R234). -/
def execStsp (w : PeWord) (s : State) : Host.Outcome State Fault Refusal := nextS (fireMem 0x66 .stsp anyColour reqFlat w s)
/-- LDWS (R235). -/
def execLdws (w : PeWord) (s : State) : Host.Outcome State Fault Refusal := nextS (fireMem 0x67 .ldws anyColour reqFlat w s)
/-- PREF (R238). -/
def execPref (w : PeWord) (s : State) : Host.Outcome State Fault Refusal := nextS (fireMem 0x63 .pref anyColour (reqAddr 1) w s)
/-- SPAN (R239). -/
def execSpan (w : PeWord) (s : State) : Host.Outcome State Fault Refusal := nextS (fireMem 0x64 .span anyColour reqNone w s)
/-- MEMNOP (R240). -/
def execMemnop (w : PeWord) (s : State) : Host.Outcome State Fault Refusal := nextS (fireMem 0x6D .memnop anyColour reqNone w s)
/-- FENCE (R241). -/
def execFence (w : PeWord) (s : State) : Host.Outcome State Fault Refusal := nextS (fireMem 0x6B .fence anyColour (reqAddr 1) w s)
/-- FLUSHR (R242): the entry keeps base and length. -/
def execFlushr (w : PeWord) (s : State) : Host.Outcome State Fault Refusal := nextS (fireMem 0x6C .flushr anyColour (reqAddr 1) w s)
/-- AMO (R243): 8 bytes for FMT 1, 4 for FMT 2. -/
def execAmo (w : PeWord) (s : State) : Host.Outcome State Fault Refusal :=
  nextS (fireMem 0x68 .amo anyColour (reqAtomic (if w.fmt = 2#4 then 4 else 8)) w s)
/-- AMX (R244). -/
def execAmx (w : PeWord) (s : State) : Host.Outcome State Fault Refusal := nextS (fireMem 0x69 .amx anyColour (reqAtomic 8) w s)

/-- LDLK (R236): the node is busy until its last token is emitted. -/
def execLdlk (w : PeWord) (s : State) : Host.Outcome State Fault Refusal :=
  nextS (match prepFire 0x62 w s colour0 with
    | .wait s1 => s1
    | .fault s1 uid key r => s1.faultAt uid key r
    | .go s1 uid key g =>
      let u := s1.unit uid
      if u.sbFull .ldlk g.tok.col then s1
      else if u.badOwn w g.tok then s1.faultAt uid key (raise 0x0AA g.tok)
      else
        let s2 := s1.enterBuffer uid key g.toks { id := 0, site := u.siteOf key, op := .ldlk, opc := 0x62#7, w := w, tok := g.tok
                                                  a := g.a.v, b := g.b.v, ea := addDisp g.a.v (dispOf w), n := 8 }
        if g.b.v = 0#64 then s2 else s2.setNode uid key (.ldlk u.nextId))

/-- Two binary values of a reduction format combined (R116, R78): 0 and 1 add, 2 minimum, 3 maximum; formats 1 i64,
2 i32, 5 binary64, 6 binary32. -/
def redOp (op fmt : Nat) (x y : Nat) : Nat :=
  let w := if fmt = 1 || fmt = 5 then 64 else 32
  if fmt = 1 || fmt = 2 then
    (if op ≤ 1 then (x + y) % 2 ^ w
     else if op = 2 then (if sextNat w y < sextNat w x then y else x)
     else (if sextNat w x < sextNat w y then y else x))
  else
    let F := if fmt = 5 then fmtF64 else fmtF32
    if op ≤ 1 then (deliverFp F 0 false false (sumFp 0 [decodeFp F x, decodeFp F y]).1).1
    else (minMaxCode F (op == 3) false x y).1
/-- The contribution of a token: the lane fold of R116 step 1. -/
def redLane (op fmt : Nat) (v : Word) : Nat :=
  if fmt = 1 || fmt = 5 then v.toNat else redOp op fmt (v.toNat % 2 ^ 32) (v.toNat / 2 ^ 32)

/-- NODE and GRP of a RED word (R246). -/
def redNode (w : PeWord) : Nat := w.imm.toNat / 256 % 256
def redGrp (w : PeWord) : Nat := w.imm.toNat % 256

/-- The group and contributor checks of RED (R246). -/
def reqRed (s : State) (uid : Nat) (w : PeWord) (_ : Gathered) : MemReq :=
  let u := s.unit uid
  let base := match s.inst? u.inst with
    | some i => i.base.toNat
    | none => 0
  let g := redGrp w
  let node := redNode w
  if objReds s u.job base ≤ g then .bad 0x06D 0 0#64
  else
    let r := redGroup s u.job base g
    if r.count = 0 || r.launch != u.launch || r.fmt != w.fmt.toNat then .bad 0x06D 0 0#64
    else if !(redContributors s u.job base g).contains (node, u.unitid.toNat) then .bad 0x06E 0 0#64
    else .entry r.target (if r.fmt = 1 || r.fmt = 5 then 8 else 4)
/-- A contributor whose earlier contribution is in its store buffer or in a round that is not complete (R115). -/
def State.redBusy (s : State) (uid : Nat) (w : PeWord) : Bool :=
  let u := s.unit uid
  u.sb.any (fun e => e.op == .red && e.phase != .retired && redNode e.w == redNode w && redGrp e.w == redGrp w) ||
    s.reds.any (fun r => !r.applied && r.inst == u.inst && r.grp == redGrp w && r.parts.any (fun p => p.uid == uid && p.node == redNode w))
/-- RED (R246): a second firing waits in the node until the round completes. A coloured one waits at its node (R229, which excepts RED from R37;
DEDUCED, log 68). -/
def execRed (w : PeWord) (s : State) : Host.Outcome State Fault Refusal :=
  nextS (match s.focusPe with
    | some (uid, _) => if s.redBusy uid w then s else fireMem 0x6A .red colour0 reqRed w s
    | none => s)

end Sys2Proof.Machine
end

