-- ==== Sys2Proof/Machine/Coherence.lean ====
section
/-! DEFINITION. What the store buffers and the home slices do: issue (R102, R227), performing (R91, R103 to R109), the requests,
actions and responses of R93, stores and synchronising accesses at the home (R95 to R97), merged AMOs (R114), linked loads
(R236) and reduction rounds (R115, R116). -/

namespace Sys2Proof.Machine

/-! ### Issue -/

/-- The access kind and the access code of an operation (R358, R346). -/
def MemOp.access : MemOp → Acc5 × Nat
  | .st | .stl => (.store, 1)
  | .amo | .amx | .red => (.atomic, 2)
  | .fence => (.fence, 0)
  | .ldxs | .mbld => (.tileLoad, 0)
  | .stxs => (.tileStore, 1)
  | .mdrnMem => (.store, 1)
  | _ => (.load, 0)

/-- The pages of a FLUSHR with their translated ranges; pages with V = 0 are skipped (R242). An outcome other than these comes with the address
of its page. -/
def State.flushPages (s : State) (cl job : Nat) (k : Acc5) : List (Nat × Nat) → State × Except (Nat × TrRes) (List (Nat × Nat))
  | [] => (s, .ok [])
  | (va, n) :: r =>
    let rest (s : State) (l : List (Nat × Nat)) : State × Except (Nat × TrRes) (List (Nat × Nat)) :=
      match State.flushPages s cl job k r with
      | (s1, .ok m) => (s1, .ok (l ++ m))
      | x => x
    match translate s cl job va k (if k = .flushInv then 1 else 0) with
    | (s1, .ok xa _ _) => rest s1 [(xa, n)]
    | (s1, .fault f) => if 0x090 ≤ f.cause && f.cause % 4 = 0 then rest s1 [] else (s1, .error (va, .fault f))
    | (s1, .wait) => (s1, .error (va, .wait))

/-- A FLUSHR acts on the lines of the cluster's L1 in the ranges (R92): 0 clean, 1 invalidate, 2 both. What a cut leaves of a span for which
no tag is free leaves the L1 (R89). -/
def State.flushLines (s : State) (cl : Nat) (kind : Nat) (ranges : List (Nat × Nat)) : State :=
  let lines := ((s.cluster cl).spans.flatMap (fun sp => (upFrom (sp.s / 32) sp.lines).map (fun k => sp.region * 32 + k))).filter
    (fun l => ranges.any (fun r => overlap (l * 128) 128 r.1 r.2))
  (lines.foldl (fun (acc : List Nat) l => if acc.contains l then acc else acc ++ [l]) []).foldl (fun s l =>
    let r := s.splitLine cl l (kind == 0)
    let drop (s : State) : State := s.modDir l (fun d => { d with sharers := d.sharers.filter (· != cl), mesi := if d.mesi == .S && d.sharers != [cl] then .S else .I })
    match kind with
    | 0 =>
      let kept := r.2.map (fun sp => if sp.mesi == .M then { sp with mesi := .E } else sp)
      (r.1.modCluster cl (fun c => { c with spans := c.spans ++ kept }.joinSpans)).writeBack l r.2
    | 1 => drop r.1
    | _ => drop (r.1.writeBack l r.2)) s

/-- The raw or XS format that LDXS reads (R248). -/
def ldxsFmt (w : PeWord) : Nat :=
  match w.sub.toNat with
  | 2 => 5
  | 3 => 6
  | _ => w.fmt.toNat

/-- The words of the region that an access of an entry touches. -/
def SbEntry.word0 (e : SbEntry) : Nat := e.xa % 4096 / 4
def SbEntry.word1 (e : SbEntry) : Nat := (e.xa + e.n - 1) % 4096 / 4
/-- The extent of the span that a miss creates, as first and last word of the region (R88): a pending hint decides it, in words from the
accessed word or in lines from the accessed line; else it is the accessed line (the predictor is private: DESIGN CHOICE, log 42). It is cut at the
4 KiB boundary and at nc lines, and it contains the accessed bytes. -/
def SbEntry.extent (e : SbEntry) (nc : Nat) : Nat × Nat :=
  let line := e.word0 / 32 * 32
  let lo := if 0 < e.ext && e.ext < 2048 then e.word0 else line
  let n := if e.ext = 0 then 32 else if e.ext < 2048 then e.ext else 32 * (e.ext - 2048)
  let cut := Nat.min 1023 ((line / 32 + Nat.max nc 1) * 32 - 1)
  (lo, Nat.max e.word1 (Nat.min (lo + n - 1) cut))
/-- A request for a line goes to its home, with the words accessed and the extent wanted. -/
def State.sendRequest (s : State) (m : CohMsg) (e : SbEntry) : State :=
  let x := e.extent (s.cluster m.cl).nc
  { s with net := s.net ++ [{ m with w0 := e.word0, w1 := e.word1, lo := x.1, hi := x.2, keep := e.w.mod == 3#3 }] }

/-- A matrix operation of the memory class is forwarded to the engine of its cluster (R252). -/
def State.forwardMat (s : State) (uid : Nat) (e : SbEntry) : State :=
  let o : MatOp := { id := e.id, opc := e.opc.setWidth 8, w := e.w, unit := uid, site := e.site, tok := e.tok, a := e.a
                     wspace := e.c == 1#64, sbId := e.id, rm := e.rm, uctl := e.uctl }
  s.modCluster e.site.cl (fun c => { c with mq := c.mq ++ [o] })

/-- The place in the memory order that a coloured write is held for (R37): where its bytes are now, without any effect. -/
def State.heldXa (s : State) (uid : Nat) (e : SbEntry) : Nat :=
  if e.lspace then
    (match lspace (s.cluster e.site.cl) e.site.cl e.swz.toNat e.ea with
     | .ok a => lBase + a
     | .error _ => 0)
  else s.peekXa e.site.cl (s.unit uid).job e.ea
/-- The same of the range of a coloured FLUSHR, page by page (R104, R242). -/
def State.heldRanges (s : State) (uid : Nat) (e : SbEntry) : List (Nat × Nat) :=
  (cuts e.ea e.b.toNat).filterMap (fun p => let xa := s.peekXa e.site.cl (s.unit uid).job p.1; if xa = 0 then none else some (xa, p.2))
/-- Operations of the buffer that need no translation: MEMNOP and SPAN, whose hint is then pending (R239, R240), and PREF, which asks for
its line if it may (R238). -/
def State.issuePref (s : State) (uid : Nat) (e : SbEntry) : State :=
  let cl := e.site.cl
  let job := (s.unit uid).job
  let r := translate s cl job e.ea .load 0
  let s1 := r.1.markIssued uid e 0 0 2
  match r.2 with
  | .ok xa mt _ =>
    let e1 := (((s1.unit uid).entry? e.id).getD e)
    if mt < 2 && !heldRD s1 cl job e.ea && (e.w.mod == 3#3 || (mt == 0 && (e.w.mod == 0#3 || e.w.mod == 4#3))) && !isFabXa xa && (s.cluster cl).nc != 0 then
      (s1.sendRequest { kind := .getS, line := xa / 128, cl := cl } { e1 with xa := xa, n := 1 }).retire uid e.id
    else s1.retire uid e.id
  | _ => s1.retire uid e.id
/-- A tile image that LDXS is about to read is looked at before its slot is touched (R227, R249). -/
def State.issueLdxs (s : State) (uid : Nat) (e : SbEntry) : State :=
  let u := s.unit uid
  let cl := e.site.cl
  match translate s cl u.job e.ea .tileLoad 0 with
  | (s1, .fault f) => s1.sbFault uid e f.cause e.ea f.d0 f.d1
  | (s1, .wait) => s1
  | (s1, .ok xa mt sc) =>
    let e1 := { e with ord := if e.ord = 0 then u.ordCtr else e.ord, xa := xa, n := 4096 - e.ea % 4096 }
    if !u.mayPerform e1 then s1
    else
      match s1.readImage cl u.job e.ea (ldxsFmt e.w) .tileLoad 0 with
      | (s2, .wait) => s2
      | (s2, .fault f) => s2.sbFault uid e f.cause e.ea f.d0 f.d1
      | (s2, .ok tag _) =>
        let old := (s2.cluster cl).slot (tdOf e.w)
        ((s2.markIssued uid e xa mt sc).modUnit uid (fun u => u.modEntry e.id (fun x => { x with n := imageLen tag, tile := old }))).modCluster cl
          (fun c => c.setSlot (tdOf e.w) {})
/-- STXS captures its slot (R130, R250); an empty slot waits, or is cause 0x02B under AE. -/
def State.issueStxs (s : State) (uid : Nat) (e : SbEntry) : State :=
  let cl := e.site.cl
  let t := (s.cluster cl).slot (taOf e.w)
  let fault (c : Nat) (d0 : Word) : State := s.sbFault uid e c e.ea d0 0#64
  if t.tag = 0#4 then (if aeOf e.w then fault 0x02B 0#64 else s)
  else if 8#4 ≤ t.tag then fault 0x026 (tagDetail t.tag.toNat 3)
  else if e.w.fmt != 0#4 && e.w.fmt != t.tag then fault 0x023 (tagDetail t.tag.toNat 3)
  else if 4096 < e.ea % 4096 + imageLen t.tag.toNat then fault 0x061 0#64
  else
    match translate s cl (s.unit uid).job e.ea .tileStore 1 with
    | (s1, .ok xa mt sc) => (s1.markIssued uid e xa mt sc).modUnit uid (fun u => u.modEntry e.id (fun x => { x with n := imageLen t.tag.toNat, tile := t }))
    | (s1, .fault f) => s1.sbFault uid e f.cause e.ea f.d0 f.d1
    | (s1, .wait) => s1
/-- A memory-class matrix operation issues to the engine (R252): a G-space address is translated first. -/
def State.issueToEngine (s : State) (uid : Nat) (e : SbEntry) : State :=
  if e.c = 1#64 then (s.markIssued uid e 0 0 2).forwardMat uid e
  else
    match translate s e.site.cl (s.unit uid).job e.ea e.op.access.1 e.op.access.2 with
    | (s1, .ok xa mt sc) =>
      let n := if e.op = .mdrnMem then 4096 else if e.w.fmt = 0#4 then 4096 - e.ea % 4096 else imageLen e.w.fmt.toNat
      ((s1.markIssued uid e xa mt sc).modUnit uid (fun u => u.modEntry e.id (fun x => { x with n := n }))).forwardMat uid e
    | (s1, .fault f) => s1.sbFault uid e f.cause e.ea f.d0 f.d1
    | (s1, .wait) => s1

/-- The issue of one entry whose turn has come (R227): its translation and its checks; a fault leaves it in its place. A coloured write is
held and does not issue (R37); a killed one does nothing (R39). -/
def State.issueEntry (s : State) (uid : Nat) (e : SbEntry) : State :=
  let u := s.unit uid
  let cl := e.site.cl
  let fault (s : State) (c : Nat) (d0 d1 : Word) : State := s.sbFault uid e c (if e.ea < 2 ^ 64 then e.ea else 0) d0 d1
  let viaPage (va : Nat) (e : SbEntry) : State :=
    match translate s cl u.job va e.op.access.1 e.op.access.2 with
    | (s1, .ok xa mt sc) => s1.markIssued uid e xa mt sc
    | (s1, .fault f) => s1.sbFault uid e f.cause va f.d0 f.d1
    | (s1, .wait) => s1
  if e.op.held && e.killed then s.retireKilled uid e
  else if u.coloured e then
    (s.markHeld uid e (s.heldXa uid e)).modUnit uid (fun x => if e.op == .flushr then x.modEntry e.id (fun y => { y with ranges := s.heldRanges uid e }) else x)
  else
    match e.op with
    | .memnop => (s.markIssued uid e 0 0 2).retire uid e.id
    | .span =>
      let code := if e.w.sub.getLsbD 0 then e.w.imm.toNat % 2048 else 2048 + e.w.imm.toNat % 64
      ((s.markIssued uid e 0 0 2).modUnit uid (fun u => { u with spanHints := aset u.spanHints e.waveKey code })).retire uid e.id
    | .pref => s.issuePref uid e
    | .ldsp | .stsp =>
      match lspace (s.cluster cl) cl e.swz.toNat e.ea with
      | .ok a => s.markIssued uid e (lBase + a) 0 2
      | .error c => fault s c 0#64 0#64
    | .ldws =>
      if 2 ^ 30 ≤ e.ea then fault s 0x063 0#64 0#64
      else if (s.die (e.ea / 2 ^ 28)).wsJob != some u.job then fault s 0x064 0#64 0#64
      else s.markIssued uid e (wBase + e.ea) 0 2
    | .ldlk =>
      let s1 := s.markIssued uid e 0 0 2
      if e.b = 0#64 then s1.retire uid e.id else s1
    | .flushr =>
      if 2 ^ 56 < e.ea + e.b.toNat then fault s 0x063 0#64 0#64
      else
        match s.flushPages cl u.job (if e.w.sub = 0#3 then .flushClean else .flushInv) (cuts e.ea e.b.toNat) with
        | (s1, .ok rs) => (s1.markIssued uid e 0 0 2).modUnit uid (fun u => u.modEntry e.id (fun x => { x with ranges := rs }))
        | (s1, .error (va, .fault f)) => s1.sbFault uid e f.cause va f.d0 f.d1
        | (s1, .error _) => s1
    | .mbld | .mdrnMem => s.issueToEngine uid e
    | .ldxs => s.issueLdxs uid e
    | .stxs => s.issueStxs uid e
    | _ => viaPage e.ea e

/-! ### Performing -/

/-- The hint that acts (R84, R86, R91): hint 4 acts as hint 0 on a load (R231). -/
def hintOf (c : Cluster) (e : SbEntry) : Nat :=
  let h := if e.stores || e.w.mod != 4#3 then e.w.mod.toNat else 0
  if e.mt = 2 || c.nc = 0 then 2 else if e.mt = 1 && h = 0 then 1 else h
/-- An access with hint 3 has met its words in its cluster's spans (R88). -/
def State.keepFor (s : State) (e : SbEntry) : State :=
  if e.w.mod == 3#3 then s.keepSpans e.site.cl (e.xa / 4096) e.word0 e.word1 else s
/-- A tagged store (R95). -/
def SbEntry.tagged (e : SbEntry) : Bool := e.w.dst != 3#2
/-- The bytes an entry stores. -/
def SbEntry.bytes (e : SbEntry) : List Byte := leBytes e.n e.b.toNat

/-- A message is sent for an entry, which then waits. -/
def State.ask (s : State) (uid : Nat) (e : SbEntry) (k : MsgKind) (mesi : Mesi := .S) (withData : Bool := true) : State :=
  (s.modUnit uid (fun u => u.modEntry e.id (fun x => { x with phase := .asked }))).sendRequest
    { kind := k, line := e.xa / 128, cl := e.site.cl, unit := uid, id := e.id, mesi := mesi, withData := withData } e
/-- A request to another device for an entry (R82); the read-only copies of what it writes go (R85). -/
def State.askFabric (s : State) (uid : Nat) (e : SbEntry) (pl : Nat → FyPayload) : State :=
  let s1 := s.modUnit uid (fun u => u.modEntry e.id (fun x => { x with phase := .asked }))
  let s2 : State := if e.stores then { s1 with fyL2 := (touchedLines e.xa e.n).foldl adel s1.fyL2 } else s1
  s2.fyRequest e.xa (uid, e.id) pl
/-- A synchronising access performed by the device that owns its line (R82, R96). A release waits until what precedes it is complete on every
device (R108). -/
def State.askSync (s : State) (uid : Nat) (e : SbEntry) (op : FyOp) : State :=
  let release := e.op == .stl || e.op == .amx || (e.op == .fence && e.w.sub != 0#3)
  if release && (!s.fabricReleased uid || s.redPending uid e) then s
  else s.askFabric uid e (fun t => .memSync (e.xa % 2 ^ 40) e.n op e.scope e.b e.c t)

/-- The base of the graph object whose instance launched a unit. -/
def State.baseOf (s : State) (u : UnitSt) : Nat := match s.inst? u.inst with
  | some i => i.base.toNat
  | none => 0
/-- A RED leaves the buffer into its group's round (R115, R246, R247), once no host keeps back the graph object that describes it (R117). -/
def State.contribute (s : State) (uid : Nat) (e : SbEntry) : State :=
  let u := s.unit uid
  let g := redGrp e.w
  match s.objectWaits u.job (s.baseOf u) with
  | some s1 => s1
  | none =>
  let r := redGroup s u.job (s.baseOf u) g
  let part : RedPart := { node := redNode e.w, idx := u.unitid.toNat, cl := e.site.cl, value := wd (redLane r.op r.fmt e.a), uid := uid
                          lvl := e.tok.lvl, itag := e.tok.itag, ord := e.ord }
  let open_ (y : RedRound) : Bool := !y.applied && y.inst == u.inst && y.grp == g
  let s1 : State :=
    if s.reds.any open_ then { s with reds := s.reds.map (fun (y : RedRound) => if open_ y then { y with parts := y.parts ++ [part] } else y) }
    else { s with reds := s.reds ++ [{ inst := u.inst, grp := g, parts := [part] }] }
  s1.retire uid e.id

/-- Flags of a tile conversion of a PE firing: they are set, and the cause of a trap that was enabled at the firing comes first (R64, R198,
R249). -/
def State.tileFlags (s : State) (uid fl : Nat) (uctl : BitVec 12) : State × Option Nat :=
  (s.modUnit uid (fun u => u.raiseFlags fl), (trapFlag uctl.toNat fl).map (0x040 + ·))

/-- The tile that LDXS puts into its slot, with flags (R248). -/
def ldxsTile (sub tag : Nat) (img : List Byte) : Tile × Nat :=
  match sub with
  | 0 => (⟨BitVec.ofNat 4 tag, img⟩, 0)
  | 1 => (⟨BitVec.ofNat 4 tag, transposeTile tag img⟩, 0)
  | 2 => let r := quantise 1 (rawValues 5 false img); (⟨1#4, r.1⟩, r.2)
  | 3 => let r := quantise 1 (rawValues 6 false img); (⟨1#4, r.1⟩, r.2)
  | _ => let r := quantise 1 (transpose32 (.fin false 0 0) (rawValues tag false img)); (⟨1#4, r.1⟩, r.2)
/-- An action of a home, or its acknowledgement. -/
def CohMsg.action (m : CohMsg) : Bool := m.kind == .inv || m.kind == .fwdS || m.kind == .fwdM || (m.kind == .ack && m.unit == 0)
/-- Any host holds either half of a line (R320). -/
def DirEntry.halfHeld (d : DirEntry) : Bool := d.a0 != .Hi || d.a1 != .Hi || d.b0 != .Hi || d.b1 != .Hi
/-- No host holds half `h` exclusively. -/
def DirEntry.readable (d : DirEntry) (h : Nat) : Bool := d.host 0 h != .Hx && d.host 1 h != .Hx
/-- The words of a line that a fill brings: both halves, or the one that no host holds exclusively (R117). -/
def fillWords (d : DirEntry) (line : Nat) : Nat × Nat :=
  if d.readable 0 && d.readable 1 then (lineWord line, lineWord line + 31)
  else if d.readable 0 then (lineWord line, lineWord line + 15) else (lineWord line + 16, lineWord line + 31)
/-- The further lines of an extent that can be had with its first: up to the first one that a host, an STXS or a failed check keeps back. -/
def State.extentLines (s : State) (m : CohMsg) (store : Bool) : List Nat :=
  let ok (l : Nat) : Bool :=
    let d := s.dirOf l
    s.hostReady (l * 128) 128 store && (if store then !d.halfHeld else d.readable 0 && d.readable 1) && !s.bad.contains l &&
      !s.net.any (fun x => x.line == l && x.action)
  (upFrom (m.line + 1) (m.hi / 32 - m.line % 32)).takeWhile ok
/-- A further line of an extent becomes shared by a cluster, or its own. -/
def State.takeExtent (s : State) (cl line : Nat) (st : Mesi) : State :=
  let s1 := s.flushPuts line
  if st == .M then
    ((s1.recallBut line (· == cl)).invRemote line).modDir line (fun d => { d with mesi := .M, sharers := [cl] })
  else
    let s2 := ((s1.dirOf line).sharers.filter (· != cl)).foldl (fun s c => s.takeLine c line true) s1
    s2.modDir line (fun d => { d with mesi := if st == .E then (if d.mesi == .M then .M else .E) else .S
                                      sharers := if d.sharers.contains cl then d.sharers else d.sharers ++ [cl] })
/-- No other cluster, host or device has a copy of a line. -/
def State.aloneOn (s : State) (cl line : Nat) : Bool :=
  let d := s.dirOf line
  d.sharers.all (· == cl) && (d.sharers.isEmpty || d.mesi != .S) && !d.halfHeld && d.remote.isEmpty && s.hostReady (line * 128) 128 true
/-- A granted line fills the gaps that the access met, to the extent wanted, as spans in one state (R86 to R88). -/
def State.fill (s : State) (m : CohMsg) : State :=
  let store := m.mesi == .M
  let fw := fillWords (s.dirOf m.line) m.line
  let lines := if fw.2 % 32 = 31 then s.extentLines m store else []
  let hi := Nat.max m.w1 (if lines.isEmpty then Nat.min m.hi fw.2 else Nat.min m.hi ((m.line % 32 + lines.length) * 32 + 31))
  let gs := s.gaps m.cl (lineRegion m.line) (Nat.max m.lo fw.1) hi m.w0 m.w1
  let far := (gs.map (fun g => g.2 / 32)).foldl Nat.max 0
  let used := lines.filter (fun l => decide (l % 32 ≤ far))
  let st : Mesi := if store then .M else if (s.dirOf m.line).mesi == .S || m.mesi == .S || !used.all (s.aloneOn m.cl) then .S else .E
  let s1 := used.foldl (fun s l => s.takeExtent m.cl l st) s
  let s2 := if st == .S then s1.modDir m.line (fun d => { d with mesi := .S }) else s1
  gs.foldl (fun s g => s.installGap m.cl (lineRegion m.line) st m.keep g) s2
/-- A load that was served at the home fills the gaps that it met, in S, to the extent of its entry (R88, R239), unless an action is under way
for a line of it. -/
def State.fillEntry (s : State) (e : SbEntry) : State :=
  let cl := e.site.cl
  let h := hintOf (s.cluster cl) e
  let lines := touchedLines e.xa e.n
  if h = 1 || h = 2 || isFabXa e.xa || e.n = 0 || (s.l1Bytes cl e.xa e.n).isSome || s.net.any (fun x => x.action && lines.contains x.line) then s
  else
    let x := e.extent (s.cluster cl).nc
    let s1 := s.modDir (e.xa / 128) (fun d => { d with
      mesi := .S, sharers := if d.sharers.contains cl then d.sharers else d.sharers ++ [cl] })
    s1.fill { kind := .data, line := e.xa / 128, cl := cl, w0 := e.word0, w1 := e.word1, lo := x.1, hi := x.2, keep := e.w.mod == 3#3 }

/-- LDXS reads its image as one and fills its slot (R249). An image that can no longer be read leaves the slot as it was; after a trap it
stays empty. -/
def State.performLdxs (s : State) (uid : Nat) (e : SbEntry) : State :=
  match s.readImage e.site.cl (s.unit uid).job e.ea (ldxsFmt e.w) .tileLoad 0 true with
  | (s1, .wait) => s1
  | (s1, .fault f) => (s1.modCluster e.site.cl (fun c => c.setSlot (tdOf e.w) e.tile)).sbFault uid e f.cause e.ea f.d0 f.d1
  | (s1, .ok tag img) =>
    let t := ldxsTile e.w.sub.toNat tag img
    match (s1.fillEntry { e with n := imageLen tag }).tileFlags uid t.2 e.uctl with
    | (s2, some c) => s2.sbFault uid e c 0 0#64 0#64
    | (s2, none) => (s2.modCluster e.site.cl (fun c => c.setSlot (tdOf e.w) t.1)).retire uid e.id

/-- The operation of a synchronising access, as it is named to another device. -/
def SbEntry.fyOp (e : SbEntry) : FyOp :=
  match e.op with
  | .lda => .lda
  | .stl => .stl
  | .amo => .amo e.w.sub.toNat
  | .amx => .amx e.w.sub.toNat
  | _ => .fence
/-- An issued entry performs if the order of R103 to R109 lets it, or sends its request to the line's home (R91 to R96). -/
def State.performEntry (s : State) (uid : Nat) (e : SbEntry) : State :=
  let u := s.unit uid
  let cl := e.site.cl
  let c := s.cluster cl
  if !u.mayPerform e then s
  else
    match e.op with
    | .ld =>
      match u.forward e with
      | .wait => s
      | .val v col => (s.modUnit uid (fun u => u.noteRead e)).loadDone uid e v col
      | .none =>
        if isFabXa e.xa then s.askFabric uid e (fun t => .memRead (e.xa % 2 ^ 40) e.n t)
        else
          match (if e.mt = 2 then none else s.l1Bytes cl e.xa e.n) with
          | some bs =>
            match badLine s e.xa e.n with
            | some f => s.sbFault uid e f.cause e.ea f.d0 f.d1
            | none => (s.keepFor e).loadDone uid e (leNat bs) 0#2
          | none => s.ask uid e .getS (if hintOf c e = 1 || hintOf c e = 2 then .I else .S)
    | .st =>
      if isFabXa e.xa then s.askFabric uid e (fun t => .memWrite (e.xa % 2 ^ 40) e.bytes true t)
      else if e.tagged || e.mt = 2 then s.ask uid e .homeStore
      else if s.l1Owns cl e.xa e.n then ((s.l1Write cl e.xa .M e.bytes).keepFor e).retire uid e.id
      else if hintOf c e = 1 || hintOf c e = 2 then s.ask uid e .homeStore
      else if (s.l1Bytes cl e.xa e.n).isSome then s.ask uid e .upg
      else s.ask uid e .getM .M (hintOf c e != 4)
    | .lda | .stl | .amo | .amx => if isFabXa e.xa then s.askSync uid e e.fyOp else s.ask uid e .sync
    | .fence => if !s.fenceDone uid e then s else if isFabXa e.xa then s.askSync uid e .fence else s.ask uid e .sync
    | .red => s.contribute uid e
    | .flushr => (s.flushLines cl e.w.sub.toNat e.ranges).retire uid e.id
    | .ldsp =>
      match u.forward e with
      | .wait => s
      | .val v col => (s.modUnit uid (fun u => u.noteRead e)).loadDone uid e v col
      | .none => s.loadDone uid e (s.lsm.rdN (e.xa - lBase) e.n) 0#2
    | .stsp => ({ s with lsm := s.lsm.wrBytes (e.xa - lBase) e.bytes }).retire uid e.id
    | .ldws =>
      let wa := e.xa - wBase
      if !(s.die (wa / 2 ^ 28)).run then s
      else if !s.refreshed wa then
        (if e.waited then s
         else (s.modUnit uid (fun u => u.modEntry e.id (fun x => { x with waited := true }))).modCluster cl (fun k =>
           { k with trace := aset k.trace (u.ctx, 3) (agetD k.trace (u.ctx, 3) 0 + 1) }))
      else s.loadDone uid e (s.wst.rdN wa e.n) 0#2
    | .ldxs => s.performLdxs uid e
    | .stxs =>
      if isFabXa e.xa then s.askFabric uid e (fun t => .memWrite (e.xa % 2 ^ 40) (storedImage e.tile.tag.toNat e.tile.img) true t)
      else s.ask uid e .getM .M
    | .span | .pref | .memnop | .ldlk | .mdrnMem | .mbld => s

/-- STORE_BUFFER_ISSUE (R102, R227): the entry issues if its wave is open and its predecessor has issued; an issued entry
that has not performed performs or asks for its line, one that had left the buffer of a unit that has ended too (R45). -/
def execStoreBufferIssue (s : State) : Host.Outcome State Fault Refusal :=
  nextS (
    let uid := s.ev.u
    let u := s.unit uid
    match u.entry? s.ev.id with
    | none => s
    | some e =>
      let perform (s : State) : State :=
        match (s.unit uid).entry? e.id with
        | some x => if x.phase = .issued then s.performEntry uid x else s
        | none => s
      if u.isEnded then (if e.phase = .issued then s.performEntry uid e else s)
      else if !u.completes then s
      else
        match e.phase with
        | .waiting => if !u.fires || !u.canIssue e then s else if e.op == .ldxs then s.issueEntry uid e else perform (s.issueEntry uid e)
        | .issued => perform s
        | _ => s)

/-! ### Requests and responses (R93) -/

/-- A request to a home slice; `put` says that it gives a copy back. -/
def MsgKind.request : MsgKind → Bool
  | .getS | .getM | .upg | .putM | .putE | .putS | .homeStore | .sync => true
  | _ => false
def MsgKind.put : MsgKind → Bool
  | .putM | .putE | .putS => true
  | _ => false
/-- A message may be taken at the home now (R93): the messages of one cluster for a line arrive in the order sent; while actions for a line
are out, the home handles the request that stands first and the copies that come back. -/
def State.firstFor (s : State) (i : Nat) (m : CohMsg) : Bool :=
  !(s.net.take i).any (fun x => x.line == m.line && x.cl == m.cl && x.kind.request) &&
    (m.kind.put || !s.net.any (fun x => x.line == m.line && x.action) || !(s.net.take i).any (fun x => x.line == m.line && x.kind.request && !x.kind.put))
/-- The message that an event names, if it is of the kind and has its turn. -/
def State.pickMsg (s : State) (k : MsgKind) : Option (Nat × CohMsg) :=
  match s.net[s.ev.i]? with
  | some m => if m.kind == k && s.firstFor s.ev.i m then some (s.ev.i, m) else none
  | none => none
/-- The message `i` is replaced by others. -/
def State.replaceMsg (s : State) (i : Nat) (ms : List CohMsg) : State := { s with net := ldel s.net i ++ ms }
/-- A home action that is not yet on its way is sent. -/
def State.sendOnce (s : State) (m : CohMsg) : State :=
  if s.net.any (fun x => x.line == m.line && x.cl == m.cl && x.action) then s else { s with net := s.net ++ [m] }
/-- Request `i` is being handled: it stands first among those of its line, and the home's actions are sent. -/
def State.sendActions (s : State) (i : Nat) (m : CohMsg) (acts : List CohMsg) : State :=
  acts.foldl State.sendOnce { s with net := m :: ldel s.net i }
/-- The entry a message names. -/
def State.msgEntry (s : State) (m : CohMsg) : Option SbEntry := if m.unit = 0 then none else (s.unit m.unit).entry? m.id
/-- GETS (R93): the holder of M or E is sent FwdS; then the line is granted, exclusively if no other copy exists and no
host holds a half. -/
def execGets (s : State) : Host.Outcome State Fault Refusal :=
  nextS (match s.pickMsg .getS with
    | none => s
    | some (i, m) =>
      let xa := m.line / 32 * 4096 + m.w0 * 4
      let n := (m.w1 + 1 - m.w0) * 4
      let d := s.dirOf m.line
      if !s.hostReady xa n false then s.sendSnoops xa n false
      else
        match d.sharers.find? (fun c => c != m.cl && (d.mesi == .E || d.mesi == .M)) with
        | some c => s.sendActions i m [{ kind := .fwdS, line := m.line, cl := c }]
        | none =>
          if m.mesi == .I then s.replaceMsg i [{ m with kind := .data }]
          else
            let s1 := (s.replaceMsg i []).flushPuts m.line
            let d1 := s1.dirOf m.line
            let alone := d1.sharers.all (· == m.cl) && !d1.halfHeld && d1.remote.isEmpty && s1.hostReady (m.line * 128) 128 true
            let own := alone && (d1.sharers.isEmpty || d1.mesi != .S)
            let s2 := s1.modDir m.line (fun d => { d with
              mesi := if own then (if d.mesi == .M then .M else .E) else .S, sharers := if d.sharers.contains m.cl then d.sharers else d.sharers ++ [m.cl] })
            { s2 with net := s2.net ++ [{ m with kind := .data, mesi := if own then .E else .S }] })

/-- A line of an STXS is acquired (R99): the hosts' halves and all copies are given up, and the line is held, its requests deferred, until the
last line of the image is held: then the image is written, one event for each line, and all are released. -/
def State.lockLine (s : State) (i : Nat) (m : CohMsg) (e : SbEntry) : State :=
  let d := s.dirOf m.line
  let xa := m.line * 128
  if !s.hostReady xa 128 true then s.sendSnoops xa 128 true
  else
    match d.sharers.filter (· != m.cl) with
    | [] =>
      let s1 := (((s.replaceMsg i []).flushPuts m.line).takeLine m.cl m.line false).modDir m.line (fun d =>
        { d with mesi := .M, sharers := [m.cl], lock := some (m.unit, m.id) })
      if m.line < (e.xa + e.n - 1) / 128 then { s1 with net := s1.net ++ [{ m with line := m.line + 1 }] }
      else
        let s2 := (touchedLines e.xa e.n).foldl (fun s l => s.modDir l (fun d => { d with mesi := .I, sharers := [], lock := none })) s1
        (s2.homeWrite e.xa (storedImage e.tile.tag.toNat e.tile.img)).retire m.unit m.id
    | cs => s.sendActions i m (cs.map (fun c => { kind := if d.mesi == .S then .inv else .fwdM, line := m.line, cl := c, mesi := .I }))
/-- GETM and UPG (R93): other copies are invalidated; then M is granted. A half-held line is not granted: the home
performs the store (R320). A line of host memory is granted when the device holds both halves of it in E or M (R319). An Upg whose sender has
lost its copy is asked again as a GetM. -/
def State.grantM (s : State) (i : Nat) (m : CohMsg) : State :=
  let d := s.dirOf m.line
  match s.msgEntry m with
  | none => s.replaceMsg i []
  | some e =>
    if e.op == .stxs then s.lockLine i m e
    else if d.lock.isSome then s
    else if d.halfHeld then s.replaceMsg i [{ m with kind := .homeStore }]
    else if isHostXa (m.line * 128) && !s.hostReady (m.line * 128) 128 true then s.sendSnoops (m.line * 128) 128 true
    else if m.kind == .upg && !d.sharers.contains m.cl then
      (s.replaceMsg i []).modUnit m.unit (fun u => u.modEntry e.id (fun x => { x with phase := .issued }))
    else
      match d.sharers.filter (· != m.cl) with
      | [] =>
        let s1 := ((s.replaceMsg i []).flushPuts m.line).invRemote m.line
        let s2 := s1.modDir m.line (fun d => { d with mesi := .M, sharers := [m.cl] })
        { s2 with net := s2.net ++ [{ m with kind := if m.kind == .upg then .ack else .data, mesi := .M }] }
      | cs => s.sendActions i m (cs.map (fun c => { kind := if d.mesi == .S then .inv else .fwdM, line := m.line, cl := c, mesi := .I }))
def execGetm (s : State) : Host.Outcome State Fault Refusal :=
  nextS (match s.pickMsg .getM with
    | some (i, m) => s.grantM i m
    | none => s)
def execUpg (s : State) : Host.Outcome State Fault Refusal :=
  nextS (match s.pickMsg .upg with
    | some (i, m) => s.grantM i m
    | none => s)

/-- PUTM, PUTE and PUTS at the home (R93, R94): dirty words are merged by word range as one write event, and the sender
holds the line no more unless it has another span of it, which may be in S (R89). -/
def State.putAtHome (s : State) (k : MsgKind) : State :=
  match s.pickMsg k with
  | none => s
  | some (i, m) =>
    let s1 := s.replaceMsg i []
    let s2 := if m.words.isEmpty then s1 else (s1.writeWords (lineRegion m.line) m.words).bumpTag m.line
    let held := (s2.cluster m.cl).spans.filter (fun sp => sp.touches m.line)
    if !held.isEmpty then
      (if held.all (fun sp => sp.mesi == .S) then s2.modDir m.line (fun d => { d with mesi := if d.mesi == .I then .I else .S }) else s2)
    else s2.modDir m.line (fun d =>
      let sh := d.sharers.filter (· != m.cl)
      { d with sharers := sh, mesi := if sh.isEmpty then .I else d.mesi })
def execPutm (s : State) : Host.Outcome State Fault Refusal := nextS (s.putAtHome .putM)
def execPute (s : State) : Host.Outcome State Fault Refusal := nextS (s.putAtHome .putE)
def execPuts (s : State) : Host.Outcome State Fault Refusal := nextS (s.putAtHome .putS)

/-- INV, FWDS and FWDM at a cluster (R89): the line is given up, or kept in S, its dirty words going home. -/
def State.homeAction (s : State) (k : MsgKind) (keep : Bool) : State :=
  match s.net[s.ev.i]? with
  | none => s
  | some m =>
    if m.kind != k then s
    else (s.takeLine m.cl m.line keep).replaceMsg s.ev.i [{ kind := .ack, line := m.line, cl := m.cl, mesi := if keep then .S else .I }]
def execInv (s : State) : Host.Outcome State Fault Refusal := nextS (s.homeAction .inv false)
def execFwds (s : State) : Host.Outcome State Fault Refusal := nextS (s.homeAction .fwdS true)
def execFwdm (s : State) : Host.Outcome State Fault Refusal := nextS (s.homeAction .fwdM false)

/-- Whether a grant that arrives still stands: the cluster is a holder, no action against its copy is under way, and the home has given the
line to nobody else since. -/
def State.grantStands (s : State) (m : CohMsg) : Bool :=
  let d := s.dirOf m.line
  d.sharers.contains m.cl && (m.mesi != .M || (d.mesi == .M && d.lock.isNone)) && (s.cluster m.cl).nc != 0 &&
    !s.net.any (fun x => x.line == m.line && x.cl == m.cl && x.action)

/-- A store whose line has been granted in M is written and retires (R90, R91). -/
def State.storeGranted (s : State) (m : CohMsg) (e : SbEntry) : State :=
  if !s.grantStands m then s.modUnit m.unit (fun u => u.modEntry e.id (fun x => { x with phase := .issued }))
  else
    let r := s.splitLine m.cl m.line true
    let s1 := r.2.foldl (fun s sp => s.addSpan m.cl { sp with mesi := .M }) r.1
    let s2 := if m.withData then s1.fill m
      else (upFrom m.w0 (m.w1 + 1 - m.w0)).foldl (fun s w => s.installWord m.cl (lineRegion m.line) w) s1
    (s2.l1Write m.cl e.xa .M e.bytes).retire m.unit e.id

/-- DATA (R93): the load's value is fixed, the store is written; the line is held if the grant still stands. -/
def execData (s : State) : Host.Outcome State Fault Refusal :=
  nextS (match s.net[s.ev.i]? with
    | none => s
    | some m =>
      if m.kind != .data then s
      else
        let s1 := s.replaceMsg s.ev.i []
        let filled (s : State) : State := if m.mesi == .I || !s.grantStands m then s else s.fill m
        match s1.msgEntry m with
        | none => filled s1
        | some e =>
          if e.phase != .asked then s1
          else if e.op == .ld then
            match badLine s1 e.xa e.n with
            | some f => s1.sbFault m.unit e f.cause e.ea f.d0 f.d1
            | none =>
              let s2 := filled s1
              s2.loadDone m.unit e (s2.cohN e.xa e.n) 0#2
          else s1.storeGranted m e)

/-- ACK (R93): at a cluster, the grant of an Upg; at a home, a holder has given its copy up or shares it now. -/
def execAck (s : State) : Host.Outcome State Fault Refusal :=
  nextS (match s.net[s.ev.i]? with
    | none => s
    | some m =>
      if m.kind != .ack then s
      else
        let s1 := s.replaceMsg s.ev.i []
        if m.unit = 0 then
          s1.modDir m.line (fun d =>
            if m.mesi == .S then { d with mesi := .S }
            else
              let sh := d.sharers.filter (· != m.cl)
              { d with sharers := sh, mesi := if sh.isEmpty then .I else d.mesi })
        else
          match s1.msgEntry m with
          | some e => if e.phase = .asked then s1.storeGranted m e else s1
          | none => s1)

/-! ### Accesses performed at the home -/

/-- The bytes of a store that the issuing cluster holds in M or E, in place; the others (R91). -/
def State.storeParts (s : State) (cl xa : Nat) (bs : List Byte) : List (Nat × Byte) × List (Nat × Byte) :=
  ((upFrom xa bs.length).zip bs).partition (fun p => s.l1Owns cl p.1 1)
/-- HOME_STORE (R91, R95): the store is performed after the other copies are gone; WAck carries the tag after it. A tagged store leaves the
issuer's copy in S, updated. An untagged one writes the words that the issuer holds in M or E in place. -/
def execHomeStore (s : State) : Host.Outcome State Fault Refusal :=
  nextS (match s.pickMsg .homeStore with
    | none => s
    | some (i, m) =>
      match s.msgEntry m with
      | none => s.replaceMsg i []
      | some e =>
        if !s.hostReady e.xa e.n true then s.sendSnoops e.xa e.n true
        else
          let s0 := s.replaceMsg i [{ m with kind := .wack }]
          let parts := if e.tagged || e.mt = 2 then ([], []) else s0.storeParts m.cl e.xa e.bytes
          let s1 :=
            if e.tagged && e.mt != 2 then s0.homeWriteKeep m.cl e.xa e.bytes
            else if parts.1.isEmpty then s0.homeWrite e.xa e.bytes
            else
              let s2 := parts.1.foldl (fun s p => s.l1Write m.cl p.1 .M [p.2]) s0
              if parts.2.isEmpty then s2 else ((parts.2.foldl (fun s p => s.putHome p.1 p.2) s2).bumpTag m.line).dirtyHalves e.xa e.n
          s1.modUnit m.unit (fun u => u.modEntry e.id (fun x => { x with phase := .performed, seqTag := (s1.dirOf m.line).tag })))

/-- The domain of a scope: the accessing cluster, its die, or none (R97). -/
def domainOf (scope cl : Nat) : Nat := if scope = 0 then cl else if scope = 1 then dieOf cl else 0
/-- The scope at which an access performs against a record, and whether they mismatch (R97). -/
def scopeCheck (r : Option (Nat × Nat)) (scope cl : Nat) : Nat × Bool :=
  match r with
  | none => (scope, false)
  | some (rs, rd) =>
    if rs = scope && (2 ≤ scope || rd = domainOf scope cl) then (scope, false)
    else
      let m := if scope < rs then rs else scope
      let dieR := if rs = 0 then dieOf rd else if rs = 1 then rd else dieOf cl
      (if m ≤ 1 then (if dieR = dieOf cl then 1 else 2) else m, true)
/-- DETAIL0 of cause 0x06C (R346). -/
def scopeDetail (r : Option (Nat × Nat)) (scope : Nat) : Word :=
  let p := r.getD (0, 0)
  wd (p.1 + 256 * p.2 + 2 ^ 32 * scope)

/-- The new value of an AMO (R113): w is the width in bits. -/
def amoOp (op w old v : Nat) : Nat :=
  let lt (a b : Nat) : Bool := decide (sextNat w a < sextNat w b)
  match op with
  | 0 => (old + v) % 2 ^ w
  | 1 => old &&& v
  | 2 => old ||| v
  | 3 => old ^^^ v
  | 4 => if lt v old then v else old
  | 5 => if lt old v then v else old
  | 6 => if v < old then v else old
  | _ => if old < v then v else old
/-- What AMX stores, if anything, and its success (R113, R244). -/
def amxOp (op old v c : Nat) : Option Nat × Bool :=
  match op with
  | 0 => (some v, true)
  | 1 => if old = c then (some v, true) else (none, false)
  | 2 => (some (if v ≤ old then 0 else old + 1), true)
  | _ => if old ≤ c && decide (v ≤ c - old) then (some (old + v), true) else (none, false)

/-- The value that AMOs of one operation and width leave, in the order of their operands (R113, R114). -/
def amoFold (op w : Nat) (old : Nat) (vs : List Word) : Nat := vs.foldl (fun x v => amoOp op w x (v.toNat % 2 ^ w)) old
/-- The effect of a synchronising access on its line, `more` the operands of AMOs merged with it: the state, and the entry with its value,
tag and success. A copy in M elsewhere is written back first (FwdS; R96); a tagged STL leaves the issuer's copy in S, updated (R95). -/
def State.syncEffect (s : State) (e : SbEntry) (more : List Word) : State × SbEntry :=
  let line := e.xa / 128
  match e.op with
  | .lda => let r := s.homeRead e.xa e.n; (r.1, { e with value := loadVal e.w e.n (leNat r.2) })
  | .stl =>
    let s1 := if e.tagged then s.homeWriteKeep e.site.cl e.xa e.bytes else s.homeWrite e.xa e.bytes
    (s1, { e with seqTag := (s1.dirOf line).tag })
  | .amo =>
    let old := s.cohN e.xa e.n
    let s1 := s.homeWrite e.xa (leBytes e.n (amoFold e.w.sub.toNat (8 * e.n) old (e.b :: more)))
    (s1, { e with value := wd old, seqTag := (s1.dirOf line).tag })
  | .amx =>
    let old := s.cohN e.xa 8
    let r := amxOp e.w.sub.toNat old e.b.toNat e.c.toNat
    let s1 := match r.1 with
      | some v => s.homeWrite e.xa (leBytes 8 v)
      | none => s.recall line true
    (s1, { e with value := wd old, ok := r.2, seqTag := (s1.dirOf line).tag })
  | .fence => (s.recall line true, e)
  | _ => (s, e)

/-- The record `r` that a synchronising access has found is checked: a mismatch is recorded, or raised under SCOPESTOP after the access has
performed (R97). -/
def State.scopeReport (s : State) (uid : Nat) (e : SbEntry) (r : Option (Nat × Nat)) : State :=
  let u := s.unit uid
  if !(scopeCheck r e.scope e.site.cl).2 then s
  else
    let f : Raised := { cause := 0x06C, addr := wd e.ea, tag := e.tok, d0 := scopeDetail r e.scope, entry := e.id }
    if u.uctl.getLsbD 11 then
      (s.modUnit uid (fun u => u.modEntry e.id (fun x => { x with scopeStop := true }))).takeFault uid (some (u.keyOf e.site)) f
    else s.unitRecord uid (faultRec u (some (u.keyOf e.site)) f)
/-- An AMO whose result nobody names, performed at its home for an engine or the tile-task scheduler of cluster `cl` (R97, R113): the state,
the old value, and the detail of the record of cause 0x06C that it leads to. -/
def State.amoHome (s : State) (cl xa n sc op : Nat) (v : Word) : State × Nat × Option Word :=
  let line := xa / 128
  let rec0 := (s.dirOf line).scopeRec
  let old := s.cohN xa n
  let s1 := (s.homeWrite xa (leBytes n (amoFold op (8 * n) old [v]))).modDir line (fun d => { d with scopeRec := some (sc, domainOf sc cl) })
  (s1, old, if (scopeCheck rec0 sc cl).2 then some (scopeDetail rec0 sc) else none)
/-- The record of the line is taken by the access, and what it found is checked (R97). -/
def State.syncScope (s : State) (uid : Nat) (e : SbEntry) (r : Option (Nat × Nat)) : State :=
  (s.modDir (e.xa / 128) (fun d => { d with scopeRec := some (e.scope, domainOf e.scope e.site.cl) })).scopeReport uid e r

/-- The entries that arrive with a message: its own, and those of AMOs merged with it (R114). -/
def State.arrivals (s : State) (m : CohMsg) : List (Nat × SbEntry) :=
  ((m.unit, m.id) :: m.more).filterMap (fun p => ((s.unit p.1).entry? p.2).map (fun e => (p.1, e)))
/-- One entry of an arrival has performed: its tag, its way back and its scope record. -/
def State.arrived (s : State) (m : CohMsg) (line : Nat) (p : Nat × SbEntry) : State :=
  let rec0 := (s.dirOf line).scopeRec
  let s1 := s.modUnit p.1 (fun u => u.modEntry p.2.id (fun _ => { p.2 with phase := .performed, seqTag := (s.dirOf line).tag }))
  ({ s1 with net := s1.net ++ [{ m with kind := .wack, cl := p.2.site.cl, unit := p.1, id := p.2.id, more := [] }] } : State).syncScope p.1 p.2 rec0
/-- SYNC_ACCESS_AT_HOME (R96, R97, R108): performed when hosts allow it. A release has all earlier writes and reduction rounds behind it, at
fabric and system scope on every device. An STL or AMX is performed once the other devices' copies of its line are gone (R85, R106). -/
def execSyncAccessAtHome (s : State) : Host.Outcome State Fault Refusal :=
  nextS (match s.pickMsg .sync with
    | none => s
    | some (i, m) =>
      match s.arrivals m with
      | [] => s.replaceMsg i []
      | (uid, e) :: rest =>
        let eff := (scopeCheck (s.dirOf m.line).scopeRec e.scope e.site.cl).1
        let isRel := e.op == .stl || e.op == .amx || (e.op == .fence && e.w.sub != 0#3)
        let writes := e.op == .stl || e.op == .amo || e.op == .amx
        if (s.dirOf m.line).lock.isSome then s
        else if e.op != .fence && !s.hostReady e.xa e.n writes then s.sendSnoops e.xa e.n writes
        else if isRel && s.redPending uid e then s
        else if isRel && 3 ≤ eff && !s.fabricReleased uid then s
        else if (e.op == .stl || e.op == .amx) && (!(s.dirOf m.line).remote.isEmpty || s.remotePending m.line) then s.invRemote m.line
        else
          match (if e.op == .lda || e.op == .amo || e.op == .amx then badLine s e.xa e.n else none) with
          | some f => ((uid, e) :: rest).foldl (fun s p => s.sbFault p.1 p.2 f.cause p.2.ea f.d0 f.d1) (s.replaceMsg i [])
          | none =>
            let r := (s.replaceMsg i []).syncEffect e (rest.map (fun p => p.2.b))
            ((uid, r.2) :: rest).foldl (fun s p => s.arrived m m.line p) r.1)

/-- WACK (R95): the write's tag returns and the access retires. An STL, AMX or FENCE waits for the invalidations of other
devices' copies (R85); a result held under SCOPESTOP waits for ERET (R97). -/
def execWack (s : State) : Host.Outcome State Fault Refusal :=
  nextS (match s.net[s.ev.i]? with
    | none => s
    | some m =>
      if m.kind != .wack then s
      else
        match s.msgEntry m with
        | none => s.replaceMsg s.ev.i []
        | some e =>
          if e.scopeStop || ((e.op == .stl || e.op == .amx || e.op == .fence) && s.remotePending m.line) then s
          else (s.replaceMsg s.ev.i []).retire m.unit e.id)

/-- AMO_MERGE (R114): the messages `i` and `k` carry AMOs of the same address, operation and width, none of which names a result: they go on
as one arrival, which is one write event whose tag all of them receive. -/
def execAmoMerge (s : State) : Host.Outcome State Fault Refusal :=
  nextS (match s.net[s.ev.i]?, s.net[s.ev.k]? with
    | some m, some n =>
      match s.msgEntry m, s.msgEntry n with
      | some e, some f =>
        let quietAmo (x : SbEntry) : Bool := x.op == .amo && (x.w.dst == 3#2 || x.w.dst == 1#2) && x.mt != 3
        if m.kind != .sync || n.kind != .sync || s.ev.k == s.ev.i || !quietAmo e || !quietAmo f || e.xa != f.xa || e.w.sub != f.w.sub || e.n != f.n then s
        else { s with net := ldel (lmod s.net s.ev.i (fun m => { m with more := m.more ++ (n.unit, n.id) :: n.more })) s.ev.k }
      | _, _ => s
    | _, _ => s)

/-! ### Linked traversal (R236, R237) -/

/-- The value that the next load of a traversal reads, with the colour of a held store that gives it (R103, R104, R236): from the store
buffer, the L1 or the home, as LD with the word's hint; none while it waits. -/
def State.linkValue (s : State) (uid : Nat) (e : SbEntry) (mt : Nat) : State × Except TrRes (Nat × BitVec 2) :=
  match (s.unit uid).forward e with
  | .wait => (s, .error .wait)
  | .val v col => (s.modUnit uid (fun u => u.noteRead e), .ok (v, col))
  | .none =>
    if !s.hostReady e.xa 8 false then (s.sendSnoops e.xa 8 false, .error .wait)
    else
      let held := mt != 2 && !isFabXa e.xa && (s.l1Bytes e.site.cl e.xa 8).isSome
      match s.readNearXa e.site.cl e.xa 8 mt with
      | (s1, .ok bs) => (if held then s1.keepFor e else s1.fillEntry { e with mt := mt, n := 8 }, .ok (leNat bs, 0#2))
      | (s1, .error r) => (s1, .error r)
/-- LDLK_LOAD (R236): the next load of a traversal whose entry has issued, and its token. -/
def execLdlkLoad (s : State) : Host.Outcome State Fault Refusal :=
  nextS (
    let uid := s.ev.u
    let u := s.unit uid
    match u.entry? s.ev.id with
    | none => s
    | some e =>
      let key := u.keyOf e.site
      let t : Token := { e.tok with wave := e.tok.wave + BitVec.ofNat 10 e.k, col := 0#2 }
      if e.op != .ldlk || e.phase != .issued || !u.fires || !s.windowOpen uid t || (u.pe key).portBlocked then s
      else if e.ea % 8 != 0 then s.sbFault uid e 0x060 e.ea 0#64 0#64
      else
        match translate s e.site.cl u.job e.ea .load 0 with
        | (s1, .fault f) => s1.sbFault uid e f.cause e.ea f.d0 f.d1
        | (s1, .wait) => s1
        | (s1, .ok xa mt _) =>
          let e1 := { e with xa := xa, mt := mt }
          if !u.mayPerform e1 then s1
          else
            match s1.linkValue uid e1 mt with
            | (s2, .error (.fault f)) => s2.sbFault uid e f.cause e.ea f.d0 f.d1
            | (s2, .error _) => s2
            | (s2, .ok r) =>
              let v := wd r.1
              let last := v == 0#64 || e.k + 1 == e.b.toNat
              let s3 := s2.modUnit uid (fun u => u.modEntry e.id (fun x => { x with k := e.k + 1, ea := addDisp v (dispOf e.w) }))
              let s4 := if last then (s3.setNode uid key .idle).retire uid e.id else s3
              (s4.progress uid).deliver uid key e.w { t with payload := v, fmt := e.w.fmt, last := last, col := r.2 })

/-! ### Reduction rounds (R115, R116) -/

/-- A list in the order of `le`. -/
def insertBy {α : Type} (le : α → α → Bool) (x : α) : List α → List α
  | [] => [x]
  | y :: r => if le x y then x :: y :: r else y :: insertBy le x r
def sortBy {α : Type} (le : α → α → Bool) : List α → List α
  | [] => []
  | x :: r => insertBy le x (sortBy le r)
/-- Neighbours with one key folded together in order. -/
def foldKeys (op : Nat → Nat → Nat) : List (Nat × Nat) → List (Nat × Nat)
  | [] => []
  | (k, v) :: r =>
    match foldKeys2 op k v r with
    | l => l
where
  foldKeys2 (op : Nat → Nat → Nat) (k v : Nat) : List (Nat × Nat) → List (Nat × Nat)
    | [] => [(k, v)]
    | (k', v') :: r => if k' = k then foldKeys2 op k (op v v') r else (k, v) :: foldKeys2 op k' v' r
/-- The total of a round: contributions by (NODE, unit) within each cluster ordinal, clusters within each die ordinal, dies
(R116, R300). -/
def roundTotal (op : Nat → Nat → Nat) (g1 g2 : Nat) (parts : List RedPart) : Nat :=
  let key (p : RedPart) : Nat := (p.idx / g1) * 2 ^ 20 + p.node * 4096 + p.idx
  let sorted := sortBy (fun a b => decide (key a ≤ key b)) parts
  let cls := foldKeys op (sorted.map (fun p => (p.idx / g1, p.value.toNat)))
  let dies := foldKeys op (cls.map (fun p => (p.1 / g2, p.2)))
  match dies.map Prod.snd with
  | [] => 0
  | t :: r => r.foldl op t

/-- The scope of a round (R97): the scope at which it performs, its domain, and whether 0x06C is reported. -/
def roundScope (r : Option (Nat × Nat)) (scope : Nat) (cls : List Nat) : Nat × Nat × Bool :=
  let c0 := cls.headD 0
  let oneCl := cls.all (· == c0)
  let oneDie := cls.all (fun c => dieOf c == dieOf c0)
  let own := if scope = 0 && !oneCl then (if oneDie then 1 else 2) else if scope = 1 && !oneDie then 2 else scope
  let k := scopeCheck r own c0
  (k.1, domainOf k.1 c0, k.2 || own != scope)

/-- A round is no more. -/
def State.dropRound (s : State) (r : RedRound) : State := { s with reds := s.reds.erase r }
/-- A record of a round: it names the job and the group's launch, and no unit (R97). -/
def State.roundRecord (s : State) (inst : Instance) (launch cause addr : Nat) (d0 d1 : Word) : State :=
  s.writeRecord (s.ringOf inst.job) { cause := cause, src := 2, job := inst.job, launch := launch, kseq := inst.kseq, addr := addr, d0 := d0.toNat, d1 := d1.toNat }
/-- What the contributors wrote before they contributed has its write acks, and at fabric and system scope is complete: the round's
completion is a release (R116, R247). -/
def State.roundReleased (s : State) (inst : Instance) (r : RedRound) : Bool :=
  r.parts.all (fun p => (s.unit p.uid).sb.all (fun x =>
    !(x.stores && x.tok.lvl == p.lvl && x.tok.itag == p.itag && x.ord != 0 && decide (x.ord < p.ord) && x.phase != .retired))) &&
    (decide (r.scope < 3) || s.jobReleased inst.job)
/-- The total of a round stands at its target: the round ends, or its group's completion word is still to be incremented (R116). -/
def State.roundApplied (s : State) (inst : Instance) (round : RedRound) (sc : Nat) : State :=
  if (redGroup s inst.job inst.base.toNat round.grp).done = 0 then s.dropRound round
  else { s with reds := s.reds.map (fun r => if r = round then { r with applied := true, scope := sc, id := 0 } else r) }
/-- A round's access to a line of another device is sent to its owner (R82, R371); the round waits for the answer to request `id`. -/
def State.askRound (s : State) (round : RedRound) (xa n : Nat) (op : FyOp) (scope sc : Nat) (v : Word) : State :=
  let s1 : State := { s with fyL2 := (touchedLines xa n).foldl adel s.fyL2
                             reds := s.reds.map (fun r => if r = round then { r with scope := sc, id := s.fyTag } else r) }
  s1.fyRequest xa (0, 0) (fun t => .memSync (xa % 2 ^ 40) n op scope v 0#64 t)
/-- The owner of the line has answered request `tag` of a round: with the scope record that its access found (R97), or with the address of a
line that fails its check (R369). -/
def State.roundAnswered (s : State) (tag : Nat) (r : Except Nat (Option (Nat × Nat))) : State :=
  match s.reds.find? (fun x => x.id == tag) with
  | none => s
  | some round =>
    match s.inst? round.inst with
    | none => s.dropRound round
    | some inst =>
      let g := redGroup s inst.job inst.base.toNat round.grp
      let va := if round.applied then g.done else g.target
      match r with
      | .error pa => (s.dropRound round).roundRecord inst g.launch 0x160 va 0#64 (wd pa)
      | .ok rec0 =>
        let s1 := if (roundScope rec0 round.scope (round.parts.map RedPart.cl)).2.2
          then s.roundRecord inst g.launch 0x06C va (scopeDetail rec0 round.scope) 0#64 else s
        if round.applied then s1.dropRound round else s1.roundApplied inst round round.scope
/-- The total of a complete round is applied at the target's home, as one synchronising access (R97, R116). A fault found there is recorded,
and the round ends without effect (log 57). -/
def State.applyRound (s : State) (inst : Instance) (round : RedRound) : State :=
  let g := redGroup s inst.job inst.base.toNat round.grp
  let d := launchDesc s inst.job inst.base.toNat g.launch
  let n := if g.fmt = 1 || g.fmt = 5 then 8 else 4
  let cl := (round.parts.map RedPart.cl).headD 0
  match translateReady s cl inst.job g.target n .atomic 2 with
  | (s1, .wait) => s1
  | (s1, .fault f) => (s1.dropRound round).roundRecord inst g.launch f.cause g.target f.d0 f.d1
  | (s1, .ok xa _ sc) =>
    match badLine s1 xa n with
    | some f => (s1.dropRound round).roundRecord inst g.launch f.cause g.target f.d0 f.d1
    | none =>
      let op := redOp g.op g.fmt
      let total := roundTotal op d.g1 d.g2 round.parts
      let cls := round.parts.map RedPart.cl
      if isFabXa xa then s1.askRound round xa n (.red g.op g.fmt) (roundScope none sc cls).1 sc (wd total)
      else
        let rec0 := (s1.dirOf (xa / 128)).scopeRec
        let rs := roundScope rec0 sc cls
        let s2 := s1.homeWrite xa (leBytes n (op (s1.cohN xa n) total))
        let s3 := s2.modDir (xa / 128) (fun d => { d with scopeRec := some (rs.1, rs.2.1) })
        (if rs.2.2 then s3.roundRecord inst g.launch 0x06C g.target (scopeDetail rec0 sc) 0#64 else s3).roundApplied inst round sc
/-- The group's completion word is incremented by an AMO, when all that the round releases is complete (R116, R247); on a fabric page the
device that owns it performs the AMO. -/
def State.finishRound (s : State) (inst : Instance) (round : RedRound) : State :=
  let g := redGroup s inst.job inst.base.toNat round.grp
  let cl := (round.parts.map RedPart.cl).headD 0
  if !s.roundReleased inst round then s
  else
    match translateReady s cl inst.job g.done 8 .atomic 2 with
    | (s1, .wait) => s1
    | (s1, .fault f) => (s1.dropRound round).roundRecord inst g.launch f.cause g.done f.d0 f.d1
    | (s1, .ok xa _ sc) =>
      let s2 := s1.dropRound round
      if isFabXa xa then s1.askRound round xa 8 (.amo 0) (roundScope none sc (round.parts.map RedPart.cl)).1 sc 1#64
      else
        match badLine s2 xa 8 with
        | some f => s2.roundRecord inst g.launch f.cause g.done f.d0 f.d1
        | none =>
          let rec0 := (s2.dirOf (xa / 128)).scopeRec
          let rs := roundScope rec0 sc (round.parts.map RedPart.cl)
          let s3 := (s2.homeWrite xa (leBytes 8 ((s2.cohN xa 8 + 1) % 2 ^ 64))).modDir (xa / 128) (fun d => { d with scopeRec := some (rs.1, rs.2.1) })
          if rs.2.2 then s3.roundRecord inst g.launch 0x06C g.done (scopeDetail rec0 sc) 0#64 else s3
/-- RED_ROUND_COMPLETE (R116, R247): when every declared contributor has contributed, the total is applied at the target's home; then the
group's completion word is incremented. -/
def execRedRoundComplete (s : State) : Host.Outcome State Fault Refusal :=
  nextS (match s.reds.find? (fun r => r.inst == s.ev.inst && r.grp == s.ev.grp), s.inst? s.ev.inst with
    | some round, some inst =>
      match s.objectWaits inst.job inst.base.toNat with
      | some s1 => s1
      | none =>
      if round.id != 0 then s
      else if round.applied then s.finishRound inst round
      else if (redContributors s inst.job inst.base.toNat round.grp).all (fun c => round.parts.any (fun p => (p.node, p.idx) == c)) then s.applyRound inst round
      else s
    | _, _ => s)

/-- REFRESH_WINDOW_END (R136): the weight-store loads that wait on the group go on. -/
def execRefreshWindowEnd (s : State) : Host.Outcome State Fault Refusal :=
  nextS (
    let waiting := s.units.flatMap (fun p => (p.2.sb.filter (fun e =>
      e.op == .ldws && e.phase == .issued && (e.xa - wBase) / 2 ^ 28 == s.ev.die && bits (e.xa - wBase) 11 8 == s.ev.i)).map (fun e => (p.1, e)))
    waiting.foldl (fun s p => if (s.unit p.1).completes then s.performEntry p.1 p.2 else s) s)

end Sys2Proof.Machine
end

