-- ==== Sys2Proof/WellFormed.lean ====
section
/-! DEFINITION. Which instructions are well formed: the fields of a PE word or a control word obey the encoding
tables (R142 to R148), a word that carries no sequence word or immediate has them zero, a message has the pointers
its NPTR says (R153). Events carry no fields and are well formed. -/

namespace Sys2Proof

open Machine

/-- The opcode and the word of a PE row (R152). -/
def Instr.pePart : Instr → Option (BitVec 7 × PeWord)
  | .ill w => some (0x0#7, w)
  | .add w => some (0x1#7, w)
  | .sub w => some (0x2#7, w)
  | .neg w => some (0x3#7, w)
  | .mul w => some (0x4#7, w)
  | .mulh w => some (0x5#7, w)
  | .madd w => some (0x6#7, w)
  | .div w => some (0x7#7, w)
  | .rem w => some (0x8#7, w)
  | .min w => some (0x9#7, w)
  | .max w => some (0xa#7, w)
  | .abs w => some (0xb#7, w)
  | .absd w => some (0xc#7, w)
  | .adds w => some (0xd#7, w)
  | .subs w => some (0xe#7, w)
  | .cmp w => some (0xf#7, w)
  | .and w => some (0x10#7, w)
  | .or w => some (0x11#7, w)
  | .xor w => some (0x12#7, w)
  | .andn w => some (0x13#7, w)
  | .not w => some (0x14#7, w)
  | .shl w => some (0x15#7, w)
  | .shr w => some (0x16#7, w)
  | .sra w => some (0x17#7, w)
  | .rot w => some (0x18#7, w)
  | .clz w => some (0x19#7, w)
  | .ctz w => some (0x1a#7, w)
  | .popc w => some (0x1b#7, w)
  | .bext w => some (0x1c#7, w)
  | .bins w => some (0x1d#7, w)
  | .sext w => some (0x1e#7, w)
  | .zext w => some (0x1f#7, w)
  | .lea w => some (0x20#7, w)
  | .bchk w => some (0x21#7, w)
  | .sel w => some (0x22#7, w)
  | .move w => some (0x23#7, w)
  | .constFree w => some (0x24#7, w)
  | .constTriggered w => some (0x24#7, w)
  | .invOp w => some (0x25#7, w)
  | .steer w => some (0x30#7, w)
  | .merge w => some (0x31#7, w)
  | .wadv w => some (0x32#7, w)
  | .tagnew w => some (0x33#7, w)
  | .tagxl w => some (0x34#7, w)
  | .tagend w => some (0x35#7, w)
  | .cntrSource w => some (0x36#7, w)
  | .cntrTriggered w => some (0x36#7, w)
  | .color w => some (0x37#7, w)
  | .commit w => some (0x38#7, w)
  | .kill w => some (0x39#7, w)
  | .gate w => some (0x3a#7, w)
  | .sink w => some (0x3b#7, w)
  | .scaletok w => some (0x3c#7, w)
  | .waitf w => some (0x3d#7, w)
  | .sete w => some (0x3e#7, w)
  | .fadd w => some (0x40#7, w)
  | .fsub w => some (0x41#7, w)
  | .fmul w => some (0x42#7, w)
  | .fma w => some (0x43#7, w)
  | .fms w => some (0x44#7, w)
  | .fnma w => some (0x45#7, w)
  | .fmin w => some (0x46#7, w)
  | .fmax w => some (0x47#7, w)
  | .fabs w => some (0x48#7, w)
  | .fneg w => some (0x49#7, w)
  | .fcmp w => some (0x4a#7, w)
  | .fdiv w => some (0x4b#7, w)
  | .fsqrt w => some (0x4c#7, w)
  | .frcpe w => some (0x4d#7, w)
  | .frsqe w => some (0x4e#7, w)
  | .fclass w => some (0x4f#7, w)
  | .fcvt w => some (0x50#7, w)
  | .fcvtTile w => some (0x50#7, w)
  | .ftoi w => some (0x51#7, w)
  | .itof w => some (0x52#7, w)
  | .frnd w => some (0x53#7, w)
  | .cbd w => some (0x54#7, w)
  | .cbe w => some (0x55#7, w)
  | .lsum w => some (0x56#7, w)
  | .ldot w => some (0x57#7, w)
  | .lbc w => some (0x58#7, w)
  | .lshuf w => some (0x59#7, w)
  | .lpack w => some (0x5a#7, w)
  | .lunpk w => some (0x5b#7, w)
  | .lext w => some (0x5c#7, w)
  | .lins w => some (0x5d#7, w)
  | .lred w => some (0x5e#7, w)
  | .fscale w => some (0x5f#7, w)
  | .ld w => some (0x60#7, w)
  | .st w => some (0x61#7, w)
  | .ldlk w => some (0x62#7, w)
  | .pref w => some (0x63#7, w)
  | .span w => some (0x64#7, w)
  | .ldsp w => some (0x65#7, w)
  | .stsp w => some (0x66#7, w)
  | .ldws w => some (0x67#7, w)
  | .amo w => some (0x68#7, w)
  | .amx w => some (0x69#7, w)
  | .red w => some (0x6a#7, w)
  | .fence w => some (0x6b#7, w)
  | .flushr w => some (0x6c#7, w)
  | .memnop w => some (0x6d#7, w)
  | .lda w => some (0x6e#7, w)
  | .stl w => some (0x6f#7, w)
  | .ldxs w => some (0x70#7, w)
  | .stxs w => some (0x71#7, w)
  | .mmul w => some (0x72#7, w)
  | .mdrn w => some (0x73#7, w)
  | .mdrnZero w => some (0x73#7, w)
  | .mdrnMem w => some (0x73#7, w)
  | .send w => some (0x74#7, w)
  | .ttq w => some (0x75#7, w)
  | .hoff w => some (0x76#7, w)
  | .hwait w => some (0x77#7, w)
  | .trap w => some (0x78#7, w)
  | .brk w => some (0x79#7, w)
  | .rdctr w => some (0x7a#7, w)
  | .rdst w => some (0x7b#7, w)
  | .wrst w => some (0x7c#7, w)
  | .mbld w => some (0x7d#7, w)
  | .unassignedOpc opc w => some (opc, w)
  | _ => none

/-- The OP (and FN for OP 0x01) and the word of a control row (R148). -/
def Instr.ctlPart : Instr → Option (BitVec 6 × CWord)
  | .seqAdd c => some (0x1#6, c)
  | .seqSub c => some (0x1#6, c)
  | .seqAnd c => some (0x1#6, c)
  | .seqOr c => some (0x1#6, c)
  | .seqXor c => some (0x1#6, c)
  | .seqShl c => some (0x1#6, c)
  | .seqShr c => some (0x1#6, c)
  | .seqSra c => some (0x1#6, c)
  | .seqMul c => some (0x1#6, c)
  | .seqMulh c => some (0x1#6, c)
  | .seqDiv c => some (0x1#6, c)
  | .seqRem c => some (0x1#6, c)
  | .slt c => some (0x1#6, c)
  | .sltu c => some (0x1#6, c)
  | .seqMin c => some (0x1#6, c)
  | .seqMax c => some (0x1#6, c)
  | .addi c => some (0x2#6, c)
  | .andi c => some (0x3#6, c)
  | .ori c => some (0x4#6, c)
  | .xori c => some (0x5#6, c)
  | .shli c => some (0x6#6, c)
  | .shri c => some (0x7#6, c)
  | .srai c => some (0x8#6, c)
  | .ldhi c => some (0x9#6, c)
  | .slti c => some (0xa#6, c)
  | .ldg c => some (0xb#6, c)
  | .stg c => some (0xc#6, c)
  | .amog c => some (0xd#6, c)
  | .beq c => some (0x10#6, c)
  | .bne c => some (0x11#6, c)
  | .blt c => some (0x12#6, c)
  | .bge c => some (0x13#6, c)
  | .bltu c => some (0x14#6, c)
  | .bgeu c => some (0x15#6, c)
  | .jal c => some (0x16#6, c)
  | .jr c => some (0x17#6, c)
  | .cfgl c => some (0x18#6, c)
  | .cfgs c => some (0x19#6, c)
  | .qwait c => some (0x1a#6, c)
  | .gateo c => some (0x1b#6, c)
  | .gatec c => some (0x1c#6, c)
  | .iset c => some (0x1d#6, c)
  | .inj c => some (0x1e#6, c)
  | .extr c => some (0x1f#6, c)
  | .bankr c => some (0x20#6, c)
  | .resz c => some (0x21#6, c)
  | .hoffs c => some (0x22#6, c)
  | .hwaits c => some (0x23#6, c)
  | .post c => some (0x24#6, c)
  | .cancl c => some (0x25#6, c)
  | .yield c => some (0x26#6, c)
  | .wfe c => some (0x27#6, c)
  | .trapc c => some (0x28#6, c)
  | .eret c => some (0x29#6, c)
  | .mfs c => some (0x2a#6, c)
  | .mts c => some (0x2b#6, c)
  | .fenceg c => some (0x2c#6, c)
  | .sendc c => some (0x2d#6, c)
  | .ttqc c => some (0x2e#6, c)
  | .gnudge c => some (0x2f#6, c)
  | .done c => some (0x30#6, c)
  | .nopc c => some (0x31#6, c)
  | .reservedControlOpcode op c => some (op, c)
  | _ => none

/-- The opcode and the message of an engine command (R153). -/
def Instr.cmdPart : Instr → Option (BitVec 8 × Message)
  | .cmdMbld m => some (0x10#8, m)
  | .cmdMmul m => some (0x11#8, m)
  | .macc m => some (0x12#8, m)
  | .cmdMdrn m => some (0x13#8, m)
  | .mqnt m => some (0x14#8, m)
  | .mzer m => some (0x15#8, m)
  | .mcbt m => some (0x16#8, m)
  | .mgrp m => some (0x17#8, m)
  | .cpy m => some (0x20#8, m)
  | .cpy2d m => some (0x21#8, m)
  | .fill m => some (0x22#8, m)
  | .wsfl m => some (0x23#8, m)
  | .cpyxs m => some (0x24#8, m)
  | .gth m => some (0x30#8, m)
  | .sct m => some (0x31#8, m)
  | .scta m => some (0x32#8, m)
  | .gthxs m => some (0x33#8, m)
  | .cred m => some (0x40#8, m)
  | .cagt m => some (0x41#8, m)
  | .crsc m => some (0x42#8, m)
  | .cbcs m => some (0x43#8, m)
  | .cbar m => some (0x44#8, m)
  | _ => none

/-- OP 0x01 names its operation by FN[3:0], in the order of R148. -/
def Instr.aluFn : Instr → Option Nat
  | .seqAdd _ => some 0
  | .seqSub _ => some 1
  | .seqAnd _ => some 2
  | .seqOr _ => some 3
  | .seqXor _ => some 4
  | .seqShl _ => some 5
  | .seqShr _ => some 6
  | .seqSra _ => some 7
  | .seqMul _ => some 8
  | .seqMulh _ => some 9
  | .seqDiv _ => some 10
  | .seqRem _ => some 11
  | .slt _ => some 12
  | .sltu _ => some 13
  | .seqMin _ => some 14
  | .seqMax _ => some 15
  | _ => none

/-- Codes of the opcode map with a dash (R152). -/
def isDash (opc : BitVec 7) : Bool :=
  opc == 0x26#7 || opc == 0x27#7 || opc == 0x28#7 || opc == 0x29#7 || opc == 0x2a#7 || opc == 0x2b#7 || opc == 0x2c#7 || opc == 0x2d#7 || opc == 0x2e#7 || opc == 0x2f#7 || opc == 0x3f#7 || opc == 0x7e#7

/-- OP codes of R148 that raise 0x0E0. -/
def isReservedOp (op : BitVec 6) : Bool :=
  op == 0x0#6 || op == 0xE#6 || op == 0xF#6 || decide (0x32 ≤ op.toNat)

/-- An operation that carries a sequence word (R142). -/
def memClass (opc : BitVec 7) (sub : BitVec 3) : Bool :=
  (decide (0x60 ≤ opc.toNat) && decide (opc.toNat < 0x70)) || opc == 0x70#7 || opc == 0x71#7 || opc == 0x7D#7 ||
    (opc == 0x73#7 && sub == 1#3)

/-- Format T opcodes (R146). -/
def isFormatT (opc : BitVec 7) : Bool :=
  opc == 0x70#7 || opc == 0x71#7 || opc == 0x72#7 || opc == 0x73#7 || opc == 0x7D#7

/-- Which form of a shared opcode a row names (R175, R180, R209, R254), and the codes of UNASSIGNED_OPC. -/
def Instr.formOk : Instr → Bool
  | .constFree w => w.sb == 6#3
  | .constTriggered w => w.sb != 6#3
  | .cntrSource w => w.sa == 6#3 && w.sb == 6#3 && w.sc == 6#3
  | .cntrTriggered w => !(w.sa == 6#3 && w.sb == 6#3 && w.sc == 6#3)
  | .fcvtTile w => w.fmt == 0#4
  | .fcvt w => w.fmt != 0#4
  | .mdrnMem w => w.sub == 1#3
  | .mdrnZero w => w.sub == 3#3
  | .mdrn w => w.sub != 1#3 && w.sub != 3#3
  | .unassignedOpc opc _ => isDash opc
  | .reservedControlOpcode op _ => isReservedOp op
  | _ => true

/-- The words present in the encoding of a PE row: a sequence word for the memory class, an immediate with X = 1. -/
def peWordsOk (opc : BitVec 7) (w : PeWord) : Bool :=
  (memClass opc w.sub || w.seq == 0#32) && (w.x || w.imm == 0#32)

/-- The fields of a PE row obey R145 step 2. ILL and the unassigned codes have no entry and no demand. -/
def peEntryOk (opc : BitVec 7) (w : PeWord) : Bool :=
  if opc == 0#7 || isDash opc then true
  else if isFormatT opc then tFieldsOk opc.toNat w
  else if opc == 0x50#7 && w.fmt == 0#4 then fcvtTileFieldsOk w
  else fieldsOk opc.toNat w

/-- Well-formed instructions. -/
def Instr.wf (i : Instr) : Bool :=
  i.formOk &&
  (match i.pePart with
   | some (opc, w) => peWordsOk opc w && peEntryOk opc w
   | none => true) &&
  (match i.ctlPart with
   | some (op, c) => ctlFieldsOk op.toNat c
   | none => true) &&
  (match i.cmdPart with
   | some (_, m) => decide (m.ptrs.length = m.nptr.toNat) && decide (m.nptr.toNat ≤ 6)
   | none => true)

end Sys2Proof
end

