-- ==== Sys2Proof/Decode.lean ====
section
/-! DEFINITION. Decoding and encoding: PE words and their following words (R142, R146, R152), control words (R147,
R148), engine messages (R153), tokens in their wire form (R151), and the table's own view of a word. The decoders
are total; what they do not accept they reject by name. -/

namespace Sys2Proof

open Machine

/-- Why bits are no instruction. -/
inductive DecodeError where
  /-- OPC 0x7F: the PE carries routes and no operation (R140). -/
  | routesOnly
  /-- A sequence word, an immediate or a pointer is missing. -/
  | truncated
  /-- A message opcode outside the table of R153 (cause 0x0C1). -/
  | unknownCommand
  /-- NPTR above 6 (cause 0x0C4). -/
  | tooManyPointers
deriving DecidableEq, Repr

/-- The fields of an operation word (R142). -/
def peFields (op seq imm : Word32) : PeWord :=
  { sub := op.extractLsb' 22 3, fmt := op.extractLsb' 18 4, sa := op.extractLsb' 15 3, sb := op.extractLsb' 12 3
    sc := op.extractLsb' 9 3, ei := op.extractLsb' 6 3, dst := op.extractLsb' 4 2, mod := op.extractLsb' 1 3
    x := op.getLsbD 0, seq := seq, imm := imm }

/-- OPC of an operation word. -/
def peOpc (op : Word32) : BitVec 7 := op.extractLsb' 25 7

/-- The row that an operation word with OPC `opc` and fields `w` is (R152). -/
def peRow (opc : BitVec 7) (w : PeWord) : Option Instr :=
  match opc.toNat with
  | 0x0 => some (.ill w)
  | 0x1 => some (.add w)
  | 0x2 => some (.sub w)
  | 0x3 => some (.neg w)
  | 0x4 => some (.mul w)
  | 0x5 => some (.mulh w)
  | 0x6 => some (.madd w)
  | 0x7 => some (.div w)
  | 0x8 => some (.rem w)
  | 0x9 => some (.min w)
  | 0xa => some (.max w)
  | 0xb => some (.abs w)
  | 0xc => some (.absd w)
  | 0xd => some (.adds w)
  | 0xe => some (.subs w)
  | 0xf => some (.cmp w)
  | 0x10 => some (.and w)
  | 0x11 => some (.or w)
  | 0x12 => some (.xor w)
  | 0x13 => some (.andn w)
  | 0x14 => some (.not w)
  | 0x15 => some (.shl w)
  | 0x16 => some (.shr w)
  | 0x17 => some (.sra w)
  | 0x18 => some (.rot w)
  | 0x19 => some (.clz w)
  | 0x1a => some (.ctz w)
  | 0x1b => some (.popc w)
  | 0x1c => some (.bext w)
  | 0x1d => some (.bins w)
  | 0x1e => some (.sext w)
  | 0x1f => some (.zext w)
  | 0x20 => some (.lea w)
  | 0x21 => some (.bchk w)
  | 0x22 => some (.sel w)
  | 0x23 => some (.move w)
  | 0x24 => if w.sb == 6#3 then some (.constFree w) else some (.constTriggered w)
  | 0x25 => some (.invOp w)
  | 0x30 => some (.steer w)
  | 0x31 => some (.merge w)
  | 0x32 => some (.wadv w)
  | 0x33 => some (.tagnew w)
  | 0x34 => some (.tagxl w)
  | 0x35 => some (.tagend w)
  | 0x36 => if w.sa == 6#3 && w.sb == 6#3 && w.sc == 6#3 then some (.cntrSource w) else some (.cntrTriggered w)
  | 0x37 => some (.color w)
  | 0x38 => some (.commit w)
  | 0x39 => some (.kill w)
  | 0x3a => some (.gate w)
  | 0x3b => some (.sink w)
  | 0x3c => some (.scaletok w)
  | 0x3d => some (.waitf w)
  | 0x3e => some (.sete w)
  | 0x40 => some (.fadd w)
  | 0x41 => some (.fsub w)
  | 0x42 => some (.fmul w)
  | 0x43 => some (.fma w)
  | 0x44 => some (.fms w)
  | 0x45 => some (.fnma w)
  | 0x46 => some (.fmin w)
  | 0x47 => some (.fmax w)
  | 0x48 => some (.fabs w)
  | 0x49 => some (.fneg w)
  | 0x4a => some (.fcmp w)
  | 0x4b => some (.fdiv w)
  | 0x4c => some (.fsqrt w)
  | 0x4d => some (.frcpe w)
  | 0x4e => some (.frsqe w)
  | 0x4f => some (.fclass w)
  | 0x50 => if w.fmt == 0#4 then some (.fcvtTile w) else some (.fcvt w)
  | 0x51 => some (.ftoi w)
  | 0x52 => some (.itof w)
  | 0x53 => some (.frnd w)
  | 0x54 => some (.cbd w)
  | 0x55 => some (.cbe w)
  | 0x56 => some (.lsum w)
  | 0x57 => some (.ldot w)
  | 0x58 => some (.lbc w)
  | 0x59 => some (.lshuf w)
  | 0x5a => some (.lpack w)
  | 0x5b => some (.lunpk w)
  | 0x5c => some (.lext w)
  | 0x5d => some (.lins w)
  | 0x5e => some (.lred w)
  | 0x5f => some (.fscale w)
  | 0x60 => some (.ld w)
  | 0x61 => some (.st w)
  | 0x62 => some (.ldlk w)
  | 0x63 => some (.pref w)
  | 0x64 => some (.span w)
  | 0x65 => some (.ldsp w)
  | 0x66 => some (.stsp w)
  | 0x67 => some (.ldws w)
  | 0x68 => some (.amo w)
  | 0x69 => some (.amx w)
  | 0x6a => some (.red w)
  | 0x6b => some (.fence w)
  | 0x6c => some (.flushr w)
  | 0x6d => some (.memnop w)
  | 0x6e => some (.lda w)
  | 0x6f => some (.stl w)
  | 0x70 => some (.ldxs w)
  | 0x71 => some (.stxs w)
  | 0x72 => some (.mmul w)
  | 0x73 => if w.sub == 1#3 then some (.mdrnMem w) else if w.sub == 3#3 then some (.mdrnZero w) else some (.mdrn w)
  | 0x74 => some (.send w)
  | 0x75 => some (.ttq w)
  | 0x76 => some (.hoff w)
  | 0x77 => some (.hwait w)
  | 0x78 => some (.trap w)
  | 0x79 => some (.brk w)
  | 0x7a => some (.rdctr w)
  | 0x7b => some (.rdst w)
  | 0x7c => some (.wrst w)
  | 0x7d => some (.mbld w)
  | _ => if isDash opc then some (.unassignedOpc opc w) else none

/-- A PE operation with its sequence word and its immediate. -/
def decodePe (op seq imm : Word32) : Option Instr := peRow (peOpc op) (peFields op seq imm)

/-- The words of a PE in the order of R140: the operation word, the sequence word of the memory class, the immediate
of X = 1. -/
def decodePeWords : List Word32 → Except DecodeError (Instr × List Word32)
  | [] => .error .truncated
  | op :: rest =>
    let w0 := peFields op 0#32 0#32
    let seqW := memClass (peOpc op) w0.sub
    match seqW, w0.x, rest with
    | false, false, r =>
      match decodePe op 0#32 0#32 with
      | some i => .ok (i, r)
      | none => .error .routesOnly
    | true, false, s :: r =>
      match decodePe op s 0#32 with
      | some i => .ok (i, r)
      | none => .error .routesOnly
    | false, true, m :: r =>
      match decodePe op 0#32 m with
      | some i => .ok (i, r)
      | none => .error .routesOnly
    | true, true, s :: m :: r =>
      match decodePe op s m with
      | some i => .ok (i, r)
      | none => .error .routesOnly
    | _, _, _ => .error .truncated

/-- The fields of a control word (R147). -/
def ctlFields (w : Word32) : CWord :=
  { gd := w.extractLsb' 21 5, ga := w.extractLsb' 16 5, gb := w.extractLsb' 11 5, lo := w.extractLsb' 0 11 }

/-- The operation of OP 0x01 that FN[3:0] names (R148). -/
def aluRow (fn : Nat) (c : CWord) : Instr :=
  match fn with
  | 0 => .seqAdd c
  | 1 => .seqSub c
  | 2 => .seqAnd c
  | 3 => .seqOr c
  | 4 => .seqXor c
  | 5 => .seqShl c
  | 6 => .seqShr c
  | 7 => .seqSra c
  | 8 => .seqMul c
  | 9 => .seqMulh c
  | 10 => .seqDiv c
  | 11 => .seqRem c
  | 12 => .slt c
  | 13 => .sltu c
  | 14 => .seqMin c
  | _ => .seqMax c

/-- A control word; every 32-bit word is one (R148). -/
def decodeCtl (w : Word32) : Instr :=
  let c := ctlFields w
  match (w.extractLsb' 26 6).toNat with
  | 0x1 => aluRow (c.lo.toNat % 16) c
  | 0x2 => .addi c
  | 0x3 => .andi c
  | 0x4 => .ori c
  | 0x5 => .xori c
  | 0x6 => .shli c
  | 0x7 => .shri c
  | 0x8 => .srai c
  | 0x9 => .ldhi c
  | 0xa => .slti c
  | 0xb => .ldg c
  | 0xc => .stg c
  | 0xd => .amog c
  | 0x10 => .beq c
  | 0x11 => .bne c
  | 0x12 => .blt c
  | 0x13 => .bge c
  | 0x14 => .bltu c
  | 0x15 => .bgeu c
  | 0x16 => .jal c
  | 0x17 => .jr c
  | 0x18 => .cfgl c
  | 0x19 => .cfgs c
  | 0x1a => .qwait c
  | 0x1b => .gateo c
  | 0x1c => .gatec c
  | 0x1d => .iset c
  | 0x1e => .inj c
  | 0x1f => .extr c
  | 0x20 => .bankr c
  | 0x21 => .resz c
  | 0x22 => .hoffs c
  | 0x23 => .hwaits c
  | 0x24 => .post c
  | 0x25 => .cancl c
  | 0x26 => .yield c
  | 0x27 => .wfe c
  | 0x28 => .trapc c
  | 0x29 => .eret c
  | 0x2a => .mfs c
  | 0x2b => .mts c
  | 0x2c => .fenceg c
  | 0x2d => .sendc c
  | 0x2e => .ttqc c
  | 0x2f => .gnudge c
  | 0x30 => .done c
  | 0x31 => .nopc c
  | _ => .reservedControlOpcode (w.extractLsb' 26 6) c

/-- The command of a message (R153). -/
def cmdRow (opc : BitVec 8) (m : Message) : Option Instr :=
  match opc.toNat with
  | 0x10 => some (.cmdMbld m)
  | 0x11 => some (.cmdMmul m)
  | 0x12 => some (.macc m)
  | 0x13 => some (.cmdMdrn m)
  | 0x14 => some (.mqnt m)
  | 0x15 => some (.mzer m)
  | 0x16 => some (.mcbt m)
  | 0x17 => some (.mgrp m)
  | 0x20 => some (.cpy m)
  | 0x21 => some (.cpy2d m)
  | 0x22 => some (.fill m)
  | 0x23 => some (.wsfl m)
  | 0x24 => some (.cpyxs m)
  | 0x30 => some (.gth m)
  | 0x31 => some (.sct m)
  | 0x32 => some (.scta m)
  | 0x33 => some (.gthxs m)
  | 0x40 => some (.cred m)
  | 0x41 => some (.cagt m)
  | 0x42 => some (.crsc m)
  | 0x43 => some (.cbcs m)
  | 0x44 => some (.cbar m)
  | _ => none

/-- A message header (R153) and its pointers. -/
def messageOf (hdr : Word) (ptrs : List Word) : Message :=
  { nptr := hdr.extractLsb' 52 4, hpop := hdr.extractLsb' 48 4, hpush := hdr.extractLsb' 44 4
    handler := hdr.extractLsb' 32 12, reply := hdr.extractLsb' 0 32, ptrs := ptrs }

/-- An engine message: a header and the pointers that follow it. -/
def decodeMessage : List Word → Except DecodeError (Instr × List Word)
  | [] => .error .truncated
  | hdr :: rest =>
    let n := (hdr.extractLsb' 52 4).toNat
    if 6 < n then .error .tooManyPointers
    else if rest.length < n then .error .truncated
    else
      match cmdRow (hdr.extractLsb' 56 8) (messageOf hdr (rest.take n)) with
      | some i => .ok (i, rest.drop n)
      | none => .error .unknownCommand

/-- The 32-bit words of a byte sequence, little-endian (R1); an incomplete last word is dropped. -/
def wordsOfBytes : List Byte → List Word32
  | b0 :: b1 :: b2 :: b3 :: r => (b3 ++ b2 ++ b1 ++ b0) :: wordsOfBytes r
  | _ => []

/-- The bytes of 32-bit words, little-endian (R1). -/
def bytesOfWords : List Word32 → List Byte
  | [] => []
  | w :: r => w.extractLsb' 0 8 :: w.extractLsb' 8 8 :: w.extractLsb' 16 8 :: w.extractLsb' 24 8 :: bytesOfWords r

/-- The operation word of OPC and fields (R142). -/
def peWordBits (opc : BitVec 7) (w : PeWord) : Word32 :=
  opc ++ w.sub ++ w.fmt ++ w.sa ++ w.sb ++ w.sc ++ w.ei ++ w.dst ++ w.mod ++ BitVec.ofBool w.x

/-- The control word of OP and fields (R147). -/
def ctlWordBits (op : BitVec 6) (c : CWord) : Word32 := op ++ c.gd ++ c.ga ++ c.gb ++ c.lo

/-- The header of a message (R153). -/
def headerBits (opc : BitVec 8) (m : Message) : Word := opc ++ m.nptr ++ m.hpop ++ m.hpush ++ m.handler ++ m.reply

/-- The 32-bit words of a well-formed PE row or control row; `none` for rows that have no such encoding. -/
def encode (i : Instr) : Option (List Word32) :=
  match i.pePart with
  | some (opc, w) =>
    some (peWordBits opc w :: ((if memClass opc w.sub then [w.seq] else []) ++ (if w.x then [w.imm] else [])))
  | none =>
    match i.ctlPart with
    | some (op, c) =>
      match i.aluFn with
      | some fn => some [ctlWordBits op { c with lo := BitVec.ofNat 11 (c.lo.toNat / 16 * 16 + fn) }]
      | none => some [ctlWordBits op c]
    | none => none

/-- The 64-bit words of an engine command. -/
def encodeCmd (i : Instr) : Option (List Word) :=
  match i.cmdPart with
  | some (opc, m) => some (headerBits opc m :: m.ptrs)
  | none => none

/-- PE rows are fetched from the configuration of a PE, control rows from a control stream. -/
def Instr.isPe (i : Instr) : Bool := i.pePart.isSome
def Instr.isCtl (i : Instr) : Bool := i.ctlPart.isSome
def Instr.isCmd (i : Instr) : Bool := i.cmdPart.isSome
/-- Everything else is an event. -/
def Instr.isEvent (i : Instr) : Bool := !(i.isPe || i.isCtl || i.isCmd)

/-- A PE word with FMT and SA replaced. -/
def setFmtSa (w : Word32) (f : Nat) (sa : BitVec 3) : Word32 := w.extractLsb' 22 10 ++ BitVec.ofNat 4 f ++ sa ++ w.extractLsb' 0 15
/-- The words decode to a PE row of an assigned OPC whose fields obey the row's entry. -/
def peOk (ws : List Word32) : Bool :=
  match decodePeWords ws with
  | .ok (.unassignedOpc _ _, _) => false
  | .ok (i, _) => i.wf
  | .error _ => false
/-- The words obey the entry of their OPC with some FMT, and with their SA or with SA 6 (no operand): the table writes a row's word
with 0 in both fields. -/
def peShape (ws : List Word32) : Bool :=
  match ws with
  | [] => false
  | w :: r => (List.range 16).any (fun f => peOk (setFmtSa w f (w.extractLsb' 15 3) :: r) || peOk (setFmtSa w f 6#3 :: r))

/-- A word as the table sees it. The table gives PE words and control words in one numbering, though they are fetched
from different places and their codes overlap: a word whose fields, with some FMT, obey the entry of its OPC (`peShape`) is read as a PE
word, else as a control word if its fields obey R148 and its OP is assigned, else as a PE word, else as a control word.
DESIGN CHOICE (log 5). Bits above `nbits` are 0. -/
def decodeTableWord (nbits w : Nat) : Option Instr :=
  let v := w % 2 ^ nbits
  let w0 := BitVec.ofNat 32 v
  let ws := [w0, BitVec.ofNat 32 (v / 2 ^ 32), BitVec.ofNat 32 (v / 2 ^ 64)]
  let c := decodeCtl w0
  match decodePeWords ws with
  | .ok (i, _) =>
    if peShape ws then some i
    else if c.wf && !isReservedOp (w0.extractLsb' 26 6) then some c
    else some i
  | .error _ => some c

/-- The wire form of a token, bits [63:0] and [95:64] (R151). -/
def tokenHigh (kind : BitVec 2) (last : Bool) (col : BitVec 2) (wave : BitVec 10) (itag : BitVec 8) (lvl : BitVec 3)
    (ctx : BitVec 2) (fmt : BitVec 4) : Word32 :=
  kind ++ BitVec.ofBool last ++ col ++ wave ++ itag ++ lvl ++ ctx ++ fmt

end Sys2Proof
end

