-- ==== Sys2Proof/Machine/Engine.lean ====
section
/-! DEFINITION. What engines share (R137, R138, R258, R260 to R264): handoff counts, inboxes, messages sent, the checks that each
message meets, replies, and the operand words. -/

namespace Sys2Proof.Machine

/-! ### Handoffs (R137, R138) -/

/-- Queue codes: F 1, S 2, M 3, C 4, G 5. The collective engine is no queue. -/
def engineCode : EngineKind → Nat
  | .matrix => 3
  | .copy => 4
  | .gather => 5
  | .collective => 0
/-- The count of the FIFO from queue p to queue c. -/
def Cluster.count (k : Cluster) (p c : Nat) : Nat := agetD k.handoff (p, c) 0
/-- The FIFO is empty: a pop waits. -/
def State.canPop (s : State) (cl p c : Nat) : Bool := decide (0 < (s.cluster cl).count p c)
/-- The FIFO is at 15: a push waits. -/
def State.canPush (s : State) (cl p c : Nat) : Bool := decide ((s.cluster cl).count p c < 15)
def State.popHandoff (s : State) (cl p c : Nat) : State :=
  s.modCluster cl (fun k => { k with handoff := aset k.handoff (p, c) (k.count p c - 1) })
def State.pushHandoff (s : State) (cl p c : Nat) : State :=
  s.modCluster cl (fun k => { k with handoff := aset k.handoff (p, c) (k.count p c + 1) })

/-! ### Inboxes, replies and records -/

/-- The messages that wait at an engine, in arrival order (R261). -/
def State.inbox (s : State) (e : EngineId) : List InMsg :=
  match e.kind with
  | .matrix => (s.cluster e.place).inMatrix
  | .copy => (s.cluster e.place).inCopy
  | .gather => (s.cluster e.place).inGather
  | .collective => (s.die e.place).inColl
def State.setInbox (s : State) (e : EngineId) (l : List InMsg) : State :=
  match e.kind with
  | .matrix => s.modCluster e.place (fun c => { c with inMatrix := l })
  | .copy => s.modCluster e.place (fun c => { c with inCopy := l })
  | .gather => s.modCluster e.place (fun c => { c with inGather := l })
  | .collective => s.modDie e.place (fun d => { d with inColl := l })

/-- The header of a message (R153). -/
def InMsg.header (m : InMsg) : Word := headerBits m.opc m.msg
/-- The payload of a reply (R262). -/
def replyPayload (nk : Bool) (m : InMsg) (cause : Nat) : Word :=
  wd (b2n nk * 2 ^ 63 + m.opc.toNat * 2 ^ 48 + m.msg.handler.toNat * 2 ^ 32 + cause)
/-- The reply token (R262): tag 1, colour 0, the tag of the SEND. -/
def replyToken (m : InMsg) (v : Word) : Token := { m.tag with payload := v, fmt := 1#4, col := 0#2, last := false, kind := 0#2 }
/-- The place from which an engine's replies leave: no PE stands there. -/
def engineSite (e : EngineId) : Site := ⟨e.place, 16 + (engineCode e.kind), 16, 0⟩
/-- A reply of a saved unit is stored in its save area (R361, R364). -/
def State.storeReply (s : State) (m : InMsg) (v : Word) (u : UnitSt) : State :=
  let i := u.replies.length
  let s1 := s.writeAreaBytes (u.saveArea + 0x340) (leBytes 8 (i + 1))
  let s2 := s1.writeAreaBytes (u.saveArea + 0x400 + 32 * i) (leBytes 16 (tokenNat (replyToken m v)) ++ leBytes 4 m.msg.reply.toNat)
  s2.modUnit m.unit (fun u => { u with replies := u.replies ++ [(replyToken m v, m.msg.reply)] })
/-- A reply is sent (R262): to a saved unit's area, to no unit that has ended, else as a packet. -/
def State.sendReply (s : State) (e : EngineId) (m : InMsg) (v : Word) : State :=
  match aget s.units m.unit with
  | none => s
  | some u =>
    match u.status with
    | .ended _ => s
    | .saved _ => s.storeReply m v u
    | _ =>
      let d := routeSite m.msg.reply.toNat
      let f : Flight := { src := engineSite e, pos := u.placeOf d.1, q := some d.2, tok := { replyToken m v with ctx := BitVec.ofNat 2 u.ctx } }
      { s.modUnit m.unit (fun u => { u with quiet := false, watchdog := 0 }) with flights := s.flights ++ [f] }
/-- A record of an engine command names the sending unit (R262). -/
def State.engineRecord (s : State) (m : InMsg) (f : TFault) (addr : Nat) : State :=
  if (s.unit m.unit).isEnded then s
  else s.unitRecord m.unit { unitRec (s.unit m.unit) f.cause 2 with addr := addr, d0 := f.d0.toNat, d1 := f.d1.toNat }
/-- A NACK with a cause that an access met: the reply, and the record with its detail and address (R262, R346). -/
def State.nackF (s : State) (e : EngineId) (m : InMsg) (f : TFault) (addr : Nat) : State :=
  (s.engineRecord m f addr).sendReply e m (replyPayload true m f.cause)
/-- DETAIL0 and DETAIL1 of a NACK that a check of the message or of its operands gives (R346): the header and the handler entry with causes
0x0C0 to 0x0CB, else 0. -/
def nackDetail (m : InMsg) (cause : Nat) (entry : Word) : TFault :=
  if 0x0C0 ≤ cause ∧ cause ≤ 0x0CB then ⟨cause, m.header, entry⟩ else ⟨cause, 0#64, 0#64⟩
/-- A NACK (R262): the reply and the record, which has the address of the message. -/
def State.nack (s : State) (e : EngineId) (m : InMsg) (cause : Nat) (entry : Word) : State := s.nackF e m (nackDetail m cause entry) m.addr
/-- Flags of a command reach the sender's USTAT, running or saved (R262). -/
def State.engineFlags (s : State) (m : InMsg) (fl : Nat) : State :=
  if (s.unit m.unit).isEnded then s else s.modUnit m.unit (fun u => u.raiseFlags fl)

/-! ### Sending (R258) -/

/-- The engine that a message opcode names, in a cluster or its die. -/
def engineOf (opc cl : Nat) : Option EngineId :=
  match opc / 16 with
  | 1 => some ⟨.matrix, cl⟩
  | 2 => some ⟨.copy, cl⟩
  | 3 => some ⟨.gather, cl⟩
  | 4 => some ⟨.collective, dieOf cl⟩
  | _ => none
/-- Every access that the context's buffer has issued has performed (R110). A held coloured write has not issued (R37). -/
def UnitSt.issuedDone (u : UnitSt) : Bool := u.sb.all (fun e => e.ord == 0 || e.done || e.phase == .heldWrite)
/-- Every store of the buffer that has performed has its write ack (R108). -/
def UnitSt.storesAcked (u : UnitSt) : Bool := u.sb.all (fun e => !(e.stores && e.phase == .performed && !e.scopeStop))

/-- The outcome of a firing or word that reads memory before it takes effect. -/
inductive SendRes where
  | done
  | wait
  | fault (cause addr : Nat) (d0 d1 : Word)

/-- Words of 8 bytes read one after another. -/
def State.readWords (s : State) (cl job va : Nat) : Nat → State × Except TrRes (List Word)
  | 0 => (s, .ok [])
  | n + 1 =>
    match readG s cl job va 8 .load 0 with
    | (s1, .ok b) =>
      match State.readWords s1 cl job ((va + 8) % 2 ^ 56) n with
      | (s2, .ok l) => (s2, .ok (wd (leNat b) :: l))
      | r => r
    | (s1, .error e) => (s1, .error e)

/-- A message at `a` is read and delivered (R258, step 0 of R261). -/
def State.sendMessage (s : State) (uid cl : Nat) (a : Word) (tag : Token) : State × SendRes :=
  let u := s.unit uid
  let va := a.toNat % 2 ^ 56
  let fail (s : State) (r : TrRes) : State × SendRes :=
    match r with
    | .fault f => (s, .fault f.cause va f.d0 f.d1)
    | _ => (s, .wait)
  if va % 64 != 0 then (s, .fault 0x060 va 0#64 0#64)
  else
    match s.readWords cl u.job va 1 with
    | (s1, .error r) => fail s1 r
    | (s1, .ok l) =>
      let hdr := l.headD 0#64
      match s1.readWords cl u.job ((va + 8) % 2 ^ 56) (wbits hdr 55 52) with
      | (s2, .error r) => fail s2 r
      | (s2, .ok ps) =>
        let msg := messageOf hdr ps
        let d := routeSite msg.reply.toNat
        if !u.covers d.1.cl || d.1.ctx != u.ctx || msg.reply.toNat % 2048 != 0 then (s2, .fault 0x0C0 va hdr 0#64)
        else
          let m : InMsg := { opc := hdr.extractLsb' 56 8, msg := msg, unit := uid, job := u.job, cl := cl, ctx := u.ctx, tag := tag, swz := u.swz, addr := va
                             id := u.nextId, rm := u.rm }
          match engineOf m.opc.toNat cl with
          | none => (s2.nack ⟨.matrix, cl⟩ m 0x0C1 0#64, .done)
          | some e => (((s2.setInbox e (s2.inbox e ++ [m])).modUnit uid (fun u => { u with nextId := u.nextId + 1, quiet := false })), .done)

/-! ### Accepting a command (R260, R261) -/

/-- What a command does when it is accepted: it waits; it is refused with a cause; it has nothing to do; it runs, with what it has to
do; or it has been taken over (by queue M or a collective round), which will complete it. -/
inductive CmdRes where
  | wait (s : State)
  | nack (s : State) (cause : Nat)
  | fail (s : State) (f : TFault) (addr : Nat)
  | done (s : State)
  | run (s : State) (plan : List EngAcc)
  | taken (s : State)

/-- The handler entry of a message: its first word, and D0 to D5; `none` without a table (R260). -/
def State.handlerEntry (s : State) (e : EngineId) (h : Nat) : Option (Nat × Nat) :=
  let die := if e.kind == .collective then e.place else dieOf e.place
  let k : Nat := match e.kind with
    | .matrix => 0
    | .copy => 1
    | .gather => 2
    | .collective => 3
  (aget s.handlerBase (k * 4 + die)).map (fun b => (b + 64 * h, s.cohN (b + 64 * h) 8))
/-- Operand word k (R260): a pointer of the message, or the entry's default. -/
def State.operand (s : State) (m : InMsg) (entry k : Nat) : Word :=
  if k < m.msg.nptr.toNat then lget m.msg.ptrs k 0#64 else wd (s.cohN (entry + 8 + 8 * k) 8)
/-- The commands that an engine runs now. -/
def State.runsOf (s : State) (e : EngineId) : Nat := (s.runs.filter (fun r => r.eng == e)).length
/-- A code that R137 forbids to an engine. The collective engine is none of the queues of R137: every code but 0 is refused to it, with cause
0x0C9 (DEDUCED, log 63). -/
def badEngineCode (e : EngineId) (c : Nat) : Bool := c != 0 && (e.kind == .collective || badHandoff (engineCode e.kind) c)

/-- Steps 2 and 3 of R261, on the message alone. -/
def messageCause (e : EngineId) (msg : Message) : Option Nat :=
  if 6 < msg.nptr.toNat then some 0x0C4
  else if badEngineCode e msg.hpop.toNat || badEngineCode e msg.hpush.toNat then some 0x0C9 else none
/-- Steps 4 to 9 of R261, step 5 (BUSY) apart, for a command `opc` of N words whose entry begins with the word `h`. -/
def State.entryCause (s : State) (e : EngineId) (opc N : Nat) (m : InMsg) (h : Nat) : Option Nat :=
  if !bit h 63 then some 0x0C2
  else if bit h 62 then none
  else if bits h 31 0 != m.job then some 0x0C5
  else if bits h 55 48 != opc || opc == 0x17 then some 0x0C7
  else if N < m.msg.nptr.toNat then some 0x0C4
  else if (e.kind == .matrix || m.msg.hpop != 0#4 || m.msg.hpush != 0#4) && !s.claims m.cl m.unit then some 0x0C8 else none
/-- A message that has passed steps 2 to 9 meets steps 10 and 11 (R261): its pop, and its operand checks; then it takes effect. Default words
come from the entry as it is then (R260 does not say when they are read; DESIGN CHOICE, log 64). -/
def State.acceptMessage (s : State) (e : EngineId) (m : InMsg) (rest : List InMsg) (ea : Nat) (hw : Word)
    (body : State → InMsg → (Nat → Word) → CmdRes) : State :=
  let pop := m.msg.hpop != 0#4 && !m.popped
  let hold := s.setInbox e ({ m with checked := true, busySince := none } :: rest)
  if 8 ≤ s.runsOf e && e.kind != .matrix && e.kind != .collective then hold
  else if pop && !s.canPop m.cl m.msg.hpop.toNat (engineCode e.kind) then hold
  else
    let s0 := if pop then s.popHandoff m.cl m.msg.hpop.toNat (engineCode e.kind) else s
    let m1 := { m with popped := true, checked := true, busySince := none }
    let s1 := s0.setInbox e (m1 :: rest)
    match body s1 m1 (s1.operand m1 ea) with
    | .wait s2 => s2
    | .nack s2 c => (s2.setInbox e ((s2.inbox e).drop 1)).nack e m1 c hw
    | .fail s2 f a => (s2.setInbox e ((s2.inbox e).drop 1)).nackF e m1 f a
    | .done s2 => { s2.setInbox e ((s2.inbox e).drop 1) with runs := s2.runs ++ [{ m := m1, eng := e }] }
    | .run s2 p => { s2.setInbox e ((s2.inbox e).drop 1) with runs := s2.runs ++ [{ m := m1, eng := e, plan := p }] }
    | .taken s2 => s2.setInbox e ((s2.inbox e).drop 1)
/-- A command of N words at the head of its engine's inbox (R261): the steps in order, each once, and at the end its own effect. Its entry
is read when the hosts allow it (R117). A message of a unit whose drain has overrun stays as it is (R362). -/
def runCommand (opc N : Nat) (msg : Message) (s : State) (body : State → InMsg → (Nat → Word) → CmdRes) : State :=
  let e := s.curEng
  match s.inbox e with
  | [] => s
  | m :: rest =>
    if m.opc.toNat != opc || m.msg != msg || (engineOf opc m.cl) != some e then s
    else if (s.unit m.unit).isEnded then s.setInbox e rest
    else if (s.unit m.unit).overrun then s
    else
      let refuse (c : Nat) (w : Word) : State := (s.setInbox e rest).nack e m c w
      match (if m.checked then none else messageCause e msg), s.handlerEntry e msg.handler.toNat with
      | some c, _ => refuse c 0#64
      | none, none => refuse 0x0C2 0#64
      | none, some (ea, h) =>
        if !s.hostReady ea 64 false then s.sendSnoops ea 64 false
        else if m.checked then s.acceptMessage e m rest ea (wd h) body
        else if s.bad.contains (ea / 128) then (s.setInbox e rest).nackF e m ⟨0x160, 0#64, wd (ea / 128 * 128)⟩ m.addr
        else
          match s.entryCause e opc N m h with
          | some c => refuse c (wd h)
          | none =>
            if bit h 62 then
              (if m.busySince.isSome then s else s.setInbox e ({ m with busySince := some (s.die (dieOf m.cl)).cyc.toNat } :: rest))
            else s.acceptMessage e m rest ea (wd h) body

/-- HANDLER_BUSY_TIMEOUT (R261): a message held for 4096 clocks on a BUSY entry is NACKed. -/
def execHandlerBusyTimeout (s : State) : Host.Outcome State Fault Refusal :=
  nextS (match s.inbox s.ev.eng with
    | [] => s
    | m :: rest =>
      match m.busySince with
      | none => s
      | some c =>
        match s.handlerEntry s.ev.eng m.msg.handler.toNat with
        | none => s
        | some (ea, h) =>
          if !s.hostReady ea 64 false then s.sendSnoops ea 64 false
          else if bit h 62 && decide (4096 ≤ ((s.die (dieOf m.cl)).cyc - wd c).toNat) then
            (s.setInbox s.ev.eng rest).nack s.ev.eng m 0x0C3 (wd h)
          else s)

/-- A release by a unit at scope `sc` may be made by an engine in its name (R108, R110): what the unit wrote before has its write acks, and at
fabric and system scope is complete on every device. -/
def State.unitReleased (s : State) (uid sc : Nat) : Bool := (s.unit uid).storesAcked && (decide (sc < 3) || s.fabricReleased uid)
/-- A command has performed every access, here and on other devices, and its completion may act as a release at the scope of what it wrote
(R110, R262). That of a collective comes behind what is written for every participant on the device (R112). -/
def State.runDone (s : State) (r : Run) : Bool :=
  r.done && r.plan.isEmpty && !s.fyPending (fun w => w == (r.m.unit, r.m.id)) && s.unitReleased r.m.unit r.scope &&
    (r.eng.kind != .collective || !s.fyPending (fun w => s.runs.any (fun x => x.eng.kind == .collective && w == (x.m.unit, x.m.id))))
/-- Command `i` completes (R262): HPUSH, flags and reply. A full FIFO stalls it; a sender that has ended gets none of them (R264). -/
def State.completeRun (s : State) (i : Nat) : State :=
  match s.runs[i]? with
  | none => s
  | some r =>
    let c := r.m.msg.hpush.toNat
    let push := c != 0 && !(s.unit r.m.unit).isEnded
    if !s.runDone r || (push && !s.canPush r.m.cl (engineCode r.eng.kind) c) then s
    else
      let s1 := if push then s.pushHandoff r.m.cl (engineCode r.eng.kind) c else s
      (({ s1 with runs := ldel s1.runs i }).engineFlags r.m r.flags).sendReply r.eng r.m (replyPayload false r.m 0)
/-- ENGINE_REPLY (R262): a command whose accesses have performed completes. -/
def execEngineReply (s : State) : Host.Outcome State Fault Refusal := nextS (s.completeRun s.ev.i)

end Sys2Proof.Machine
end

