-- ==== Sys2Proof/Machine/Matrix.lean ====
section
/-! DEFINITION. The unit command context of the matrix engine (R130 to R133, R252 to R256, R265): what an operation of queue M
does when it issues, the matrix commands 0x10 to 0x16, and the events by which operations issue and retire. -/

namespace Sys2Proof.Machine

/-- What the issue of a matrix operation leads to: when it issues, its flags, the tiles that it writes when it completes (R130), and the
scope of the page that it has written. -/
inductive MatRes where
  | wait (s : State)
  | fault (s : State) (f : TFault)
  | ok (s : State) (flags : Nat) (fills : List (Nat × Tile) := []) (cim : Option (Nat × CimSlot) := none) (scope : Nat := 0)

/-- The power manager holds the matrix engines narrowed (R132, R385). -/
def State.narrowed (s : State) : Bool := s.pow.alarm
/-- A unit whose product runs narrowed: USTAT.NARROW (R132). -/
def State.noteNarrow (s : State) (uid : Nat) : State :=
  if s.narrowed then s.modUnit uid UnitSt.raiseNarrow else s
/-- b240 to b255 belong to tile tasks while the job shares its engines (R133). -/
def State.taskOwned (s : State) (job b : Nat) : Bool := (s.job job).tileShare && decide (240 ≤ b)

/-- The operands of one product, checked as at issue (R253 checks 4 and 5): a wait, a cause, or the two views. -/
inductive PairRes where
  | wait
  | bad (f : TFault)
  | ok (A B : XsView)
/-- A cause without a detail. -/
def cause (c : Nat) : TFault := ⟨c, 0#64, 0#64⟩
/-- A cause about the tag of an operand, with its detail (R59, R346). -/
def tagCause (c tag pos : Nat) : TFault := ⟨c, tagDetail tag pos, 0#64⟩
def Cluster.pair (c : Cluster) (a b fmt : Nat) (ae : Bool) : PairRes :=
  let ta := c.slot a
  let tb := (c.cimSlot b).tile
  if ta.tag = 0#4 || tb.tag = 0#4 then (if ae then .bad (cause 0x02B) else .wait)
  else if 8#4 ≤ ta.tag then .bad (tagCause 0x026 ta.tag.toNat 3)
  else if !(decide (ta.tag.toNat ≤ 3)) || (fmt != 0 && ta.tag.toNat != fmt) then .bad (tagCause 0x023 ta.tag.toNat 3)
  else if 8#4 ≤ tb.tag then .bad (tagCause 0x026 tb.tag.toNat 4)
  else if 4 < tb.tag.toNat then .bad (tagCause 0x024 tb.tag.toNat 4)
  else
    let A := viewTile ta.tag.toNat ta.img []
    if tb.tag.toNat = 4 then
      (match c.tableOf (imgCbid tb.img) with
       | none => .bad (cause 0x02F)
       | some tab => .ok A (viewTile 4 tb.img tab))
    else .ok A (viewTile tb.tag.toNat tb.img [])

/-- Products i = 0 to n − 1 of m(a + i) by b(b + i) into an accumulator; the first under `sub`, the rest accumulate (R265). -/
def Cluster.chain (c : Cluster) (a b fmt : Nat) (ae : Bool) : Nat → Nat → Acc → Except (Option TFault) Acc
  | 0, _, acc => .ok acc
  | n + 1, sub, acc =>
    match c.pair a b fmt ae with
    | .wait => .error none
    | .bad k => .error (some k)
    | .ok A B =>
      match mmulAcc sub A B acc with
      | .error k => .error (some (cause k))
      | .ok acc1 => Cluster.chain c (a + 1) (b + 1) fmt ae n 1 acc1
/-- MMUL and MACC (R73, R253, R265). A slot that is still to be filled is waited for before any cause is found. -/
def State.issueProducts (s : State) (cl uid acc a b fmt n sub : Nat) (ae : Bool) : MatRes :=
  let c := s.cluster cl
  let someEmpty := (upFrom 0 n).any (fun i => (c.slot (a + i)).tag == 0#4 || (c.cimSlot (b + i)).tile.tag == 0#4)
  if someEmpty && !ae then .wait s
  else
    match c.chain a b fmt ae n sub (c.accOf acc) with
    | .error none => .wait s
    | .error (some f) => .fault s f
    | .ok x => .ok (((s.count (9 + dieOf cl) n).modCluster cl (fun c => c.setAcc acc x)).noteNarrow uid) 0

/-- The parameters of a drain (R74, R252, R254). -/
structure Drain where
  sub : Nat
  acc : Nat
  slot : Nat
  fmt : Nat
  mode : Nat
  fzo : Bool
  sat : Bool
  clr : Bool
/-- The image of a drain and its flags. -/
def Drain.image (d : Drain) (a : Acc) : Nat × List Byte × Nat :=
  if d.sub = 2 then let r := quantise d.fmt (accValues a); (d.fmt, r.1, r.2)
  else let r := drainF32 d.mode d.fzo d.sat a; (7, r.1, r.2)
/-- Tile slots that an operation writes are empty from its issue to its completion (R130). -/
def State.emptySlots (s : State) (cl : Nat) (ks : List Nat) : State :=
  s.modCluster cl (fun c => ks.foldl (fun c k => c.setSlot k {}) c)
/-- The scope of the page of `va`, whatever it permits. -/
def State.scopeAt (s : State) (cl job va : Nat) : Nat :=
  match (translate s cl job va .fence 4).2 with
  | .ok _ _ sc => sc
  | _ => 0
/-- MDRN (R254): the tile or the image in memory; an enabled trap stops it before any write. `who` is the unit, and the entry or command. -/
def State.issueDrain (s : State) (cl : Nat) (who : Nat × Nat) (job va : Nat) (d : Drain) (traps : Nat) (code : Nat) : MatRes :=
  let clear (s : State) : State := if d.clr then s.modCluster cl (fun c => c.setAcc d.acc (zeroAcc (c.accOf d.acc))) else s
  if d.sub = 3 then .ok (s.modCluster cl (fun c => c.setAcc d.acc (zeroAcc (c.accOf d.acc)))) 0
  else
    let r := d.image ((s.cluster cl).accOf d.acc)
    match trapFlag traps r.2.2 with
    | some f => .fault (s.modUnit who.1 (fun u => u.raiseFlags r.2.2)) (cause (0x040 + f))
    | none =>
      if d.sub = 1 then
        (if va % 4096 != 0 then .fault s ⟨0x061, 0#64, 0#64⟩
         else
           match writeG s who cl job va r.2.1 .store code with
           | (s1, none) => .ok (clear s1) r.2.2 [] none (s1.scopeAt cl job va)
           | (s1, some (.fault f)) => .fault s1 f
           | (s1, some _) => .wait s1)
      else .ok (clear (s.emptySlots cl [d.slot])) r.2.2 [(d.slot, ⟨BitVec.ofNat 4 r.1, r.2.1⟩)]

/-- MBLD (R255): the image of a CIM slot from G space or the weight store. -/
def State.issueLoad (s : State) (cl job : Nat) (wsp : Bool) (a : Word) (slot fmt code : Nat) : MatRes :=
  let put (s : State) (tag : Nat) (img : List Byte) (src : Word) : MatRes :=
    .ok (s.modCluster cl (fun c => { c with cim := adel c.cim slot })) 0 [] (some (slot, { tile := ⟨BitVec.ofNat 4 tag, img⟩, src := src, fmt := fmt }))
  if wsp then
    let wa := a.toNat
    if 2 ^ 30 ≤ wa then .fault s ⟨0x063, 0#64, 0#64⟩
    else if (s.die (wa / 2 ^ 28)).wsJob != some job then .fault s ⟨0x064, 0#64, 0#64⟩
    else if !(s.die (wa / 2 ^ 28)).run || !s.refreshedRange wa (s.imageLenW wa fmt) then .wait s
    else
      match s.readImageW wa fmt with
      | .ok tag img => put s tag img (wd (2 * 2 ^ 62 + wa))
      | .fault f => .fault s f
      | .wait => .wait s
  else
    let va := a.toNat % 2 ^ 56
    match s.readImage cl job va fmt .tileLoad code with
    | (s1, .ok tag img) => put s1 tag img (wd va)
    | (s1, .fault f) => .fault s1 f
    | (s1, .wait) => .wait s1

/-- One tile of MQNT (R209): a cause, or the tile and its flags. -/
def quantTile (qtag : Nat) (fzi : Bool) (t : Tile) : Except TFault (Tile × Nat) :=
  if 8#4 ≤ t.tag then .error (tagCause 0x026 t.tag.toNat 3)
  else if t.tag.toNat < 5 then .error (tagCause 0x023 t.tag.toNat 3)
  else let r := quantise qtag (rawValues t.tag.toNat fzi t.img); .ok (⟨BitVec.ofNat 4 qtag, r.1⟩, r.2)
/-- MQNT over n slot pairs: the tiles to write, and the flags. -/
def Cluster.quantPairs (c : Cluster) (qtag : Nat) (fzi : Bool) : Nat → Nat → Nat → Except TFault (List (Nat × Tile) × Nat)
  | 0, _, _ => .ok ([], 0)
  | n + 1, src, dst =>
    match quantTile qtag fzi (c.slot src) with
    | .error k => .error k
    | .ok (t, f) => (Cluster.quantPairs c qtag fzi n (src + 1) (dst + 1)).map (fun r => ((dst, t) :: r.1, f ||| r.2))
/-- Two groups of n tiles from slots a and b: disjoint, identical, or neither (R267). -/
def groupsOk (a b n : Nat) : Bool := a == b || !overlap a n b n

/-- MCBT (R71): the table and the flags of its held form. -/
def State.issueTable (s : State) (cl job : Nat) (w0 w1 : Word) : MatRes :=
  let id := w1.toNat % 65536
  let t := wbits w1 18 16
  let va := w0.toNat % 2 ^ 56
  if (s.cluster cl).tables.any (fun p => p.1 != t && p.2.cbid.toNat == id) then .fault s ⟨0x0CA, 0#64, 0#64⟩
  else if va % 2 != 0 then .fault s ⟨0x060, 0#64, 0#64⟩
  else
    match s.probe cl job (probesOf va 32 .load) with
    | (s1, some (.fault f)) => .fault s1 f
    | (s1, some _) => .wait s1
    | (s1, none) =>
      let r := s1.readRange cl job va 32
      let es := (unpackCodes 16 16 (leNat r.2))
      .ok (r.1.modCluster cl (fun c => { c with tables := aset c.tables t { entries := es.map (BitVec.ofNat 16), cbid := BitVec.ofNat 16 id, src := w0 } }))
        (heldTable es).2

/-! ### Issue -/

/-- Fields of a matrix word for a drain (R252). -/
def drainOf (w : PeWord) (rm : BitVec 3) : Drain :=
  let m := matWord w
  { sub := w.sub.toNat, acc := taOf w % 8, slot := tdOf w, fmt := w.fmt.toNat, mode := (roundMode (BitVec.ofNat 3 (m / 256)) rm).getD 0
    fzo := bit m 11, sat := bit m 12, clr := bit m 13 }
/-- Fields of CMD_MDRN (R265). -/
def drainOfCmd (v : Word) (rm : BitVec 3) : Drain :=
  { sub := wbits v 5 4, acc := wbits v 2 0, slot := wbits v 11 8, fmt := wbits v 15 12
    mode := (roundMode (BitVec.ofNat 3 (wbits v 18 16)) rm).getD 0, fzo := v.getLsbD 19, sat := v.getLsbD 20, clr := v.getLsbD 21 }

/-- The unit and the number under which an operation's accesses to other devices are tracked. -/
def MatOp.who (o : MatOp) : Nat × Nat := (o.unit, match o.msg with
  | some m => m.id
  | none => o.sbId)
/-- A memory-class operation may perform (R103 to R109): its entry's order in the store buffer allows it, and no pending store holds bytes
that it reads. -/
def UnitSt.matMay (u : UnitSt) (o : MatOp) : Bool :=
  match (if o.sbId = 0 then none else u.entry? o.sbId) with
  | none => true
  | some e => u.mayPerform e && (match (if e.loads then u.forward e else .none) with
    | .none => true
    | _ => false)
/-- What an operation of queue M does at its issue. Rounding mode and trap enables are those of its firing or its repetition by ERET (R164), or
of its SEND (R61, R198); a command never traps on a flag (R262). -/
def State.issueMat (s : State) (cl : Nat) (o : MatOp) : MatRes :=
  let u := s.unit o.unit
  if !u.matMay o then .wait s
  else
  match o.opc.toNat with
  | 0x72 => s.issueProducts cl o.unit (tdOf o.w) (taOf o.w) (tbOf o.w) o.w.fmt.toNat 1 o.w.sub.toNat (aeOf o.w)
  | 0x73 =>
    if o.w.sub.toNat ≤ 1 && (roundMode (BitVec.ofNat 3 (matWord o.w / 256)) o.rm).isNone then .fault s (cause 0x001)
    else s.issueDrain cl o.who u.job (o.a.toNat % 2 ^ 56) (drainOf o.w o.rm) o.uctl.toNat 1
  | 0x7D => s.issueLoad cl u.job o.wspace o.a (tbOf o.w) o.w.fmt.toNat 0
  | 0x10 => s.issueLoad cl u.job (wbits o.a 63 62 == 2) (wd (o.a.toNat % 2 ^ 56)) (wbits o.b 7 0) (wbits o.b 11 8) 4
  | 0x11 => s.issueProducts cl o.unit (wbits o.a 2 0) (wbits o.a 7 4) (wbits o.a 15 8) 0 1 (wbits o.a 17 16) (o.a.getLsbD 18)
  | 0x12 => s.issueProducts cl o.unit (wbits o.a 2 0) (wbits o.a 7 4) (wbits o.a 15 8) 0 (wbits o.a 23 20 + 1) (wbits o.a 17 16) (o.a.getLsbD 18)
  | 0x13 => s.issueDrain cl o.who u.job (o.b.toNat % 2 ^ 56) (drainOfCmd o.a o.rm) 0 4
  | 0x14 =>
    let n := wbits o.a 15 12 + 1
    let src := wbits o.a 7 4
    let dst := wbits o.a 3 0
    if !groupsOk src dst n then .fault s ⟨0x02E, 0#64, 0#64⟩
    else if (upFrom src n).any (fun k => ((s.cluster cl).slot k).tag == 0#4) then .wait s
    else
      match (s.cluster cl).quantPairs (wbits o.a 11 8) (o.a.getLsbD 16) n src dst with
      | .error f => .fault s f
      | .ok (ts, fl) => .ok (s.emptySlots cl (ts.map Prod.fst)) fl ts
  | 0x15 => .ok ((upFrom 0 8).foldl (fun s a => if o.a.getLsbD a then s.modCluster cl (fun c => c.setAcc a (zeroAcc (c.accOf a))) else s) s) 0
  | _ => s.issueTable cl u.job o.a o.b

/-- HPOP of an operation fired on a PE (R252); a command has popped when it was accepted. -/
def MatOp.hpop (o : MatOp) : Nat := if o.msg.isSome || o.popped then 0 else matWord o.w % 16
def MatOp.hpush (o : MatOp) : Nat := if o.msg.isSome then 0 else matWord o.w / 16 % 16
/-- A cluster that the debugger has halted for a job: its sequencer and engines issue nothing new (R367). -/
def State.clusterHalted (s : State) (cl job : Nat) : Bool := (s.job job).haltCl.contains cl
/-- The operation at place `i` of queue M changed. -/
def State.modMq (s : State) (cl i : Nat) (f : MatOp → MatOp) : State := s.modCluster cl (fun c => { c with mq := lmod c.mq i f })

/-- Two operations reach the engine in their order: firings of one PE, or two commands. The order of firings from different PEs is private
to the hardware (R256); the event chooses it. -/
def MatOp.sameSource (o x : MatOp) : Bool :=
  o.msg.isSome == x.msg.isSome && (o.msg.isSome || (o.site.cl == x.site.cl && o.site.x == x.site.x && o.site.y == x.site.y))
/-- An operation of queue M may issue by its unit's status: a firing while the unit fires; a command, and an operation that has left the
store buffer, while what has issued completes (R353). -/
def MatOp.mayGo (o : MatOp) (u : UnitSt) : Bool := u.fires || (u.completes && (o.msg.isSome || o.sbId != 0))
/-- MATRIX_ISSUE (R252, R256): an operation of queue M that has not issued and is not held by a fault issues, and performs, once those of
its source before it have issued. -/
def execMatrixIssue (s : State) : Host.Outcome State Fault Refusal :=
  nextS (
    let cl := s.ev.cl
    let q := (s.cluster cl).mq
    match q[s.ev.i]? with
    | none => s
    | some o =>
      let u := s.unit o.unit
      if o.issued || o.held || (q.take s.ev.i).any (fun x => !x.issued && !x.held && o.sameSource x) || !o.mayGo u || (s.clusterHalted cl u.job && !u.isDraining) then s
      else if o.hpop != 0 && !s.canPop cl o.hpop 3 then s
      else
        let s1 := if o.hpop != 0 then (s.popHandoff cl o.hpop 3).modMq cl s.ev.i (fun x => { x with popped := true }) else s
        match s1.issueMat cl o with
        | .wait s2 => s2
        | .ok s2 fl fs cim sc => ((if o.msg.isSome then s2 else s2.modUnit o.unit (fun u => u.raiseFlags fl)).progress o.unit).modMq cl s.ev.i
            (fun x => { x with issued := true, flags := fl, fills := fs, cimFill := cim, scope := sc })
        | .fault s2 f =>
          match o.msg with
          | some m =>
            (s2.modCluster cl (fun c => { c with mq := ldel c.mq s.ev.i })).nackF ⟨.matrix, cl⟩ m f m.addr
          | none =>
            (s2.modMq cl s.ev.i (fun x => { x with held := true })).takeFault o.unit (some (u.keyOf o.site))
              { cause := f.cause, addr := if o.sbId = 0 then 0#64 else o.a, tag := o.tok, d0 := f.d0, d1 := f.d1, mat := o.id })

/-- The tiles of an operation are written: their slots are full (R130). -/
def State.fillSlots (s : State) (cl i : Nat) (o : MatOp) : State :=
  (s.modCluster cl (fun c =>
    let c1 := o.fills.foldl (fun c p => c.setSlot p.1 p.2) c
    { c1 with cim := (match o.cimFill with
      | some p => aset c1.cim p.1 p.2
      | none => c1.cim) })).modMq cl i (fun x => { x with fills := [], cimFill := none })
/-- An issued operation of queue M completes and retires: its tiles, in issue order; then, once what it wrote on other devices is complete
and its FIFO has room, its HPUSH, and its completion token or its completion (R111, R252, R262). -/
def State.retireMat (s : State) (cl i : Nat) : State :=
  match (s.cluster cl).mq[i]? with
  | none => s
  | some o =>
    if !o.issued || ((s.cluster cl).mq.take i).any (fun x => !x.fills.isEmpty || x.cimFill.isSome) then s
    else
      let s0 := s.fillSlots cl i o
      if (o.hpush != 0 && !s0.canPush cl 3 o.hpush) || s0.fyPending (fun w => w == o.who && w.2 != 0) then s0
      else
        let s1 := if o.hpush != 0 then s0.pushHandoff cl 3 o.hpush else s0
        let s2 := (s1.modCluster cl (fun c => { c with mq := ldel c.mq i })).progress o.unit
        match o.msg with
        | some m => { s2 with runs := s2.runs ++ [{ m := m, eng := ⟨.matrix, cl⟩, flags := o.flags, scope := o.scope }] }
        | none =>
          if o.sbId != 0 then s2.retire o.unit o.sbId
          else s2.resolveOut o.unit ((s2.unit o.unit).keyOf o.site) o.id (some { o.tok with payload := 0#64, fmt := 1#4 })
/-- MATRIX_RETIRE (R252, R262). -/
def execMatrixRetire (s : State) : Host.Outcome State Fault Refusal := nextS (s.retireMat s.ev.cl s.ev.i)
/-- HANDOFF_PUSH (R111, R137, R138): a retiring matrix operation (flag), or a completing engine command, pushes its count as soon as its
FIFO has room: it retires, or completes, with the push. -/
def execHandoffPush (s : State) : Host.Outcome State Fault Refusal :=
  nextS (if s.ev.flag then s.retireMat s.ev.cl s.ev.i else s.completeRun s.ev.i)

/-! ### The matrix commands (R265) -/

/-- An address word of one of the spaces in `sp` (bit k for space k), with its zero bits (R263). -/
def addrOk (sp : Nat) (w : Word) : Bool := sp.testBit (wbits w 63 62) && wbits w 61 56 == 0 && (wbits w 63 62 != 3 || wbits w 55 4 == 0)
/-- A command joins queue M. -/
def State.queueMat (s : State) (m : InMsg) (w0 w1 : Word) : CmdRes :=
  let o : MatOp := { opc := m.opc, w := ⟨0, 0, 0, 0, 0, 0, 0, 0, false, 0, 0⟩, msg := some m, unit := m.unit,
                     site := ⟨m.cl, 0, 0, m.ctx⟩, tok := m.tag, a := w0, b := w1, popped := true, rm := m.rm }
  .taken (s.modCluster m.cl (fun c => { c with mq := c.mq ++ [o] }))

/-- MBLD (0x10). -/
def execCmdMbld (m : Message) (s : State) : Host.Outcome State Fault Refusal :=
  nextS (runCommand 0x10 2 m s (fun s im w =>
    if !addrOk 0b101 (w 0) || wbits (w 1) 63 12 != 0 || 4 < wbits (w 1) 11 8 then .nack s 0x0CA
    else if s.taskOwned im.job (wbits (w 1) 7 0) then .nack s 0x02A
    else s.queueMat im (w 0) (w 1)))
/-- MMUL (0x11). -/
def execCmdMmul (m : Message) (s : State) : Host.Outcome State Fault Refusal :=
  nextS (runCommand 0x11 1 m s (fun s im w =>
    let v := w 0
    if v.getLsbD 3 || wbits v 63 19 != 0 || wbits v 17 16 == 3 then .nack s 0x0CA
    else if !(s.cluster im.cl).slotBank (wbits v 7 4) then .nack s 0x029
    else if s.taskOwned im.job (wbits v 15 8) then .nack s 0x02A
    else s.queueMat im v 0#64))
/-- MACC (0x12). -/
def execMacc (m : Message) (s : State) : Host.Outcome State Fault Refusal :=
  nextS (runCommand 0x12 1 m s (fun s im w =>
    let v := w 0
    let n := wbits v 23 20
    if v.getLsbD 3 || v.getLsbD 19 || wbits v 63 24 != 0 || wbits v 17 16 == 3 || 15 < wbits v 7 4 + n || 255 < wbits v 15 8 + n then .nack s 0x0CA
    else if !((upFrom (wbits v 7 4) (n + 1)).all (fun k => (s.cluster im.cl).slotBank k)) then .nack s 0x029
    else if s.taskOwned im.job (wbits v 15 8 + n) then .nack s 0x02A
    else s.queueMat im v 0#64))
/-- MDRN (0x13). -/
def execCmdMdrn (m : Message) (s : State) : Host.Outcome State Fault Refusal :=
  nextS (runCommand 0x13 2 m s (fun s im w =>
    let v := w 0
    let sub := wbits v 5 4
    let fmt := wbits v 15 12
    if v.getLsbD 3 || wbits v 7 6 != 0 || wbits v 63 22 != 0 then .nack s 0x0CA
    else if !tFmtOk 0x73 sub fmt then .nack s 0x004
    else if sub ≤ 1 && (roundMode (BitVec.ofNat 3 (wbits v 18 16)) im.rm).isNone then .nack s 0x001
    else if sub = 1 && !addrOk 0b1 (w 1) then .nack s 0x0CA
    else if (sub = 0 || sub = 2) && !(s.cluster im.cl).slotBank (wbits v 11 8) then .nack s 0x029
    else if sub = 1 && (w 1).toNat % 4096 != 0 then .nack s 0x061
    else s.queueMat im v (w 1)))
/-- MQNT (0x14). -/
def execMqnt (m : Message) (s : State) : Host.Outcome State Fault Refusal :=
  nextS (runCommand 0x14 1 m s (fun s im w =>
    let v := w 0
    let n := wbits v 15 12
    if wbits v 63 17 != 0 || 15 < wbits v 3 0 + n || 15 < wbits v 7 4 + n then .nack s 0x0CA
    else if !((upFrom (wbits v 3 0) (n + 1) ++ upFrom (wbits v 7 4) (n + 1)).all (fun k => (s.cluster im.cl).slotBank k)) then .nack s 0x029
    else if wbits v 11 8 < 1 || 3 < wbits v 11 8 then .fail s (tagCause 0x025 (wbits v 11 8) 5) im.addr
    else s.queueMat im v 0#64))
/-- MZER (0x15). -/
def execMzer (m : Message) (s : State) : Host.Outcome State Fault Refusal :=
  nextS (runCommand 0x15 1 m s (fun s im w => if wbits (w 0) 63 8 != 0 then .nack s 0x0CA else s.queueMat im (w 0) 0#64))
/-- MCBT (0x16). -/
def execMcbt (m : Message) (s : State) : Host.Outcome State Fault Refusal :=
  nextS (runCommand 0x16 2 m s (fun s im w =>
    if !addrOk 0b1 (w 0) || wbits (w 1) 63 19 != 0 then .nack s 0x0CA else s.queueMat im (w 0) (w 1)))
/-- MGRP (0x17) as a message is refused: its entry check of step 7 (R261). Its work is that of a tile-task record (R270 to R272). -/
def execMgrp (m : Message) (s : State) : Host.Outcome State Fault Refusal :=
  nextS (runCommand 0x17 4 m s (fun s _ _ => .nack s 0x0C7))

end Sys2Proof.Machine
end

