-- ==== Sys2Proof/Machine/Copy.lean ====
section
/-! DEFINITION. The copy and gather commands (R135, R263, R266 to R268): accesses to the G, L, W and T spaces, all checked before any
byte moves, and the effects of the commands. -/

namespace Sys2Proof.Machine

/-! ### Accesses by space -/

/-- Space, and address within it, of an address word (R263). -/
def spaceOf (w : Word) : Nat := wbits w 63 62
def addrOf (w : Word) : Nat := wbits w 55 0
/-- One access that a command will make. -/
structure SAcc where
  sp : Nat
  a : Nat
  n : Nat
  k : Acc5

/-- Every byte of an L-space range has a place (R126). -/
def State.lRange (s : State) (m : InMsg) (a n : Nat) : Option Nat :=
  if n = 0 then none
  else
    match lspace (s.cluster m.cl) m.cl m.swz.toNat a, lspace (s.cluster m.cl) m.cl m.swz.toNat (a + n - 1) with
    | .error c, _ => some c
    | _, .error c => some c
    | _, _ => none
/-- Whether accesses may all be made now: the first fault with its address, a wait, or none (R261). -/
def State.checkAll (s : State) (m : InMsg) : List SAcc → State × Option (TrRes × Nat)
  | [] => (s, none)
  | x :: r =>
    if x.sp = 1 then
      (match s.lRange m x.a x.n with
       | some c => (s, some (.fault ⟨c, 0#64, 0#64⟩, x.a))
       | none => State.checkAll s m r)
    else
      match s.probe m.cl m.job ((cuts x.a x.n).map (fun p => { va := p.1, n := p.2, k := x.k })) with
      | (s1, none) => State.checkAll s1 m r
      | (s1, some e) => (s1, some (e, x.a))
/-- Bytes of the L space. -/
def State.readL (s : State) (m : InMsg) (a : Nat) : Nat → List Byte
  | 0 => []
  | n + 1 =>
    (match lspace (s.cluster m.cl) m.cl m.swz.toNat a with
     | .ok x => s.lsm.rd x
     | .error _ => Config.unlistedByte) :: State.readL s m (a + 1) n
def State.writeL (s : State) (m : InMsg) (a : Nat) : List Byte → State
  | [] => s
  | b :: r =>
    match lspace (s.cluster m.cl) m.cl m.swz.toNat a with
    | .ok x => State.writeL { s with lsm := s.lsm.wr x b } m (a + 1) r
    | .error _ => State.writeL s m (a + 1) r
/-- A range of the G or L space, which `checkAll` has found accessible. -/
def State.readS (s : State) (m : InMsg) (sp a n : Nat) : State × List Byte :=
  if sp = 1 then (s, s.readL m a n) else s.readRange m.cl m.job a n
/-- A command whose accesses are all possible now is accepted, with what it has to do (R261). -/
def accept (s : State) (m : InMsg) (l : List SAcc) (plan : List EngAcc) : CmdRes :=
  match s.checkAll m l with
  | (s1, none) => .run s1 plan
  | (s1, some (.fault f, a)) => .fail s1 f a
  | (s1, some _) => .wait s1

/-! ### Performing (R98, R110, R263, R264) -/

/-- Bytes from `a` of space `ss` to `d` of space `ds`, in parts that each lie in one aligned 8-byte unit of the source and in one of the
destination (R98). -/
def byteParts (ss a ds d n : Nat) : List EngAcc :=
  if n = 0 then []
  else (upFrom (d / 8) ((d + n - 1) / 8 + 1 - d / 8)).flatMap (fun k =>
    let lo := Nat.max d (8 * k)
    let m := Nat.min (d + n) (8 * k + 8) - lo
    let x := a + (lo - d)
    let one (x y n : Nat) : EngAcc := { ss := ss, a := x % 2 ^ 56, ds := ds, d := y % 2 ^ 56, n := n }
    let r := 8 - x % 8
    if m ≤ r then [one x lo m] else [one x lo r, one (x + r) (lo + r) (m - r)])
/-- Run `i` changed. -/
def State.modRun (s : State) (i : Nat) (f : Run → Run) : State := { s with runs := lmod s.runs i f }
/-- A command ends with a cause that one of its accesses meets after it was accepted; what it has performed stands (DEDUCED, log 56). -/
def State.failRun (s : State) (i : Nat) (r : Run) (f : TFault) (a : Nat) : State := ({ s with runs := ldel s.runs i } : State).nackF r.eng r.m f a
/-- A part has been read. -/
def EngAcc.read (p : EngAcc) : Bool := p.got.length == p.n
/-- The aligned 8-byte unit of the source that holds a part is read, for every part of the command in it at once (R98). -/
def State.loadPart (s : State) (i : Nat) (r : Run) (p : EngAcc) : State :=
  let here (q : EngAcc) : Bool := !q.tile && !q.read && q.ss == p.ss && q.a / 8 == p.a / 8
  let ps := r.plan.filter here
  let lo := (ps.map EngAcc.a).foldl Nat.min p.a
  let n := (ps.map (fun q => q.a + q.n)).foldl Nat.max 0 - lo
  let got (s : State) (b : List Byte) : State :=
    s.modRun i (fun r => { r with plan := r.plan.map (fun q => if here q then { q with got := (b.drop (q.a - lo)).take q.n } else q) })
  if p.ss = 1 then got s (s.readL r.m lo n)
  else
    match readG s r.m.cl r.m.job lo n .load 4 with
    | (s1, .ok b) => got s1 b
    | (s1, .error (.fault f)) => s1.failRun i r f lo
    | (s1, .error _) => s1
/-- Two parts go to one aligned 8-byte unit. -/
def EngAcc.sameUnit (p q : EngAcc) : Bool := !q.tile && q.ds == p.ds && q.d / 8 == p.d / 8
/-- The parts that are stored with part `p`: those that go to its aligned 8-byte unit, which are written together (R94, R98), in the order of
the list (R268), and, as part of the same write event, those of further units of its line that `ks` names and that have been read. -/
def Run.group (r : Run) (p : EngAcc) (ks : List Nat) : List Nat :=
  (upFrom 0 r.plan.length).filter (fun j =>
    match r.plan[j]? with
    | none => false
    | some q => p.sameUnit q ||
      (!q.tile && q.ds == p.ds && q.d / 128 == p.d / 128 && ks.any (fun k => r.plan[k]?.any q.sameUnit) && r.plan.all (fun x => !q.sameUnit x || x.read)))
/-- The parts `js` have been performed. -/
def Run.did (r : Run) (js : List Nat) (sc : Nat) : Run :=
  let gone := js.filterMap (fun j => r.plan[j]?)
  let rest := ((upFrom 0 r.plan.length).zip r.plan).filter (fun x => !js.contains x.1)
  { r with plan := rest.map Prod.snd, scope := Nat.max r.scope sc
           m := { r.m with at_ := r.m.at_ + (if r.m.opc.toNat < 0x24 then (gone.map EngAcc.n).foldl (· + ·) 0 else gone.length) } }
/-- What parts leave in their line, by offset from `lo`: the last bytes written, or the sum of what is added (R114, R268). -/
def lineParts (lo : Nat) (ps : List EngAcc) : List (Nat × List Byte) :=
  ps.foldl (fun l p => let o := p.d - lo
    aset l o (if p.add then leBytes p.n ((leNat (agetD l o []) + leNat p.got) % 256 ^ p.n) else p.got)) []
/-- Run `i` has met a scope record that does not match its access at `va` (R97). -/
def State.runScope (s : State) (m : InMsg) (va sc : Nat) (rec0 : Option (Nat × Nat)) : State :=
  if (scopeCheck rec0 sc m.cl).2 then s.engineRecord m ⟨0x06C, scopeDetail rec0 sc, 0#64⟩ va else s
/-- Parts of one line of the G space stored as one write event, or added as one AMO without result (R94, R97, R113): at the home, or by the
device that owns the line. -/
def State.storeLine (s : State) (i : Nat) (m : InMsg) (add : Bool) (ps : List EngAcc) : State × Except TrRes Nat :=
  let lo := (ps.map EngAcc.d).foldl Nat.min (2 ^ 56)
  let n := (ps.map (fun p => p.d + p.n)).foldl Nat.max 0 - lo
  let parts := lineParts lo ps
  match translateReady s m.cl m.job lo n (if add then .atomic else .store) 4 with
  | (s1, .ok xa _ sc) =>
    if isFabXa xa then
      let s2 : State := { s1 with fyL2 := adel s1.fyL2 (xa / 128) }
      if add then
        ((s2.modRun i (fun r => { r with asks := r.asks ++ [(s2.fyTag, lo, sc)] })).fyRequest xa (m.unit, m.id)
          (fun t => .memSync (xa % 2 ^ 40) n (.adds parts) sc 0#64 0#64 t), .ok sc)
      else (s2.fyRequest xa (m.unit, m.id) (fun t => .memParts (xa % 2 ^ 40) parts t), .ok sc)
    else if !add then (s1.homeParts xa false parts, .ok sc)
    else
      match badLine s1 xa n with
      | some f => (s1, .error (.fault f))
      | none =>
        let rec0 := (s1.dirOf (xa / 128)).scopeRec
        (((s1.homeParts xa true parts).modDir (xa / 128) (fun d => { d with scopeRec := some (sc, domainOf sc m.cl) })).runScope m lo sc rec0, .ok sc)
  | (s1, r) => (s1, .error r)
/-- Another device has answered the add that a command asked for under `tag`: with the scope record that it found, or with the address of a
line that fails its check (R97, R369). -/
def State.runAnswered (s : State) (who : Nat × Nat) (tag : Nat) (x : Except Nat (Option (Nat × Nat))) : State :=
  match lfind (fun (r : Run) => (r.m.unit, r.m.id) == who) s.runs with
  | none => s
  | some i =>
    match s.runs[i]? with
    | none => s
    | some r =>
      match r.asks.find? (fun a => a.1 == tag), x with
      | none, _ => s
      | some (_, va, _), .error pa => s.failRun i r ⟨0x160, 0#64, wd pa⟩ va
      | some (_, va, sc), .ok rec0 => (s.modRun i (fun r => { r with asks := r.asks.filter (fun a => a.1 != tag) })).runScope r.m va sc rec0
/-- The parts `js` of run `i`, which have been read, are written. -/
def State.storeGroup (s : State) (i : Nat) (r : Run) (p : EngAcc) (js : List Nat) : State :=
  let ps := js.filterMap (fun j => r.plan[j]?)
  let fin (x : State × Except TrRes Nat) : State :=
    match x with
    | (s1, .ok sc) => s1.modRun i (fun r => r.did js sc)
    | (s1, .error (.fault f)) => s1.failRun i r f p.d
    | (s1, .error _) => s1
  if p.ds = 2 then
    (if ps.all (fun q => s.refreshedRange q.d q.n) then fin (ps.foldl (fun s q => ({ s with wst := s.wst.wrBytes q.d q.got } : State)) s, .ok 0) else s)
  else if p.ds = 1 then
    fin (ps.foldl (fun s q => s.writeL r.m q.d (if q.add then leBytes q.n ((leNat (s.readL r.m q.d q.n) + leNat q.got) % 2 ^ (8 * q.n)) else q.got)) s, .ok 0)
  else fin (s.storeLine i r.m p.add ps)
/-- An image is captured whole, or delivered whole to its place (R98, R267). -/
def State.moveImage (s : State) (i k : Nat) (r : Run) (p : EngAcc) : State :=
  let m := r.m
  if p.fmt = 0 then
    match s.readImage m.cl m.job p.a 0 .tileLoad 4 with
    | (s1, .ok tag img) => s1.modRun i (fun r => { r with plan := lmod r.plan k (fun x => { x with fmt := tag, got := img }) })
    | (s1, .fault f) => s1.failRun i r f p.a
    | (s1, .wait) => s1
  else
    let img := if p.tr then transposeTile p.fmt p.got else p.got
    if p.ds = 3 then (s.modCluster m.cl (fun c => c.setSlot p.d ⟨BitVec.ofNat 4 p.fmt, img⟩)).modRun i (fun r => r.did [k] 0)
    else if p.d % 128 != 0 || 4096 < p.d % 4096 + imageLen p.fmt then s.failRun i r ⟨0x061, 0#64, 0#64⟩ p.d
    else
      match writeG s (m.unit, m.id) m.cl m.job p.d (storedImage p.fmt img) .tileStore 4 with
      | (s1, none) => s1.modRun i (fun r => r.did [k] (s1.scopeAt m.cl m.job p.d))
      | (s1, some (.fault f)) => s1.failRun i r f p.d
      | (s1, some _) => s1
/-- An engine performs accesses of its command `i`: the read of the part that `ks` names first, or of one that goes to the same aligned 8-byte
unit, or the store of those parts with others that `ks` names. Which parts a turn names is left open: accesses of one command, and of different
commands, are unordered (R110, R263). A command whose sender's drain has overrun makes none (R362). -/
def State.performAccess (s : State) (i : Nat) (ks : List Nat) : State :=
  match s.runs[i]?, ks.head? with
  | some r, some k =>
    match r.plan[k]? with
    | none => s
    | some p =>
      if (s.unit r.m.unit).overrun then s
      else if p.tile then s.moveImage i k r p
      else
        match r.plan.find? (fun q => p.sameUnit q && !q.read) with
        | some q => s.loadPart i r (if p.read then q else p)
        | none => s.storeGroup i r p (r.group p ks)
  | _, _ => s

/-! ### CPY, CPY2D, FILL, WSFL (R266) -/

/-- CPY (0x20). -/
def execCpy (m : Message) (s : State) : Host.Outcome State Fault Refusal :=
  nextS (runCommand 0x20 3 m s (fun s im w =>
    let n := wbits (w 2) 31 0
    let ds := spaceOf (w 0)
    let ss := spaceOf (w 1)
    let d := addrOf (w 0)
    let a := addrOf (w 1)
    if !addrOk 0b11 (w 0) || !addrOk 0b11 (w 1) || wbits (w 2) 63 32 != 0 then .nack s 0x0CA
    else if n = 0 then .done s
    else if ds == ss && overlap d n a n then .nack s 0x0CA
    else accept s im [⟨ss, a, n, .load⟩, ⟨ds, d, n, .store⟩] (byteParts ss a ds d n)))
/-- CPY2D (0x21). -/
def execCpy2d (m : Message) (s : State) : Host.Outcome State Fault Refusal :=
  nextS (runCommand 0x21 4 m s (fun s im w =>
    let n := wbits (w 2) 31 0
    let rows := wbits (w 2) 47 32
    let ds := spaceOf (w 0)
    let ss := spaceOf (w 1)
    let pairs := (upFrom 0 rows).map (fun k => (addrOf (w 1) + k * wbits (w 3) 31 0, addrOf (w 0) + k * wbits (w 3) 63 32))
    if !addrOk 0b11 (w 0) || !addrOk 0b11 (w 1) || wbits (w 2) 63 48 != 0 then .nack s 0x0CA
    else if n = 0 || rows = 0 then .done s
    else if ds == ss && pairs.any (fun p => pairs.any (fun q => overlap p.1 n q.2 n)) then .nack s 0x0CA
    else accept s im (pairs.flatMap (fun p => [⟨ss, p.1, n, .load⟩, ⟨ds, p.2, n, .store⟩])) (pairs.flatMap (fun p => byteParts ss p.1 ds p.2 n))))
/-- FILL (0x22): the byte at address x receives byte x mod 8 of the pattern. -/
def execFill (m : Message) (s : State) : Host.Outcome State Fault Refusal :=
  nextS (runCommand 0x22 3 m s (fun s im w =>
    let n := wbits (w 1) 31 0
    let d := addrOf (w 0)
    let byte (x : Nat) : Byte := BitVec.ofNat 8 ((w 2).toNat / 256 ^ (x % 8))
    if !addrOk 0b11 (w 0) || wbits (w 1) 63 32 != 0 then .nack s 0x0CA
    else if n = 0 then .done s
    else accept s im [⟨spaceOf (w 0), d, n, .store⟩]
      ((byteParts 0 0 (spaceOf (w 0)) d n).map (fun p => { p with got := (upFrom p.d p.n).map byte }))))
/-- A die of the current phase of a job (R135, R266). -/
def State.phaseDie (s : State) (job d : Nat) : Bool :=
  match (s.die d).wsPhase with
  | none => false
  | some p => (s.die d).wsJob == some job && (s.phase? p).any (fun x => x.job == job && bit x.dies d)
/-- WSFL (0x23): writes the weight store of a die of the job's phase, in FILL only. -/
def execWsfl (m : Message) (s : State) : Host.Outcome State Fault Refusal :=
  nextS (runCommand 0x23 3 m s (fun s im w =>
    let n := wbits (w 2) 31 0
    let d := addrOf (w 0)
    let ss := spaceOf (w 1)
    let dies := if n = 0 then [d / 2 ^ 28] else upFrom (d / 2 ^ 28) ((d + n - 1) / 2 ^ 28 + 1 - d / 2 ^ 28)
    if !addrOk 0b100 (w 0) || !addrOk 0b11 (w 1) || wbits (w 2) 63 32 != 0 || d % 8 != 0 || n % 8 != 0 then .nack s 0x0CA
    else if 2 ^ 30 < d + n || 2 ^ 30 ≤ d then .nack s 0x063
    else if dies.any (fun k => (s.die k).wsJob.any (fun j => j != im.job)) then .nack s 0x0C6
    else if !dies.all (fun k => s.phaseDie im.job k) then .nack s 0x064
    else if dies.any (fun k => (s.die k).run) then .nack s 0x0C6
    else if n = 0 then .done s
    else accept s im [⟨ss, addrOf (w 1), n, .load⟩] (byteParts ss (addrOf (w 1)) 2 d n)))

/-! ### CPYXS and GTHXS (R266 to R268) -/

/-- The images of a list of places (3 slots, 0 addresses) at the acceptance of their command: format, and, for a slot, which is captured at
issue (R130), the image itself. -/
inductive Images where
  | ok (s : State) (l : List (Nat × List Byte))
  | fault (s : State) (f : TFault) (addr : Nat)
  | wait (s : State)
def State.imagesAt (s : State) (m : InMsg) (sp : Nat) : List Nat → Images
  | [] => .ok s []
  | p :: r =>
    let rest (s : State) (x : Nat × List Byte) : Images :=
      match State.imagesAt s m sp r with
      | .ok s1 l => .ok s1 (x :: l)
      | y => y
    if sp = 3 then
      let t := (s.cluster m.cl).slot p
      if t.tag = 0#4 then .wait s
      else if 8#4 ≤ t.tag then .fault s (tagCause 0x026 t.tag.toNat 3) 0
      else if 4 < t.tag.toNat then .fault s (cause 0x027) 0
      else rest s (t.tag.toNat, t.img)
    else
      match s.readImage m.cl m.job p 0 .tileLoad 4 with
      | (s1, .ok tag _) => rest s1 (tag, [])
      | (s1, .fault f) => .fault s1 f p
      | (s1, .wait) => .wait s1
/-- Places in memory that an image may not take (R98). -/
def misplaced (l : List (Nat × Nat)) : Option Nat :=
  (l.find? (fun p => p.1 % 128 != 0 || decide (4096 < p.1 % 4096 + imageLen p.2))).map (fun p => p.1)
/-- Images moved from places to places (R267): the groups are compared and all accesses are checked; slots are captured at once, and the
slots to be written are empty until their images arrive (R130). `same` says that the groups are identical. -/
def State.moveImages (s : State) (m : InMsg) (ss ds : Nat) (src dst : List Nat) (same tr : Bool) : CmdRes :=
  if ss == 3 && ds == 3 && !same && src.any (fun p => dst.contains p) then .nack s 0x02E
  else
  match s.imagesAt m ss src with
  | .wait s1 => .wait s1
  | .fault s1 f a => .fail s1 f a
  | .ok s1 imgs =>
    let shared := ss == ds && (src.zip imgs).any (fun p => (dst.zip imgs).any (fun q =>
      if ss = 3 then p.1 == q.1 else overlap p.1 (imageLen p.2.1) q.1 (imageLen q.2.1)))
    if shared && !same then .nack s1 0x02E
    else
      let plan : List EngAcc := ((src.zip dst).zip imgs).map (fun x =>
        { ss := ss, a := x.1.1, ds := ds, d := x.1.2, tile := true, tr := tr, fmt := if ss = 3 then x.2.1 else 0, got := x.2.2 })
      if ds = 3 then .run (s1.emptySlots m.cl dst) plan
      else
        let out := dst.zip (imgs.map Prod.fst)
        match misplaced out with
        | some a => .fail s1 ⟨0x061, 0#64, 0#64⟩ a
        | none => accept s1 m (out.map (fun p => ⟨0, p.1, imageLen p.2, .tileStore⟩)) plan
/-- The slots of a T-space group: claim, banks, range (R129, R128, R263). -/
def State.slotCause (s : State) (m : InMsg) (sp first n : Nat) : Option Nat :=
  if sp != 3 then none
  else if 16 < first + n then some 0x0CA
  else if !s.claims m.cl m.unit then some 0x0C8
  else if !((upFrom first n).all (fun k => (s.cluster m.cl).slotBank k)) then some 0x029 else none
/-- CPYXS (0x24). -/
def execCpyxs (m : Message) (s : State) : Host.Outcome State Fault Refusal :=
  nextS (runCommand 0x24 3 m s (fun s im w =>
    let v := w 2
    let n := wbits v 7 0 + 1
    let ds := spaceOf (w 0)
    let ss := spaceOf (w 1)
    let sst := if ss = 3 then 1 else 128 * wbits v 31 16
    let dst := if ds = 3 then 1 else 128 * wbits v 47 32
    let places (sp a st : Nat) : List Nat := (upFrom 0 n).map (fun i => if sp = 3 then a + i else (a + i * st) % 2 ^ 56)
    if !addrOk 0b1001 (w 0) || !addrOk 0b1001 (w 1) || wbits v 15 9 != 0 || wbits v 63 48 != 0 then .nack s 0x0CA
    else
      match s.slotCause im ds (addrOf (w 0)) n, s.slotCause im ss (addrOf (w 1)) n with
      | some c, _ => .nack s c
      | none, some c => .nack s c
      | none, none => s.moveImages im ss ds (places ss (addrOf (w 1)) sst) (places ds (addrOf (w 0)) dst)
          (ss == ds && addrOf (w 0) == addrOf (w 1) && sst == dst) (v.getLsbD 8)))

/-- The indices of a list (R268): 4 or 8 bytes each, signed unless IU. -/
def idxOf (isz iu : Bool) (b : List Byte) : Int := let w := if isz then 64 else 32; if iu then (leNat b : Int) else sextNat w (leNat b)
def cutBytes (k : Nat) : Nat → List Byte → List (List Byte)
  | 0, _ => []
  | n + 1, l => l.take k :: cutBytes k n (l.drop k)
/-- The index list is read, then the command goes on. -/
def withIndices (s : State) (m : InMsg) (w2 w3 : Word) (run : State → List Int → CmdRes) : CmdRes :=
  let n := wbits w3 31 0
  let k := if w3.getLsbD 34 then 8 else 4
  if n != 0 && addrOf w2 % k != 0 then .fail s ⟨0x060, 0#64, 0#64⟩ (addrOf w2)
  else
    match s.checkAll m [⟨spaceOf w2, addrOf w2, n * k, .load⟩] with
    | (s1, some (.fault f, a)) => .fail s1 f a
    | (s1, some _) => .wait s1
    | (s1, none) =>
      let x := s1.readS m (spaceOf w2) (addrOf w2) (n * k)
      run x.1 ((cutBytes k n x.2).map (idxOf (w3.getLsbD 34) (w3.getLsbD 35)))
/-- GTHXS (0x33). -/
def execGthxs (m : Message) (s : State) : Host.Outcome State Fault Refusal :=
  nextS (runCommand 0x33 4 m s (fun s im w =>
    let n := wbits (w 3) 31 0
    let ds := spaceOf (w 0)
    if !addrOk 0b1001 (w 0) || !addrOk 0b1 (w 1) || !addrOk 0b11 (w 2) || wbits (w 3) 33 32 != 0 || wbits (w 3) 63 36 != 0 then .nack s 0x0CA
    else
      match s.slotCause im ds (addrOf (w 0)) n with
      | some c => .nack s c
      | none =>
        if n = 0 then .done s
        else withIndices s im (w 2) (w 3) (fun s is =>
          let src := is.map (fun i => wrapNat 56 ((addrOf (w 1) : Int) + i * 4096))
          let dst := (upFrom 0 n).map (fun k => if ds = 3 then addrOf (w 0) + k else (addrOf (w 0) + 4096 * k) % 2 ^ 56)
          s.moveImages im 0 ds src dst true false)))

/-! ### GTH, SCT, SCTA (R268) -/

/-- Element addresses of a gather or scatter: (list side, indexed side). -/
def elemPairs (lst base esz : Nat) (is : List Int) : List (Nat × Nat) :=
  let z := 2 ^ esz
  ((upFrom 0 is.length).zip is).map (fun p => ((lst + p.1 * z) % 2 ^ 56, wrapNat 56 ((base : Int) + p.2 * z)))
/-- Elements are naturally aligned, or 0x060 (R268). -/
def unaligned (z : Nat) (l : List (Nat × Nat)) : Option Nat :=
  (l.find? (fun p => p.1 % z != 0 || p.2 % z != 0)).map (fun p => if p.1 % z != 0 then p.1 else p.2)
/-- The operand checks of GTH, SCT and SCTA. -/
def gatherCause (w : Nat → Word) (esz2 : Bool) : Bool :=
  !addrOk 0b11 (w 0) || !addrOk 0b11 (w 1) || !addrOk 0b11 (w 2) || wbits (w 3) 63 36 != 0 || (esz2 && wbits (w 3) 33 32 < 2)
/-- Pairs of elements (list side, indexed side), aligned and accessible; then each is moved from `src` to `dst` of its pair, or added. -/
def moveElems (s : State) (m : InMsg) (w : Nat → Word) (gather add : Bool) : CmdRes :=
  withIndices s m (w 2) (w 3) (fun s is =>
    let z := 2 ^ wbits (w 3) 33 32
    let ls := spaceOf (w 0)
    let bs := spaceOf (w 1)
    let l := elemPairs (addrOf (w 0)) (addrOf (w 1)) (wbits (w 3) 33 32) is
    let part (p : Nat × Nat) : EngAcc :=
      if gather then { ss := bs, a := p.2, ds := ls, d := p.1, n := z } else { ss := ls, a := p.1, ds := bs, d := p.2, n := z, add := add }
    match unaligned z l with
    | some a => .fail s ⟨0x060, 0#64, 0#64⟩ a
    | none =>
      accept s m (l.flatMap (fun p => let x := part p; [⟨x.ss, x.a, z, .load⟩, ⟨x.ds, x.d, z, if add then .atomic else .store⟩])) (l.map part))
/-- GTH (0x30). -/
def execGth (m : Message) (s : State) : Host.Outcome State Fault Refusal :=
  nextS (runCommand 0x30 4 m s (fun s im w => if gatherCause w false then .nack s 0x0CA else moveElems s im w true false))
/-- SCT (0x31). -/
def execSct (m : Message) (s : State) : Host.Outcome State Fault Refusal :=
  nextS (runCommand 0x31 4 m s (fun s im w => if gatherCause w false then .nack s 0x0CA else moveElems s im w false false))
/-- SCTA (0x32): each element is an AMO add with no result. -/
def execScta (m : Message) (s : State) : Host.Outcome State Fault Refusal :=
  nextS (runCommand 0x32 4 m s (fun s im w => if gatherCause w true then .nack s 0x0CA else moveElems s im w false true))

end Sys2Proof.Machine
end

