-- ==== Sys2Proof/Machine/Collective.lean ====
section
/-! DEFINITION. The collective engine of a die (R112, R269): contributions, rounds and their completion. -/

namespace Sys2Proof.Machine

/-- Fields of the control word of a collective command (R269). -/
def collGrp (w : Word) : Nat := wbits w 7 0
def collOp (w : Word) : Nat := wbits w 9 8
def collFmt (w : Word) : Nat := wbits w 12 10
def collCount (w : Word) : Nat := wbits w 47 16
def collRoot (w : Word) : Nat := wbits w 55 48
/-- Bytes of an element: i64, i32, binary64, binary32. -/
def collSize (w : Word) : Nat := if collFmt w % 2 = 0 then 8 else 4
/-- The fold operation as the reduction formats of R116 name it: add, min, max in i64, i32, binary64, binary32. -/
def collFold (w : Word) : Nat → Nat → Nat :=
  redOp (if collOp w = 0 then 0 else collOp w + 1) (match collFmt w with
    | 0 => 1
    | 1 => 2
    | 2 => 5
    | _ => 6)

/-- The participants of a group of a unit's phase, in rank order: (device, UNITID); `none` when the group is not set up. -/
def State.collGroup (s : State) (u : UnitSt) (g : Nat) : Option (Nat × List (Nat × Nat)) :=
  match (s.inst? u.inst).bind (fun (i : Instance) => i.phase) with
  | none => none
  | some p =>
    match s.phase? p with
    | none => none
    | some ph =>
      match aget ph.groups g with
      | some (x :: l) => some (p, x :: l)
      | _ => none
/-- The rank of a participant. -/
def rankOf (l : List (Nat × Nat)) (dev unit : Nat) : Option Nat := lfind (fun p => p == (dev, unit)) l

/-- Elements that a participant's source holds, by command (R269). -/
def collSrc (opc : Nat) (w : Word) (P rank : Nat) : Nat :=
  match opc with
  | 0x40 => collCount w
  | 0x41 => collCount w
  | 0x42 => P * collCount w
  | 0x43 => if rank = collRoot w then collCount w else 0
  | _ => 0
/-- Elements that a participant's destination receives. -/
def collDst (opc : Nat) (w : Word) (P : Nat) : Nat :=
  match opc with
  | 0x41 => P * collCount w
  | 0x44 => 0
  | _ => collCount w

/-- A contribution joins the first round of its group that its rank has not joined (R269). -/
def joinRound (job ph g : Nat) (p : CollPart) : List CollRound → List CollRound
  | [] => [{ job := job, phase := ph, grp := g, parts := [p] }]
  | c :: r =>
    if c.phase == ph && c.grp == g && !c.parts.any (fun x => x.rank == p.rank) then { c with parts := c.parts ++ [p] } :: r
    else c :: joinRound job ph g p r
def State.addPart (s : State) (job ph g : Nat) (p : CollPart) : State := { s with colls := joinRound job ph g p s.colls }
/-- Every element of a contribution has come. -/
def CollPart.whole (p : CollPart) : Bool := p.src.length == p.total
/-- A packet of a contribution from another device: its first begins the contribution, the others continue it, in the order sent (R343). -/
def State.takePart (s : State) (job ph g off : Nat) (p : CollPart) : State :=
  let goes (c : CollRound) (x : CollPart) : Bool := c.phase == ph && c.grp == g && x.rank == p.rank && x.m.isNone && !x.whole && x.src.length == off
  if off = 0 then s.addPart job ph g p
  else { s with colls := s.colls.map (fun (c : CollRound) =>
    { c with parts := c.parts.map (fun x => if goes c x then { x with src := x.src ++ p.src } else x) }) }
/-- The oldest round of a group leaves. -/
def State.dropColl (s : State) (ph g : Nat) : State := { s with colls := s.colls.eraseP (fun c => c.phase == ph && c.grp == g) }

/-- The run of a contribution. -/
def CollPart.owns (p : CollPart) (r : Run) : Bool := !r.done && r.eng.kind == .collective && p.m == some r.m
/-- One local participant of a round is refused. -/
def State.refusePart (s : State) (p : CollPart) : State :=
  match p.m with
  | none => s
  | some im =>
    match lfind (p.owns ·) s.runs with
    | none => s
    | some i =>
      let e := (lget s.runs i { m := im, eng := ⟨.collective, 0⟩ }).eng
      ({ s with runs := ldel s.runs i }).nack e im 0x0CB 0#64

/-- Every command of the oldest round of a group is refused (R269). -/
def State.refuseRound (s : State) (ph g : Nat) : State :=
  match s.colls.find? (fun c => c.phase == ph && c.grp == g) with
  | none => s
  | some c => c.parts.foldl State.refusePart (s.dropColl ph g)
/-- Other devices that take part in a group. -/
def State.otherDevs (s : State) (l : List (Nat × Nat)) : List Nat := ((l.map Prod.fst).eraseDups).filter (fun d => d != s.devNum.toNat)
/-- A collective command (R269): its checks, its source, and its place in the round. A participant whose last contribution is
still in the round is held. A sender outside the group has every command of the round refused, here and on the other devices, which
learn it from a rank that is none. The round is a release by every participant at fabric scope (R112): a command is taken when what its sender
wrote before is complete. -/
def runCollective (opc : Nat) (m : Message) (s : State) : State :=
  runCommand opc (if opc = 0x44 then 1 else 3) m s (fun s im w =>
    let u := s.unit im.unit
    let c := w 0
    let data := opc != 0x44
    if wbits c 15 13 != 0 || wbits c 63 56 != 0 || collOp c = 3 || 3 < collFmt c || (data && (!addrOk 0b1 (w 1) || !addrOk 0b1 (w 2))) then .nack s 0x0CA
    else
      match s.collGroup u (collGrp c) with
      | none => .nack s 0x0CB
      | some (ph, l) =>
        match rankOf l s.devNum.toNat u.unitid.toNat with
        | none => .nack ((s.otherDevs l).foldl (fun s d => s.fySend d 4 (.collective im.job (collGrp c) l.length opc c 0 0 []))
            (s.refuseRound ph (collGrp c))) 0x0CB
        | some rank =>
          let z := collSize c
          let srcN := collSrc opc c l.length rank * z
          let dstN := collDst opc c l.length * z
          if opc = 0x43 && l.length ≤ collRoot c then .nack s 0x0CA
          else if !s.unitReleased im.unit 3 then .wait s
          else if s.colls.any (fun r => r.phase == ph && r.grp == collGrp c && r.parts.any (fun p => p.rank == rank)) then .wait s
          else if dstN != 0 && addrOf (w 1) % z != 0 then .fail s ⟨0x060, 0#64, 0#64⟩ (addrOf (w 1))
          else if srcN != 0 && addrOf (w 2) % z != 0 then .fail s ⟨0x060, 0#64, 0#64⟩ (addrOf (w 2))
          else
            match s.checkAll im ([⟨0, addrOf (w 2), srcN, .load⟩, ⟨0, addrOf (w 1), dstN, .store⟩].filter (fun a => a.n != 0)) with
            | (s0, some (.fault f, a)) => .fail s0 f a
            | (s0, some _) => .wait s0
            | (s0, none) =>
              let x := if srcN = 0 then (s0, []) else s0.readS im 0 (addrOf (w 2)) srcN
              let vals := (cutBytes z (srcN / z) x.2).map leNat
              let s1 := x.1.addPart im.job ph (collGrp c) { rank := rank, m := some im, opc := opc, ctl := c, dst := w 1, src := vals, total := vals.length }
              let s2 := (s1.otherDevs l).foldl (fun s d => s.fySend d 4 (.collective im.job (collGrp c) rank opc c 0 vals.length vals)) s1
              .taken { s2 with runs := s2.runs ++ [{ m := im, eng := s2.curEng, done := false, scope := 3 }] })

/-- CRED (0x40). -/
def execCred (m : Message) (s : State) : Host.Outcome State Fault Refusal := nextS (runCollective 0x40 m s)
/-- CAGT (0x41). -/
def execCagt (m : Message) (s : State) : Host.Outcome State Fault Refusal := nextS (runCollective 0x41 m s)
/-- CRSC (0x42). -/
def execCrsc (m : Message) (s : State) : Host.Outcome State Fault Refusal := nextS (runCollective 0x42 m s)
/-- CBCS (0x43). -/
def execCbcs (m : Message) (s : State) : Host.Outcome State Fault Refusal := nextS (runCollective 0x43 m s)
/-- CBAR (0x44). -/
def execCbar (m : Message) (s : State) : Host.Outcome State Fault Refusal := nextS (runCollective 0x44 m s)

/-- The source elements of a rank. -/
def rankSrc (ps : List CollPart) (q : Nat) : List Nat :=
  match ps.find? (fun p => p.rank == q) with
  | some p => p.src
  | none => []
/-- Element lists folded in ascending rank (R269). -/
def foldRanks (f : Nat → Nat → Nat) : List (List Nat) → List Nat
  | [] => []
  | x :: r => r.foldl (fun acc y => List.zipWith f acc y) x
/-- What the destination of rank r receives. -/
def collResult (opc : Nat) (w : Word) (P r : Nat) (ps : List CollPart) : List Nat :=
  let srcs := (upFrom 0 P).map (rankSrc ps)
  let c := collCount w
  match opc with
  | 0x40 => foldRanks (collFold w) srcs
  | 0x41 => srcs.flatten
  | 0x42 => foldRanks (collFold w) (srcs.map (fun l => (l.drop (r * c)).take c))
  | 0x43 => rankSrc ps (collRoot w)
  | _ => []
/-- One local participant's destination is written, and its command can complete; a destination that cannot be written any more gives a
NACK with its cause. A participant that has been cancelled is passed over. -/
def State.finishPart (s : State) (P : Nat) (ps : List CollPart) (p : CollPart) : State :=
  match p.m with
  | none => s
  | some im =>
    match lfind (p.owns ·) s.runs with
    | none => s
    | some i =>
      let bs := (collResult p.opc p.ctl P p.rank ps).flatMap (leBytes (collSize p.ctl))
      match s.checkAll im (if bs.isEmpty then [] else [⟨0, addrOf p.dst, bs.length, .store⟩]) with
      | (s1, some (.fault f, a)) => s1.failRun i (lget s1.runs i { m := im, eng := ⟨.collective, 0⟩ }) f a
      | (s1, _) => (if bs.isEmpty then s1 else s1.writeRange (im.unit, im.id) im.cl im.job (addrOf p.dst) bs).modRun i (fun r => { r with done := true })
/-- COLLECTIVE_ROUND_COMPLETE (R112, R269): every rank has arrived; equal commands write every destination, unequal ones are all
refused. It waits while a destination is not writable yet. -/
def execCollectiveRoundComplete (s : State) : Host.Outcome State Fault Refusal :=
  nextS (match s.colls.find? (fun c => c.phase == s.ev.ph && c.grp == s.ev.grp), s.phase? s.ev.ph with
    | some round, some ph =>
      let l := agetD ph.groups round.grp []
      let P := l.length
      let ps := round.parts
      if !(upFrom 0 P).all (fun q => ps.any (fun p => p.rank == q && p.whole)) then s
      else
        let s0 := s.dropColl round.phase round.grp
        let c0 := (ps.headD { rank := 0 }).ctl
        let o0 := (ps.headD { rank := 0 }).opc
        if !ps.all (fun p => p.ctl == c0 && p.opc == o0) then ps.foldl State.refusePart s0
        else
          let need := ps.filterMap (fun p => p.m.map (fun im => (im, (⟨0, addrOf p.dst, collDst o0 c0 P * collSize c0, .store⟩ : SAcc))))
          let ready := need.foldl (fun (acc : State × Bool) x =>
            if x.2.n = 0 then acc
            else
              match acc.1.checkAll x.1 [x.2] with
              | (s1, some (.wait, _)) => (s1, false)
              | (s1, _) => (s1, acc.2)) (s, true)
          if !ready.2 then ready.1
          else ps.foldl (fun s p => s.finishPart P ps p) { ready.1 with colls := s0.colls }
    | _, _ => s)

end Sys2Proof.Machine
end

