-- ==== Sys2Proof/Machine/Matching.lean ====
section
/-! DEFINITION. Tokens on their way and in the matching store: arrival (R25), the matching store and the overflow table (R26 to
R29), the report of quiescence (R41) and the stubs of migration (R301). -/

namespace Sys2Proof.Machine

/-! ### Arrival -/

/-- The unit through whose region a flight moves. -/
def State.flightUnit (s : State) (f : Flight) : Option Nat := s.unitAt f.pos.cl f.pos.ctx

/-- A token of the same queue and tag that waits at a PE: in the queue, the matching store or the overflow table (R25). -/
def UnitSt.duplicate (u : UnitSt) (key q : Nat) (t : Token) : Bool :=
  ((u.pe key).queue q).any (fun x => x.sameTag t) ||
    (u.ms ++ u.ovf).any (fun e => e.rank * 256 + e.y * 16 + e.x == key && e.q == q && e.tok.sameTag t)

/-- Queue q of the node at `pos` has a place for a token, or the token is discarded at it (R25, R140). -/
def UnitSt.queueRoom (u : UnitSt) (pos : Site) (q : Nat) (t : Token) : Bool :=
  match u.nodeAt pos with
  | none => true
  | some key => !(u.pe key).takes q || u.duplicate key q t || decide (((u.pe key).queue q).length < 4)
/-- Whether queue q of the node at `pos` takes a token in this clock (R286). -/
def State.queueTakes (s : State) (uid : Nat) (pos : Site) (q : Nat) (t : Token) : Bool :=
  !s.usedNow pos.cl (.queue pos.cl pos.x pos.y q) && (s.unit uid).queueRoom pos q t && !s.directWaits uid pos q
/-- A token reaches queue q of the node at `pos` (R25). A token for a queue that no operation consumes raises 0x000, a second token of a
tag 0x0A2; both are discarded. -/
def State.enterQueue (s : State) (uid : Nat) (pos : Site) (q : Nat) (tok : Token) : State :=
  let u := s.unit uid
  let t := { tok with col := u.effCol tok.col }
  let s1 := s.useNow pos.cl (.queue pos.cl pos.x pos.y q)
  match u.nodeAt pos with
  | none => s1.takeFault uid (some (u.keyOf pos)) (raise 0x000 t)
  | some key =>
    if !(u.pe key).takes q then s1.takeFault uid (some key) (raise 0x000 t)
    else if u.duplicate key q t then s1.takeFault uid (some key) (raise 0x0A2 t)
    else s1.modUnit uid (fun u => { (u.modPe key (fun p => p.setQueue q (p.queue q ++ [t]))) with quiet := false })

/-! ### Switches (R286) -/

/-- One output of a switch has room for a token. -/
def State.outputRoom (s : State) (uid : Nat) (pos : Site) (t : Token) (o : Nat × Nat × Nat) : Bool :=
  if 4 ≤ o.1 then (s.unit uid).queueRoom pos (o.1 - 4) t && !s.directWaits uid pos (o.1 - 4)
  else
    match nextPlace pos o with
    | some (p, inp, ln) => s.laneFree p inp ln
    | none => true
/-- Whether one output of a switch accepts a token in this clock. -/
def State.outputTakes (s : State) (uid : Nat) (pos : Site) (t : Token) (o : Nat × Nat × Nat) : Bool :=
  !s.usedNow pos.cl (if 4 ≤ o.1 then .queue pos.cl pos.x pos.y (o.1 - 4) else .lane pos.cl pos.x pos.y o.1 o.2.1) && s.outputRoom uid pos t o
/-- A packet of this node, queue and context is on the network: one at a time (R25; log 43). -/
def State.packetOut (s : State) (src : Site) (d : Site × Nat) : Bool :=
  s.flights.any (fun f => f.tok.kind == 0#2 && f.src == src && f.pos == d.1 && f.q == some d.2)
/-- The outputs of the switch for a flight on a lane. -/
def UnitSt.outsOf (u : UnitSt) (f : Flight) : List (Nat × Nat × Nat) := u.outsAt f.pos f.inp f.lane
/-- The packet heads that a flight at an out port feeds. -/
def UnitSt.headsOf (u : UnitSt) (f : Flight) : List (Site × Nat) := if f.inp = 0 then u.headsAt f.pos else []
/-- A packet of the same node is on its way to a local queue that a flight is about to enter: the packet was sent first (R25). -/
def State.behindPacket (s : State) (uid : Nat) (f : Flight) : Bool :=
  ((s.unit uid).outsOf f).any (fun o => decide (4 ≤ o.1) && s.packetOut f.src (f.pos, o.1 - 4))
/-- A token moves only when every output of its route accepts it (multicast), whatever the turns of contexts. -/
def State.movable (s : State) (uid : Nat) (f : Flight) : Bool :=
  let u := s.unit uid
  (u.outsOf f).all (s.outputTakes uid f.pos f.tok) && (u.headsOf f).all (fun d => !s.packetOut f.src d) && !s.behindPacket uid f

/-- A token can still move, in this clock or a later one. -/
def State.canMove (s : State) (uid : Nat) (f : Flight) : Bool :=
  let u := s.unit uid
  if f.tok.kind != 0#2 then true
  else
    match f.q with
    | some q => u.queueRoom f.pos q f.tok && !s.directWaits uid f.pos q
    | none => (u.outsOf f).all (s.outputRoom uid f.pos f.tok) && (u.headsOf f).all (fun d => !s.packetOut f.src d) && !s.behindPacket uid f

/-- A route in the list of turns. -/
def Flight.route (f : Flight) : LaneRoute := ⟨f.pos.x, f.pos.y, f.pos.ctx, f.inp, if f.inp = 0 then 0 else f.lane⟩
/-- How long ago a route of a cluster was served: 0 for never, else its place in the list of turns. -/
def Cluster.turn (c : Cluster) (r : LaneRoute) : Nat := match c.served.findIdx? (· == r) with
  | some i => i + 1
  | none => 0
/-- Another context has a token ready for one of the link lanes that `f` asks for, and its turn comes first (R286; log 43): the route
served least recently, the lower context on a tie. -/
def State.yields (s : State) (uid : Nat) (f : Flight) : Bool :=
  let c := s.cluster f.pos.cl
  let lanes (l : List (Nat × Nat × Nat)) : List (Nat × Nat) := l.filterMap (fun o => if o.1 < 4 then some (o.1, o.2.1) else none)
  let mine := lanes ((s.unit uid).outsOf f)
  s.flights.any (fun g =>
    g.q.isNone && g.tok.kind == 0#2 && g.pos.cl == f.pos.cl && g.pos.x == f.pos.x && g.pos.y == f.pos.y && g.pos.ctx != f.pos.ctx &&
      (match s.flightUnit g with
       | none => false
       | some v =>
         (lanes ((s.unit v).outsOf g)).any mine.contains && s.movable v g &&
           (decide (c.turn g.route < c.turn f.route) || (c.turn g.route == c.turn f.route && decide (g.pos.ctx < f.pos.ctx)))))

/-- A PE is still fed, or its results are still on their way: a route or a packet head of a node of the unit leads to it, or a token does, or
one has left it. -/
def State.stubNeeded (s : State) (uid : Nat) (st : Site) : Bool :=
  let u := s.unit uid
  u.pes.any (fun p => p.2.consumes && (u.reach 256 (u.siteOf p.1) 0 0).any (fun e => e.1 == st)) ||
    s.flights.any (fun f => f.tok.kind == 0#2 && u.ownsFlight f && (f.src == st || (u.leads f).any (fun e => e.1 == st)))
/-- Stubs that are no longer needed are freed (R301 step 7). -/
def State.freeStubs (s : State) (uid : Nat) : State :=
  let u := s.unit uid
  let gone := (u.pes.filter (fun p => p.2.stub.isSome && !s.stubNeeded uid (u.siteOf p.1))).map Prod.fst
  gone.foldl (fun s k => s.modUnit uid (fun u => u.modPe k (fun p => { p with stub := none }))) s

/-- A token leaves an input of a switch on all outputs of its route in one clock: the copies on links and packets, then those for local
queues; the next result takes the out port it leaves. -/
def State.moveToken (s : State) (uid : Nat) (f : Flight) : State :=
  let u := s.unit uid
  let outs := u.outsOf f
  let links := outs.filterMap (fun o => (nextPlace f.pos o).map (fun p => ({ f with pos := p.1, inp := p.2.1, lane := p.2.2 } : Flight)))
  let packets := (u.headsOf f).map (fun d => ({ f with pos := d.1, inp := 0, lane := 0, q := some d.2 } : Flight))
  let used := outs.filterMap (fun o => if o.1 < 4 then some (ClockUse.lane f.pos.cl f.pos.x f.pos.y o.1 o.2.1) else none)
  let s1 := (used.foldl (fun (s : State) c => s.useNow f.pos.cl c) { s with flights := s.flights ++ links ++ packets }).modCluster f.pos.cl
    (fun c => { c with served := c.served.filter (· != f.route) ++ [f.route] })
  let s2 := (outs.filter (fun o => decide (4 ≤ o.1))).foldl (fun s o => s.enterQueue uid f.pos (o.1 - 4) f.tok) s1
  if f.inp = 0 then
    s2.drainOut uid (u.keyOf f.pos) ((u.pe (u.keyOf f.pos)).out.length + 1)
  else s2
/-- A token has moved or gone: stubs that nothing needs any more are freed, and results that waited for them leave (R301). -/
def State.settleStubs (s : State) (uid : Nat) : State :=
  let u := s.unit uid
  let ks := (u.pes.filter (fun p => p.2.stub.isSome)).flatMap (fun p => p.2.stub.toList.map (fun q => p.1 / 256 * 256 + q.2 * 16 + q.1))
  if ks.isEmpty then s
  else ks.foldl (fun s k => s.drainOut uid k (((s.unit uid).pe k).out.length + 1)) (s.freeStubs uid)

/-- The token of a flight moves on (R25, R286): a packet enters its queue, in sending order; a token on a lane goes through the switch
where it stands. A token on a link that no route takes is a configuration error of the PE it reached, cause 0x000 (R140). -/
def execTokenArrival (s : State) : Host.Outcome State Fault Refusal :=
  nextS (match s.flights[s.ev.i]? with
    | none => s
    | some f =>
      let s1 := { s with flights := ldel s.flights s.ev.i }
      if f.tok.kind != 0#2 then s
      else
        match s.flightUnit f with
        | none => s1
        | some uid =>
          match f.q with
          | some q =>
            if (s.flights.take s.ev.i).any (fun g => g.src == f.src && g.pos == f.pos && g.q == f.q) || !s.queueTakes uid f.pos q f.tok then s
            else (s1.enterQueue uid f.pos q f.tok).settleStubs uid
          | none =>
            let u := s.unit uid
            if (u.outsOf f).isEmpty && (u.headsOf f).isEmpty then
              (if f.inp = 0 then s1 else (s1.takeFault uid (some ((u.nodeAt f.pos).getD (u.keyOf f.pos))) (raise 0x000 f.tok)).settleStubs uid)
            else if !s.movable uid f || s.yields uid f then s
            else (s1.moveToken uid f).settleStubs uid)

/-! ### The matching store -/

/-- The unit that holds an entry of the matching store of a cluster, with the entry. -/
def State.msEntries (s : State) (cl : Nat) : List (Nat × MsEntry) :=
  s.units.flatMap (fun p => if p.2.completes && p.2.covers cl then
    (p.2.ms.filter (fun e => e.rank + p.2.lead == cl)).map (fun e => (p.1, e)) else [])
/-- The set of an entry (R26). -/
def msSet (ctx : Nat) (e : MsEntry) : BitVec 10 :=
  Config.matchSet (e.y * 16 + e.x) ctx e.q e.tok.lvl.toNat e.tok.itag.toNat e.tok.wave.toNat

/-- The oldest live tag of a level among some tags (R33). Several ITAGs of level 0 all count from the unit's start: the lowest number is
taken as the oldest (DESIGN CHOICE, log 45). -/
def oldestTag : List TagEntry → Option TagEntry
  | [] => none
  | t :: r =>
    match oldestTag r with
    | none => some t
    | some x => if x.order < t.order || (x.order == t.order && x.itag < t.itag) then some x else some t
/-- The oldest tag chain from a level downward (R33). -/
def UnitSt.chainFrom (u : UnitSt) : Nat → TagEntry → List (Nat × Nat)
  | 0, t => [(t.lvl, t.itag)]
  | fuel + 1, t =>
    match oldestTag (u.tags.filter (fun c => c.lvl == t.lvl + 1 && c.plvl == t.lvl && c.pitag == t.itag)) with
    | some c => (t.lvl, t.itag) :: UnitSt.chainFrom u fuel c
    | none => [(t.lvl, t.itag)]
def UnitSt.oldestChain (u : UnitSt) : List (Nat × Nat) :=
  match oldestTag (u.tags.filter (fun t => t.lvl == 0)) with
  | some t => u.chainFrom 7 t
  | none => []

/-- The waves of an invocation that hold tokens or entries, the oldest first found (R31). -/
def State.oldestLive (s : State) (u : UnitSt) (t : Token) : Option (BitVec 10) :=
  let ts := (u.pes.flatMap (fun p => p.2.q.flatten)) ++ u.ms.map MsEntry.tok ++ u.ovf.map MsEntry.tok ++
    (s.flights.filter u.ownsFlight).map Flight.tok ++ u.liveSb.map SbEntry.tok
  (u.oldest (ts.filter (fun x => x.sameInv t && x.kind == 0#2))).map Token.wave

/-- An entry may spill unless it belongs to the oldest live wave of its unit's oldest tag chain (R27). -/
def State.spillable (s : State) (uid : Nat) (e : MsEntry) : Bool :=
  let u := s.unit uid
  !(u.oldestChain.contains (e.tok.lvl.toNat, e.tok.itag.toNat) && s.oldestLive u e.tok == some e.tok.wave)

/-- The victim of a set (R27): among the unit's own spillable entries, else among those of the unit that started latest; the
youngest invocation, then the youngest wave. -/
def State.victim (s : State) (uid : Nat) (es : List (Nat × MsEntry)) : Option (Nat × MsEntry) :=
  let sp := es.filter (fun p => s.spillable p.1 p.2)
  let own := sp.filter (fun p => p.1 == uid)
  let latest := (sp.map (fun p => (s.unit p.1).started)).foldl max 0
  let cand := if own.isEmpty then sp.filter (fun p => (s.unit p.1).started == latest) else own
  match cand with
  | [] => none
  | c :: r => some (r.foldl (fun b p => if (s.unit p.1).older b.2.tok p.2.tok then p else b) c)

/-- A stop by a spill or refill (R28, R29): the cause has class S and the unit stops. -/
def State.stopUnit (s : State) (uid key : Nat) (t : Token) (cause addr : Nat) (d0 d1 : Word) : State :=
  if (s.unit uid).fires then s.escalate uid (some key) { cause := cause, addr := wd addr, tag := t, d0 := d0, d1 := d1 } else s

/-- Bytes of the overflow table read or written as the unit's own accesses of the atomic kind (R28). -/
def State.ovfAccess (s : State) (uid va n : Nat) (bs : Option (List Byte)) : State × Except TrRes (List Byte) :=
  let u := s.unit uid
  match translateReady s u.lead u.job va n .atomic 2 with
  | (s1, .ok xa _ _) =>
    match bs with
    | none => s1.readXa xa n
    | some b =>
      match badLine s1 xa n with
      | some f => (s1, .error (.fault f))
      | none => (s1.writeXa (0, 0) xa b, .ok b)
  | (s1, r) => (s1, .error r)

/-- One entry spills to its owner's overflow table: the count goes up and 16 bytes, private to the hardware, are written
(R28); or the owner stops (R28, R29); or a host has yet to answer. -/
def State.spill (s : State) (uid : Nat) (e : MsEntry) : State × Bool :=
  let u := s.unit uid
  let key := peKey e.rank e.x e.y
  let base := u.ovft.toNat % 2 ^ 56
  match s.ovfAccess uid base 16 none with
  | (s1, .error (.fault f)) => (s1.stopUnit uid key e.tok f.cause base f.d0 f.d1, false)
  | (s1, .error _) => (s1, false)
  | (s1, .ok hb) =>
    let count := leNat (hb.take 8)
    if leNat (hb.drop 8) ≤ count then (s1.stopUnit uid key e.tok 0x0A3 0 0#64 0#64, false)
    else
      let a := base + 16 + 16 * count
      match s1.ovfAccess uid a 16 (some ((upFrom s1.freeCtr 16).map Config.freeByte)) with
      | (s2, .error (.fault f)) => (s2.stopUnit uid key e.tok f.cause a f.d0 f.d1, false)
      | (s2, .error _) => (s2, false)
      | (s2, .ok _) =>
        let s3 := { s2 with freeCtr := s2.freeCtr + 16 }
        let s4 := (s3.ovfAccess uid base 8 (some (leBytes 8 (count + 1)))).1
        let s5 := s4.modUnit uid (fun u => { u with ms := u.ms.erase e, ovf := u.ovf ++ [e] })
        (s5.modCluster (u.lead + e.rank) (fun c => { c with trace := aset c.trace (u.ctx, 1) (agetD c.trace (u.ctx, 1) 0 + 1) }), true)

/-- A way for an entry in its set of the matching store: a free one, or that of an entry that spills first (R27). A spill that stops its
owner leaves no way (R29). -/
def State.makeWay (s : State) (uid : Nat) (e : MsEntry) : State × Bool :=
  let u := s.unit uid
  let es := (s.msEntries (u.lead + e.rank)).filter (fun p => msSet (s.unit p.1).ctx p.2 == msSet u.ctx e)
  if es.length < 8 then (s, true)
  else
    match s.victim uid es with
    | none => (s, false)
    | some v => s.spill v.1 v.2
/-- An entry is put into the matching store, which has a way for it. -/
def State.putMs (s : State) (uid : Nat) (e : MsEntry) : State := s.modUnit uid (fun u => { u with ms := u.ms ++ [e] })

/-! ### Quiescence -/

/-- The quiescence tree reports a state that holds (R41). -/
def execQuiescenceReport (s : State) : Host.Outcome State Fault Refusal :=
  nextS (if s.quiescent s.ev.u (s.unit s.ev.u) then s.modUnit s.ev.u (fun u => { u with quiet := true }) else s)

end Sys2Proof.Machine
end

