-- ==== Sys2Proof/Machine/RowFlow.lean ====
section
/-! DEFINITION. The meanings of PE rows 0x24 to 0x3E: constants, loops, steering, tags, colours, gates and sinks (R175 to
R193), and of the events by which busy or waiting nodes go on (R31, R34, R35, R176, R180). -/

namespace Sys2Proof.Machine

/-! ### The wait for tags -/

/-- Pool size of level n, LVLn (R32). -/
def UnitSt.pool (u : UnitSt) (n : Nat) : Nat := (lget u.lvl n 0#9).toNat
/-- The tags of a level. -/
def UnitSt.levelTags (u : UnitSt) (n : Nat) : List TagEntry := u.tags.filter (fun t => t.lvl == n)
/-- The oldest live tag of its level (R33). -/
def UnitSt.isOldestTag (u : UnitSt) (lvl itag : Nat) : Bool :=
  (u.levelTags lvl).all (fun t => t.itag == itag || decide (u.age lvl itag < t.order) || (u.age lvl itag == t.order && decide (itag < t.itag)))
/-- The map entry of a child tag (R181). -/
def UnitSt.tagEntry (u : UnitSt) (lvl itag : Nat) : Option TagEntry :=
  if lvl = 0 then none else u.tags.find? (fun t => t.lvl == lvl && t.itag == itag)
/-- The tag that TAGNEW at parent token `t` may take now, under the reserve of R34: the lowest-numbered free one (R182). A tag freed in
this arithmetic clock is free from the next on (R184). -/
def State.freeTag (s : State) (uid : Nat) (t : Token) : Option Nat :=
  let u := s.unit uid
  let n := t.lvl.toNat + 1
  let free := (upFrom 0 (u.pool n)).filter (fun c => !(u.levelTags n).any (fun e => e.itag == c) && !u.freed.contains (n, c))
  if free.length ≥ 2 || (free.length = 1 && u.isOldestTag t.lvl.toNat t.itag.toNat) then free.head? else none

/-- A child tag is allocated and recorded, wave 0 of its invocation open (R102, R181, R182). -/
def UnitSt.allocTag (u : UnitSt) (t : Token) (c exits : Nat) : UnitSt :=
  { u with tags := u.tags ++ [{ lvl := t.lvl.toNat + 1, itag := c, plvl := t.lvl.toNat, pitag := t.itag.toNat, pwave := t.wave
                                exits := exits, order := u.tagOrder }],
           tagOrder := u.tagOrder + 1, openWave := adel u.openWave (t.lvl.toNat + 1, c)
           sb := u.sb.filter (fun e => !(e.phase == .retired && e.heldFault.isNone && e.tok.lvl.toNat == t.lvl.toNat + 1 && e.tok.itag.toNat == c)) }
/-- The token that TAGNEW emits (R182). -/
def childToken (t : Token) (c : Nat) : Token :=
  { t with lvl := BitVec.ofNat 3 (t.lvl.toNat + 1), itag := BitVec.ofNat 8 c, wave := 0#10, last := false, col := 0#2 }

/-! ### Constants and counters -/

/-- The constant of a CONST word (R143, R175). -/
def constVal (w : PeWord) : Word := if w.sa == 5#3 then immVal w.fmt.toNat w.imm else 0#64

/-- Free-form CONST at a PE: once in each configuration period, at level 0, ITAG 0, wave 0, colour 0, with LAST (R175). -/
def fireConstFree (w : PeWord) (uid key : Nat) (s : State) : State :=
  let u := s.unit uid
  let p := u.pe key
  if p.constFired || !u.fires || !p.free then s
  else
    let t : Token := { payload := constVal w, fmt := w.fmt, ctx := BitVec.ofNat 2 u.ctx, last := true }
    match wordFault 0x24 u.rm w with
    | some c => s.faultAt uid key (raise c { ctx := BitVec.ofNat 2 u.ctx })
    | none =>
      ((s.modUnit uid (fun u => u.modPe key (fun p => { p with constFired := true }))).fired uid key).deliver uid key w t

/-- CONST in its free form (R175). -/
def execConstFree (w : PeWord) (s : State) : Host.Outcome State Fault Refusal :=
  nextS (match s.focusPe with
    | some (uid, key) => fireConstFree w uid key s
    | none => s)

/-- CONST in its triggered form (R175): the constant with the trigger's tag, colour and LAST. -/
def execConstTriggered (w : PeWord) (s : State) : Host.Outcome State Fault Refusal :=
  nextS (match prepFire 0x24 w s with
    | .wait s1 => s1
    | .fault s1 uid key r => s1.faultAt uid key r
    | .go s1 uid key g => (s1.commitFiring uid key g.toks).deliver uid key w { g.tok with payload := constVal w, fmt := w.fmt })

/-- Token k of an INV (R176). -/
def invToken (t : Token) (k n : Nat) : Token := { t with wave := t.wave + BitVec.ofNat 10 k, last := k + 1 == n }

/-- A node emits once in an arithmetic clock (R176, R180). -/
def State.emitsNow (s : State) (st : Site) : Bool := !s.usedNow st.cl (.node st)
/-- A busy node has emitted in this clock. -/
def State.useNode (s : State) (st : Site) : State := s.useNow st.cl (.node st)

/-- INV (R176): the firing takes both operands and emits token 0; the node is busy for the others. -/
def execInvOp (w : PeWord) (s : State) : Host.Outcome State Fault Refusal :=
  nextS (match prepFire 0x25 w s with
    | .wait s1 => s1
    | .fault s1 uid key r => s1.faultAt uid key r
    | .go s1 uid key g =>
      let n := g.b.v.toNat
      let s2 := s1.commitFiring uid key g.toks
      if n = 0 then s2
      else
        let t := { g.tok with payload := g.a.v, fmt := BitVec.ofNat 4 g.a.t }
        let s3 := s2.deliver uid key w (invToken t 0 n)
        if n = 1 then s3 else (s3.useNode s.focus).setNode uid key (.inv t 1 n))

/-- The PE that an event names, of a unit whose PEs go on; its out port holds back no result (R286). -/
def State.evPe (s : State) (st : Site) : Option (Nat × Nat) :=
  match s.unitAt st.cl st.ctx with
  | none => none
  | some uid =>
    let u := s.unit uid
    let p := u.pe (u.keyOf st)
    if u.fires && p.held.isNone && (!p.halted || p.stepOnce) && p.stub.isNone && !p.portBlocked && !s.stubBusy uid (u.keyOf st) then
      some (uid, u.keyOf st)
    else none

/-- A busy INV emits its next token, subject to the wave window (R31, R176). A killed one is annihilated. -/
def execInvRepeat (s : State) : Host.Outcome State Fault Refusal :=
  nextS (match s.evPe s.ev.site with
    | none => s
    | some (uid, key) =>
      let p := (s.unit uid).pe key
      match p.node with
      | .inv t k n =>
        if (s.unit uid).killed t then s.setNode uid key .idle
        else if !s.emitsNow s.ev.site || !s.windowOpen uid (invToken t k n) then s
        else (((s.useNode s.ev.site).setNode uid key (if k + 1 = n then .idle else .inv t (k + 1) n)).progress uid).deliver uid key p.word (invToken t k n)
      | _ => s)

/-- `base + k * step` in the arithmetic of FMT (R171, R180). -/
def cntrVal (fmt : BitVec 4) (base step : Word) (k : Nat) : Word :=
  if fmt = 14#4 then addrAdd base (k * step.toNat % 2 ^ 64) else base + wd (k * step.toNat)

/-- The registers that a source-form CNTR latches at the start of a configuration period (R180). -/
def UnitSt.latchCntr (u : UnitSt) (w : PeWord) : NodeState :=
  let d := w.imm.toNat % 4
  .cntrSrc (lget u.ixb d 0#64) (lget u.ixs d 0#64) (lget u.ixn d 0#64) 0

/-- A source-form CNTR emits its next index while its gate is open (R180). -/
def emitCntrSource (w : PeWord) (uid key : Nat) (s : State) : State :=
  let u := s.unit uid
  match (u.pe key).node with
  | .cntrSrc base step n k =>
    let t : Token := { payload := cntrVal w.fmt base step k, fmt := w.fmt, ctx := BitVec.ofNat 2 u.ctx, wave := BitVec.ofNat 10 k, last := k + 1 == n.toNat }
    match wordFault 0x36 u.rm w with
    | some c => s.faultAt uid key (raise c { ctx := BitVec.ofNat 2 u.ctx })
    | none =>
      if n.toNat ≤ k || !u.gates.getLsbD (w.imm.toNat / 16 % 16) || !s.windowOpen uid t then s
      else ((s.setNode uid key (.cntrSrc base step n (k + 1))).fired uid key).deliver uid key w t
  | _ => s

/-- CNTR in its source form (R180): the node latches if it has not yet, and emits. -/
def execCntrSource (w : PeWord) (s : State) : Host.Outcome State Fault Refusal :=
  nextS (match s.evPe s.focus with
    | none => s
    | some (uid, key) =>
      match ((s.unit uid).pe key).node with
      | .idle => emitCntrSource w uid key (s.setNode uid key ((s.unit uid).latchCntr w))
      | _ => emitCntrSource w uid key s)


/-- Token k of a triggered CNTR (R180). -/
def cntrToken (w : PeWord) (t : Token) (base step : Word) (k n : Nat) : Token :=
  { t with payload := cntrVal w.fmt base step k, fmt := w.fmt, wave := t.wave + BitVec.ofNat 10 k, last := k + 1 == n }

/-- CNTR in its triggered form (R180): the firing emits token 0; the node is busy for the others. -/
def execCntrTriggered (w : PeWord) (s : State) : Host.Outcome State Fault Refusal :=
  nextS (match prepFire 0x36 w s with
    | .wait s1 => s1
    | .fault s1 uid key r => s1.faultAt uid key r
    | .go s1 uid key g =>
      let n := g.a.v.toNat
      let s2 := s1.commitFiring uid key g.toks
      if n = 0 then s2
      else
        let s3 := s2.deliver uid key w (cntrToken w g.tok g.b.v g.c.v 0 n)
        if n = 1 then s3 else (s3.useNode s.focus).setNode uid key (.cntrTrig g.tok g.b.v g.c.v 1 n))

/-- A busy triggered CNTR emits its next token (R31, R180). -/
def execCntrTriggeredEmit (s : State) : Host.Outcome State Fault Refusal :=
  nextS (match s.evPe s.ev.site with
    | none => s
    | some (uid, key) =>
      let p := (s.unit uid).pe key
      match p.node with
      | .cntrTrig t base step k n =>
        if (s.unit uid).killed t then s.setNode uid key .idle
        else if !s.emitsNow s.ev.site || !s.windowOpen uid (cntrToken p.word t base step k n) then s
        else (((s.useNode s.ev.site).setNode uid key (if k + 1 = n then .idle else .cntrTrig t base step (k + 1) n)).progress uid).deliver uid key p.word
          (cntrToken p.word t base step k n)
      | _ => s)

/-! ### Steering and merging -/

/-- A predicate operand: bit 0 of tag 13, non-zero of tag 1 (R177). -/
def predTrue (o : Opnd) : Bool := if o.t = 13 then o.v.getLsbD 0 else o.v != 0#64

/-- STEER (R177). -/
def execSteer (w : PeWord) (s : State) : Host.Outcome State Fault Refusal :=
  nextS (match prepFire 0x30 w s with
    | .wait s1 => s1
    | .fault s1 uid key r => s1.faultAt uid key r
    | .go s1 uid key g =>
      let s2 := s1.commitFiring uid key g.toks
      if predTrue g.b != w.sub.getLsbD 0 then s2.deliver uid key w { g.tok with payload := g.a.v, fmt := BitVec.ofNat 4 g.a.t } else s2)

/-- A sub-list of tokens for MERGE.p: the predicate and the arm that it chooses, oldest first (R178). -/
def mergeChoice (w : PeWord) (u : UnitSt) (key : Nat) : Option (List (Nat × Token)) :=
  let p := u.pe key
  let arm (a : Opnd) : BitVec 3 := if predTrue a then w.sb else w.sc
  if w.sa.ult 4#3 then
    let cand := (u.avail key w.sa.toNat).filter (fun t =>
      let sel := arm ⟨t.payload, t.fmt.toNat⟩
      if sel.ult 4#3 then (u.avail key sel.toNat).any (fun x => x.sameTag t) else sel != 4#3 || (p.reg w.ei.toNat).full)
    (u.oldest cand).map (fun t =>
      let sel := arm ⟨t.payload, t.fmt.toNat⟩
      (w.sa.toNat, t) :: (if sel.ult 4#3 then ((u.avail key sel.toNat).find? (fun x => x.sameTag t)).toList.map (fun x => (sel.toNat, x)) else []))
  else if w.sa == 4#3 && !(p.reg w.ei.toNat).full then none
  else
    let sel := arm (operandOf 0x31 w p [] w.sa 0x2002)
    if sel.ult 4#3 then (u.oldest (u.avail key sel.toNat)).map (fun t => [(sel.toNat, t)]) else none

/-- MERGE by predicate (R178). -/
def fireMergeP (w : PeWord) (s : State) : State :=
  match s.focusPe with
  | none => s
  | some (uid, key) =>
    let u := (s.unit uid).purge key
    let s1 := s.setUnit uid u
    let p := u.pe key
    match mergeChoice w u key with
    | none => s1
    | some toks =>
      let t0 : Token := (toks.map Prod.snd).headD {}
      match wordFault 0x31 u.rm w with
      | some c => s1.faultAt uid key (raise c t0)
      | none =>
        let a := operandOf 0x31 w p toks w.sa 0x2002
        let first := predTrue a
        let x := if first then operandOf 0x31 w p toks w.sb 0x7FFF else operandOf 0x31 w p toks w.sc 0x7FFF
        if (w.sa == 7#3 || (first && w.sb == 7#3) || (!first && w.sc == 7#3)) && !(p.reg w.ei.toNat).full then s1.faultAt uid key (raise 0x028 t0)
        else
          match tagFault 0 a 0x2002, tagFault (if first then 1 else 2) x 0x7FFF, u.joinCol (toks.map Prod.snd) with
          | some (c, d), _, _ => s1.faultAt uid key (raise c t0 d)
          | none, some (c, d), _ => s1.faultAt uid key (raise c t0 d)
          | none, none, none => s1.faultAt uid key (raise 0x0A8 t0)
          | none, none, some col =>
            (s1.commitFiring uid key toks).deliver uid key w { t0 with ctx := BitVec.ofNat 2 u.ctx, payload := x.v, fmt := BitVec.ofNat 4 x.t, col := col, last := joinLast (toks.map Prod.snd) }

/-- MERGE by first arrival (R178): the oldest token of either arm, unchanged. -/
def fireMergeAny (w : PeWord) (s : State) : State :=
  match s.focusPe with
  | none => s
  | some (uid, key) =>
    let u := (s.unit uid).purge key
    let s1 := s.setUnit uid u
    let arms := [w.sa, w.sb].filterMap (fun x => if x.ult 4#3 then some x.toNat else none)
    match u.oldest (arms.flatMap (fun q => u.avail key q)) with
    | none => s1
    | some t =>
      let q := (arms.find? (fun q => (u.avail key q).contains t)).getD 0
      match wordFault 0x31 u.rm w with
      | some c => s1.faultAt uid key (raise c t)
      | none =>
        match tagFault (if w.sa.toNat = q then 0 else 1) ⟨t.payload, t.fmt.toNat⟩ 0x7FFF with
        | some (c, d) => s1.faultAt uid key (raise c t d)
        | none => (s1.commitFiring uid key [(q, t)]).deliver uid key w { t with ctx := BitVec.ofNat 2 u.ctx, col := u.effCol t.col }

/-- MERGE (R178). -/
def execMerge (w : PeWord) (s : State) : Host.Outcome State Fault Refusal :=
  nextS (if w.sub.getLsbD 0 then fireMergeAny w s else fireMergeP w s)

/-! ### Waves and tags -/

/-- WADV (R179): the next wave, held in the node while the window or a drain holds it (R31). -/
def execWadv (w : PeWord) (s : State) : Host.Outcome State Fault Refusal :=
  nextS (match prepFire 0x32 w s with
    | .wait s1 => s1
    | .fault s1 uid key r => s1.faultAt uid key r
    | .go s1 uid key g =>
      let t := { g.tok with payload := g.a.v, fmt := BitVec.ofNat 4 g.a.t, wave := g.tok.wave + 1#10 }
      let s2 := s1.commitFiring uid key g.toks
      if s2.windowOpen uid t then s2.deliver uid key w t else s2.setNode uid key (.wadvHold t))

/-- A result held by the window is emitted (R31). -/
def execWaveHoldRelease (s : State) : Host.Outcome State Fault Refusal :=
  nextS (match s.evPe s.ev.site with
    | none => s
    | some (uid, key) =>
      let p := (s.unit uid).pe key
      match p.node with
      | .wadvHold t =>
        if s.windowOpen uid t then ((s.setNode uid key .idle).progress uid).deliver uid key p.word t else s
      | _ => s)

/-- TAGNEW (R182, R34): a free tag is taken now, or the node waits with its operand. -/
def execTagnew (w : PeWord) (s : State) : Host.Outcome State Fault Refusal :=
  nextS (match prepFire 0x33 w s (fun u t => u.effCol t.col == 0#2) with
    | .wait s1 => s1
    | .fault s1 uid key r => s1.faultAt uid key r
    | .go s1 uid key g =>
      if g.tok.lvl = 7#3 then s1.faultAt uid key (raise 0x0A5 g.tok)
      else
        let t := { g.tok with payload := g.a.v, fmt := BitVec.ofNat 4 g.a.t }
        let exits := w.imm.toNat % 16 + 1
        let s2 := s1.commitFiring uid key g.toks
        match s2.freeTag uid t with
        | some c => (s2.modUnit uid (fun u => u.allocTag t c exits)).deliver uid key w (childToken t c)
        | none => s2.setNode uid key (.tagnewWait t exits))

/-- A waiting TAGNEW takes its tag (R34). -/
def execTagnewWaitEnd (s : State) : Host.Outcome State Fault Refusal :=
  nextS (match s.evPe s.ev.site with
    | none => s
    | some (uid, key) =>
      let p := (s.unit uid).pe key
      match p.node with
      | .tagnewWait t exits =>
        match s.freeTag uid t with
        | some c => ((s.modUnit uid (fun u => (u.allocTag t c exits).modPe key (fun p => { p with node := .idle }))).progress uid).deliver uid key p.word (childToken t c)
        | none => s
      | _ => s)

/-- TAGXL (R183): a in the parent's tag with b in the child's. -/
def execTagxl (w : PeWord) (s : State) : Host.Outcome State Fault Refusal :=
  nextS (match s.focusPe with
    | none => s
    | some (uid, key) =>
      let u := (s.unit uid).purge key
      let s1 := s.setUnit uid u
      if !(w.sa.ult 4#3 && w.sb.ult 4#3) then s1
      else
        let bs := u.avail key w.sb.toNat
        match u.oldest (bs.filter (fun t => (u.tagEntry t.lvl.toNat t.itag.toNat).isNone)) with
        | some t =>
          match wordFault 0x34 u.rm w with
          | some c => s1.faultAt uid key (raise c t)
          | none => s1.faultAt uid key (raise 0x0A7 t)
        | none =>
          let parent (b a : Token) : Bool :=
            match u.tagEntry b.lvl.toNat b.itag.toNat with
            | some e => a.lvl.toNat == e.plvl && a.itag.toNat == e.pitag && a.wave == e.pwave
            | none => false
          match u.oldest (bs.filter (fun b => (u.avail key w.sa.toNat).any (parent b))) with
          | none => s1
          | some b =>
            let a := ((u.avail key w.sa.toNat).find? (parent b)).getD {}
            match wordFault 0x34 u.rm w, tagFault 0 ⟨a.payload, a.fmt.toNat⟩ 0x7FFF, tagFault 1 ⟨b.payload, b.fmt.toNat⟩ 0x7FFF, u.joinCol [a, b] with
            | some c, _, _, _ => s1.faultAt uid key (raise c b)
            | none, some (c, d), _, _ => s1.faultAt uid key (raise c b d)
            | none, none, some (c, d), _ => s1.faultAt uid key (raise c b d)
            | none, none, none, none => s1.faultAt uid key (raise 0x0A8 b)
            | none, none, none, some col =>
              (s1.commitFiring uid key [(w.sa.toNat, a), (w.sb.toNat, b)]).deliver uid key w
                { b with ctx := BitVec.ofNat 2 u.ctx, payload := a.payload, fmt := a.fmt, last := false, col := col })

/-- TAGEND (R184): the parent's tag; LAST counts down the exits and frees the tag at 0. -/
def execTagend (w : PeWord) (s : State) : Host.Outcome State Fault Refusal :=
  nextS (match prepFire 0x35 w s (fun u t => u.effCol t.col == 0#2) with
    | .wait s1 => s1
    | .fault s1 uid key r => s1.faultAt uid key r
    | .go s1 uid key g =>
      match (s1.unit uid).tagEntry g.tok.lvl.toNat g.tok.itag.toNat with
      | none => s1.faultAt uid key (raise 0x0A7 g.tok)
      | some e =>
        let upd (l : List TagEntry) : List TagEntry :=
          if !g.tok.last then l
          else if e.exits ≤ 1 then l.filter (fun x => !(x.lvl == e.lvl && x.itag == e.itag))
          else l.map (fun x => if x.lvl == e.lvl && x.itag == e.itag then { x with exits := x.exits - 1 } else x)
        let gone : List (Nat × Nat) := if g.tok.last && decide (e.exits ≤ 1) then [(e.lvl, e.itag)] else []
        ((s1.commitFiring uid key g.toks).modUnit uid (fun u => { u with tags := upd u.tags, freed := u.freed ++ gone })).deliver uid key w
          { g.tok with payload := g.a.v, fmt := BitVec.ofNat 4 g.a.t, lvl := BitVec.ofNat 3 e.plvl, itag := BitVec.ofNat 8 e.pitag
                       wave := e.pwave, last := false, col := 0#2 })

/-! ### Colours -/

/-- A colour whose counter is zero returns to open, and every COLOR that waits for it proceeds (R35, R185). -/
def State.reopenColour (s : State) (uid k : Nat) : State :=
  let waiting := (s.unit uid).pes.filterMap (fun p => match p.2.node with
    | .colorWait t k' => if k' == k then some (p.1, t) else none
    | _ => none)
  waiting.foldl (fun s p => (s.setNode uid p.1 .idle).deliver uid p.1 (((s.unit uid).pe p.1).word) { p.2 with col := BitVec.ofNat 2 k })
    (s.modUnit uid (fun u => u.setCol k 0))
/-- COLOR (R185, R35): paints with colour k, waiting in the node while the colour commits or kills. -/
def execColor (w : PeWord) (s : State) : Host.Outcome State Fault Refusal :=
  nextS (match prepFire 0x37 w s with
    | .wait s1 => s1
    | .fault s1 uid key r => s1.faultAt uid key r
    | .go s1 uid key g =>
      let k := w.imm.toNat % 4
      let t := { g.tok with payload := g.a.v, fmt := BitVec.ofNat 4 g.a.t }
      if t.col != 0#2 && t.col.toNat != k then s1.faultAt uid key (raise 0x0A8 g.tok)
      else
        let s2 := s1.commitFiring uid key g.toks
        let u := s2.unit uid
        if u.colState k = 0 then s2.deliver uid key w { t with col := BitVec.ofNat 2 k }
        else if s2.colourCount u k = 0 && !u.decided.contains k then
          (s2.reopenColour uid k).deliver uid key w { t with col := BitVec.ofNat 2 k }
        else s2.setNode uid key (.colorWait t k))

/-- A colour whose counter is zero returns to open as a COLOR that waits for it in a unit that fires proceeds (R35); with no COLOR waiting its
state stays as COMMIT or KILL left it, as the example after R40 shows (DEDUCED, log 36). -/
def execColourRelease (s : State) : Host.Outcome State Fault Refusal :=
  nextS (
    let uid := s.ev.u
    let k := s.ev.k
    let u := s.unit uid
    if !u.fires || u.colState k = 0 || s.colourCount u k != 0 || u.decided.contains k then s
    else if u.pes.any (fun p => match p.2.node with
        | .colorWait _ k' => k' == k
        | _ => false) then s.reopenColour uid k
    else s)

/-- The store buffer's entries of colour k have colour 0; its held writes issue now, each in the place that it keeps in program order;
held faults are raised (R38). -/
def State.commitColour (s : State) (uid k : Nat) : State :=
  let u := s.unit uid
  let faults := u.sb.filterMap (fun e => if e.tok.col.toNat == k then e.heldFault.map (fun r => (e, r)) else none)
  let s1 := s.modUnit uid (fun u => { (u.setCol k 1) with sb := u.sb.map (fun e =>
    if e.tok.col.toNat == k then
      { e with tok := { e.tok with col := 0#2 }, phase := if e.phase == .heldWrite then .waiting else e.phase, heldFault := none }
    else e) })
  faults.foldl (fun s p => s.takeFault uid (some ((s.unit uid).keyOf p.1.site)) p.2) s1
/-- Writes of colour k are no-operations: those whose turn has come are done, the others when it comes. A load's result is annihilated, its
held fault discarded (R39). -/
def State.killColour (s : State) (uid k : Nat) : State :=
  let u := s.unit uid
  let dead := u.sb.filter (fun e => e.tok.col.toNat == k && e.phase == .heldWrite)
  let s1 := s.modUnit uid (fun u => { (u.setCol k 2) with sb := u.sb.map (fun e =>
    if e.tok.col.toNat == k then { e with phase := if e.phase == .heldWrite then .retired else e.phase, killed := true, heldFault := none } else e) })
  dead.foldl (fun s e => s.resolveOut uid ((s.unit uid).keyOf e.site) e.id none) s1

/-- COMMIT (0x38) and KILL (0x39) (R186, R38 to R40). -/
def fireDecision (opc : Nat) (kind : BitVec 2) (apply : State → Nat → Nat → State) (w : PeWord) (s : State) : State :=
  match prepFire opc w s (fun u t => u.effCol t.col == 0#2) with
  | .wait s1 => s1
  | .fault s1 uid key r => s1.faultAt uid key r
  | .go s1 uid key g =>
    let k := w.imm.toNat % 4
    if k = 0 || (s1.unit uid).colState k != 0 then s1.faultAt uid key (raise 0x0A9 g.tok)
    else
      let t := { g.tok with payload := 0#64, fmt := 0#4, col := BitVec.ofNat 2 k, kind := kind, last := false }
      ((apply (s1.commitFiring uid key g.toks) uid k).modUnit uid (fun u => { u with decided := u.decided ++ [k] })).emit uid key t
/-- COMMIT (R186, R38). -/
def execCommit (w : PeWord) (s : State) : Host.Outcome State Fault Refusal := nextS (fireDecision 0x38 2#2 State.commitColour w s)
/-- KILL (R186, R39). -/
def execKill (w : PeWord) (s : State) : Host.Outcome State Fault Refusal := nextS (fireDecision 0x39 3#2 State.killColour w s)

/-- The tokens that a COMMIT or KILL token passes where it stands: those on the same lane input or the same packet route (R38, R39). -/
def Flight.passes (f g : Flight) : Bool :=
  g.tok.kind == 0#2 && g.tok.col == f.tok.col && g.pos == f.pos && g.q == f.q &&
    (if f.q.isSome then g.src == f.src else f.inp == g.inp && (f.inp == 0 || f.lane == g.lane))
/-- A KIND 2 or 3 token passes the place where it stands: a token of its colour there is restamped or annihilated. Then it goes on over
every link and packet head of its route; at a queue it ends (R38, R39, R186). It takes no place on a lane. -/
def execCommitTokenPass (s : State) : Host.Outcome State Fault Refusal :=
  nextS (match s.flights[s.ev.i]? with
    | none => s
    | some f =>
      if f.tok.kind != 2#2 && f.tok.kind != 3#2 then s
      else
        let rest := ldel s.flights s.ev.i
        let passed := if f.tok.kind = 2#2 then rest.map (fun g => if f.passes g then { g with tok := { g.tok with col := 0#2 } } else g)
          else rest.filter (fun g => !f.passes g)
        let s1 := { s with flights := passed }
        match s.flightUnit f, f.q with
        | some uid, none =>
          let u := s.unit uid
          let links := (u.outsOf f).filterMap (fun o => (nextPlace f.pos o).map (fun p => ({ f with pos := p.1, inp := p.2.1, lane := p.2.2 } : Flight)))
          let packets := (u.headsOf f).map (fun d => ({ f with pos := d.1, inp := 0, lane := 0, q := some d.2 } : Flight))
          { s1 with flights := passed ++ links ++ packets }
        | _, _ => s1)

/-! ### Gates, sinks and streams -/

/-- GATE (R189): passes its operand while the gate is open, holds it in the node while it is closed or a drain is on. -/
def execGate (w : PeWord) (s : State) : Host.Outcome State Fault Refusal :=
  nextS (match prepFire 0x3A w s with
    | .wait s1 => s1
    | .fault s1 uid key r => s1.faultAt uid key r
    | .go s1 uid key g =>
      let t := { g.tok with payload := g.a.v, fmt := BitVec.ofNat 4 g.a.t }
      let s2 := s1.commitFiring uid key g.toks
      if (s2.unit uid).gates.getLsbD (w.imm.toNat % 16) && !(s2.unit uid).isDraining then s2.deliver uid key w t
      else s2.setNode uid key (.gateHold t))

/-- Tokens held by GATE nodes whose gate is open go on (R189). -/
def State.releaseGates (s : State) (uid : Nat) : State :=
  let u := s.unit uid
  let held := u.pes.filterMap (fun p => match p.2.node with
    | .gateHold t => if u.gates.getLsbD (p.2.word.imm.toNat % 16) then some (p.1, t) else none
    | _ => none)
  held.foldl (fun s p => (s.setNode uid p.1 .idle).deliver uid p.1 (((s.unit uid).pe p.1).word) p.2) s

/-- SINK (R190). -/
def execSink (w : PeWord) (s : State) : Host.Outcome State Fault Refusal :=
  nextS (
    let k := w.imm.toNat % 16
    let discard := w.imm.getLsbD 4
    match prepFire 0x3B w s with
    | .wait s1 => s1
    | .fault s1 uid key r => s1.faultAt uid key r
    | .go s1 uid key g =>
      if discard then s1.commitFiring uid key g.toks
      else if (agetD (s1.unit uid).sinks k []).length ≥ 4 then s1
      else (s1.commitFiring uid key g.toks).modUnit uid (fun u =>
        { u with sinks := aset u.sinks k (agetD u.sinks k [] ++ [{ g.tok with payload := g.a.v, fmt := BitVec.ofNat 4 g.a.t }]) }))

/-- SCALETOK (R193): a constant from B serves one stream on A. -/
def execScaletok (w : PeWord) (s : State) : Host.Outcome State Fault Refusal :=
  nextS (match s.focusPe with
    | none => s
    | some (uid, key) =>
      let u := (s.unit uid).purge key
      let s1 := s.setUnit uid u
      let e := (u.pe key).reg w.ei.toNat
      let sel := if e.full then w.sa else w.sb
      if !sel.ult 4#3 then s1
      else
        match u.oldest (u.avail key sel.toNat) with
        | none => s1
        | some t =>
          match wordFault 0x3C u.rm w, tagFault (if e.full then 0 else 1) ⟨t.payload, t.fmt.toNat⟩ 0x7FFF with
          | some c, _ => s1.faultAt uid key (raise c t)
          | none, some (c, d) => s1.faultAt uid key (raise c t d)
          | none, none =>
            let s2 := s1.commitFiring uid key [(sel.toNat, t)]
            if !e.full then s2.modUnit uid (fun u => u.modPe key (fun p => p.setReg w.ei.toNat ⟨true, t.fmt, t.payload⟩))
            else
              let s3 := if t.last then s2.modUnit uid (fun u => u.modPe key (fun p => p.setReg w.ei.toNat {})) else s2
              s3.sendOut uid key { t with ctx := BitVec.ofNat 2 u.ctx, payload := e.val, fmt := e.tag, col := u.effCol t.col })

/-- WAITF (R191). -/
def execWaitf (w : PeWord) (s : State) : Host.Outcome State Fault Refusal :=
  nextS (match prepFire 0x3D w s with
    | .wait s1 => s1
    | .fault s1 uid key r => s1.faultAt uid key r
    | .go s1 uid key g =>
      let s2 := s1.commitFiring uid key g.toks
      if g.tok.last then s2.deliver uid key w { g.tok with payload := g.a.v, fmt := BitVec.ofNat 4 g.a.t } else s2)

/-- SETE (R192): delivers the value of the previous firing in the tag of this one. -/
def execSete (w : PeWord) (s : State) : Host.Outcome State Fault Refusal :=
  nextS (match prepFire 0x3E w s with
    | .wait s1 => s1
    | .fault s1 uid key r => s1.faultAt uid key r
    | .go s1 uid key g =>
      let e := ((s1.unit uid).pe key).reg w.ei.toNat
      let o : Opnd := if e.full then ⟨e.val, e.tag.toNat⟩ else g.b
      let s2 := s1.commitFiring uid key g.toks
      let s3 := s2.modUnit uid (fun u => u.modPe key (fun p =>
        p.setReg w.ei.toNat (if g.tok.last then {} else ⟨true, BitVec.ofNat 4 g.a.t, g.a.v⟩)))
      s3.sendOut uid key { g.tok with payload := o.v, fmt := BitVec.ofNat 4 o.t })

end Sys2Proof.Machine
end

