-- ==== Sys2Proof/Machine/Special.lean ====
section
/-! DEFINITION. The special registers (R149, R280 to R283): what each reads, and what a write does under the Kinds of its
fields. MFS, MTS, RDST and WRST go through these two operations. -/

namespace Sys2Proof.Machine

/-- USTAT as it reads (R281): counters saturate at 0xFFFF. -/
def State.ustat (s : State) (u : UnitSt) : Nat :=
  let cnt (k : Nat) : Nat := Nat.min (s.colourCount u k) 0xFFFF
  b2n u.flags.nx + 2 * b2n u.flags.uf + 4 * b2n u.flags.ofl + 8 * b2n u.flags.dz + 16 * b2n u.flags.nv + 32 * b2n u.flags.tblinex +
    64 * b2n u.flags.narrow + 128 * u.rm.toNat + 2 ^ 10 * u.col1 + 2 ^ 12 * u.col2 + 2 ^ 14 * u.col3 +
    2 ^ 16 * cnt 1 + 2 ^ 32 * cnt 2 + 2 ^ 48 * cnt 3
/-- A write of USTAT: RM and the sticky flags (R281). Flags raised in the same arithmetic clock survive it (R198). -/
def UnitSt.setUstat (u : UnitSt) (v : Word) : UnitSt :=
  let now := u.flagsNow
  { u with rm := v.extractLsb' 7 3
           flags := { nx := v.getLsbD 0 || now.nx, uf := v.getLsbD 1 || now.uf, ofl := v.getLsbD 2 || now.ofl, dz := v.getLsbD 3 || now.dz
                      nv := v.getLsbD 4 || now.nv, tblinex := v.getLsbD 5 || now.tblinex, narrow := v.getLsbD 6 || now.narrow } }
/-- WREF (R136): the refresh window in progress on a die, or the next. -/
def wrefOf (cyc : Nat) : Nat :=
  let k := if cyc % 128 < 96 then cyc / 128 else cyc / 128 + 1
  k * 128 + k % 16
/-- DEADLN (R280). -/
def State.deadln (s : State) (j : Nat) : Word :=
  let jb := s.job j
  if jb.cls = 0 then wd jb.deadline - s.hub else 0x7FFFFFFFFFFFFFFF#64

/-- Special register n as a unit reads it from cluster `cl`; `none` is cause 0x0E2 (R149). -/
def State.readSpecial (s : State) (uid cl n : Nat) : Option Word :=
  let u := s.unit uid
  let c := s.cluster cl
  match n with
  | 0x00 => some u.ccnt
  | 0x01 => some u.tvec
  | 0x02 => some u.tepc
  | 0x03 => some (u.tcause.setWidth 64)
  | 0x04 => some u.taddr
  | 0x05 => some (u.ttag.setWidth 64)
  | 0x08 => some (wd (s.ustat u))
  | 0x09 => some (u.uctl.setWidth 64)
  | 0x28 => some c.roles
  | 0x29 => some (wd (b2n c.lsMode))
  | 0x2A => some (u.swz.setWidth 64)
  | 0x2B => some (wd (wrefOf (s.die (dieOf u.lead)).cyc.toNat))
  | 0x2C | 0x2D | 0x2E | 0x2F => some (s.die (n - 0x2C)).cyc
  | 0x30 => some (s.die (dieOf u.lead)).cyc
  | 0x31 => some u.fired
  | 0x32 => some (u.unitid.setWidth 64)
  | 0x33 => some (wd u.job)
  | 0x34 => some (s.deadln u.job)
  | 0x35 => some u.ovft
  | _ =>
    if 0x10 ≤ n && n < 0x14 then some (lget u.ixb (n - 0x10) 0#64)
    else if 0x14 ≤ n && n < 0x18 then some (lget u.ixs (n - 0x14) 0#64)
    else if 0x18 ≤ n && n < 0x1C then some (lget u.ixn (n - 0x18) 0#64)
    else if 0x20 ≤ n && n < 0x28 then some ((lget u.lvl (n - 0x20) 0#9).setWidth 64)
    else none

/-- A write of special register n by a unit: RW fields take their bits, RZ bits stay zero, RO registers discard it (R2). The
number has been checked. -/
def UnitSt.writeSpecial (u : UnitSt) (n : Nat) (v : Word) : UnitSt :=
  let code : Word := v &&& 0x00FFFFFFFFFFFFFC#64
  match n with
  | 0x01 => { u with tvec := code }
  | 0x02 => { u with tepc := code }
  | 0x08 => u.setUstat v
  | 0x09 => { u with uctl := (v &&& 0xF1F#64).setWidth 12 }
  | 0x2A => { u with swz := (v &&& 0xFF01#64).setWidth 16 }
  | 0x35 => { u with ovft := v &&& 0x00FFFFFFFFFFFFF0#64 }
  | _ =>
    if 0x10 ≤ n && n < 0x14 then { u with ixb := lput 0#64 u.ixb (n - 0x10) v }
    else if 0x14 ≤ n && n < 0x18 then { u with ixs := lput 0#64 u.ixs (n - 0x14) v }
    else if 0x18 ≤ n && n < 0x1C then { u with ixn := lput 0#64 u.ixn (n - 0x18) v }
    else if 0x20 ≤ n && n < 0x28 then { u with lvl := lput 0#9 u.lvl (n - 0x20) (v.setWidth 9) }
    else u

end Sys2Proof.Machine
end

