-- ==== Sys2Proof/Machine/TileTask.lean ====
section
/-! DEFINITION. The tile-task scheduler of a die and MGRP (R133, R154, R270 to R273, R303). -/

namespace Sys2Proof.Machine

/-- OPC, NPTR, MB, NB and HANDLER of a record's header (R154). -/
def recOpc (h : Word) : Nat := wbits h 63 56
def recNptr (h : Word) : Nat := wbits h 55 52
def recMb (h : Word) : Nat := wbits h 51 49
def recNb (h : Word) : Nat := wbits h 48 46
def recHandler (h : Word) : Nat := wbits h 43 32
/-- Blocks of a record (R272). -/
def TileTask.blocks (t : TileTask) : Nat := (recMb t.hdr + 1) * (recNb t.hdr + 1)

/-- The cause with which submission refuses a record (R154, R270). -/
def recFault (va : Nat) (h : Word) : Option Nat :=
  if va % 64 != 0 || recOpc h < 0x10 || 0x17 < recOpc h || 4 < recNptr h || wbits h 45 44 != 0 || wbits h 31 0 != 0 then some 0x0C4
  else if recOpc h != 0x17 then some 0x0C7 else none
/-- The cause with which MGRP refuses its words (R271). MOD 5 takes USTAT.RM of the submission, and a reserved RM is cause 0x001 (log 48). MOD 6
and 7 are cause 0x0CA, as the other bits of w3 that have no meaning: R271 names no cause for them (DESIGN CHOICE, log 62). -/
def mgrpFault (ws : List Word) (rm : BitVec 3) : Option Nat :=
  let w3 := lget ws 3 0#64
  if !(ws.take 3).all (fun w => wbits w 63 56 == 0) || wbits w3 63 10 != 0 || 5 < wbits w3 7 5 then some 0x0CA
  else if (roundMode (BitVec.ofNat 3 (wbits w3 7 5)) rm).isNone then some 0x001 else none

/-- A record is refused: a record in the job's ring and the completion word with STATUS 0x03 (R154). -/
def State.refuseRecord (s : State) (uid va cause : Nat) (h done d1 : Word) : State :=
  let u := s.unit uid
  (s.unitRecord uid { unitRec u cause 2 with addr := va, d0 := h.toNat, d1 := d1.toNat }).completionWord u.job { launch := u.launch, kseq := u.kseq } done 0 0 0 3

/-- TTQ and TTQC pass a record to the scheduler (R258, R270): it is read, refused, or joins the wait list, ready if its counter
is 0. While the handler entry is BUSY the submitter waits: R270 gives records no time limit (DESIGN CHOICE, log 65). -/
def State.submitRecord (s : State) (uid cl : Nat) (a : Word) : State × SendRes :=
  let u := s.unit uid
  let va := a.toNat % 2 ^ 56
  let d := dieOf cl
  if 1024 ≤ ((s.die d).tasks.filter (fun t => t.nextBlk == 0)).length then (s, .wait)
  else
    match s.probe cl u.job (probesOf va 64 .load) with
    | (s1, some (.fault f)) => (s1, .fault f.cause va f.d0 f.d1)
    | (s1, some _) => (s1, .wait)
    | (s1, none) =>
      let r := s1.readRange cl u.job va 64
      let w (k : Nat) : Word := wd (leNat ((r.2.drop (8 * k)).take 8))
      let h := w 0
      match recFault va h with
      | some c => (r.1.refuseRecord uid va c h (w 7) 0#64, .done)
      | none =>
        match r.1.handlerEntry ⟨.matrix, cl⟩ (recHandler h) with
        | none => (r.1.refuseRecord uid va 0x0C2 h (w 7) 0#64, .done)
        | some (ea, e) =>
          if !r.1.hostReady ea 64 false then (r.1.sendSnoops ea 64 false, .wait)
          else if !bit e 63 then (r.1.refuseRecord uid va 0x0C2 h (w 7) (wd e), .done)
          else if bit e 62 then (r.1, .wait)
          else if bits e 31 0 != u.job then (r.1.refuseRecord uid va 0x0C5 h (w 7) (wd e), .done)
          else if bits e 55 48 != 0x17 then (r.1.refuseRecord uid va 0x0C7 h (w 7) (wd e), .done)
          else
            let dflt (k : Nat) : Word := wd (r.1.cohN (ea + 8 + 8 * k) 8)
            let ws := (upFrom 0 4).map (fun k => if k < recNptr h then w (3 + k) else dflt k)
            match mgrpFault ws u.rm with
            | some c => (r.1.refuseRecord uid va c h (w 7) (wd e), .done)
            | none =>
              let cnt := (w 1).toNat % 2 ^ 56
              if cnt % 8 != 0 then (r.1, .fault 0x060 cnt 0#64 0#64)
              else
                match readG r.1 cl u.job cnt 8 .load 0 with
                | (s2, .error (.fault f)) => (s2, .fault f.cause cnt f.d0 f.d1)
                | (s2, .error _) => (s2, .wait)
                | (s2, .ok b) =>
                  let now := leNat b = 0
                  let t : TileTask := { addr := va, unit := uid, job := u.job, cl := cl, hdr := h, words := ws, d4 := dflt 4, succ := w 2, done := w 7,
                                        cnt := cnt, sub := (s2.die d).subCtr, rdy := if now then (s2.die d).cyc.toNat + 1 else 0
                                        id := (s2.unit uid).nextId, rm := u.rm }
                  ((s2.modDie d (fun x => { x with tasks := x.tasks ++ [t], subCtr := x.subCtr + 1 })).modUnit uid
                    (fun x => { x with nextId := x.nextId + 1 }), .done)

/-- The task context of cluster `cl` computes a block. -/
def State.taskRuns (s : State) (cl : Nat) : Bool := (s.die (dieOf cl)).tasks.any (fun t => t.running.any (fun p => p.2 == cl))
/-- The CIM slots of a cluster are those of a live job that does not share its engines with tile tasks (R131, R133). -/
def State.slotsKept (s : State) (cl : Nat) : Bool :=
  match (s.cluster cl).lsJob with
  | some j => (aget s.jobs j).any (fun b => !b.tileShare && !b.ended)
  | none => false
/-- A matrix engine that the scheduler may use: no job without tile-task sharing has its cluster or its CIM slots, and its task accumulator
is free (R131, R133, R272). -/
def State.taskEngine (s : State) (cl : Nat) : Bool :=
  !s.taskRuns cl && !(s.cluster cl).unavail && !s.slotsKept cl &&
    s.units.all (fun p => !(p.2.inRegion && p.2.covers cl) || (s.job p.2.job).tileShare)
/-- A tile task takes an engine. What a job that is no more has left in its CIM slots is not kept: the next job finds them empty (R131). -/
def State.takeEngine (s : State) (cl : Nat) : State :=
  s.modCluster cl (fun c => { c with lsJob := if c.lsJob.any (fun j => !(s.job j).tileShare) then none else c.lsJob })
/-- The record whose turn it is: ready longest, then submitted first, of those with blocks to hand out (R303): its place in the list, with the
clock in which it became ready and its place in the order of submission. -/
def nextTask : List TileTask → Nat → Option (Nat × Nat × Nat)
  | [], _ => none
  | t :: r, i =>
    let rest := nextTask r (i + 1)
    if t.rdy = 0 || t.blocks ≤ t.nextBlk then rest
    else
      match rest with
      | some (j, o, k) => if o < t.rdy || (o == t.rdy && decide (k < t.sub)) then some (j, o, k) else some (i, t.rdy, t.sub)
      | none => some (i, t.rdy, t.sub)

/-- TILE_TASK_START (R272, R303): the record whose turn it is hands its next blocks to the free task contexts of the die. -/
def execTileTaskStart (s : State) : Host.Outcome State Fault Refusal :=
  nextS (
    let d := s.ev.die
    match nextTask (s.die d).tasks 0 with
    | none => s
    | some (i, _) =>
      (upFrom (80 * d) 80).foldl (fun s cl =>
        let t := lget (s.die d).tasks i {}
        if t.nextBlk < t.blocks && t.running.length < 64 && s.taskEngine cl then
          (s.takeEngine cl).modDie d (fun x => { x with tasks := lmod x.tasks i (fun t => { t with nextBlk := t.nextBlk + 1, running := t.running ++ [(t.nextBlk, cl)] }) })
        else s) s)

/-- The outcome of a block: `bad` says whether a product has run before the failure; `ok` has the flags and the scope of C's page. -/
inductive BlockRes where
  | wait (s : State)
  | bad (s : State) (ran : Bool) (f : TFault) (addr : Nat)
  | ok (s : State) (flags scope : Nat)

/-- The codebook of a record: its 16 entries of 2 bytes at D4 and its CBID in the 2 bytes behind them; R271 gives D4 no layout (DESIGN CHOICE,
log 66). -/
def State.taskTable (s : State) (cl job : Nat) (d4 : Word) : State × Except TrRes (Option (List Nat × Nat)) :=
  if d4 = 0#64 then (s, .ok none)
  else
    let va := d4.toNat % 2 ^ 56
    match s.probe cl job (probesOf va 34 .load) with
    | (s1, some r) => (s1, .error r)
    | (s1, none) =>
      let r := s1.readRange cl job va 34
      (r.1, .ok (some (unpackCodes 16 16 (leNat (r.2.take 32)), leNat (r.2.drop 32))))

/-- The products of a block on the engine of cluster `eng` (R271): k from 0 to KB − 1, the first a set. B(k, j) is loaded into a task slot,
b240 to b255, as by MBLD; A is streamed from memory. -/
def State.blockProducts (s : State) (eng cl job : Nat) (tab : Option (List Nat × Nat)) (aAt bAt : Nat → Nat) : Nat → Nat → Acc → BlockRes × Acc
  | 0, _, acc => (.ok s 0 0, acc)
  | n + 1, k, acc =>
    let ran := k != 0
    match s.readImage cl job (bAt k) 0 .tileLoad 4 with
    | (s1, .fault f) => (.bad s1 ran f (bAt k), acc)
    | (s1, .wait) => (.wait s1, acc)
    | (s0, .ok tb ib) =>
      let slot : CimSlot := { tile := ⟨BitVec.ofNat 4 tb, ib⟩, src := wd (bAt k), fmt := 0 }
      let s1 := s0.modCluster eng (fun c => { c with cim := aset c.cim (240 + k % 16) slot })
      match s1.readImage cl job (aAt k) 0 .tileLoad 4 with
      | (s2, .fault f) => (.bad s2 ran f (aAt k), acc)
      | (s2, .wait) => (.wait s2, acc)
      | (s2, .ok ta ia) =>
        if 3 < ta then (.bad s2 ran (tagCause 0x023 ta 3) (aAt k), acc)
        else if tb = 4 && !(tab.any (fun t => t.2 == imgCbid ib)) then (.bad s2 ran (cause 0x02F) (bAt k), acc)
        else
          match mmulAcc (if k = 0 then 0 else 1) (viewTile ta ia []) (viewTile tb ib (tab.map Prod.fst |>.getD [])) acc with
          | .error c => (.bad s2 ran (cause c) 0, acc)
          | .ok acc1 => State.blockProducts s2 eng cl job tab aAt bAt n (k + 1) acc1

/-- One block of MGRP in the task context of cluster `cl`: its products into the task accumulator, its drain and its C image
(R133, R271). -/
def State.runBlock (s : State) (t : TileTask) (blk cl : Nat) : BlockRes :=
  let nb := recNb t.hdr + 1
  let i := blk / nb
  let j := blk % nb
  let w3 := lget t.words 3 0#64
  let kb := wbits w3 2 0 + 1
  let base (k : Nat) : Nat := (lget t.words k 0#64).toNat % 2 ^ 56
  match s.taskTable t.cl t.job t.d4 with
  | (s1, .error (.fault f)) => .bad s1 false f (t.d4.toNat % 2 ^ 56)
  | (s1, .error _) => .wait s1
  | (s1, .ok tab) =>
    let r := s1.blockProducts cl t.cl t.job tab (fun k => (base 0 + 4096 * (i * kb + k)) % 2 ^ 56) (fun k => (base 1 + 4096 * (k * nb + j)) % 2 ^ 56) kb 0 {}
    match r.1 with
    | .ok sp _ _ =>
      let s2 := sp.modCluster cl (fun c => { c with taskAcc := r.2 })
      let out := wbits w3 4 3
      let acc := (s2.cluster cl).taskAcc
      let mode := (roundMode (BitVec.ofNat 3 (wbits w3 7 5)) t.rm).getD 0
      let img : List Byte × Nat := if out = 0 then drainF32 mode (w3.getLsbD 8) (w3.getLsbD 9) acc else quantise out (accValues acc)
      let tag := if out = 0 then 7 else out
      let va := (base 2 + 4096 * (i * nb + j)) % 2 ^ 56
      if va % 128 != 0 || 4096 < va % 4096 + imageLen tag then .bad s2 true (cause 0x061) va
      else
        match writeG s2 (t.unit, t.id) t.cl t.job va (storedImage tag img.1) .tileStore 4 with
        | (s3, none) => .ok (s3.count (9 + dieOf t.cl) kb) (img.2 ||| (tab.map (fun x => (heldTable x.1).2)).getD 0) (s3.scopeAt t.cl t.job va)
        | (s3, some (.fault f)) => .bad s3 true f va
        | (s3, some _) => .wait s3
    | x => x

/-- Records of a die that wait on the counter at `cnt` become ready: it has reached 0 (R270). -/
def State.makeReady (s : State) (d job cnt : Nat) : State :=
  s.modDie d (fun x => { x with
    tasks := x.tasks.map (fun t => if t.rdy = 0 && t.job == job && t.cnt == cnt then { t with rdy := x.cyc.toNat + 1 } else t) })
/-- A record of the job for an access of record `t`'s end that fails. -/
def State.taskRecord (s : State) (t : TileTask) (f : TFault) (va : Nat) : State :=
  let u := s.unit t.unit
  s.writeRecord (s.ringOf t.job) { cause := f.cause, src := 2, job := t.job, launch := u.launch, kseq := u.kseq, addr := va, d0 := f.d0.toNat, d1 := f.d1.toNat }
/-- Record `i` of a die changed. -/
def State.modTask (s : State) (d i : Nat) (f : TileTask → TileTask) : State := s.modDie d (fun x => { x with tasks := lmod x.tasks i f })
/-- An AMO add of −1 on the counter of a successor of record `i` (R97, R272): at its home, or by the device that owns it, whose answer is
waited for. -/
def State.decrement (s : State) (d i : Nat) (t : TileTask) (cnt : Nat) : State :=
  let next (s : State) : State := s.modTask d i (fun t => { t with stage := t.stage + 1, asked := none })
  let counted (s : State) (old : Nat) (mis : Option Word) : State :=
    let s1 := match mis with
      | some w => s.taskRecord t ⟨0x06C, w, 0#64⟩ cnt
      | none => s
    next (if old = 1 then s1.makeReady d t.job cnt else s1)
  match t.asked with
  | some tag =>
    match aget s.fyFail tag, aget s.fyDone tag with
    | some a, _ => next (({ s with fyFail := adel s.fyFail tag } : State).taskRecord t ⟨0x160, 0#64, wd a⟩ cnt)
    | none, none => s
    | none, some (v, _, rec0) =>
      let sc := s.scopeAt t.cl t.job cnt
      counted { s with fyDone := adel s.fyDone tag } v.toNat (if (scopeCheck rec0 sc t.cl).2 then some (scopeDetail rec0 sc) else none)
  | none =>
    if cnt % 8 != 0 then next (s.taskRecord t ⟨0x060, 0#64, 0#64⟩ cnt)
    else
      match translateReady s t.cl t.job cnt 8 .atomic 2 with
      | (s1, .fault f) => next (s1.taskRecord t f cnt)
      | (s1, .wait) => s1
      | (s1, .ok xa _ sc) =>
        if isFabXa xa then
          let s2 : State := { s1.modTask d i (fun t => { t with asked := some s1.fyTag }) with fyL2 := adel s1.fyL2 (xa / 128) }
          s2.fyRequest xa (t.unit, 0) (fun g => .memSync (xa % 2 ^ 40) 8 (.amo 0) sc (-1#64) 0#64 g)
        else
          match badLine s1 xa 8 with
          | some f => next (s1.taskRecord t f cnt)
          | none => let r := s1.amoHome t.cl xa 8 sc 0 (-1#64); counted r.1 r.2.1 r.2.2
/-- A number of 8 bytes that the end of record `t` reads. -/
def State.taskRead (s : State) (t : TileTask) (va : Nat) : State × Except TrRes Nat :=
  match readG s t.cl t.job (va % 2 ^ 56) 8 .load 4 with
  | (s1, .ok b) => (s1, .ok (leNat b))
  | (s1, .error r) => (s1, .error r)
/-- The completion word of record `t` may be written: as a release at the scope of the word and at that of what its blocks wrote (R110,
R272). -/
def TileTask.released (t : TileTask) (s : State) (sc : Nat) : Bool :=
  !s.fyPending (fun w => w == (t.unit, t.id)) && s.unitReleased t.unit (Nat.max sc t.scope)
/-- One step of the end of record `i`, whose blocks have all ended (R272): its completion word; then, after a STATUS of 0x01, its successors'
counters, one after another; then it is gone. -/
def State.finishTask (s : State) (d i : Nat) (t : TileTask) : State :=
  let gone (s : State) : State := s.modDie d (fun x => { x with tasks := ldel x.tasks i })
  let st := if t.bad = 0 then 1 else 3
  if t.stage = 0 then
    let after (s : State) : State := if st != 1 || t.succ = 0#64 then gone s else s.modTask d i (fun t => { t with stage := 1 })
    if t.done = 0#64 then after s
    else
      match s.garnetWrite t.job t.done.toNat 8 (t.ok * 2 ^ 32 + t.bad * 2 ^ 16 + st) .store t.released with
      | (s1, none) => after s1
      | (s1, some (.fault f)) => after (s1.taskRecord t f t.done.toNat)
      | (s1, some _) => s1
  else
    let va := t.succ.toNat
    let read (s : State) (a : Nat) (go : State → Nat → State) : State :=
      match s.taskRead t a with
      | (s1, .ok v) => go s1 v
      | (s1, .error (.fault f)) => gone (s1.taskRecord t f a)
      | (s1, .error _) => s1
    read s va (fun s n =>
      if n < t.stage then gone s
      else read s (va + 8 * t.stage) (fun s a => read s (a + 8) (fun s c => s.decrement d i t (c % 2 ^ 56))))

/-- TILE_TASK_BLOCK_DONE (R271, R272): the running block `k` of record `i` of a die performs its accesses and ends. A record whose blocks
have all ended takes the next step of its end. -/
def execTileTaskBlockDone (s : State) : Host.Outcome State Fault Refusal :=
  nextS (
    let d := s.ev.die
    let i := s.ev.i
    let k := s.ev.k
    match (s.die d).tasks[i]? with
    | none => s
    | some t =>
      match t.running[k]? with
      | none => if t.rdy != 0 && t.running.isEmpty && t.blocks ≤ t.nextBlk then s.finishTask d i t else s
      | some (blk, cl) =>
        let close (s : State) (good : Bool) (sc : Nat) : State :=
          let t1 : TileTask := { t with running := ldel t.running k, ok := t.ok + b2n good, bad := t.bad + b2n (!good), scope := Nat.max t.scope sc }
          let s1 := s.modTask d i (fun _ => t1)
          if t1.running.isEmpty && t1.blocks ≤ t1.nextBlk then s1.finishTask d i t1 else s1
        match s.runBlock t blk cl with
        | .wait s1 => s1
        | .bad s1 ran f a =>
          let s2 := if ran && !(s1.unit t.unit).isEnded then s1.noteNarrow t.unit else s1
          close (s2.unitRecord t.unit { unitRec (s2.unit t.unit) f.cause 2 with addr := a, d0 := f.d0.toNat, d1 := f.d1.toNat }) false 0
        | .ok s1 fl sc =>
          let s2 := if (s1.unit t.unit).isEnded then s1 else (s1.modUnit t.unit (fun u => u.raiseFlags fl)).noteNarrow t.unit
          close s2 true sc)

end Sys2Proof.Machine
end

