-- ==== Sys2Proof/Machine/RowSystem.lean ====
section
/-! DEFINITION. The meanings of PE rows 0x00, 0x74 to 0x7C and the unassigned codes: messages, handoffs, traps and special
registers (R152, R258, R259, R284, R285). ILL and the unassigned codes are in RowInteger. -/

namespace Sys2Proof.Machine

/-- The end of a firing that sends: its operands are consumed, or held with the cause (R258). -/
def finishSend (s : State) (uid key : Nat) (g : Gathered) (r : State × SendRes) : State :=
  match r.2 with
  | .wait => r.1
  | .done => r.1.commitFiring uid key g.toks
  | .fault c a d0 d1 => s.faultAt uid key { cause := c, addr := wd a, tag := g.tok, d0 := d0, d1 := d1 }

/-- SEND (R258). -/
def execSend (w : PeWord) (s : State) : Host.Outcome State Fault Refusal :=
  nextS (match prepFire 0x74 w s (fun u t => u.effCol t.col == 0#2) with
    | .wait s1 => s1
    | .fault s1 uid key r => s1.faultAt uid key r
    | .go s1 uid key g =>
      if !(s1.unit uid).issuedDone then s1
      else finishSend s1 uid key g (s1.sendMessage uid ((s1.unit uid).siteOf key).cl g.a.v g.tok))

/-- TTQ (R258, R270). -/
def execTtq (w : PeWord) (s : State) : Host.Outcome State Fault Refusal :=
  nextS (match prepFire 0x75 w s (fun u t => u.effCol t.col == 0#2) with
    | .wait s1 => s1
    | .fault s1 uid key r => s1.faultAt uid key r
    | .go s1 uid key g =>
      if !(s1.unit uid).issuedDone then s1
      else finishSend s1 uid key g (s1.submitRecord uid ((s1.unit uid).siteOf key).cl g.a.v))

/-- The cause of a handoff word of queue `self` (R259): no claim, or a code of 0, of the queue itself or reserved. -/
def handoffFault (s : State) (uid cl self code : Nat) : Option Nat :=
  if !s.claims cl uid then some 0x0C8 else if code = 0 || badHandoff self code then some 0x0C9 else none

/-- HOFF (R259): delivers a and pushes from F; a full FIFO stalls it (R137). -/
def execHoff (w : PeWord) (s : State) : Host.Outcome State Fault Refusal :=
  nextS (match prepFire 0x76 w s with
    | .wait s1 => s1
    | .fault s1 uid key r => s1.faultAt uid key r
    | .go s1 uid key g =>
      let cl := ((s1.unit uid).siteOf key).cl
      match handoffFault s1 uid cl 1 w.fmt.toNat with
      | some c => s1.faultAt uid key (raise c g.tok)
      | none =>
        if !s1.canPush cl 1 w.fmt.toNat then s1
        else ((s1.pushHandoff cl 1 w.fmt.toNat).commitFiring uid key g.toks).deliver uid key w { g.tok with payload := g.a.v, fmt := BitVec.ofNat 4 g.a.t })

/-- HWAIT (R259): pops into F and delivers a; an empty FIFO stalls it. -/
def execHwait (w : PeWord) (s : State) : Host.Outcome State Fault Refusal :=
  nextS (match prepFire 0x77 w s with
    | .wait s1 => s1
    | .fault s1 uid key r => s1.faultAt uid key r
    | .go s1 uid key g =>
      let cl := ((s1.unit uid).siteOf key).cl
      match handoffFault s1 uid cl 1 w.fmt.toNat with
      | some c => s1.faultAt uid key (raise c g.tok)
      | none =>
        if !s1.canPop cl w.fmt.toNat 1 then s1
        else ((s1.popHandoff cl w.fmt.toNat 1).commitFiring uid key g.toks).deliver uid key w { g.tok with payload := g.a.v, fmt := BitVec.ofNat 4 g.a.t })

/-- TRAP (R284): cause 0x120 + k. -/
def execTrap (w : PeWord) (s : State) : Host.Outcome State Fault Refusal :=
  nextS (match prepFire 0x78 w s with
    | .wait s1 => s1
    | .fault s1 uid key r => s1.faultAt uid key r
    | .go s1 uid key g => s1.faultAt uid key (raise (0x120 + w.imm.toNat % 32) g.tok))

/-- Every PE and cluster that a job's units hold is halted (R284, R367). -/
def State.haltJob (s : State) (job reason : Nat) : State :=
  let us := s.units.filter (fun p => p.2.job == job && p.2.inRegion)
  let s1 : State := { s with units := s.units.map (fun (p : Nat × UnitSt) => if p.2.job == job && p.2.inRegion then
    (p.1, { p.2 with pes := p.2.pes.map (fun x => (x.1, { x.2 with halted := true, stepOnce := false })) }) else p) }
  s1.modJob job (fun j => { j with haltCl := us.flatMap (fun p => p.2.clusterList), debugHold := true, dbgReason := reason })
/-- A debugger is attached to a job (R366). -/
def State.debugged (s : State) (job : Nat) : Bool := s.w2.dbgAtt && s.w2.dbgJob == job

/-- BRK (R284): cause 0x140; with a debugger attached the firing ends and the job halts with REASON 2 (R366). -/
def execBrk (w : PeWord) (s : State) : Host.Outcome State Fault Refusal :=
  nextS (match prepFire 0x79 w s with
    | .wait s1 => s1
    | .fault s1 uid key r => s1.faultAt uid key r
    | .go s1 uid key g =>
      let job := (s1.unit uid).job
      if s1.debugged job then (s1.commitFiring uid key g.toks).haltJob job 2 else s1.faultAt uid key (raise 0x140 g.tok))

/-- RDCTR (R285): CYC or FIRED. -/
def execRdctr (w : PeWord) (s : State) : Host.Outcome State Fault Refusal :=
  nextS (match prepFire 0x7A w s with
    | .wait s1 => s1
    | .fault s1 uid key r => s1.faultAt uid key r
    | .go s1 uid key g =>
      let u := s1.unit uid
      let v := if w.sub = 0#3 then (s1.die (dieOf u.lead)).cyc else u.fired
      (s1.commitFiring uid key g.toks).deliver uid key w { g.tok with payload := v, fmt := 1#4 })

/-- RDST (R285): special register n; an unassigned number is cause 0x0E2 (R149). -/
def execRdst (w : PeWord) (s : State) : Host.Outcome State Fault Refusal :=
  nextS (match prepFire 0x7B w s with
    | .wait s1 => s1
    | .fault s1 uid key r => s1.faultAt uid key r
    | .go s1 uid key g =>
      match s1.readSpecial uid ((s1.unit uid).siteOf key).cl (w.imm.toNat % 256) with
      | none => s1.faultAt uid key (raise 0x0E2 g.tok)
      | some v => (s1.commitFiring uid key g.toks).deliver uid key w { g.tok with payload := v, fmt := 1#4 })

/-- WRST (R285): special register n is written under its Kinds; DST 0b00 delivers a completion token. -/
def execWrst (w : PeWord) (s : State) : Host.Outcome State Fault Refusal :=
  nextS (match prepFire 0x7C w s with
    | .wait s1 => s1
    | .fault s1 uid key r => s1.faultAt uid key r
    | .go s1 uid key g =>
      let n := w.imm.toNat % 256
      if (s1.readSpecial uid ((s1.unit uid).siteOf key).cl n).isNone then s1.faultAt uid key (raise 0x0E2 g.tok)
      else
        let s2 := (s1.commitFiring uid key g.toks).modUnit uid (fun u => u.writeSpecial n g.a.v)
        if w.dst = 0#2 then s2.sendOut uid key { g.tok with payload := 0#64, fmt := 1#4 } else s2)

end Sys2Proof.Machine
end

