-- ==== Sys2Proof/Machine/Control.lean ====
section
/-! DEFINITION. Control words (R147, R148, R274 to R279): the sequencer, arithmetic, branches, G-space accesses, tokens, gates,
handoffs and the remaining words. CFGL and CFGS are in Image, YIELD in Schedule. -/

namespace Sys2Proof.Machine

/-! ### The sequencer -/

/-- Control-stream addresses are 56 bits wide and 4-byte aligned (R148). -/
def codeMask : Word := 0x00FFFFFFFFFFFFFC#64
/-- The word has completed: CCNT goes to the next one; the watchdog restarts (R274, R368). -/
def UnitSt.next (u : UnitSt) : UnitSt := { u with ccnt := (u.ccnt + 4#64) &&& codeMask, wait := .none, watchdog := 0 }
def State.nextWord (s : State) (uid : Nat) : State := s.modUnit uid UnitSt.next
/-- A taken branch (R148, R349). -/
def UnitSt.jump (u : UnitSt) (t : Word) : UnitSt := { u with ccnt := t &&& codeMask, cameFrom := some u.ccnt, wait := .none, watchdog := 0 }
/-- A cause raised by the control word at CCNT: it has no effect and TEPC names it (R274). -/
def State.ctlFault (s : State) (uid cause : Nat) (addr : Nat := 0) (d0 d1 : Word := 0#64) : State :=
  s.takeFault uid none { cause := cause, ctl := true, addr := wd addr, tepc := (s.unit uid).ccnt, d0 := d0, d1 := d1 }

/-- A control word of opcode OP executes on the unit whose turn it is: its fields are checked (R148), then it acts. -/
def seqWord (op : Nat) (c : CWord) (s : State) (body : Nat → UnitSt → State) : State :=
  match aget s.units s.curUnit with
  | none => s
  | some u => if !u.isRunning then s else if !ctlFieldsOk op c then s.ctlFault s.curUnit 0x0E1 else body s.curUnit u
/-- A word that only writes GD (R275). -/
def seqCalc (op : Nat) (c : CWord) (s : State) (f : UnitSt → Word) : State :=
  seqWord op c s (fun uid u => s.modUnit uid (fun x => (x.setG c.gd (f u)).next))
/-- sx(IMM16) and zx(IMM16) as words (R147). -/
def sx16 (c : CWord) : Word := (CWord.imm16 c).signExtend 64
def zx16 (c : CWord) : Word := (CWord.imm16 c).setWidth 64

/-! ### Arithmetic (R275) -/

/-- Words of format CR with operands ga and gb. -/
def seqAlu (f : Word → Word → Word) (c : CWord) (s : State) : State := seqCalc 0x01 c s (fun u => f (u.greg c.ga) (u.greg c.gb))
/-- Words of format CI with operand ga. -/
def seqImm (op : Nat) (f : Word → Word) (c : CWord) (s : State) : State := seqCalc op c s (fun u => f (u.greg c.ga))
/-- The bit of a comparison. -/
def flagW (b : Bool) : Word := if b then 1#64 else 0#64

def execSeqAdd (c : CWord) (s : State) : Host.Outcome State Fault Refusal := nextS (seqAlu (fun a b => a + b) c s)
def execSeqSub (c : CWord) (s : State) : Host.Outcome State Fault Refusal := nextS (seqAlu (fun a b => a - b) c s)
def execSeqAnd (c : CWord) (s : State) : Host.Outcome State Fault Refusal := nextS (seqAlu (fun a b => a &&& b) c s)
def execSeqOr (c : CWord) (s : State) : Host.Outcome State Fault Refusal := nextS (seqAlu (fun a b => a ||| b) c s)
def execSeqXor (c : CWord) (s : State) : Host.Outcome State Fault Refusal := nextS (seqAlu (fun a b => a ^^^ b) c s)
def execSeqShl (c : CWord) (s : State) : Host.Outcome State Fault Refusal := nextS (seqAlu (fun a b => a <<< (b.toNat % 64)) c s)
def execSeqShr (c : CWord) (s : State) : Host.Outcome State Fault Refusal := nextS (seqAlu (fun a b => a >>> (b.toNat % 64)) c s)
def execSeqSra (c : CWord) (s : State) : Host.Outcome State Fault Refusal := nextS (seqAlu (fun a b => a.sshiftRight (b.toNat % 64)) c s)
def execSeqMul (c : CWord) (s : State) : Host.Outcome State Fault Refusal := nextS (seqAlu (fun a b => a * b) c s)
/-- The high half of the signed product. -/
def execSeqMulh (c : CWord) (s : State) : Host.Outcome State Fault Refusal :=
  nextS (seqAlu (fun a b => wd (wrapNat 64 (a.toInt * b.toInt / (2 ^ 64 : Nat)))) c s)
/-- DIV and REM: the results of R165, without flags. -/
def execSeqDiv (c : CWord) (s : State) : Host.Outcome State Fault Refusal :=
  nextS (seqAlu (fun a b => wd (divRem false 64 a.toNat b.toNat).1) c s)
def execSeqRem (c : CWord) (s : State) : Host.Outcome State Fault Refusal :=
  nextS (seqAlu (fun a b => wd (divRem false 64 a.toNat b.toNat).2.1) c s)
def execSlt (c : CWord) (s : State) : Host.Outcome State Fault Refusal := nextS (seqAlu (fun a b => flagW (a.slt b)) c s)
def execSltu (c : CWord) (s : State) : Host.Outcome State Fault Refusal := nextS (seqAlu (fun a b => flagW (a.ult b)) c s)
def execSeqMin (c : CWord) (s : State) : Host.Outcome State Fault Refusal := nextS (seqAlu (fun a b => if b.slt a then b else a) c s)
def execSeqMax (c : CWord) (s : State) : Host.Outcome State Fault Refusal := nextS (seqAlu (fun a b => if a.slt b then b else a) c s)
def execAddi (c : CWord) (s : State) : Host.Outcome State Fault Refusal := nextS (seqImm 0x02 (fun a => a + sx16 c) c s)
def execAndi (c : CWord) (s : State) : Host.Outcome State Fault Refusal := nextS (seqImm 0x03 (fun a => a &&& zx16 c) c s)
def execOri (c : CWord) (s : State) : Host.Outcome State Fault Refusal := nextS (seqImm 0x04 (fun a => a ||| zx16 c) c s)
def execXori (c : CWord) (s : State) : Host.Outcome State Fault Refusal := nextS (seqImm 0x05 (fun a => a ^^^ zx16 c) c s)
def execShli (c : CWord) (s : State) : Host.Outcome State Fault Refusal :=
  nextS (seqImm 0x06 (fun a => a <<< ((CWord.imm16 c).toNat % 64)) c s)
def execShri (c : CWord) (s : State) : Host.Outcome State Fault Refusal :=
  nextS (seqImm 0x07 (fun a => a >>> ((CWord.imm16 c).toNat % 64)) c s)
def execSrai (c : CWord) (s : State) : Host.Outcome State Fault Refusal :=
  nextS (seqImm 0x08 (fun a => a.sshiftRight ((CWord.imm16 c).toNat % 64)) c s)
def execLdhi (c : CWord) (s : State) : Host.Outcome State Fault Refusal := nextS (seqImm 0x09 (fun a => a + (sx16 c <<< 16)) c s)
def execSlti (c : CWord) (s : State) : Host.Outcome State Fault Refusal := nextS (seqImm 0x0A (fun a => flagW (a.slt (sx16 c))) c s)

/-! ### Branches (R277) -/

/-- A branch of format CB, whose GA and GB stand in the first two fields; OFF16 counts words (R147, R148). -/
def seqBranch (op : Nat) (p : Word → Word → Bool) (c : CWord) (s : State) : State :=
  seqWord op c s (fun uid u =>
    if p (u.greg c.gd) (u.greg c.ga) then s.modUnit uid (fun x => x.jump (u.ccnt + (sx16 c <<< 2))) else s.nextWord uid)

def execBeq (c : CWord) (s : State) : Host.Outcome State Fault Refusal := nextS (seqBranch 0x10 (fun a b => a == b) c s)
def execBne (c : CWord) (s : State) : Host.Outcome State Fault Refusal := nextS (seqBranch 0x11 (fun a b => a != b) c s)
def execBlt (c : CWord) (s : State) : Host.Outcome State Fault Refusal := nextS (seqBranch 0x12 (fun a b => a.slt b) c s)
def execBge (c : CWord) (s : State) : Host.Outcome State Fault Refusal := nextS (seqBranch 0x13 (fun a b => !a.slt b) c s)
def execBltu (c : CWord) (s : State) : Host.Outcome State Fault Refusal := nextS (seqBranch 0x14 (fun a b => a.ult b) c s)
def execBgeu (c : CWord) (s : State) : Host.Outcome State Fault Refusal := nextS (seqBranch 0x15 (fun a b => !a.ult b) c s)
/-- JAL: gd := the word's address + 4. -/
def execJal (c : CWord) (s : State) : Host.Outcome State Fault Refusal :=
  nextS (seqWord 0x16 c s (fun uid u =>
    s.modUnit uid (fun x => (x.setG c.gd (u.ccnt + 4#64)).jump (u.ccnt + ((CWord.off21 c).signExtend 64 <<< 2)))))
/-- JR: the target comes from the old ga; one that is not 4-byte aligned raises 0x0E4. -/
def execJr (c : CWord) (s : State) : Host.Outcome State Fault Refusal :=
  nextS (seqWord 0x17 c s (fun uid u =>
    let t := u.greg c.ga + (sx16 c <<< 2)
    if t.toNat % 4 != 0 then s.ctlFault uid 0x0E4 (t.toNat % 2 ^ 56) 0x82#64 0x30#64
    else s.modUnit uid (fun x => (x.setG c.gd (u.ccnt + 4#64)).jump t)))

/-! ### G-space accesses (R276) -/

/-- The outcome of a control word's access: it waits; it faults; it has performed with a value; or it has performed and raised
0x06C under SCOPESTOP, its value held (R97). -/
inductive CtlMem where
  | wait (s : State)
  | fault (s : State) (cause addr : Nat) (d0 d1 : Word)
  | ok (s : State) (v : Word)
  | stop (s : State) (v : Word) (f : Raised)

/-- What the outcome of its access makes of a word. -/
def CtlMem.settle (uid : Nat) (u : UnitSt) (fin : State → Word → State) : CtlMem → State
  | .wait s1 => s1
  | .fault s1 c a d0 d1 => s1.ctlFault uid c a d0 d1
  | .ok s1 v => (fin s1 v).nextWord uid
  | .stop s1 v f => (s1.modUnit uid (fun x => { x with ctlHeld := aset x.ctlHeld u.ccnt v })).takeFault uid none f
/-- A word that accesses memory: it takes the value that a fault of scope held for it, or the answer of another device; else it makes its
access. -/
def ctlAccess (s : State) (uid : Nat) (u : UnitSt) (va : Nat) (go : State → CtlMem) (fin : State → Word → State)
    (ans : State → Word × BitVec 16 × Option (Nat × Nat) → CtlMem := fun s r => .ok s r.1) : State :=
  match aget u.ctlHeld u.ccnt, aget u.ctlAsked u.ccnt with
  | some v, _ => (fin (s.modUnit uid (fun x => { x with ctlHeld := adel x.ctlHeld u.ccnt })) v).nextWord uid
  | none, some t =>
    let forget (s : State) : State := s.modUnit uid (fun x => { x with ctlAsked := adel x.ctlAsked u.ccnt })
    match aget s.fyFail t, aget s.fyDone t with
    | some a, _ => (CtlMem.fault (forget { s with fyFail := adel s.fyFail t }) 0x160 va 0#64 (wd a)).settle uid u fin
    | none, none => s
    | none, some r => (ans (forget { s with fyDone := adel s.fyDone t }) r).settle uid u fin
  | none, none => (go s).settle uid u fin

/-- The address of an access: alignment, translation, the hosts' halves (R276). -/
def ctlTranslate (s : State) (u : UnitSt) (va n : Nat) (k : Acc5) (acc : Nat) (cont : State → Nat → Nat → Nat → CtlMem) : CtlMem :=
  if va % n != 0 then .fault s 0x060 va 0#64 0#64
  else
    match translateReady s u.lead u.job va n k acc with
    | (s1, .ok xa mt sc) => cont s1 xa mt sc
    | (s1, .fault f) => .fault s1 f.cause va f.d0 f.d1
    | (s1, .wait) => .wait s1
/-- A request to the device that owns the address (R82). -/
def ctlAsk (s : State) (uid : Nat) (u : UnitSt) (xa : Nat) (pl : Nat → FyPayload) : CtlMem :=
  let s1 := ({ s with fyL2 := adel s.fyL2 (xa / 128) } : State).fyRequest xa (uid, 0) pl
  .wait (s1.modUnit uid (fun x => { x with ctlAsked := aset x.ctlAsked u.ccnt s.fyTag }))

/-- The effective address ga + sx(IMM16), modulo 2^56. -/
def ctlEa (u : UnitSt) (c : CWord) : Nat := (u.greg c.ga + sx16 c).toNat % 2 ^ 56

/-- A synchronising access of a control word as an entry of the kind that `syncEffect` performs: operation, operand v, SUB. -/
def ctlEntry (u : UnitSt) (op : MemOp) (sub : BitVec 3) (v : Word) (ea n : Nat) : SbEntry :=
  { id := 0, site := ⟨u.lead, 0, 0, u.ctx⟩, op := op, w := { (default : PeWord) with sub := sub }, tok := {}, b := v, ea := ea, n := n }
/-- LDG: gd := the 8 bytes, read as LD with hint 0 (R88); WFE names their line (R279). -/
def execLdg (c : CWord) (s : State) : Host.Outcome State Fault Refusal :=
  nextS (seqWord 0x0B c s (fun uid u =>
    let va := ctlEa u c
    let note (s : State) (l : Option Nat) : State := s.modUnit uid (fun x => { x with ldgLine := l })
    ctlAccess (note s none) uid u va
      (fun s => ctlTranslate s u va 8 .load 0 (fun s1 xa mt _ =>
        let e : SbEntry := { ctlEntry u .ld 0#3 0#64 va 8 with xa := xa, mt := mt }
        if u.readPends e then .wait s1
        else
          match s1.readNearXa u.lead xa 8 mt with
          | (s2, .ok b) => .ok (s2.fillEntry e) (wd (leNat b))
          | (s2, .error (.fault f)) => .fault s2 f.cause va f.d0 f.d1
          | (s2, .error _) => .wait s2))
      (fun s v => (note s (match (translate s u.lead u.job va .load 0).2 with
        | .ok xa _ _ => some (xa / 128)
        | _ => none)).modUnit uid (fun x => x.setG c.gd v))))

/-- STG: gd is stored; the word waits for its write ack. -/
def execStg (c : CWord) (s : State) : Host.Outcome State Fault Refusal :=
  nextS (seqWord 0x0C c s (fun uid u =>
    let bs := leBytes 8 (u.greg c.gd).toNat
    ctlAccess s uid u (ctlEa u c)
      (fun s => ctlTranslate s u (ctlEa u c) 8 .store 1 (fun s1 xa _ _ =>
        if isFabXa xa then ctlAsk s1 uid u xa (fun t => .memWrite (xa % 2 ^ 40) bs true t) else .ok (s1.homeWrite xa bs) 0#64))
      (fun s _ => s)))

/-- The scope record that a control word's access of scope `sc` at `ea` has found is checked (R97). -/
def ctlReport (s : State) (uid : Nat) (u : UnitSt) (ea sc : Nat) (r : Option (Nat × Nat)) (v : Word) : CtlMem :=
  if !(scopeCheck r sc u.lead).2 then .ok s v
  else
    let f : Raised := { cause := 0x06C, ctl := true, addr := wd ea, tepc := u.ccnt, d0 := scopeDetail r sc }
    if u.uctl.getLsbD 11 then .stop s v f else .ok (s.unitRecord uid (faultRec u none f)) v
/-- The scope record of a control word's access is taken, and what it was is checked. -/
def ctlScope (s : State) (uid : Nat) (u : UnitSt) (e : SbEntry) (r : Option (Nat × Nat)) (v : Word) : CtlMem :=
  ctlReport (s.modDir (e.xa / 128) (fun d => { d with scopeRec := some (e.scope, domainOf e.scope u.lead) })) uid u e.ea e.scope r v
/-- The answer of the device that performed a synchronising access at `ea` (R82, R97). -/
def ctlAnswer (uid : Nat) (u : UnitSt) (ea : Nat) (s : State) (r : Word × BitVec 16 × Option (Nat × Nat)) : CtlMem :=
  ctlReport s uid u ea (s.scopeAt u.lead u.job ea) r.2.2 r.1
/-- A synchronising access performed at its home (R96, R97), or by the device that owns it. A release of fabric scope or wider waits until
what precedes it is complete on every device (R108); an STL is performed once other devices' copies of its line are gone (R85, R106). -/
def ctlSync (s : State) (uid : Nat) (u : UnitSt) (e : SbEntry) (release : Bool) : CtlMem :=
  ctlTranslate s u e.ea e.n (if e.op == .stl then .store else .atomic) (if e.op == .stl then 1 else 2) (fun s1 xa mt sc =>
    let e1 : SbEntry := { e with xa := xa, mt := mt, scope := sc }
    let r := (s1.dirOf (xa / 128)).scopeRec
    if release && decide (3 ≤ (scopeCheck r sc u.lead).1) && !s1.fabricReleased uid then .wait s1
    else if e.op != .stl && u.readPends e1 then .wait s1
    else if isFabXa xa then ctlAsk s1 uid u xa (fun t => .memSync (xa % 2 ^ 40) e.n e.fyOp sc e.b 0#64 t)
    else if e.op == .stl && (!(s1.dirOf (xa / 128)).remote.isEmpty || s1.remotePending (xa / 128)) then .wait (s1.invRemote (xa / 128))
    else
      match (if e.op == .stl then none else badLine s1 xa e.n) with
      | some f => .fault s1 f.cause e.ea f.d0 f.d1
      | none => let x := s1.syncEffect e1 []; ctlScope x.1 uid u e1 r x.2.value)

/-- AMOG: gd := the old value, zero-extended; it never merges (R114). -/
def execAmog (c : CWord) (s : State) : Host.Outcome State Fault Refusal :=
  nextS (seqWord 0x0D c s (fun uid u =>
    let n := if c.lo.getLsbD 3 then 4 else 8
    let va := (u.greg c.ga).toNat % 2 ^ 56
    ctlAccess s uid u va (fun s => ctlSync s uid u (ctlEntry u .amo (c.lo.setWidth 3) (u.greg c.gb) va n) false)
      (fun s v => s.modUnit uid (fun x => x.setG c.gd v)) (ctlAnswer uid u va)))
/-- POST: an AMO add of 1, without a result; a release. -/
def execPost (c : CWord) (s : State) : Host.Outcome State Fault Refusal :=
  nextS (seqWord 0x24 c s (fun uid u =>
    ctlAccess s uid u (ctlEa u c) (fun s => ctlSync s uid u (ctlEntry u .amo 0#3 1#64 (ctlEa u c) 8) true) (fun s _ => s) (ctlAnswer uid u (ctlEa u c))))
/-- The nodes on hold of the running instances of some jobs are told of `what`: Jasper reads the word of those that it concerns again (R289). -/
def State.nudge (s : State) (p : Nat → Bool) (what : Bool × Nat) : State :=
  { s with insts := s.insts.map (fun (i : Instance) =>
      if i.status.isSome || !p i.job then i
      else { i with nodes := i.nodes.map (fun (r : NodeRec) => if r.held && !r.nudges.contains what then { r with nudges := r.nudges ++ [what] } else r) }) }
/-- GNUDGE: an STL of gb at ga; then Jasper re-reads the condition words at ga. -/
def execGnudge (c : CWord) (s : State) : Host.Outcome State Fault Refusal :=
  nextS (seqWord 0x2F c s (fun uid u =>
    let va := (u.greg c.ga).toNat % 2 ^ 56
    ctlAccess s uid u va (fun s => ctlSync s uid u (ctlEntry u .stl 0#3 (u.greg c.gb) va 8) true)
      (fun s _ => s.nudge (· == u.job) (true, va)) (ctlAnswer uid u va)))

/-- The entries that a FENCEG of kind k waits for have got as far as it asks (R109, R276). -/
def State.fencegDone (s : State) (uid : Nat) (u : UnitSt) (k ord : Nat) : Bool :=
  let before := u.sb.filter (fun x => x.ord != 0 && decide (x.ord < ord) && x.op != .fence)
  let reds := s.reds.any (fun r => !r.applied && r.parts.any (fun p => p.uid == uid && decide (p.ord < ord)))
  let w := before.all (fun x => !x.stores || x.acked) && !reds
  match k with
  | 0 => before.all (fun x => !x.loads || x.done)
  | 1 => before.all SbEntry.done && w
  | 2 => w
  | _ => before.all (fun x => !x.loads || x.done) && w
/-- FENCEG: over the accesses issued before it began; its target's record is taken when it completes. -/
def execFenceg (c : CWord) (s : State) : Host.Outcome State Fault Refusal :=
  nextS (seqWord 0x2C c s (fun uid u =>
    let va := (u.greg c.ga).toNat % 2 ^ 56
    let k := (CWord.imm16 c).toNat % 4
    let ord := match u.wait with
      | .fence o => o
      | _ => u.ordCtr
    ctlAccess s uid u va
      (fun s =>
        match translate s u.lead u.job va .fence 0 with
        | (s1, .ok xa _ sc) =>
          let s2 := s1.modUnit uid (fun x => { x with wait := .fence ord })
          let e : SbEntry := { ctlEntry u .fence 0#3 0#64 va 8 with xa := xa, scope := sc }
          let r := (s2.dirOf (xa / 128)).scopeRec
          if !s2.fencegDone uid u k ord then .wait s2
          else if k != 0 && decide (3 ≤ (scopeCheck r sc u.lead).1) && !s2.fabricReleased uid then .wait s2
          else if isFabXa xa then ctlAsk s2 uid u xa (fun t => .memSync (xa % 2 ^ 40) 8 .fence sc 0#64 0#64 t)
          else if (s2.dirOf (xa / 128)).lock.isSome then .wait s2
          else ctlScope (s2.syncEffect e []).1 uid u e r 0#64
        | (s1, .fault f) => .fault s1 f.cause va f.d0 f.d1
        | (s1, .wait) => .wait s1)
      (fun s _ => s) (ctlAnswer uid u va)))

/-! ### Quiescence, gates and tokens (R278) -/

/-- The word waits for the report of quiescence, which must still hold (R41, R42). -/
def whenQuiet (s : State) (uid : Nat) (u : UnitSt) (k : State → State) : State :=
  if u.quiet && s.quiescent uid u then k (s.modUnit uid (fun x => { x with quiet := false })) else s
def execQwait (c : CWord) (s : State) : Host.Outcome State Fault Refusal :=
  nextS (seqWord 0x1A c s (fun uid u => whenQuiet s uid u (fun s => s.nextWord uid)))
/-- GATEO and GATEC: stream gates open and close by mask (R188). -/
def execGateo (c : CWord) (s : State) : Host.Outcome State Fault Refusal :=
  nextS (seqWord 0x1B c s (fun uid _ => (s.modUnit uid (fun x => { x.next with gates := x.gates ||| CWord.imm16 c })).releaseGates uid))
def execGatec (c : CWord) (s : State) : Host.Outcome State Fault Refusal :=
  nextS (seqWord 0x1C c s (fun uid _ => s.modUnit uid (fun x => { x.next with gates := x.gates &&& ~~~(CWord.imm16 c) })))
/-- ISET: IXBd := ga, IXNd := gb, IXSd := gd. -/
def execIset (c : CWord) (s : State) : Host.Outcome State Fault Refusal :=
  nextS (seqWord 0x1D c s (fun uid u =>
    let d := c.lo.toNat % 4
    s.modUnit uid (fun x => { x.next with ixb := lput 0#64 x.ixb d (u.greg c.ga), ixn := lput 0#64 x.ixn d (u.greg c.gb)
                                          ixs := lput 0#64 x.ixs d (u.greg c.gd) })))
/-- The ITAG of an injected token counts as allocated from the start of the unit (R32). -/
def UnitSt.holdTag0 (u : UnitSt) (itag : Nat) : UnitSt :=
  if u.tags.any (fun t => t.lvl == 0 && t.itag == itag) then u else { u with tags := { lvl := 0, itag := itag } :: u.tags }
/-- INJ: one token enters the region at its target queue (R278). -/
def execInj (c : CWord) (s : State) : Host.Outcome State Fault Refusal :=
  nextS (seqWord 0x1E c s (fun uid u =>
    let b := (u.greg c.gb).toNat
    let d := routeSite (b % 2 ^ 32)
    let itag := bits b 39 32
    if u.size ≤ d.1.cl || b % 2048 != 0 || (lget u.lvl 0 0#9).toNat ≤ itag || u.active.isNone then s.ctlFault uid 0x0E5
    else
      let pos := u.placeOf ⟨u.lead + d.1.cl, d.1.x, d.1.y, u.ctx⟩
      if (u.nodeAt pos).any (fun key => decide (4 ≤ ((u.pe key).queue d.2).length)) then s
      else
        let t : Token := { payload := u.greg c.ga, fmt := c.lo.setWidth 4, ctx := BitVec.ofNat 2 u.ctx, itag := BitVec.ofNat 8 itag
                           wave := BitVec.ofNat 10 (bits b 49 40), last := c.lo.getLsbD 4 }
        let f : Flight := { src := ⟨u.lead, 16, 17, u.ctx⟩, pos := pos, q := some d.2, tok := t }
        { s.modUnit uid (fun x => { (x.next.holdTag0 itag) with quiet := false }) with flights := s.flights ++ [f] }))
/-- EXTR: the oldest-tag token of a sink; an empty sink of a quiescent context raises 0x0E6 (R190, R278). -/
def execExtr (c : CWord) (s : State) : Host.Outcome State Fault Refusal :=
  nextS (seqWord 0x1F c s (fun uid u =>
    let k := (CWord.imm16 c).toNat % 16
    let l := agetD u.sinks k []
    match u.oldest l with
    | some t => s.modUnit uid (fun x => { (x.setG c.gd t.payload).next with sinks := aset x.sinks k (l.erase t) })
    | none => if u.quiet && s.quiescent uid u then s.ctlFault uid 0x0E6 else s))

/-! ### The local store (R121 to R125) -/

/-- The bytes of a bank of a cluster become zero. -/
def Memory.clear (m : Memory) (a n : Nat) : Memory := m.filter (fun p => !(decide (a ≤ p.1) && decide (p.1 < a + n)))
def State.clearBank (s : State) (cl k : Nat) : State := { s with lsm := Memory.clear s.lsm (cl * 2 ^ 20 + k * 32768) 32768 }
/-- The slots that survive a change of roles (R123): those of a half whose bank is the same before and after. -/
def keptSlots (before after : List Nat) (slots : List (Nat × Tile)) : List (Nat × Tile) :=
  slots.filter (fun p => let h := p.1 / 8; before[h]? == after[h]? && after[h]?.isSome)
/-- BANKR's steps on one cluster (R123). -/
def State.setRoles (s : State) (cl : Nat) (roles : Word) : State :=
  let c := s.cluster cl
  let c' : Cluster := { c with roles := roles }
  let s1 := ((c'.banks 1).filter (fun k => c.role k != 1)).foldl (fun s k => s.clearBank cl k) (s.flushL1 cl)
  s1.modCluster cl (fun x => { x with roles := roles, slots := keptSlots (c.banks 2) (c'.banks 2) x.slots })
/-- BANKR (R123, R125). -/
def execBankr (c : CWord) (s : State) : Host.Outcome State Fault Refusal :=
  nextS (seqWord 0x20 c s (fun uid u =>
    if u.clusterList.any (fun k => (s.cluster k).lsMode) then s.ctlFault uid 0x0EA
    else if s.units.any (fun p => p.1 != uid && p.2.inRegion && u.clusterList.any (fun k => p.2.covers k)) then s.ctlFault uid 0x0EB
    else whenQuiet s uid u (fun s => (u.clusterList.foldl (fun s k => s.setRoles k (u.greg c.ga)) s).nextWord uid)))

/-- The role word with the roles of some banks set. -/
def withRoles (c : Cluster) (ks : List Nat) (r : Nat) : Word :=
  wd ((upFrom 0 32).foldl (fun n k => n + (if ks.contains k then r else c.role k) * 4 ^ k) 0)
/-- The role word that RESZ gives a cluster; `none` when too few banks are off (R124). -/
def reszRoles (c : Cluster) (n : Nat) : Option Word :=
  let cache := c.banks 0
  let off := c.banks 3
  if cache.length < n then
    (if off.length < n - cache.length then none else some (withRoles c (off.take (n - cache.length)) 0))
  else some (withRoles c (cache.drop n) 3)
/-- A span that RESZ writes back and invalidates (R124): a frame in a bank that changes role, a frame number that changes, or
frames that wrap modulo the old count. -/
def Span.moved (sp : Span) (before after : List Nat) : Bool :=
  let lines := sp.e / 32 + 1 - sp.s / 32
  decide (before.length < sp.base + lines) ||
    (upFrom sp.base lines).any (fun f => after[f]? != before[f]?)
/-- RESZ on one cluster. -/
def State.resize (s : State) (cl : Nat) (roles : Word) : State :=
  let c := s.cluster cl
  let c' : Cluster := { c with roles := roles }
  let gone := c.spans.filter (fun sp => sp.moved (c.banks 0) (c'.banks 0))
  { s.modCluster cl (fun x => { x with roles := roles, spans := x.spans.filter (fun sp => !sp.moved (c.banks 0) (c'.banks 0)) }) with
    net := s.net ++ gone.flatMap (evictMsgs cl) }
/-- RESZ (R124, R125): every cluster of the region, or none. -/
def execResz (c : CWord) (s : State) : Host.Outcome State Fault Refusal :=
  nextS (seqWord 0x21 c s (fun uid u =>
    let n := (CWord.imm16 c).toNat % 64
    if u.clusterList.any (fun k => !(s.cluster k).lsMode) then s.ctlFault uid 0x0EA
    else if u.clusterList.any (fun k => (reszRoles (s.cluster k) n).isNone) then s.ctlFault uid 0x0EB
    else (u.clusterList.foldl (fun s k =>
      match reszRoles (s.cluster k) n with
      | some r => s.resize k r
      | none => s) s).nextWord uid))

/-! ### Handoffs, messages and levels (R279) -/

/-- HOFFS: a push from S; a full FIFO stalls it (R137, R259). -/
def execHoffs (c : CWord) (s : State) : Host.Outcome State Fault Refusal :=
  nextS (seqWord 0x22 c s (fun uid u =>
    let q := (CWord.imm16 c).toNat % 16
    match handoffFault s uid u.lead 2 q with
    | some f => s.ctlFault uid f
    | none => if s.canPush u.lead 2 q then (s.pushHandoff u.lead 2 q).nextWord uid else s))
/-- HWAITS: a pop into S; an empty FIFO stalls it. -/
def execHwaits (c : CWord) (s : State) : Host.Outcome State Fault Refusal :=
  nextS (seqWord 0x23 c s (fun uid u =>
    let q := (CWord.imm16 c).toNat % 16
    match handoffFault s uid u.lead 2 q with
    | some f => s.ctlFault uid f
    | none => if s.canPop u.lead q 2 then (s.popHandoff u.lead q 2).nextWord uid else s))
/-- The end of SENDC and TTQC (R258, R274). -/
def ctlSent (uid : Nat) (r : State × SendRes) : State :=
  match r.2 with
  | .wait => r.1
  | .done => r.1.nextWord uid
  | .fault c a d0 d1 => r.1.ctlFault uid c a d0 d1
/-- SENDC: the message at ga, in the lead cluster; its reply has level 0, ITAG 0, wave 0 (R262). -/
def execSendc (c : CWord) (s : State) : Host.Outcome State Fault Refusal :=
  nextS (seqWord 0x2D c s (fun uid u =>
    if !u.issuedDone then s else ctlSent uid (s.sendMessage uid u.lead (u.greg c.ga) { ctx := BitVec.ofNat 2 u.ctx })))
/-- TTQC: the record at ga. -/
def execTtqc (c : CWord) (s : State) : Host.Outcome State Fault Refusal :=
  nextS (seqWord 0x2E c s (fun uid u => if !u.issuedDone then s else ctlSent uid (s.submitRecord uid u.lead (u.greg c.ga))))
/-- CANCL: the level that contains the unit is cancelled (R45). -/
def execCancl (c : CWord) (s : State) : Host.Outcome State Fault Refusal :=
  nextS (seqWord 0x25 c s (fun uid _ =>
    let s1 := s.cancelFrom uid ((CWord.imm16 c).toNat % 8)
    if (s1.unit uid).isEnded then s1 else s1.nextWord uid))
/-- WFE begins to wait (R279); WFE_WAKE ends it. -/
def execWfe (c : CWord) (s : State) : Host.Outcome State Fault Refusal :=
  nextS (seqWord 0x27 c s (fun uid u =>
    match u.wait with
    | .wfe _ _ _ => s
    | _ =>
      let tag := match u.ldgLine with
        | some l => (s.dirOf l).tag.toNat
        | none => 0
      s.modUnit uid (fun x => { x with wait := .wfe u.ldgLine tag (s.die (dieOf u.lead)).cyc.toNat })))
/-- WFE_WAKE (R279): a write event at the line, 2^16 clocks, or (flag) an end for no visible reason. -/
def execWfeWake (s : State) : Host.Outcome State Fault Refusal :=
  nextS (
    let uid := s.ev.u
    let u := s.unit uid
    match u.wait with
    | .wfe line tag since =>
      let wrote := line.any (fun l => (s.dirOf l).tag.toNat != tag)
      let late := decide (2 ^ 16 ≤ ((s.die (dieOf u.lead)).cyc - wd since).toNat)
      if u.isRunning && (wrote || late || s.ev.flag) then s.nextWord uid else s
    | _ => s)
/-- TRAPC: cause 0x120 + k; TEPC names the next word. -/
def execTrapc (c : CWord) (s : State) : Host.Outcome State Fault Refusal :=
  nextS (seqWord 0x28 c s (fun uid u =>
    s.takeFault uid none { cause := 0x120 + (CWord.imm16 c).toNat % 32, ctl := true, tepc := (u.ccnt + 4#64) &&& codeMask }))
/-- ERET (R279, R352). -/
def execEret (c : CWord) (s : State) : Host.Outcome State Fault Refusal :=
  nextS (seqWord 0x29 c s (fun uid u => if u.handler then (s.returnFault uid).progress uid else s.ctlFault uid 0x0E7))
/-- MFS (R149, R279). -/
def execMfs (c : CWord) (s : State) : Host.Outcome State Fault Refusal :=
  nextS (seqWord 0x2A c s (fun uid u =>
    match s.readSpecial uid u.lead ((CWord.imm16 c).toNat % 256) with
    | none => s.ctlFault uid 0x0E2
    | some v => s.modUnit uid (fun x => (x.setG c.gd v).next)))
/-- MTS (R149, R279). -/
def execMts (c : CWord) (s : State) : Host.Outcome State Fault Refusal :=
  nextS (seqWord 0x2B c s (fun uid u =>
    let n := (CWord.imm16 c).toNat % 256
    match s.readSpecial uid u.lead n with
    | none => s.ctlFault uid 0x0E2
    | some _ => s.modUnit uid (fun x => (x.writeSpecial n (u.greg c.ga)).next)))
def execNopc (c : CWord) (s : State) : Host.Outcome State Fault Refusal := nextS (seqWord 0x31 c s (fun uid _ => s.nextWord uid))
/-- An opcode without a word: cause 0x0E0 (R148). -/
def execReservedControlOpcode (_ : BitVec 6) (_ : CWord) (s : State) : Host.Outcome State Fault Refusal :=
  nextS (match aget s.units s.curUnit with
    | none => s
    | some u => if u.isRunning then s.ctlFault s.curUnit 0x0E0 else s)

end Sys2Proof.Machine
end

