-- ==== Sys2Proof/Machine/RowFloat.lean ====
section
/-! DEFINITION. The meanings of PE rows 0x40 to 0x5F: floating point, conversion and lanes (R195 to R223). The tile form
of FCVT stands in RowTile. -/

namespace Sys2Proof.Machine

/-- CBD and CBE fire only when e4 to e7 are full (R213). -/
def tableFull (p : PeCtx) : Bool := (upFrom 4 4).all (fun i => (p.reg i).full)
/-- A computing operation with a further condition on its PE. -/
def fireCalcIf (more : PeCtx → Bool) (opc : Nat) (f : PeWord → Env → Opnd → Opnd → Opnd → Calc) (w : PeWord) (s : State) : State :=
  match prepFire opc w s (fun _ _ => true) more with
  | .wait s1 => s1
  | .fault s1 uid key r => s1.faultAt uid key r
  | .go s1 uid key g => finishCalc w s1 uid key g (f w g.env g.a g.b g.c)

/-- CBD (R214). -/
def execCbd (w : PeWord) (s : State) : Host.Outcome State Fault Refusal := nextS (fireCalcIf tableFull 0x54 calcCbd w s)
/-- CBE (R215). -/
def execCbe (w : PeWord) (s : State) : Host.Outcome State Fault Refusal := nextS (fireCalcIf tableFull 0x55 calcCbe w s)
/-- FADD (R200). -/
def execFadd (w : PeWord) (s : State) : Host.Outcome State Fault Refusal := nextS (fireCalc 0x40 calcFadd w s)
/-- FSUB (R200). -/
def execFsub (w : PeWord) (s : State) : Host.Outcome State Fault Refusal := nextS (fireCalc 0x41 calcFsub w s)
/-- FMUL (R200). -/
def execFmul (w : PeWord) (s : State) : Host.Outcome State Fault Refusal := nextS (fireCalc 0x42 calcFmul w s)
/-- FMA (R200). -/
def execFma (w : PeWord) (s : State) : Host.Outcome State Fault Refusal := nextS (fireCalc 0x43 calcFma w s)
/-- FMS (R200). -/
def execFms (w : PeWord) (s : State) : Host.Outcome State Fault Refusal := nextS (fireCalc 0x44 calcFms w s)
/-- FNMA (R200). -/
def execFnma (w : PeWord) (s : State) : Host.Outcome State Fault Refusal := nextS (fireCalc 0x45 calcFnma w s)
/-- FMIN (R202). -/
def execFmin (w : PeWord) (s : State) : Host.Outcome State Fault Refusal := nextS (fireCalc 0x46 calcFmin w s)
/-- FMAX (R202). -/
def execFmax (w : PeWord) (s : State) : Host.Outcome State Fault Refusal := nextS (fireCalc 0x47 calcFmax w s)
/-- FABS (R201). -/
def execFabs (w : PeWord) (s : State) : Host.Outcome State Fault Refusal := nextS (fireCalc 0x48 calcFabs w s)
/-- FNEG (R201). -/
def execFneg (w : PeWord) (s : State) : Host.Outcome State Fault Refusal := nextS (fireCalc 0x49 calcFneg w s)
/-- FCMP (R203). -/
def execFcmp (w : PeWord) (s : State) : Host.Outcome State Fault Refusal := nextS (fireCalc 0x4A calcFcmp w s)
/-- FDIV (R204). -/
def execFdiv (w : PeWord) (s : State) : Host.Outcome State Fault Refusal := nextS (fireCalc 0x4B calcFdiv w s)
/-- FSQRT (R204). -/
def execFsqrt (w : PeWord) (s : State) : Host.Outcome State Fault Refusal := nextS (fireCalc 0x4C calcFsqrt w s)
/-- FRCPE (R205). -/
def execFrcpe (w : PeWord) (s : State) : Host.Outcome State Fault Refusal := nextS (fireCalc 0x4D calcFrcpe w s)
/-- FRSQE (R205). -/
def execFrsqe (w : PeWord) (s : State) : Host.Outcome State Fault Refusal := nextS (fireCalc 0x4E calcFrsqe w s)
/-- FCLASS (R206). -/
def execFclass (w : PeWord) (s : State) : Host.Outcome State Fault Refusal := nextS (fireCalc 0x4F calcFclass w s)
/-- FCVT (R208). -/
def execFcvt (w : PeWord) (s : State) : Host.Outcome State Fault Refusal := nextS (fireCalc 0x50 calcFcvt w s)
/-- FTOI (R210). -/
def execFtoi (w : PeWord) (s : State) : Host.Outcome State Fault Refusal := nextS (fireCalc 0x51 calcFtoi w s)
/-- ITOF (R211). -/
def execItof (w : PeWord) (s : State) : Host.Outcome State Fault Refusal := nextS (fireCalc 0x52 calcItof w s)
/-- FRND (R212). -/
def execFrnd (w : PeWord) (s : State) : Host.Outcome State Fault Refusal := nextS (fireCalc 0x53 calcFrnd w s)
/-- LSUM (R216). -/
def execLsum (w : PeWord) (s : State) : Host.Outcome State Fault Refusal := nextS (fireCalc 0x56 calcLsum w s)
/-- LDOT (R217). -/
def execLdot (w : PeWord) (s : State) : Host.Outcome State Fault Refusal := nextS (fireCalc 0x57 calcLdot w s)
/-- LBC (R219). -/
def execLbc (w : PeWord) (s : State) : Host.Outcome State Fault Refusal := nextS (fireCalc 0x58 calcLbc w s)
/-- LSHUF (R220). -/
def execLshuf (w : PeWord) (s : State) : Host.Outcome State Fault Refusal := nextS (fireCalc 0x59 calcLshuf w s)
/-- LPACK (R221). -/
def execLpack (w : PeWord) (s : State) : Host.Outcome State Fault Refusal := nextS (fireCalc 0x5A calcLpack w s)
/-- LUNPK (R222). -/
def execLunpk (w : PeWord) (s : State) : Host.Outcome State Fault Refusal := nextS (fireCalc 0x5B calcLunpk w s)
/-- LEXT (R219). -/
def execLext (w : PeWord) (s : State) : Host.Outcome State Fault Refusal := nextS (fireCalc 0x5C calcLext w s)
/-- LINS (R219). -/
def execLins (w : PeWord) (s : State) : Host.Outcome State Fault Refusal := nextS (fireCalc 0x5D calcLins w s)
/-- LRED (R218). -/
def execLred (w : PeWord) (s : State) : Host.Outcome State Fault Refusal := nextS (fireCalc 0x5E calcLred w s)
/-- FSCALE (R223). -/
def execFscale (w : PeWord) (s : State) : Host.Outcome State Fault Refusal := nextS (fireCalc 0x5F calcFscale w s)

end Sys2Proof.Machine
end

