-- ==== Sys2Proof/Machine/RowInteger.lean ====
section
/-! DEFINITION. The meanings of PE rows 0x00 to 0x23 that compute a result from their operands, and of the codes that no
operation has (R152, R160, R165 to R174). -/

namespace Sys2Proof.Machine

/-- A word whose OPC is not assigned raises 0x000 when its queues hold tokens of one tag (R145 step 1, R23). -/
def fireUnassigned (w : PeWord) (s : State) : State :=
  match s.focusPe with
  | none => s
  | some (uid, key) =>
    let u := (s.unit uid).purge key
    let s1 := s.setUnit uid u
    if !eregReady w (u.pe key) then s1
    else
      match u.matchSet key (selQueues w) (fun _ => true) with
      | none => s1
      | some toks => s1.faultAt uid key (raise 0x000 ((toks.map Prod.snd).headD {}))

/-- ILL (R152). -/
def execIll (w : PeWord) (s : State) : Host.Outcome State Fault Refusal := nextS (fireUnassigned w s)
/-- A code with a dash in the opcode map (R152). -/
def execUnassignedOpc (_ : BitVec 7) (w : PeWord) (s : State) : Host.Outcome State Fault Refusal := nextS (fireUnassigned w s)
/-- ADD (R165). -/
def execAdd (w : PeWord) (s : State) : Host.Outcome State Fault Refusal := nextS (fireCalc 0x01 calcAdd w s)
/-- SUB (R165). -/
def execSub (w : PeWord) (s : State) : Host.Outcome State Fault Refusal := nextS (fireCalc 0x02 calcSub w s)
/-- NEG (R165). -/
def execNeg (w : PeWord) (s : State) : Host.Outcome State Fault Refusal := nextS (fireCalc 0x03 calcNeg w s)
/-- MUL (R165). -/
def execMul (w : PeWord) (s : State) : Host.Outcome State Fault Refusal := nextS (fireCalc 0x04 calcMul w s)
/-- MULH (R165). -/
def execMulh (w : PeWord) (s : State) : Host.Outcome State Fault Refusal := nextS (fireCalc 0x05 calcMulh w s)
/-- MADD (R165). -/
def execMadd (w : PeWord) (s : State) : Host.Outcome State Fault Refusal := nextS (fireCalc 0x06 calcMadd w s)
/-- DIV (R165). -/
def execDiv (w : PeWord) (s : State) : Host.Outcome State Fault Refusal := nextS (fireCalc 0x07 calcDiv w s)
/-- REM (R165). -/
def execRem (w : PeWord) (s : State) : Host.Outcome State Fault Refusal := nextS (fireCalc 0x08 calcRem w s)
/-- MIN (R165). -/
def execMin (w : PeWord) (s : State) : Host.Outcome State Fault Refusal := nextS (fireCalc 0x09 calcMin w s)
/-- MAX (R165). -/
def execMax (w : PeWord) (s : State) : Host.Outcome State Fault Refusal := nextS (fireCalc 0x0A calcMax w s)
/-- ABS (R165). -/
def execAbs (w : PeWord) (s : State) : Host.Outcome State Fault Refusal := nextS (fireCalc 0x0B calcAbs w s)
/-- ABSD (R165). -/
def execAbsd (w : PeWord) (s : State) : Host.Outcome State Fault Refusal := nextS (fireCalc 0x0C calcAbsd w s)
/-- ADDS (R165). -/
def execAdds (w : PeWord) (s : State) : Host.Outcome State Fault Refusal := nextS (fireCalc 0x0D calcAdds w s)
/-- SUBS (R165). -/
def execSubs (w : PeWord) (s : State) : Host.Outcome State Fault Refusal := nextS (fireCalc 0x0E calcSubs w s)
/-- CMP (R166). -/
def execCmp (w : PeWord) (s : State) : Host.Outcome State Fault Refusal := nextS (fireCalc 0x0F calcCmp w s)
/-- AND (R167). -/
def execAnd (w : PeWord) (s : State) : Host.Outcome State Fault Refusal := nextS (fireCalc 0x10 calcAnd w s)
/-- OR (R167). -/
def execOr (w : PeWord) (s : State) : Host.Outcome State Fault Refusal := nextS (fireCalc 0x11 calcOr w s)
/-- XOR (R167). -/
def execXor (w : PeWord) (s : State) : Host.Outcome State Fault Refusal := nextS (fireCalc 0x12 calcXor w s)
/-- ANDN (R167). -/
def execAndn (w : PeWord) (s : State) : Host.Outcome State Fault Refusal := nextS (fireCalc 0x13 calcAndn w s)
/-- NOT (R167). -/
def execNot (w : PeWord) (s : State) : Host.Outcome State Fault Refusal := nextS (fireCalc 0x14 calcNot w s)
/-- SHL (R168). -/
def execShl (w : PeWord) (s : State) : Host.Outcome State Fault Refusal := nextS (fireCalc 0x15 calcShl w s)
/-- SHR (R168). -/
def execShr (w : PeWord) (s : State) : Host.Outcome State Fault Refusal := nextS (fireCalc 0x16 calcShr w s)
/-- SRA (R168). -/
def execSra (w : PeWord) (s : State) : Host.Outcome State Fault Refusal := nextS (fireCalc 0x17 calcSra w s)
/-- ROT (R168). -/
def execRot (w : PeWord) (s : State) : Host.Outcome State Fault Refusal := nextS (fireCalc 0x18 calcRot w s)
/-- CLZ (R168). -/
def execClz (w : PeWord) (s : State) : Host.Outcome State Fault Refusal := nextS (fireCalc 0x19 calcClz w s)
/-- CTZ (R168). -/
def execCtz (w : PeWord) (s : State) : Host.Outcome State Fault Refusal := nextS (fireCalc 0x1A calcCtz w s)
/-- POPC (R168). -/
def execPopc (w : PeWord) (s : State) : Host.Outcome State Fault Refusal := nextS (fireCalc 0x1B calcPopc w s)
/-- BEXT (R169). -/
def execBext (w : PeWord) (s : State) : Host.Outcome State Fault Refusal := nextS (fireCalc 0x1C calcBext w s)
/-- BINS (R169). -/
def execBins (w : PeWord) (s : State) : Host.Outcome State Fault Refusal := nextS (fireCalc 0x1D calcBins w s)
/-- SEXT (R170). -/
def execSext (w : PeWord) (s : State) : Host.Outcome State Fault Refusal := nextS (fireCalc 0x1E calcSext w s)
/-- ZEXT (R170). -/
def execZext (w : PeWord) (s : State) : Host.Outcome State Fault Refusal := nextS (fireCalc 0x1F calcZext w s)
/-- LEA (R171). -/
def execLea (w : PeWord) (s : State) : Host.Outcome State Fault Refusal := nextS (fireCalc 0x20 calcLea w s)
/-- BCHK (R172). -/
def execBchk (w : PeWord) (s : State) : Host.Outcome State Fault Refusal := nextS (fireCalc 0x21 calcBchk w s)
/-- SEL (R173). -/
def execSel (w : PeWord) (s : State) : Host.Outcome State Fault Refusal := nextS (fireCalc 0x22 calcSel w s)
/-- MOVE (R174). -/
def execMove (w : PeWord) (s : State) : Host.Outcome State Fault Refusal := nextS (fireCalc 0x23 calcMove w s)

end Sys2Proof.Machine
end

