-- ==== Sys2Proof/Machine/RowTile.lean ====
section
/-! DEFINITION. The meanings of the PE rows in format T (LDXS, STXS, MMUL, MDRN, MBLD) and of the tile form of FCVT: what a firing
checks, and what it hands to the store buffer or to queue M (R209, R248 to R255). -/

namespace Sys2Proof.Machine

/-- The checks of a matrix word at firing: claim, bank of slot `slot`, task-owned CIM slot, handoff codes (R252, R253). -/
def matFault (s : State) (uid cl : Nat) (w : PeWord) (slot cim : Option Nat) : Option Nat :=
  let m := matWord w
  if !s.claims cl uid then some 0x0C8
  else if slot.any (fun k => !(s.cluster cl).slotBank k) then some 0x029
  else if cim.any (fun b => s.taskOwned (s.unit uid).job b) then some 0x02A
  else if (m % 16 != 0 && badHandoff 3 (m % 16)) || (m / 16 % 16 != 0 && badHandoff 3 (m / 16 % 16)) then some 0x0C9
  else none

/-- A firing forwarded to queue M (R252). -/
def fireMatrix (opc : Nat) (slot cim : PeWord → Option Nat) (w : PeWord) (s : State) : State :=
  match prepFireT opc w s with
  | .wait s1 => s1
  | .fault s1 uid key r => s1.faultAt uid key r
  | .go s1 uid key g =>
    let site := (s1.unit uid).siteOf key
    match matFault s1 uid site.cl w (slot w) (cim w) with
    | some c => s1.faultAt uid key (raise c g.tok)
    | none =>
      let id := (s1.unit uid).nextId
      let s2 := (s1.commitFiring uid key g.toks).modUnit uid (fun u =>
        { (u.modPe key (fun p => { p with out := p.out ++ [.pending id] })) with nextId := id + 1, quiet := false })
      let u := s1.unit uid
      let o : MatOp := { id := id, opc := BitVec.ofNat 8 opc, w := w, unit := uid, site := site, tok := g.tok, rm := u.rm, uctl := u.uctl }
      s2.modCluster site.cl (fun c => { c with mq := c.mq ++ [o] })

/-- MMUL (R253). -/
def execMmul (w : PeWord) (s : State) : Host.Outcome State Fault Refusal := nextS (fireMatrix 0x72 (fun w => some (taOf w)) (fun w => some (tbOf w)) w s)
/-- MDRN into a slot: SUB 0 and 2 (R254). -/
def execMdrn (w : PeWord) (s : State) : Host.Outcome State Fault Refusal := nextS (fireMatrix 0x73 (fun w => some (tdOf w)) (fun _ => none) w s)
/-- MDRN SUB 3 (R254). -/
def execMdrnZero (w : PeWord) (s : State) : Host.Outcome State Fault Refusal := nextS (fireMatrix 0x73 (fun _ => none) (fun _ => none) w s)

/-- A memory-class word of format T that fires: readiness and R145, its own checks, R101, then it enters the buffer (R227). -/
def fireMemT (opc : Nat) (op : MemOp) (check : State → Nat → Nat → PeWord → Gathered → Option Nat) (ea n : PeWord → Gathered → Nat)
    (c : Gathered → Word) (w : PeWord) (s : State) : State :=
  match prepFireT opc w s with
  | .wait s1 => s1
  | .fault s1 uid key r => s1.faultAt uid key r
  | .go s1 uid key g =>
    let u := s1.unit uid
    if u.sbFull op g.tok.col then s1
    else
      match check s1 uid (u.siteOf key).cl w g with
      | some k => s1.faultAt uid key { cause := k, addr := wd (ea w g), tag := g.tok }
      | none =>
        if u.badOwn w g.tok then s1.faultAt uid key (raise 0x0AA g.tok)
        else
          s1.enterBuffer uid key g.toks { id := 0, site := u.siteOf key, op := op, opc := BitVec.ofNat 7 opc, w := w, tok := g.tok
                                          a := g.a.v, c := c g, ea := ea w g, n := n w g, swz := u.swz, uctl := u.uctl, rm := u.rm }

/-- The address of LDXS and STXS: the operand immediate is a signed displacement (R248, R250). -/
def tileEa (w : PeWord) (g : Gathered) : Nat := addDisp g.a.v (if w.x then w.imm.toInt else 0)
/-- A tile's start and, where its length is known, its end (R98). -/
def tileMisplaced (ea n : Nat) : Bool := ea % 128 != 0 || decide (4096 < ea % 4096 + n)

/-- LDXS (R248, R249). -/
def execLdxs (w : PeWord) (s : State) : Host.Outcome State Fault Refusal :=
  nextS (fireMemT 0x70 .ldxs (fun s uid cl w g =>
      if !s.claims cl uid then some 0x0C8
      else if !(s.cluster cl).slotBank (tdOf w) then some 0x029
      else if tileMisplaced (tileEa w g) (imageLen (ldxsFmt w)) then some 0x061 else none)
    tileEa (fun w _ => if ldxsFmt w = 0 then 4096 else imageLen (ldxsFmt w)) (fun _ => 0#64) w s)
/-- STXS (R250). -/
def execStxs (w : PeWord) (s : State) : Host.Outcome State Fault Refusal :=
  nextS (fireMemT 0x71 .stxs (fun s uid cl w g =>
      if !s.claims cl uid then some 0x0C8
      else if !(s.cluster cl).slotBank (taOf w) then some 0x029
      else if aeOf w && ((s.cluster cl).slot (taOf w)).tag == 0#4 then some 0x02B
      else if tileMisplaced (tileEa w g) (imageLen w.fmt.toNat) then some 0x061 else none)
    tileEa (fun w _ => if w.fmt = 0#4 then 4096 else imageLen w.fmt.toNat) (fun _ => 0#64) w s)
/-- MDRN SUB 1 (R254): memory-class, a 4096-byte image at a 4096-byte boundary. -/
def execMdrnMem (w : PeWord) (s : State) : Host.Outcome State Fault Refusal :=
  nextS (fireMemT 0x73 .mdrnMem (fun s uid cl w g =>
      match matFault s uid cl w none none with
      | some c => some c
      | none => if g.a.v.toNat % 4096 != 0 then some 0x061 else none)
    (fun _ g => g.a.v.toNat % 2 ^ 56) (fun _ _ => 4096) (fun _ => 0#64) w s)
/-- MBLD (R255): memory-class; a q0 token tagged 1 names the weight store. -/
def execMbld (w : PeWord) (s : State) : Host.Outcome State Fault Refusal :=
  nextS (fireMemT 0x7D .mbld (fun s uid cl w g =>
      match matFault s uid cl w none (some (tbOf w)) with
      | some c => some c
      | none => if g.a.v.toNat % 128 != 0 then some 0x061 else none)
    (fun _ g => if g.a.t = 1 then g.a.v.toNat else g.a.v.toNat % 2 ^ 56) (fun _ _ => 4096) (fun g => if g.a.t = 1 then 1#64 else 0#64) w s)

/-- The checks of the tile form of FCVT on its descriptor (R209), and the source tile; `none` waits for a full source. -/
def fcvtTileCheck (s : State) (uid cl : Nat) (d : Word) : Option (Except TFault Tile) :=
  let c := s.cluster cl
  let t := c.slot (wbits d 7 4)
  if !s.claims cl uid then some (.error (cause 0x0C8))
  else if !(c.slotBank (wbits d 7 4) && c.slotBank (wbits d 3 0)) then some (.error (cause 0x029))
  else if t.tag = 0#4 then none
  else if 8#4 ≤ t.tag then some (.error (tagCause 0x026 t.tag.toNat 3))
  else if t.tag.toNat < 5 then some (.error (tagCause 0x023 t.tag.toNat 3))
  else if wbits d 63 12 != 0 || wbits d 11 8 < 1 || 3 < wbits d 11 8 then some (.error (tagCause 0x025 (wbits d 11 8) 5))
  else some (.ok t)

/-- FCVT in its tile form (R209). -/
def execFcvtTile (w : PeWord) (s : State) : Host.Outcome State Fault Refusal :=
  nextS (match s.focusPe with
    | none => s
    | some (uid, key) =>
      let u := (s.unit uid).purge key
      let s1 := s.setUnit uid u
      let p := u.pe key
      if !eregReady w p then s1
      else
        match u.matchSet key (selQueues w) (fun _ => true) with
        | none => s1
        | some toks =>
          let t0 : Token := (toks.map Prod.snd).headD {}
          let a := operandOf 0x50 w p toks w.sa 0b10
          if !fcvtTileFieldsOk w then s1.faultAt uid key (raise 0x003 t0)
          else if (roundMode w.mod u.rm).isNone then s1.faultAt uid key (raise 0x001 t0)
          else if w.sa == 5#3 && !w.x then s1.faultAt uid key (raise 0x005 t0)
          else if w.sa == 7#3 && !(p.reg w.ei.toNat).full then s1.faultAt uid key (raise 0x028 t0)
          else
            match tagFault 0 a 0b10 with
            | some (c, d) => s1.faultAt uid key (raise c t0 d)
            | none =>
              let cl := (u.siteOf key).cl
              match fcvtTileCheck s1 uid cl a.v with
              | none => s1
              | some (.error f) => s1.faultAt uid key (raise f.cause t0 f.d0)
              | some (.ok t) =>
                let q := wbits a.v 11 8
                let r := quantise q (rawValues t.tag.toNat (w.sub.getLsbD 2) t.img)
                match s1.tileFlags uid r.2 u.uctl with
                | (s2, some c) => s2.faultAt uid key (raise c t0)
                | (s2, none) =>
                  ((s2.commitFiring uid key toks).modCluster cl (fun c => c.setSlot (wbits a.v 3 0) ⟨BitVec.ofNat 4 q, r.1⟩)).deliver uid key w
                    { t0 with ctx := BitVec.ofNat 2 u.ctx, payload := a.v, fmt := 1#4, col := u.effCol t0.col, kind := 0#2 })

end Sys2Proof.Machine
end

