-- ==== Sys2Proof/Machine/Firing.lean ====
section
/-! DEFINITION. What a PE can fire (R23, R302, R361): the meaning of the word that a PE holds, tried at that PE. -/

namespace Sys2Proof.Machine

/-- The state that a meaning answers. -/
def afterS (s : State) (o : Host.Outcome State Fault Refusal) : State :=
  match o with
  | .next s1 => s1
  | _ => s

/-- The attempt of a PE row at the focus; any other row leaves the state. -/
def tryFire (i : Instr) (s : State) : State :=
  match i with
  | .ill w => afterS s (execIll w s)
  | .add w => afterS s (execAdd w s)
  | .sub w => afterS s (execSub w s)
  | .neg w => afterS s (execNeg w s)
  | .mul w => afterS s (execMul w s)
  | .mulh w => afterS s (execMulh w s)
  | .madd w => afterS s (execMadd w s)
  | .div w => afterS s (execDiv w s)
  | .rem w => afterS s (execRem w s)
  | .min w => afterS s (execMin w s)
  | .max w => afterS s (execMax w s)
  | .abs w => afterS s (execAbs w s)
  | .absd w => afterS s (execAbsd w s)
  | .adds w => afterS s (execAdds w s)
  | .subs w => afterS s (execSubs w s)
  | .cmp w => afterS s (execCmp w s)
  | .and w => afterS s (execAnd w s)
  | .or w => afterS s (execOr w s)
  | .xor w => afterS s (execXor w s)
  | .andn w => afterS s (execAndn w s)
  | .not w => afterS s (execNot w s)
  | .shl w => afterS s (execShl w s)
  | .shr w => afterS s (execShr w s)
  | .sra w => afterS s (execSra w s)
  | .rot w => afterS s (execRot w s)
  | .clz w => afterS s (execClz w s)
  | .ctz w => afterS s (execCtz w s)
  | .popc w => afterS s (execPopc w s)
  | .bext w => afterS s (execBext w s)
  | .bins w => afterS s (execBins w s)
  | .sext w => afterS s (execSext w s)
  | .zext w => afterS s (execZext w s)
  | .lea w => afterS s (execLea w s)
  | .bchk w => afterS s (execBchk w s)
  | .sel w => afterS s (execSel w s)
  | .move w => afterS s (execMove w s)
  | .constFree w => afterS s (execConstFree w s)
  | .constTriggered w => afterS s (execConstTriggered w s)
  | .invOp w => afterS s (execInvOp w s)
  | .steer w => afterS s (execSteer w s)
  | .merge w => afterS s (execMerge w s)
  | .wadv w => afterS s (execWadv w s)
  | .tagnew w => afterS s (execTagnew w s)
  | .tagxl w => afterS s (execTagxl w s)
  | .tagend w => afterS s (execTagend w s)
  | .cntrSource w => afterS s (execCntrSource w s)
  | .cntrTriggered w => afterS s (execCntrTriggered w s)
  | .color w => afterS s (execColor w s)
  | .commit w => afterS s (execCommit w s)
  | .kill w => afterS s (execKill w s)
  | .gate w => afterS s (execGate w s)
  | .sink w => afterS s (execSink w s)
  | .scaletok w => afterS s (execScaletok w s)
  | .waitf w => afterS s (execWaitf w s)
  | .sete w => afterS s (execSete w s)
  | .fadd w => afterS s (execFadd w s)
  | .fsub w => afterS s (execFsub w s)
  | .fmul w => afterS s (execFmul w s)
  | .fma w => afterS s (execFma w s)
  | .fms w => afterS s (execFms w s)
  | .fnma w => afterS s (execFnma w s)
  | .fmin w => afterS s (execFmin w s)
  | .fmax w => afterS s (execFmax w s)
  | .fabs w => afterS s (execFabs w s)
  | .fneg w => afterS s (execFneg w s)
  | .fcmp w => afterS s (execFcmp w s)
  | .fdiv w => afterS s (execFdiv w s)
  | .fsqrt w => afterS s (execFsqrt w s)
  | .frcpe w => afterS s (execFrcpe w s)
  | .frsqe w => afterS s (execFrsqe w s)
  | .fclass w => afterS s (execFclass w s)
  | .fcvt w => afterS s (execFcvt w s)
  | .fcvtTile w => afterS s (execFcvtTile w s)
  | .ftoi w => afterS s (execFtoi w s)
  | .itof w => afterS s (execItof w s)
  | .frnd w => afterS s (execFrnd w s)
  | .cbd w => afterS s (execCbd w s)
  | .cbe w => afterS s (execCbe w s)
  | .lsum w => afterS s (execLsum w s)
  | .ldot w => afterS s (execLdot w s)
  | .lbc w => afterS s (execLbc w s)
  | .lshuf w => afterS s (execLshuf w s)
  | .lpack w => afterS s (execLpack w s)
  | .lunpk w => afterS s (execLunpk w s)
  | .lext w => afterS s (execLext w s)
  | .lins w => afterS s (execLins w s)
  | .lred w => afterS s (execLred w s)
  | .fscale w => afterS s (execFscale w s)
  | .ld w => afterS s (execLd w s)
  | .st w => afterS s (execSt w s)
  | .ldlk w => afterS s (execLdlk w s)
  | .pref w => afterS s (execPref w s)
  | .span w => afterS s (execSpan w s)
  | .ldsp w => afterS s (execLdsp w s)
  | .stsp w => afterS s (execStsp w s)
  | .ldws w => afterS s (execLdws w s)
  | .amo w => afterS s (execAmo w s)
  | .amx w => afterS s (execAmx w s)
  | .red w => afterS s (execRed w s)
  | .fence w => afterS s (execFence w s)
  | .flushr w => afterS s (execFlushr w s)
  | .memnop w => afterS s (execMemnop w s)
  | .lda w => afterS s (execLda w s)
  | .stl w => afterS s (execStl w s)
  | .ldxs w => afterS s (execLdxs w s)
  | .stxs w => afterS s (execStxs w s)
  | .mmul w => afterS s (execMmul w s)
  | .mdrn w => afterS s (execMdrn w s)
  | .mdrnZero w => afterS s (execMdrnZero w s)
  | .mdrnMem w => afterS s (execMdrnMem w s)
  | .mbld w => afterS s (execMbld w s)
  | .send w => afterS s (execSend w s)
  | .ttq w => afterS s (execTtq w s)
  | .hoff w => afterS s (execHoff w s)
  | .hwait w => afterS s (execHwait w s)
  | .trap w => afterS s (execTrap w s)
  | .brk w => afterS s (execBrk w s)
  | .rdctr w => afterS s (execRdctr w s)
  | .rdst w => afterS s (execRdst w s)
  | .wrst w => afterS s (execWrst w s)
  | .unassignedOpc o w => afterS s (execUnassignedOpc o w s)
  | _ => s

/-- A PE is ready: the attempt counts a firing, annihilates a token of a killing colour (R39), or holds or stops it with a cause (R302). -/
def State.peReady (s : State) (uid key : Nat) : Bool :=
  let u := s.unit uid
  let p := u.pe key
  if !p.consumes || p.held.isSome then false
  else
    match decodePe p.op p.seq p.imm with
    | none => false
    | some i =>
      let v := (tryFire i { s with focus := u.siteOf key }).unit uid
      v.fired != u.fired || (v.pe key).held.isSome || v.status != u.status || (v.pe key).q != p.q || v.ms.length != u.ms.length

end Sys2Proof.Machine
end

