-- ==== Sys2Proof/Machine/Image.lean ====
section
/-! DEFINITION. Configuration images (R139 to R141, R150, R151): the column-head decoder, and the words CFGL and CFGS with the
effects of a swap (R19, R190, R278). -/

namespace Sys2Proof.Machine

/-! ### Route tags and switch words -/

/-- Route tags of packet heads rewritten, in the switch words of a PE (R151): `f` maps a tag. -/
def mapHeads (f : Nat → Nat) : List (BitVec 16) → List (BitVec 16)
  | [] => []
  | w :: r =>
    if bits w.toNat 15 14 = 3 && w.toNat % 32 = 1 then
      match r with
      | a :: b :: r' =>
        let t := f (a.toNat + 65536 * b.toNat)
        w :: BitVec.ofNat 16 t :: BitVec.ofNat 16 (t / 65536) :: mapHeads f r'
      | _ => w :: r
    else w :: mapHeads f r
/-- A region-relative tag becomes one of the unit's region and context (R139, R151). -/
def bindTag (lead ctx t : Nat) : Nat := (bits t 31 23 + lead) * 2 ^ 23 + bits t 22 13 * 2 ^ 13 + ctx * 2 ^ 11
/-- A tag of one region and context becomes that of another (R363). -/
def rebindTag (oldLead lead ctx t : Nat) : Nat := bindTag lead ctx (t - oldLead * 2 ^ 23)

/-- A link of PE (x, y), or `k` PEs along it, stays on the fabric (R10). -/
def linkOk (x y d k : Nat) : Bool := (hop x y d k).isSome

/-- The switch words of PE (x, y) (R150): `ext` is whether a route word stands before (with extensions only in between),
`used` the outputs driven so far. `some` is the cause. An express word whose OUT is 4 to 7, which names no link, is rejected with 0x00F as
well: R150 gives it neither a meaning nor a cause (DESIGN CHOICE, log 73). -/
def switchFault (size x y : Nat) (ext : Bool) (used : List (Nat × Nat)) : List (BitVec 16) → Option Nat
  | [] => none
  | w :: r =>
    let n := w.toNat
    let inp := bits n 13 11
    let out := bits n 10 8
    let ln := bits n 7 5
    let aux := n % 32
    let key := if out < 4 then (out, ln) else (out, 0)
    match bits n 15 14 with
    | 3 =>
      if aux = 0 then (if n % 16384 != 0 then some 0x00F else switchFault size x y false used r)
      else if aux != 1 || 4 < inp then some 0x00F
      else
        match r with
        | a :: b :: r' =>
          let t := a.toNat + 65536 * b.toNat
          if size ≤ bits t 31 23 || t % 2048 != 0 then some 0x00E else switchFault size x y false used r'
        | _ => some 0x00F
    | 1 =>
      if !ext || inp != 0 || aux != 0 || (decide (out < 4) && !linkOk x y out 1) || used.contains key then some 0x00F
      else switchFault size x y true (key :: used) r
    | k =>
      let far := if k = 2 then aux / 8 + 1 else 1
      if 4 < inp || (k = 0 && aux != 0) || (k = 2 && (aux % 8 != 0 || 4 ≤ out)) || (inp != 0 && !linkOk x y (inp - 1) 1) ||
          (decide (out < 4) && !linkOk x y out far) || used.contains key then some 0x00F
      else switchFault size x y (k == 0) (key :: used) r

/-! ### Column streams (R140) -/

/-- The next byte of a stream; a stream that ends here describes fewer than 16 PEs, cause 0x00C. -/
def takeByte : List Byte → Except Nat (Nat × List Byte)
  | [] => .error 0x00C
  | b :: r => .ok (b.toNat, r)
/-- A literal of `k` bytes, in an image with `rest` bytes after the stream: one that runs past LEN is cause 0x009, one that only the stream
cuts short leaves fewer than 16 PEs described, cause 0x00C (log 7). -/
def takeLiteral (rest k : Nat) (bs : List Byte) : Except Nat (Nat × List Byte) :=
  if bs.length < k then .error (if bs.length + rest < k then 0x009 else 0x00C) else .ok (leNat (bs.take k), bs.drop k)
/-- An operation word, sequence word or immediate: a dictionary index or a literal. -/
def takeWord (rest : Nat) (dict : List Nat) (bs : List Byte) : Except Nat (Nat × List Byte) :=
  match takeByte bs with
  | .error c => .error c
  | .ok (c, r) => if c < 0xF0 then (match dict[c]? with
      | some w => .ok (w, r)
      | none => .error 0x00B) else if c = 0xF0 then takeLiteral rest 4 r else .error 0x00E
/-- `n` switch words. -/
def takeSwitches (rest : Nat) (dict : List Nat) : Nat → List Byte → Except Nat (List (BitVec 16) × List Byte)
  | 0, bs => .ok ([], bs)
  | n + 1, bs =>
    match takeByte bs with
    | .error c => .error c
    | .ok (c, r) =>
      let one : Except Nat (Nat × List Byte) :=
        if c = 0xF1 then takeLiteral rest 2 r
        else if c < 0xF0 then (match dict[c]? with
          | some w => if w / 65536 != 0 then .error 0x00B else .ok (w, r)
          | none => .error 0x00B)
        else .error 0x00E
      match one with
      | .error c => .error c
      | .ok (w, r') =>
        match takeSwitches rest dict n r' with
        | .error c => .error c
        | .ok (ws, r'') => .ok (BitVec.ofNat 16 w :: ws, r'')
/-- One PE that is not empty. -/
def takePe (rest : Nat) (dict : List Nat) (size x y : Nat) (bs : List Byte) : Except Nat (PeCtx × List Byte) := do
  let (op, r) ← takeWord rest dict bs
  let (sq, r) ← if memClass (BitVec.ofNat 7 (bits op 31 25)) (BitVec.ofNat 3 (bits op 24 22)) then takeWord rest dict r else .ok (0, r)
  let (imm, r) ← if op % 2 = 1 then takeWord rest dict r else .ok (0, r)
  let (n, r) ← takeByte r
  if 8 < n then .error 0x00D
  else
    let (ws, r) ← takeSwitches rest dict n r
    match switchFault size x y false [] ws with
    | some c => .error c
    | none => .ok ({ hasOp := true, op := BitVec.ofNat 32 op, seq := BitVec.ofNat 32 sq, imm := BitVec.ofNat 32 imm, sw := ws, home := (x, y) }, r)
/-- One column: PE(x,0) to PE(x,15), and nothing after them. -/
def takeColumn (rest : Nat) (dict : List Nat) (size rank x : Nat) : Nat → Nat → List Byte → Except Nat (List (Nat × PeCtx))
  | 0, _, _ => .error 0x00C
  | fuel + 1, y, bs =>
    match bs with
    | [] => if y = 16 then .ok [] else .error 0x00C
    | b :: r =>
      if 16 ≤ y then .error 0x00C
      else if b = 0xF2#8 then
        match takeByte r with
        | .error c => .error c
        | .ok (n, r') => if n = 0 || 16 < y + n then .error 0x00C else takeColumn rest dict size rank x fuel (y + n) r'
      else
        match takePe rest dict size x y bs with
        | .error c => .error c
        | .ok (p, r') => (takeColumn rest dict size rank x fuel (y + 1) r').map (fun l => (peKey rank x y, p) :: l)

/-! ### Reading an image -/

/-- Why an image is not loaded: rejected with a cause, a fetch that faulted, or a host's answer that is awaited. -/
inductive ImgFail where
  | reject (cause : Nat)
  | fetch (cause addr : Nat) (d0 d1 : Word)
  | wait

/-- Bytes fetched from G space. -/
def State.fetchCuts (s : State) (cl job : Nat) : List (Nat × Nat) → State × Except ImgFail (List Byte)
  | [] => (s, .ok [])
  | p :: r =>
    match readG s cl job p.1 p.2 .fetch 3 with
    | (s1, .ok b) =>
      match State.fetchCuts s1 cl job r with
      | (s2, .ok l) => (s2, .ok (b ++ l))
      | x => x
    | (s1, .error (.fault f)) => (s1, .error (.fetch f.cause p.1 f.d0 f.d1))
    | (s1, .error _) => (s1, .error .wait)
def State.fetchBytes (s : State) (cl job va n : Nat) : State × Except ImgFail (List Byte) := s.fetchCuts cl job (cuts va n)

/-- The columns from position `pos` of the image on; at the end LEN must be met (R140, R141). -/
def State.fetchColumns (s : State) (cl job va len size : Nat) (dict : List Nat) :
    List (Nat × Nat) → Nat → State × Except ImgFail (List (Nat × PeCtx))
  | [], pos => (s, if pos = len then .ok [] else .error (.reject 0x009))
  | (rank, x) :: rest, pos =>
    if len < pos + 2 then (s, .error (.reject 0x009))
    else
      match s.fetchBytes cl job (va + pos) 2 with
      | (s1, .error e) => (s1, .error e)
      | (s1, .ok c) =>
        let n := leNat c
        if len < pos + 2 + n then (s1, .error (.reject 0x009))
        else
          match s1.fetchBytes cl job (va + pos + 2) n with
          | (s2, .error e) => (s2, .error e)
          | (s2, .ok bs) =>
            match takeColumn (len - (pos + 2 + n)) dict size rank x 17 0 bs with
            | .error c => (s2, .error (.reject c))
            | .ok pes =>
              match State.fetchColumns s2 cl job va len size dict rest (pos + 2 + n) with
              | (s3, .ok l) => (s3, .ok (pes ++ l))
              | r => r

/-- The image at `va` for a unit, read and checked before any part of it takes effect (R139 to R141). A LEN that is no multiple of 4 is
rejected with 0x009, though R139 names no cause for one that equals the sum of the parts (DESIGN CHOICE, log 72). -/
def State.loadImage (s : State) (u : UnitSt) (va : Nat) : State × Except ImgFail Image :=
  if va % 64 != 0 then (s, .error (.reject 0x008))
  else
    match s.fetchBytes u.lead u.job va 32 with
    | (s1, .error e) => (s1, .error e)
    | (s1, .ok h) =>
      let f (hi lo : Nat) : Nat := leNat ((h.drop lo).take (hi + 1 - lo))
      let len := f 7 4
      let dsize := f 10 10
      if f 3 0 != 0xC0F16E00 || f 15 13 != 0 || f 31 20 != 0 || 1 < f 12 12 || 6 < f 8 8 then (s1, .error (.reject 0x008))
      else if len % 4 != 0 || len < 32 then (s1, .error (.reject 0x009))
      else if 2 ^ f 8 8 != u.size then (s1, .error (.reject 0x00A))
      else if 240 < dsize then (s1, .error (.reject 0x00B))
      else if len < 32 + 4 * dsize then (s1, .error (.reject 0x009))
      else
        match s1.fetchBytes u.lead u.job (va + 32) (4 * dsize) with
        | (s2, .error e) => (s2, .error e)
        | (s2, .ok d) =>
          let cols := (upFrom 0 u.size).flatMap (fun r => (upFrom 0 16).map (fun x => (r, x)))
          match s2.fetchColumns u.lead u.job va len u.size (unpackCodes 32 dsize (leNat d)) cols (32 + 4 * dsize) with
          | (s3, .error e) => (s3, .error e)
          | (s3, .ok pes) =>
            let tile := f 12 12 = 1
            if tile && !u.claim then (s3, .error (.reject 0x010))
            else (s3, .ok { addr := wd va, cfgid := f 19 16, tile := tile
                            pes := pes.map (fun p => (p.1, { p.2 with sw := mapHeads (bindTag u.lead u.ctx) p.2.sw })) })

/-! ### Swapping a configuration -/

/-- What a PE of a configuration holds when its period begins (R19, R180). -/
def UnitSt.freshPe (u : UnitSt) (p : PeCtx) : PeCtx :=
  if p.opc == 0x36#7 && p.word.sa == 6#3 && p.word.sb == 6#3 && p.word.sc == 6#3 then { p with node := u.latchCntr p.word } else p
/-- An image becomes active (R19, R190): element registers, colours, queues, sinks and open waves are reset. -/
def UnitSt.activate (u : UnitSt) (img : Image) : UnitSt :=
  { u with active := some img, staged := none, pes := img.pes.map (fun p => (p.1, { u.freshPe p.2 with halted := (u.pe p.1).halted })), col1 := 0, col2 := 0, col3 := 0
           sinks := [], openWave := [], spanHints := [], sb := [], ms := [], ovf := [], quiet := false }

/-! ### Failed PEs (R379) -/

/-- A unit ends faulted with a record that names it (R345, class E). -/
def State.endFaulted (s : State) (uid cause : Nat) (addr : Nat := 0) (d0 d1 : Word := 0#64) : State :=
  (s.unitRecord uid { unitRec (s.unit uid) cause 2 with uend := true, addr := addr, d0 := d0.toNat, d1 := d1.toNat }).endUnit uid 3
/-- The first PE of a cluster to which a node of unit `uid` may migrate. -/
def State.freePe (s : State) (uid cl : Nat) : Option (Nat × Nat) :=
  let u := s.unit uid
  ((upFrom 0 256).find? (fun k =>
    let p := u.pe (peKey (cl - u.lead) (k % 16) (k / 16))
    !p.consumes && p.stub.isNone && !s.fleet.peFailed.contains (cl, k % 16, k / 16))).map (fun k => (k % 16, k / 16))
/-- A unit of which a node stands on a failed PE, in a cluster with no PE free to migrate to, ends with cause 0x163 and the cluster is
pending (R379). A node with a target stays until MIGRATION moves it. -/
def State.endStranded (s : State) (uid : Nat) : State :=
  let u := s.unit uid
  match s.fleet.peFailed.find? (fun p => u.inRegion && u.covers p.1 && (u.pe (peKey (p.1 - u.lead) p.2.1 p.2.2)).consumes && (s.freePe uid p.1).isNone) with
  | none => s
  | some p => (s.endFaulted uid 0x163 0 6#64).modCluster p.1 (fun c => { c with pending := true })

/-- CFGL (R278): the image at ga + 64 × sx(IMM16) is staged. -/
def execCfgl (c : CWord) (s : State) : Host.Outcome State Fault Refusal :=
  nextS (seqWord 0x18 c s (fun uid u =>
    let va := (u.greg c.ga + (sx16 c <<< 6)).toNat % 2 ^ 56
    match s.loadImage u va with
    | (s1, .ok img) => s1.modUnit uid (fun x => { x.next with staged := some img })
    | (s1, .error (.reject k)) => s1.ctlFault uid k (if va % 64 != 0 then va else 0)
    | (s1, .error (.fetch k a d0 d1)) => if k = 0x160 then s1.ctlFault uid 0x160 a d0 d1 else s1.ctlFault uid 0x0E8 a (wd k) d1
    | (s1, .error .wait) => s1))
/-- LVLn of R32. -/
def UnitSt.lvlsOk (u : UnitSt) : Bool := (upFrom 0 8).all (fun n => let v := (lget u.lvl n 0#9).toNat; decide (2 ≤ v) && decide (v ≤ 256))
/-- CFGS (R278): at quiescence, with valid pool sizes, the staged image becomes active. -/
def execCfgs (c : CWord) (s : State) : Host.Outcome State Fault Refusal :=
  nextS (seqWord 0x19 c s (fun uid u => whenQuiet s uid u (fun s =>
    if !u.lvlsOk then s.ctlFault uid 0x0A6
    else
      match u.staged with
      | none => s.ctlFault uid 0x0E3
      | some img => (s.modUnit uid (fun x => (x.next).activate img)).endStranded uid)))

end Sys2Proof.Machine
end

