-- ==== Sys2Proof/Machine/Migration.lean ====
section
/-! DEFINITION. Migration of a node to another PE of its cluster (R47, R48, R301): the move, and the rewriting of switch words. -/

namespace Sys2Proof.Machine

/-- A unit with new switch words at some PEs: those of an event, in the form of an image (R151). -/
def UnitSt.withWords (u : UnitSt) (l : List (Nat × List (BitVec 16))) : UnitSt :=
  l.foldl (fun u p => u.modPe p.1 (fun c => { c with sw := mapHeads (bindTag u.lead u.ctx) p.2 })) u
/-- Switch words `p` of a PE that may be written into unit `v`, which has them: well formed (R150), at most 8 of them (R140), and no route of
theirs leads to an input that takes no token. -/
def UnitSt.wordsOk (v u : UnitSt) (p : Nat × List (BitVec 16)) : Bool :=
  let key := p.1
  let pos := u.siteOf key
  decide (key / 256 < u.size) && decide (p.2.length ≤ 8) && (switchFault u.size (key % 16) (key / 16 % 16) false [] p.2).isNone &&
    (v.switchAt pos).all (fun i => match i with
      | .route _ _ o l h => (match nextPlace pos (o, l, h) with
        | some (q, inp, ln) => !(v.outsAt q inp ln).isEmpty
        | none => true)
      | .head _ => true)
/-- The queues to which a result of PE `key` goes, those of `st` taken for those of `dest`. -/
def UnitSt.feeds (u : UnitSt) (st dest : Site) (key : Nat) : List (Site × Nat) :=
  (u.reach 256 (u.siteOf key) 0 0).map (fun e => if e.1 == st then (dest, e.2) else e)
/-- Rewriting the switch words of `u` to those of `v` leaves every node its consumers, but for the queues of `st` that those of `dest` stand
in for, and every token on a link the queues that it is on its way to (R301 steps 2 and 5). `moved` is where a node of `u` stands in `v`. -/
def State.rewriteOk (s : State) (u v : UnitSt) (st dest : Site) (moved : Nat → Nat) : Bool :=
  u.pes.all (fun p => !p.2.consumes || (u.feeds st dest p.1).isPerm (v.feeds st dest (moved p.1))) &&
    s.flights.all (fun f => !(f.tok.kind == 0#2 && u.ownsFlight f) || (u.leads f).isPerm (v.leads f))

/-- A key moved from P to Q. -/
def moveKey (p q k : Nat) : Nat := if k = p then q else k
/-- The context state of a unit's node moved from PE `key` at `st` to PE `key'` at `dest` (R301 steps 3 and 4): P becomes a stub and keeps its
switch words; a debugger's halt stays with the PE. -/
def UnitSt.moveNode (u : UnitSt) (st dest : Site) : UnitSt :=
  let key := u.keyOf st
  let key' := u.keyOf dest
  let p := u.pe key
  let q := u.pe key'
  let mv (e : MsEntry) : MsEntry := if peKey e.rank e.x e.y = key then { e with x := dest.x, y := dest.y } else e
  let fm (f : Option Nat × Raised) : Option Nat × Raised := (f.1.map (moveKey key key'), f.2)
  { ((u.setPe key' { p with sw := q.sw, halted := q.halted, stepOnce := q.stepOnce }).setPe key
      { sw := p.sw, home := p.home, halted := p.halted, stepOnce := p.stepOnce, stub := some (dest.x, dest.y) }) with
    ms := u.ms.map mv, ovf := u.ovf.map mv, curFault := u.curFault.map fm, pend := u.pend.map fm
    sb := u.sb.map (fun e => if e.site == st then { e with site := dest } else e) }
/-- Every set of the matching store that entries of PE (x, y) of a cluster fall into holds 8 entries at most (R26). -/
def State.setsHold (s : State) (dest : Site) : Bool :=
  let es := (s.msEntries dest.cl).map (fun p => (msSet (s.unit p.1).ctx p.2, p.2))
  es.all (fun e => !(e.2.x == dest.x && e.2.y == dest.y) || decide ((es.filter (fun f => f.1 == e.1)).length ≤ 8))
/-- A cluster has a stub in some context (R301). -/
def State.hasStub (s : State) (cl : Nat) : Bool :=
  s.units.any (fun v => v.2.inRegion && v.2.covers cl && v.2.pes.any (fun x => x.1 / 256 + v.2.lead == cl && x.2.stub.isSome))

/-- The move of R301: P becomes a stub for Q, with the new switch words; or the state as it was, where Q cannot take the node. -/
def State.startMigration (s : State) (uid : Nat) (st dest : Site) (words : List (Nat × List (BitVec 16))) : State :=
  let u := s.unit uid
  let key := u.keyOf st
  let key' := u.keyOf dest
  let v := (u.moveNode st dest).withWords words
  let s1 := (s.setUnit uid v).modCluster st.cl (fun c => { c with
    mq := c.mq.map (fun o => if o.unit == uid && o.site == st then { o with site := dest } else o)
    trace := aset c.trace (u.ctx, 0) (agetD c.trace (u.ctx, 0) 0 + 1) })
  if !(u.pe key).consumes || (u.pe key').consumes || s.hasStub st.cl || u.isDraining || key == key' || s.fleet.peFailed.contains (dest.cl, dest.x, dest.y) ||
    !s.rewriteOk u v st dest (moveKey key key') || !s1.setsHold dest then s
  else (s1.count 22 1).settleStubs uid

/-- MIGRATION (R301): the node of PE P moves to PE Q of the same cluster, where Q holds no operation in the context, and switch words of the
unit are rewritten; where P is already a stub, words alone are (step 5). Which Q and which words the scheduler chooses is its own affair:
they come with the event, and are taken only if they leave every node its consumers (DEDUCED, log 75). -/
def execMigration (s : State) : Host.Outcome State Fault Refusal :=
  nextS (match s.unitAt s.ev.site.cl s.ev.site.ctx with
    | none => s
    | some uid =>
      let u := s.unit uid
      let st := s.ev.site
      if !s.ev.words.all ((u.withWords s.ev.words).wordsOk u) then s
      else
        match (u.pe (u.keyOf st)).stub with
        | some q =>
          let v := u.withWords s.ev.words
          if s.rewriteOk u v st { st with x := q.1, y := q.2 } id then (s.setUnit uid v).settleStubs uid else s
        | none =>
          if s.ev.x2 < 16 && s.ev.y2 < 16 then s.startMigration uid st { st with x := s.ev.x2, y := s.ev.y2 } s.ev.words else s)

end Sys2Proof.Machine
end

