-- ==== Sys2Proof/Machine/Schedule.lean ====
section
/-! DEFINITION. The region schedulers (R122, R288, R293 to R298): ready units, the order of service, placement, quanta, the
request of a pre-emption (R361 steps 1 and 2), deadlines, watchdogs, and YIELD (R279). -/

namespace Sys2Proof.Machine

/-! ### Ready units -/

/-- A unit that waits for a region: a fresh one of a launch (`uid` none), or a saved one that may be resumed. -/
structure Ready where
  inst : Nat
  node : Nat
  idx : Nat
  queue : Nat
  job : Nat
  phase : Option Nat
  d : LaunchDesc
  uid : Option Nat
deriving DecidableEq, Repr

/-- A launch of the phase may start (R293). -/
def State.startable (s : State) (ph : Option Nat) (fill : Bool) : Bool :=
  match ph with
  | none => true
  | some p =>
    match s.phase? p with
    | none => false
    | some x => x.st == .run || (x.st == .fill && fill)
/-- The next unit of each running launch of an instance that has units to start. -/
def State.freshOf (s : State) (i : Instance) : List Ready :=
  (upFrom 0 i.nodes.length).filterMap (fun n =>
    let r := lget i.nodes n {}
    let nd := nodeDesc s i.job i.base.toNat n
    if !r.isRunning || !r.inPool || nd.kind != 0 then none
    else
      let d := launchDesc s i.job i.base.toNat nd.arg
      if r.started < d.nunit && s.startable i.phase d.fill then
        some { inst := i.id, node := n, idx := r.started, queue := i.queue, job := i.job, phase := i.phase, d := d, uid := none }
      else none)
/-- The ready set: fresh units, fresh units that have given their place up, and saved units without a stop handle (R296, R354). -/
def State.ready (s : State) : List Ready :=
  (s.insts.filter (fun i => i.status.isNone)).flatMap s.freshOf ++
  (s.units.filter (fun p => p.2.status == .ready || p.2.status == .saved none)).map (fun p =>
    { inst := p.2.inst, node := p.2.node, idx := p.2.unitid.toNat, queue := p.2.queue, job := p.2.job
      phase := (s.inst? p.2.inst).bind Instance.phase, d := s.descOf p.2, uid := some p.1 })
/-- A ready unit waits on a die of its launch's mask. -/
def Ready.waitsOn (r : Ready) (die : Nat) : Bool := bit r.d.dies die
/-- The order of R288 within a queue. -/
def Ready.before (a b : Ready) : Bool :=
  decide (a.inst < b.inst) || (a.inst == b.inst && (decide (a.node < b.node) || (a.node == b.node && decide (a.idx < b.idx))))
/-- The place of a unit in the order of R288 is before that of another. -/
def UnitSt.before (a b : UnitSt) : Bool :=
  decide (a.inst < b.inst) || (a.inst == b.inst && (decide (a.node < b.node) || (a.node == b.node && a.unitid.ult b.unitid)))
/-- A placed unit of the queue of `u` that has not started precedes it on its die (R288). -/
def State.placedBefore (s : State) (u : UnitSt) : Bool :=
  s.units.any (fun p => p.2.queue == u.queue && p.2.die == u.die && p.2.before u && (match p.2.status with
    | .placed _ => true
    | _ => false))
/-- A ready unit of the queue of `u` that waits for a place on its die precedes it (R288). -/
def State.readyBefore (s : State) (u : UnitSt) : Bool :=
  s.ready.any (fun r => r.queue == u.queue && r.waitsOn u.die &&
    (decide (r.inst < u.inst) || (r.inst == u.inst && (decide (r.node < u.node) || (r.node == u.node && decide (r.idx < u.unitid.toNat))))))
/-- A placed unit that has not started returns to the ready set (R288, R297). -/
def State.giveUpPlace (s : State) (uid : Nat) : State :=
  s.modUnit uid (fun u => { u with status := match u.status with
    | .placed none => .ready
    | .placed (some h) => .saved h
    | x => x })
/-- No ready unit of the same queue that waits on the die precedes it (R288). -/
def Ready.isHead (l : List Ready) (die : Nat) (r : Ready) : Bool :=
  r.waitsOn die && !l.any (fun x => x.queue == r.queue && x.waitsOn die && x.before r)

/-! ### Regions (R294) -/

/-- The clusters of region b of a die. -/
def regionClusters (rshape die b : Nat) : List Nat := upFrom (80 * die + b * 2 ^ rshape) (2 ^ rshape)
/-- The units that hold a region over a cluster. -/
def State.holders (s : State) (cl : Nat) : List UnitSt := (s.units.filter (fun p => p.2.inRegion && p.2.covers cl)).map Prod.snd
/-- The lowest context that no unit among `us` holds. -/
def freeCtx (us : List UnitSt) : Option Nat := (upFrom 0 4).find? (fun c => us.all (fun u => u.ctx != c))
/-- A cluster may take a unit beside the units `us`: it is in use, holds the job's settings or is free, its claim is free
if the unit claims, and no block of a tile task runs on its engine unless the job shares it (R122, R129, R133, R294, R380). -/
def State.clusterOk (s : State) (r : Ready) (us : List UnitSt) (cl : Nat) : Bool :=
  let c := s.cluster cl
  !c.unavail && !c.pending && us.all (fun u => u.job == r.job) && !(r.d.claim && us.any UnitSt.claim) && (!s.taskRuns cl || (s.job r.job).tileShare) &&
    (match aget s.reserved cl with
     | none => true
     | some k => k == (r.inst, r.node, r.idx))
/-- A die that a launch using the weight store may take: a phase of its job holds the store (R294). -/
def State.weightOk (s : State) (r : Ready) (die : Nat) : Bool :=
  !r.d.usesWeight || ((s.die die).wsJob == some r.job && (s.die die).wsPhase.isSome && r.phase.isSome)
/-- Region b of a die is eligible; `gone` are units counted as having left. The context it would take. -/
def State.regionCtx (s : State) (r : Ready) (gone : List Nat) (die b : Nat) : Option Nat :=
  let cls := regionClusters r.d.rshape die b
  let held (cl : Nat) : List UnitSt := (s.holders cl).filter (fun u => !gone.contains u.id)
  if 80 < (b + 1) * 2 ^ r.d.rshape || !r.waitsOn die || !s.weightOk r die || !cls.all (fun cl => s.clusterOk r (held cl) cl) then none
  else freeCtx (cls.flatMap held)
/-- The region that R294 takes: the lowest b, then the lowest die, among dies on which it is first of its queue. -/
def State.bestRegion (s : State) (l : List Ready) (r : Ready) : Option (Nat × Nat × Nat) :=
  (upFrom 0 (80 / 2 ^ r.d.rshape)).findSome? (fun b => (upFrom 0 4).findSome? (fun die =>
    if r.isHead l die then (s.regionCtx r [] die b).map (fun c => (die, b, c)) else none))

/-! ### The order of service (R295) -/

/-- Arithmetic clocks of a quantum. -/
def quantumLen : Nat := 2 ^ 20
/-- How long a job has waited without running a unit on a die. -/
def State.waited (s : State) (job die : Nat) : Nat :=
  match aget (s.job job).waitSince die with
  | none => 0
  | some c => ((s.die die).cyc - wd c).toNat
/-- A batch job under the starvation guard. -/
def State.starved (s : State) (job die : Nat) : Bool := (s.job job).cls == 2 && decide (4 * quantumLen ≤ s.waited job die)
/-- The group of R295 in which a unit is served: 0 deadline, 1 starved, 2 interactive, 3 batch. -/
def State.serviceGroup (s : State) (die : Nat) (r : Ready) : Nat :=
  match (s.job r.job).cls with
  | 0 => 0
  | 1 => 2
  | _ => if s.starved r.job die then 1 else 3
/-- Unit a is served before unit b on a die. -/
def State.servedFirst (s : State) (die : Nat) (a b : Ready) : Bool :=
  let ga := s.serviceGroup die a
  let gb := s.serviceGroup die b
  let ord (x : Bool) (tie : Bool) : Bool := x || (tie && (decide (a.queue < b.queue) || (a.queue == b.queue && a.before b)))
  if ga != gb then decide (ga < gb)
  else
    match ga with
    | 0 => ord (decide ((s.job a.job).deadline < (s.job b.job).deadline)) ((s.job a.job).deadline == (s.job b.job).deadline)
    | 1 => ord (decide (s.waited b.job die < s.waited a.job die)) (s.waited a.job die == s.waited b.job die)
    | _ =>
      let x := agetD (s.die die).charges a.job 0 * (s.job b.job).weight
      let y := agetD (s.die die).charges b.job 0 * (s.job a.job).weight
      ord (decide (x < y)) (x == y)
/-- The first of a list in that order. -/
def State.firstServed (s : State) (die : Nat) : List Ready → Option Ready
  | [] => none
  | r :: l =>
    match s.firstServed die l with
    | none => some r
    | some x => if s.servedFirst die x r then some x else some r

/-! ### Placement -/

/-- A cluster whose local store last served another job, or none, is prepared for a job (R121, R131). A job bound under the JOBID of one that
was dropped counts as the same job, unless tile tasks have used the cluster's engine meanwhile: R121 says nothing of a JOBID used again
(DESIGN CHOICE, log 71). -/
def State.prepareCluster (s : State) (cl job : Nat) : State :=
  if (s.cluster cl).lsJob == some job then s
  else
    let s1 := s.flushL1 cl
    let s2 : State := { s1 with lsm := Memory.clear s1.lsm (cl * 2 ^ 20) (2 ^ 20) }
    s2.modCluster cl (fun c => { c with lsJob := some job, roles := (s.job job).roles, lsMode := (s.job job).lsMode, slots := [], cim := [], tables := [] })
/-- A unit takes its place: its region, context and clusters (R294); its phase has run units on the die (R380). -/
def State.takeRegion (s : State) (r : Ready) (uid die b ctx : Nat) (f : UnitSt → UnitSt) : State :=
  let cls := regionClusters r.d.rshape die b
  let what : Decision := match (s.unit uid).status with
    | .saved _ => .unitResumed
    | _ => .unitPlaced
  let s0 := (r.phase.toList).foldl (fun s p => s.modPhase p (fun x => { x with ran := if x.ran.contains die then x.ran else x.ran ++ [die] })) (s.journal what)
  let s1 := cls.foldl (fun s cl => s.prepareCluster cl r.job) s0
  { (s1.modDie die (fun d => { d with remap := false })).modUnit uid (fun u => { f u with die := die, lead := 80 * die + b * 2 ^ r.d.rshape, ctx := ctx }) with
    reserved := s1.reserved.filter (fun p => p.2 != (r.inst, r.node, r.idx)) }
/-- A token in another context (R363). -/
def Token.inCtx (t : Token) (ctx : Nat) : Token := { t with ctx := BitVec.ofNat 2 ctx }
def NodeState.mapTok (f : Token → Token) : NodeState → NodeState
  | .inv t k n => .inv (f t) k n
  | .cntrTrig t b st k n => .cntrTrig (f t) b st k n
  | .wadvHold t => .wadvHold (f t)
  | .gateHold t => .gateHold (f t)
  | .tagnewWait t e => .tagnewWait (f t) e
  | .colorWait t k => .colorWait (f t) k
  | x => x
def OutSlot.mapTok (f : Token → Token) : OutSlot → OutSlot
  | .ready t => .ready (f t)
  | x => x
/-- A PE record of a saved unit for another region: tokens and route tags (R363). -/
def PeCtx.rebind (f : Token → Token) (g : Nat → Nat) (p : PeCtx) : PeCtx :=
  { p with sw := mapHeads g p.sw, q := p.q.map (fun l => l.map f), node := p.node.mapTok f, out := p.out.map (OutSlot.mapTok f)
           held := p.held.map (fun r => { r with tag := f r.tag }) }
/-- A reply route tag for another region. -/
def rebindReply (oldLead lead ctx : Nat) (t : Word32) : Word32 := BitVec.ofNat 32 (rebindTag oldLead lead ctx t.toNat)
/-- Where the image puts a node that stood at `key` (R363): its position before migrations. -/
def UnitSt.homeKey (u : UnitSt) (key : Nat) : Nat :=
  match aget u.pes key with
  | some p => if p.consumes then peKey (key / 256) p.home.1 p.home.2 else key
  | none => key
/-- A message of a saved unit for the region that the unit will take (R361, R363). -/
def InMsg.rebind (u : UnitSt) (lead ctx : Nat) (m : InMsg) : InMsg :=
  { m with cl := m.cl - u.lead + lead, ctx := ctx, tag := m.tag.inCtx ctx, msg := { m.msg with reply := rebindReply u.lead lead ctx m.msg.reply } }
/-- Accepted collective contributions of a unit, which outlive its save (R361), follow it to its next region. -/
def State.rebindColl (s : State) (u : UnitSt) (lead ctx : Nat) : State :=
  let f (m : InMsg) : InMsg := if m.unit == u.id then m.rebind u lead ctx else m
  { s with runs := s.runs.map (fun r => { r with m := f r.m })
           colls := s.colls.map (fun c => { c with parts := c.parts.map (fun p => { p with m := p.m.map f }) }) }
/-- How far a token at an input of a switch is from the last queue that its routes reach. -/
def UnitSt.far (u : UnitSt) : Nat → Site → Nat → Nat → Nat
  | 0, _, _, _ => 0
  | fuel + 1, pos, inp, lane =>
    ((u.outsAt pos inp lane).map (fun o => match nextPlace pos o with
      | some (p, i, l) => UnitSt.far u fuel p i l + 1
      | none => 1)).foldl max 0
/-- The tokens that stood on links when a unit was saved. The switch words of the image, which restore brings back, need not fit links that a
migration has rewritten: there each becomes a packet for each queue that it was on its way to, the nearest token first (R50, R301; DEDUCED, log 41). -/
def UnitSt.flightsBack (u : UnitSt) : List Flight :=
  if !u.pes.any (fun p => p.2.consumes && u.homeKey p.1 != p.1) then u.savedFlights
  else
    let dist (f : Flight) : Nat := if f.q.isSome then 0 else u.far 256 f.pos f.inp f.lane
    let home (st : Site) : Site :=
      if 16 ≤ st.x then st else let k := u.homeKey (u.keyOf st); { st with cl := u.lead + k / 256, x := k % 16, y := k / 16 % 16 }
    let sorted := u.savedFlights.foldl (fun l f => l.takeWhile (fun g => decide (dist g ≤ dist f)) ++ [f] ++ l.dropWhile (fun g => decide (dist g ≤ dist f))) []
    sorted.flatMap (fun f => (u.leads f).map (fun e => ({ f with src := home f.src, pos := home e.1, inp := 0, lane := 0, q := some e.2 } : Flight)))
/-- A saved unit described for the region and context that it will take (R363): nodes at their image positions, contexts and
route tags rewritten. A place that a node left by migration holds that node again. -/
def UnitSt.rebind (u : UnitSt) (lead ctx : Nat) : UnitSt :=
  let f (t : Token) : Token := t.inCtx ctx
  let g := rebindTag u.lead lead ctx
  let nodes := u.pes.filter (fun p => p.2.consumes)
  let rest := u.pes.filter (fun p => !p.2.consumes && !nodes.any (fun n => u.homeKey n.1 == p.1))
  let place (st : Site) : Site := { st with cl := st.cl - u.lead + lead, ctx := ctx }
  let site (st : Site) : Site :=
    let k := u.homeKey (u.keyOf st)
    ⟨lead + k / 256, k % 16, k / 16 % 16, ctx⟩
  let ms (e : MsEntry) : MsEntry := let k := u.homeKey (peKey e.rank e.x e.y); { e with x := k % 16, y := k / 16 % 16, tok := f e.tok }
  let fm (p : Option Nat × Raised) : Option Nat × Raised := (p.1.map u.homeKey, { p.2 with tag := f p.2.tag })
  let img (i : Image) : Image := { i with pes := i.pes.map (fun p => (p.1, p.2.rebind f g)) }
  let msg : InMsg → InMsg := InMsg.rebind u lead ctx
  { u with
    pes := nodes.map (fun p => (u.homeKey p.1, p.2.rebind f g)) ++ rest.map (fun p => (p.1, p.2.rebind f g)), ms := u.ms.map ms, ovf := u.ovf.map ms
    sb := u.sb.map (fun e => { e with site := site e.site, tok := f e.tok, heldFault := e.heldFault.map (fun r => { r with tag := f r.tag }) })
    sinks := u.sinks.map (fun p => (p.1, p.2.map f)), curFault := u.curFault.map fm, pend := u.pend.map fm
    active := u.active.map img, staged := u.staged.map img
    replies := u.replies.map (fun r => (f r.1, rebindReply u.lead lead ctx r.2))
    savedFlights := u.flightsBack.map (fun x => { x with src := place x.src, pos := place x.pos, tok := f x.tok })
    savedMsgs := u.savedMsgs.map (fun p => (p.1, msg p.2))
    savedRuns := u.savedRuns.map (fun r => { r with m := msg r.m, eng := if r.eng.kind == .collective then r.eng else ⟨r.eng.kind, r.eng.place - u.lead + lead⟩ })
    savedMq := u.savedMq.map (fun o => { o with site := site o.site, tok := f o.tok, msg := o.msg.map msg }) }

/-- A fresh unit of a launch is made (R43). -/
def State.newUnit (s : State) (r : Ready) (i : Instance) : State :=
  let nd := nodeDesc s r.job i.base.toNat r.node
  let u : UnitSt := { id := s.nextUnit, job := r.job, inst := r.inst, launch := nd.arg, node := r.node, queue := r.queue
                      unitid := BitVec.ofNat 12 r.idx, kseq := i.kseq, rshape := r.d.rshape, status := .placed none, claim := r.d.claim }
  ({ s with units := aset s.units s.nextUnit u, nextUnit := s.nextUnit + 1 }).modInst r.inst (fun x =>
    { x with nodes := lmod x.nodes r.node (fun n => { n with started := n.started + 1 }) })
/-- UNIT_PLACEMENT (R294, R295): the scheduler of a die places the first unit in the order of service whose region is on it. -/
def execUnitPlacement (s : State) : Host.Outcome State Fault Refusal :=
  nextS (
    let die := s.ev.die
    let l := s.ready
    let cand := l.filter (fun r => match s.bestRegion l r with
      | some (d, _, _) => d == die
      | none => false)
    match s.firstServed die cand with
    | none => s
    | some r =>
      match s.bestRegion l r, s.inst? r.inst with
      | some (_, b, ctx), some i =>
        (match r.uid with
         | none => (s.newUnit r i).takeRegion r s.nextUnit die b ctx id
         | some uid =>
           let lead := 80 * die + b * 2 ^ r.d.rshape
           if (s.unit uid).status == .ready then s.takeRegion r uid die b ctx (fun u => { u with status := .placed none })
           else (s.rebindColl (s.unit uid) lead ctx).takeRegion r uid die b ctx (fun u => { u.rebind lead ctx with status := .placed (some none) }))
      | _, _ => s)

/-! ### Pre-emption -/

/-- The request of a pre-emption (R361 steps 1 and 2): its record (but for YIELD), then the unit drains; a stopped unit drains
what it has issued (R354); a unit that has not started yet returns to the ready set at once. -/
def State.requestPreempt (s : State) (uid : Nat) (recorded : Bool) : State :=
  let u := s.unit uid
  let go (s : State) (stop : Option Nat) : State :=
    let s1 := if recorded then s.unitRecord uid (unitRec u 0x100 2) else s
    (((s1.journal .unitPreempted).liftHalts uid true).count 23 1).modUnit uid (fun x => { x with status := .draining s.hub.toNat stop, wait := .none, quiet := false })
  match u.status with
  | .running => go s none
  | .stopped h => go s (some h)
  | .placed _ => (((if recorded then s.unitRecord uid (unitRec u 0x100 2) else s).journal .unitPreempted).count 23 1).giveUpPlace uid
  | _ => s

/-- A ready unit may displace another (R279, R296): its class is equal or higher, or, where asked, it is under the starvation guard. -/
def State.mayDisplace (s : State) (r : Ready) (v : UnitSt) (guard : Bool) : Bool :=
  decide ((s.job r.job).cls ≤ (s.job v.job).cls) || (guard && s.starved r.job v.die)
/-- A ready unit waits for a region that unit `u` holds (R296): it is first of its queue, no region is eligible for it, and one that
overlaps `u` would be if `u` left, and with it the units of that region whose quantum will expire and that it may displace. -/
def State.wantsRegion (s : State) (l : List Ready) (r : Ready) (u : UnitSt) (guard : Bool) : Bool :=
  let gone := (s.units.filter (fun p => p.1 == u.id || (p.2.inRegion && (s.job p.2.job).cls != 0 && s.mayDisplace r p.2 guard))).map Prod.fst
  r.isHead l u.die && (s.bestRegion l r).isNone &&
    (upFrom 0 (80 / 2 ^ r.d.rshape)).any (fun b =>
      (regionClusters r.d.rshape u.die b).any (fun c => u.covers c) && (s.regionCtx r gone u.die b).isSome)
/-- A unit of equal or higher class than `u`, or one under the starvation guard where asked, waits for `u`'s region. -/
def State.displaced (s : State) (u : UnitSt) (guard : Bool) : Bool :=
  let l := s.ready
  l.any (fun r => s.mayDisplace r u guard && s.wantsRegion l r u guard)

/-- QUANTUM_EXPIRY (R296). -/
def execQuantumExpiry (s : State) : Host.Outcome State Fault Refusal :=
  nextS (
    let u := s.unit s.ev.u
    if !u.isRunning || (s.job u.job).cls == 0 || u.quantum < quantumLen then s
    else if s.displaced u true then s.requestPreempt s.ev.u true
    else s.modUnit s.ev.u (fun x => { x with quantum := x.quantum - quantumLen }))

/-- What is left of the quantum that a unit is in: it is in its next one from the clock after an expiry on (R296). -/
def quantumRest (q : Nat) : Nat := if q = 0 then quantumLen else quantumLen - 1 - (q - 1) % quantumLen
/-- The quantum of a unit that completes is charged in full (R296): what is left of it; a deadline unit has none. -/
def State.chargeQuantum (s : State) (u : UnitSt) : State :=
  if (s.job u.job).cls == 0 then s
  else s.modDie u.die (fun d => { d with charges := aset d.charges u.job (agetD d.charges u.job 0 + quantumRest u.quantum) })
/-- DONE (R18, R43, R278, R296): the unit ends complete. One that completes after the clock in which its quantum expired is pre-empted
instead, where a unit waits that makes the scheduler do so. -/
def execDone (c : CWord) (s : State) : Host.Outcome State Fault Refusal :=
  nextS (seqWord 0x30 c s (fun uid u => whenQuiet s uid u (fun s =>
    if (s.job u.job).cls != 0 && decide (quantumLen < u.quantum) && s.displaced u true then s.requestPreempt uid true
    else (s.chargeQuantum u).endUnit uid 1)))
/-- YIELD (R279): at quiescence the word completes; the unit is pre-empted if a unit of equal or higher class waits. -/
def execYield (c : CWord) (s : State) : Host.Outcome State Fault Refusal :=
  nextS (seqWord 0x26 c s (fun uid u => whenQuiet s uid u (fun s =>
    let s1 := s.nextWord uid
    if s1.displaced u false then s1.requestPreempt uid false else s1)))

/-- What a deadline unit would pre-empt in a region (R297): the units of other jobs, none of the deadline class; `none` if the
region would not be eligible even then. -/
def State.victims (s : State) (r : Ready) (die b : Nat) : Option (List UnitSt) :=
  let us := s.units.filter (fun p => p.2.inRegion && p.2.job != r.job && (regionClusters r.d.rshape die b).any (fun c => p.2.covers c))
  if us.isEmpty || us.any (fun p => (s.job p.2.job).cls == 0) then none
  else (s.regionCtx r (us.map Prod.fst) die b).map (fun _ => us.map Prod.snd)
/-- The class of a candidate: the highest class among its units. -/
def State.victimClass (s : State) (us : List UnitSt) : Nat := (us.map (fun u => (s.job u.job).cls)).foldl Nat.min 3
/-- The candidate that R297 picks: the lowest class, then the fewest units, then the lowest b. -/
def State.pickVictims (s : State) (r : Ready) (l : List Ready) : Option (Nat × Nat × List UnitSt) :=
  let cand := (upFrom 0 (80 / 2 ^ r.d.rshape)).flatMap (fun b => (upFrom 0 4).filterMap (fun die =>
    if r.isHead l die then (s.victims r die b).map (fun us => (die, b, us)) else none))
  cand.foldl (fun best c =>
    match best with
    | none => some c
    | some x =>
      let cx := s.victimClass x.2.2
      let cc := s.victimClass c.2.2
      if cx < cc || (cx = cc && c.2.2.length < x.2.2.length) then some c else best) none
/-- PREEMPT_REQUEST (R297, R361): the first deadline unit of a die without an eligible region chooses a region; its units are
pre-empted and its clusters are reserved. -/
def execPreemptRequest (s : State) : Host.Outcome State Fault Refusal :=
  nextS (
    let l := s.ready
    let cand := l.filter (fun r => (s.job r.job).cls == 0 && r.waitsOn s.ev.die && (s.bestRegion l r).isNone &&
      !s.reserved.any (fun p => p.2 == (r.inst, r.node, r.idx)) && (s.pickVictims r l).isSome)
    match s.firstServed s.ev.die cand with
    | none => s
    | some r =>
      match s.pickVictims r l with
      | none => s
      | some (die, b, us) =>
        let s1 := (us.map UnitSt.id).foldl (fun s u => s.requestPreempt u true) s
        { s1 with reserved := s1.reserved ++ (regionClusters r.d.rshape die b).map (fun c => (c, (r.inst, r.node, r.idx))) })

/-- DEADLINE_MISSED (R298): one record with cause 0x110. -/
def execDeadlineMissed (s : State) : Host.Outcome State Fault Refusal :=
  nextS (match aget s.jobs s.ev.job with
    | none => s
    | some j =>
      if j.cls != 0 || j.ended || j.missed || decide (s.hub.toNat ≤ j.deadline) then s
      else (s.modJob s.ev.job (fun x => { x with missed := true })).jobRecord s.ev.job 0x110 2 0 0 0)

/-- WATCHDOG_EXPIRY (R368): cause 0x111, of class S. -/
def execWatchdogExpiry (s : State) : Host.Outcome State Fault Refusal :=
  nextS (
    let u := s.unit s.ev.u
    if u.isRunning && decide (2 ^ 28 ≤ u.watchdog) && !(s.job u.job).debugHold then
      s.takeFault s.ev.u none { cause := 0x111, tepc := u.ccnt }
    else s)

end Sys2Proof.Machine
end

