-- ==== Sys2Proof/Machine/Unit.lean ====
section
/-! DEFINITION. Starting a unit and restoring a saved one (R129, R134, R299, R363, R385), and a unit's end by an error in its own
state (R370). -/

namespace Sys2Proof.Machine

/-- A sequencer may start on a die now: spacing, hold and over-temperature (R299, R385). -/
def State.startOk (s : State) (die : Nat) : Bool :=
  let gap := if s.pow.alarm && s.pow.spacing < 64 then 64 else s.pow.spacing
  !s.pow.hold && !s.pow.crit && (s.die die).powered &&
    (match (s.die die).lastStart with
     | none => true
     | some c => decide (gap ≤ ((s.die die).cyc - wd c).toNat))
/-- A failed image load by the front end (R299); a wait leaves the unit as it is. -/
def State.imageFailed (s : State) (uid : Nat) : ImgFail → State
  | .reject k => s.endFaulted uid k
  | .fetch k a d0 d1 => if k = 0x160 then s.endFaulted uid 0x160 a d0 d1 else s.endFaulted uid 0x0E8 a (wd k) d1
  | .wait => s
/-- The sequencer of a unit starts (R299 step 6, R302). A halted PE fires in no context of the job, nor do those of a halted cluster (R367). -/
def State.startSequencer (s : State) (uid : Nat) (f : UnitSt → UnitSt) : State :=
  let die := (s.unit uid).die
  let halt (u : UnitSt) : UnitSt := { u with pes := u.pes.map (fun p =>
    (p.1, { p.2 with halted := p.2.halted || (s.job u.job).haltCl.contains (u.lead + p.1 / 256) ||
      (s.job u.job).haltPe.contains (u.lead + p.1 / 256, p.1 % 16, p.1 / 16 % 16) })) }
  let s1 := s.modUnit uid (fun u => { halt (f u) with status := .running, started := s.startCtr, watchdog := 0, quantum := 0, quiet := false, wait := .none })
  { s1.modDie die (fun d => { d with lastStart := some d.cyc.toNat }) with startCtr := s.startCtr + 1 }

/-- The overflow table of a unit (R329). -/
def ovfBaseOf (d : LaunchDesc) (idx : Nat) : Nat := (d.ovfBase + idx * (16 + 16 * d.ovfCap)) % 2 ^ 56 / 16 * 16
/-- Garnet writes the overflow table header, as an access of the atomic kind (R28, R299); or a cause; or it waits for a host. -/
def State.writeHeader (s : State) (u : UnitSt) (d : LaunchDesc) : State × Option TrRes :=
  match translateReady s u.lead u.job (ovfBaseOf d u.unitid.toNat) 16 .atomic 2 with
  | (s1, .ok xa _ _) =>
    match badLine s1 xa 16 with
    | some f => (s1, some (.fault f))
    | none => (s1.writeXa (0, 0) xa (leBytes 8 0 ++ leBytes 8 d.ovfCap), none)
  | (s1, r) => (s1, some r)
/-- The registers at unit start (R19, R274, R281, R282, R299). -/
def UnitSt.startRegs (u : UnitSt) (d : LaunchDesc) : UnitSt :=
  let uctl : BitVec 12 := BitVec.ofNat 12 (d.uctl &&& 0xF1F)
  { u with
    lvl := (upFrom 0 8).map (fun n => BitVec.ofNat 9 (bits d.lvl (8 * n + 7) (8 * n) + 1)), ovft := wd (ovfBaseOf d u.unitid.toNat)
    uctl := uctl, rm := uctl.extractLsb' 8 3, g := [0#64, wd d.args], ccnt := wd d.entry &&& codeMask, claim := d.claim
    tags := [{ lvl := 0, itag := 0 }] }
/-- A cluster whose claim is taken at unit start: empty slots, zero counts, clear accumulators (R129). -/
def Cluster.freshClaim (c : Cluster) (uid : Nat) : Cluster := { c with claim := some uid, slots := [], acc := [], handoff := [] }
/-- A launch leaves the pool when its last unit has started (R291). -/
def State.leavePool (s : State) (inst node nunit : Nat) : State :=
  if s.units.any (fun p => p.2.inst == inst && p.2.node == node && (p.2.status == .placed none || p.2.status == .ready)) then s
  else s.modInst inst (fun x => { x with nodes := lmod x.nodes node (fun n => if n.started = nunit then { n with inPool := false } else n) })

/-- The initial image of a unit is not yet there: the state in which it has been asked for (R117). -/
def State.awaitImage (s : State) (u : UnitSt) (va : Nat) : Option State :=
  match s.loadImage u va with
  | (s1, .error .wait) => some s1
  | _ => none
/-- The unit starts: the registers and the claim, the initial image with its checks, the gates, the sequencer (R299). -/
def State.startUnit (s : State) (uid : Nat) (u : UnitSt) (d : LaunchDesc) : State :=
  let u1 := u.startRegs d
  let s1 := s.setUnit uid u1
  let s2 := if u1.claim then u1.clusterList.foldl (fun s c => s.modCluster c (fun k => k.freshClaim uid)) s1 else s1
  if d.image = 0 then s2.startSequencer uid id
  else
    match s2.loadImage u1 (d.image % 2 ^ 56) with
    | (s3, .ok img) => (s3.startSequencer uid (fun x => x.activate img)).endStranded uid
    | (s3, .error e) => s3.imageFailed uid e
/-- UNIT_START (R288, R299): the overflow table's header, then the unit. It waits for the placed units of its queue that precede it, and
gives its place up to one that waits for a place on its die. -/
def execUnitStart (s : State) : Host.Outcome State Fault Refusal :=
  nextS (
    let uid := s.ev.u
    match aget s.units uid with
    | none => s
    | some u =>
      if u.status != .placed none || !s.startOk u.die || s.placedBefore u then s
      else if s.readyBefore u then s.giveUpPlace uid
      else
        let d := s.descOf u
        match (if d.image = 0 then none else s.awaitImage u (d.image % 2 ^ 56)) with
        | some s1 => s1
        | none =>
          match s.writeHeader u d with
          | (s1, some (.fault f)) => (s1.endFaulted uid f.cause (ovfBaseOf d u.unitid.toNat) f.d0 f.d1).leavePool u.inst u.node d.nunit
          | (s1, some _) => s1
          | (s1, none) => (s1.startUnit uid u d).leavePool u.inst u.node d.nunit)

/-! ### Restore (R363) -/

/-- Bytes of a save area, of its clusters' sections, and of its CIM parts (R364). -/
def UnitSt.saveLen (u : UnitSt) : Nat := 0x40000 + 0x41000 * u.size + (if u.claim then 0x82000 * u.size else 0)
/-- The PEs of a restored unit: the image's words, and the saved record of the node that the image puts there (R363). -/
def UnitSt.restoredPes (u : UnitSt) (img : Image) : List (Nat × PeCtx) :=
  img.pes.map (fun p =>
    match aget u.pes p.1 with
    | some o => (p.1, { p.2 with ereg := o.ereg, q := o.q, node := o.node, out := o.out, held := o.held, constFired := o.constFired, halted := o.haltSaved })
    | none => p)
/-- L-space places of held stores in the new cluster's banks (R126). -/
def State.relocateL (s : State) (e : SbEntry) : SbEntry :=
  if (e.op == .ldsp || e.op == .stsp) && decide (lBase ≤ e.xa) then
    match lspace (s.cluster e.site.cl) e.site.cl e.swz.toNat e.ea with
    | .ok a => { e with xa := lBase + a }
    | .error _ => e
  else e
/-- A CIM slot returned by restore (R134): a W-sourced one is loaded again from its source, any other from its saved image. -/
def State.reloadCim (s : State) (c : CimSlot) : CimSlot :=
  if wbits c.src 63 62 = 2 then
    match s.readImageW (c.src.toNat % 2 ^ 56) c.fmt with
    | .ok tag img => { c with tile := ⟨BitVec.ofNat 4 tag, img⟩ }
    | _ => c
  else c
/-- The engine state of a cluster returned to the holder of its claim (R129, R134, R363). -/
def State.restoreCluster (s : State) (uid cl : Nat) (e : EngSave) : State :=
  let cim := e.cim.map (fun p => (p.1, s.reloadCim p.2))
  s.modCluster cl (fun k => { k with claim := some uid, slots := e.slots, acc := e.acc, cim := cim, tables := e.tables, handoff := e.handoff })
/-- The messages, commands and matrix operations that the save took go back to their engines (R362). -/
def State.returnWork (s : State) (u : UnitSt) : State :=
  let s1 := u.savedMsgs.foldl (fun s p =>
    let e : EngineId := ⟨p.1, if p.1 == .collective then dieOf p.2.cl else p.2.cl⟩
    s.setInbox e (s.inbox e ++ [p.2])) s
  let s2 := u.savedMq.foldl (fun s o => s.modCluster o.site.cl (fun k => { k with mq := k.mq ++ [o] })) s1
  { s2 with runs := s2.runs ++ u.savedRuns }
/-- The tokens that stood on links stand there again (R50), and stored replies leave for their queues (R361). -/
def State.returnReplies (s : State) (uid : Nat) : State :=
  let u := s.unit uid
  let fs := u.replies.map (fun r =>
    let d := routeSite r.2.toNat
    ({ src := ⟨u.lead, 16, 17, u.ctx⟩, pos := d.1, q := some d.2, tok := r.1 } : Flight))
  { s.modUnit uid (fun x => { x with replies := [], savedFlights := [] }) with flights := s.flights ++ u.savedFlights ++ fs }
/-- Halts that the pre-emption lifted are in force again (R367). -/
def State.returnHalts (s : State) (u : UnitSt) : State :=
  if u.haltRanks.isEmpty && !u.pes.any (fun p => p.2.haltSaved) then s
  else
    let pes := (u.pes.filter (fun p => p.2.haltSaved && !u.haltRanks.contains (p.1 / 256))).map (fun p => (u.lead + p.1 / 256, p.1 % 16, p.1 / 16 % 16))
    s.modJob u.job (fun j => { j with haltCl := j.haltCl ++ u.haltRanks.map (· + u.lead), haltPe := j.haltPe ++ pes, debugHold := true })
/-- The entries of the matching store that were saved enter it again, each where its set has a way or gets one (R26, R27); one that gets none
goes to the head of its queue and waits there (DEDUCED, log 14). -/
def State.returnMs (s : State) (uid : Nat) (es : List MsEntry) : State :=
  es.foldl (fun s e =>
    let x := s.makeWay uid e
    if x.2 then x.1.putMs uid e
    else x.1.modUnit uid (fun u => u.modPe (peKey e.rank e.x e.y) (fun p => p.setQueue e.q (e.tok :: p.queue e.q)))) s
/-- Every CIM slot of a cluster is empty and its codebook tables are invalid (R363 step 3). -/
def State.emptyCim (s : State) (cl : Nat) : State := s.modCluster cl (fun c => { c with cim := [], tables := [] })

/-- A unit that a resume released while it was saved takes the next fault that waits (R351, R354). -/
def State.takePending (s : State) (uid : Nat) : State :=
  let u := s.unit uid
  if u.curFault.isSome || u.handler then s
  else
    match nextPending u.pend with
    | none => s
    | some (f, rest) => (s.modUnit uid (fun u => { u with pend := rest })).takeFault uid f.1 f.2
/-- UNIT_RESTORE (R363): the saved image is streamed again under R141, every saved item is written, the CIM slots and codebook tables of the
region are emptied and the saved ones reloaded, and the sequencer restarts at CCNT. An error in the save area marks the unit's lead cluster,
which its record names, as pending (R379; DEDUCED, log 31). -/
def execUnitRestore (s : State) : Host.Outcome State Fault Refusal :=
  nextS (
    let uid := s.ev.u
    match aget s.units uid with
    | none => s
    | some u =>
      if u.status != .placed (some none) || !s.startOk u.die || s.placedBefore u then s
      else if s.readyBefore u then s.giveUpPlace uid
      else
        match (upFrom (u.saveArea / 128) (u.saveLen / 128)).find? (fun l => s.bad.contains l) with
        | some l => (s.endFaulted uid 0x161 0 0#64 (wd (l * 128))).modCluster u.lead (fun c => { c with pending := true })
        | none =>
        let go (s : State) (pes : List (Nat × PeCtx)) : State :=
          let s0 := u.clusterList.foldl State.emptyCim s
          let s1 := if u.claim then
              u.clusterList.foldl (fun s c => s.restoreCluster uid c (agetD u.savedEng (c - u.lead) {})) s0
            else s0
          let s2 := (s1.returnWork u).startSequencer uid (fun x => { x with
            pes := pes, ms := [], sb := x.sb.map s1.relocateL, savedEng := [], savedMsgs := [], savedRuns := [], savedMq := [], haltRanks := [], overrun := false })
          (((((s2.returnHalts u).returnMs uid u.ms).returnReplies uid).releaseGates uid).takePending uid).endStranded uid
        match u.active with
        | none => go s u.pes
        | some a =>
          match s.loadImage u a.addr.toNat with
          | (s1, .ok img) => go s1 (u.restoredPes img)
          | (s1, .error e) => s1.imageFailed uid e)

/-- UNIT_STATE_ERROR (R370, R379): an uncorrectable error in a unit's state (0x161), or in a PE's configuration memory (0x162,
flag), ends the unit faulted; the cluster is marked pending. -/
def execUnitStateError (s : State) : Host.Outcome State Fault Refusal :=
  nextS (match s.unitAt s.ev.site.cl s.ev.site.ctx with
    | none => s
    | some uid =>
      ((s.endFaulted uid (if s.ev.flag then 0x162 else 0x161) 0 6#64).count 18 1).modCluster s.ev.site.cl (fun c => { c with pending := true }))

end Sys2Proof.Machine
end

