-- ==== Sys2Proof/Machine/Preempt.lean ====
section
/-! DEFINITION. The drain of a pre-empted unit, its overrun, and the save of its state into the save area (R361, R362, R364,
R365). -/

namespace Sys2Proof.Machine

/-! ### The drain (R361 step 3, R362) -/

/-- A store-buffer entry that has issued and has not performed. An LDLK counts only while a load is outstanding; its loads
perform as they issue. -/
def SbEntry.outstanding (e : SbEntry) : Bool :=
  match e.phase with
  | .issued => e.op != .ldlk
  | .asked => true
  | .performed => true
  | _ => false
/-- Engine commands that a drain waits for: an accepted collective contribution is none (R361), nor is a matrix operation whose firing
has faulted at issue: it had no effect, and waits for its retry as a held firing does (R51, R253; DEDUCED, log 41). -/
def State.drainCommands (s : State) (uid : Nat) : Nat :=
  s.commandsOf uid - (s.runs.filter (fun r => r.m.unit == uid && !r.done && r.eng.kind == .collective)).length -
    (s.clusters.flatMap (fun p => p.2.mq.filter (fun o => o.unit == uid && o.held && !o.issued))).length
/-- The matrix operation of a store-buffer entry is held by a fault found at its issue (R253; log 41). -/
def State.heldEntry (s : State) (uid : Nat) (e : SbEntry) : Bool :=
  s.clusters.any (fun p => p.2.mq.any (fun o => o.unit == uid && o.sbId == e.id && o.sbId != 0 && o.held && !o.issued))
/-- Matrix operations of a unit that have issued and not retired. -/
def State.issuedMat (s : State) (uid : Nat) : Bool :=
  s.clusters.any (fun p => p.2.mq.any (fun o => o.unit == uid && o.issued))
/-- A unit as if every token of PE `key`, those behind the heads of its queues and those that have spilled among them, stood in the matching
store (R26, R27). -/
def UnitSt.allMatched (u : UnitSt) (key : Nat) : UnitSt :=
  let mine : List MsEntry := (upFrom 0 4).flatMap (fun q => ((u.pe key).queue q).map (fun t =>
    { rank := key / 256, x := key % 16, y := key / 16 % 16, q := q, tok := t }))
  { u.modPe key (fun p => { p with q := [] }) with ms := u.ms ++ u.ovf ++ mine, ovf := [] }
/-- A PE would fire, with what its queues, the matching store and the overflow table hold. -/
def State.wouldFire (s : State) (uid key : Nat) : Bool := (s.setUnit uid ((s.unit uid).allMatched key)).peReady uid key
/-- The head of a queue with a token behind it finds, or gets, a way in the matching store: it moves, and makes room (R26, R27). -/
def State.headMoves (s : State) (uid key : Nat) : Bool :=
  let u := s.unit uid
  (upFrom 0 4).any (fun q => match (u.pe key).queue q with
    | t :: _ :: _ =>
      let e : MsEntry := { rank := key / 256, x := key % 16, y := key / 16 % 16, q := q, tok := t }
      let es := (s.msEntries (u.lead + e.rank)).filter (fun p => msSet (s.unit p.1).ctx p.2 == msSet u.ctx e)
      decide (es.length < 8) || (s.victim uid es).isSome
    | _ => false)
/-- The drain of a unit has ended (R361 step 3): no token can move, no firing and no issue can occur, every issued operation has
performed, no engine command is outstanding unless the drain has overrun (R362), and no migration is under way (R48). -/
def State.drained (s : State) (uid : Nat) (u : UnitSt) (stopped : Bool) : Bool :=
  !s.flights.any (fun f => u.ownsFlight f && s.canMove uid f) && !u.sb.any (fun e => e.outstanding && !s.heldEntry uid e) && (u.ctlAsked.all (fun p => (aget s.fyDone p.2).isSome || (aget s.fyFail p.2).isSome)) &&
  (stopped || (!u.pes.any (fun p => s.wouldFire uid p.1 || s.headMoves uid p.1) && !u.sb.any (fun e => e.phase == .waiting && u.canIssue e))) &&
  (if u.overrun then !s.issuedMat uid else s.drainCommands uid == 0) && !u.pes.any (fun p => p.2.stub.isSome)

/-! ### What is saved -/

/-- Bytes at an offset of an area. -/
abbrev Item := Nat × List Byte
def item (off n v : Nat) : Item := (off, leBytes n v)
/-- A token in memory form (R151). -/
def tokBytes (t : Token) : List Byte := leBytes 16 (tokenNat t)
/-- Two's complement of an integer in 64 bits. -/
def i64 (v : Int) : Nat := wrapNat 64 v

/-- The kind of a node state, its words S0 to S5, and the held token (R365). `e` is the entry of an LDLK. -/
def NodeState.saved : NodeState → Option SbEntry → Nat × List Nat × Option Token
  | .idle, _ => (0, [], none)
  | .inv t k n, _ => (1, [n - k, k, t.payload.toNat, 0, n, ttagOf t], none)
  | .cntrSrc base step n k, _ => (2, [n.toNat - k, k, base.toNat, step.toNat, n.toNat, 0], none)
  | .cntrTrig t base step k n, _ => (3, [n - k, k, base.toNat, step.toNat, n, ttagOf t], none)
  | .ldlk _, some e => (4, [e.b.toNat - e.k, e.k, e.ea, 0, 0, ttagOf e.tok], none)
  | .ldlk _, none => (4, [], none)
  | .wadvHold t, _ => (5, [], some t)
  | .gateHold t, _ => (6, [], some t)
  | .tagnewWait t n, _ => (7, [n], some t)
  | .colorWait t k, _ => (8, [k], some t)
/-- Values of 8 bytes from an offset on. -/
def words8 (off : Nat) : List Nat → List Item
  | [] => []
  | v :: r => item off 8 v :: words8 (off + 8) r
/-- The record of a PE (R365), at the position the image gives its node (R363). -/
def PeCtx.record (u : UnitSt) (p : PeCtx) : List Item :=
  let e := match p.node with
    | .ldlk id => u.entry? id
    | _ => none
  let n := p.node.saved e
  (upFrom 0 8).flatMap (fun k => [item (8 * k) 8 (p.reg k).val.toNat, item (0x40 + k) 1 ((p.reg k).tag.toNat + 16 * b2n (p.reg k).full)]) ++
  [item 0x48 1 n.1, item 0x49 1 (b2n p.haltSaved)] ++ words8 0x50 n.2.1 ++
  (upFrom 0 4).flatMap (fun q => item (0x180 + q) 1 (p.queue q).length ::
    (upFrom 0 (p.queue q).length).map (fun i => (0x80 + 64 * q + 16 * i, tokBytes (lget (p.queue q) i {})))) ++
  n.2.2.toList.map (fun t => (0x190, tokBytes t))
/-- Items moved by an offset. -/
def shiftItems (off : Nat) (l : List Item) : List Item := l.map (fun i => (off + i.1, i.2))
/-- Numbered items. -/
def numbered {α : Type} (off step : Nat) (f : α → List Byte) : List α → List Item
  | [] => []
  | x :: r => (off, f x) :: numbered (off + step) step f r
/-- A store-buffer entry (R365). -/
def SbEntry.bytes48 (e : SbEntry) : List Byte :=
  let f := e.heldFault
  leBytes 4 e.w.seq.toNat ++ leBytes 1 (16 * e.site.y + e.site.x) ++ leBytes 1 (e.tok.col.toNat + 4 * b2n f.isSome) ++
  leBytes 1 e.tok.lvl.toNat ++ leBytes 1 e.tok.itag.toNat ++ leBytes 2 e.tok.wave.toNat ++ leBytes 2 e.tags ++ leBytes 4 0 ++
  leBytes 8 e.a.toNat ++ leBytes 8 e.b.toNat ++ leBytes 8 e.c.toNat ++
  leBytes 2 (match f with
    | some r => r.cause
    | none => 0)
/-- Entry `f` follows entry `e` in the chain of their wave (R101, R102): `e` is its predecessor, or one further back. -/
def UnitSt.chainBefore (u : UnitSt) : Nat → SbEntry → SbEntry → Bool
  | 0, _, _ => false
  | fuel + 1, e, f =>
    u.sb.any (fun g => g.id != f.id && g.tok.sameTag f.tok &&
      (if seqPx f.w then !seqSx g.w && seqSucc g.w == seqOwn f.w else seqPred f.w == seqOwn g.w) && (g.id == e.id || UnitSt.chainBefore u fuel e g))
/-- Entry `e` is before entry `f` in program order (R103): it has its place and `f` has a later one, or none yet; of two without a place, the
older wave, then the chain. -/
def UnitSt.programBefore (u : UnitSt) (e f : SbEntry) : Bool :=
  if e.ord != 0 || f.ord != 0 then e.ord != 0 && (f.ord == 0 || decide (e.ord < f.ord))
  else e.tok.sameInv f.tok && (waveOlder e.tok.wave f.tok.wave || (e.tok.wave == f.tok.wave && u.chainBefore 64 e f))
/-- An entry put into a list in program order, before the first that it precedes. -/
def UnitSt.insertEntry (u : UnitSt) (e : SbEntry) : List SbEntry → List SbEntry
  | [] => [e]
  | f :: r => if u.programBefore e f then e :: f :: r else f :: UnitSt.insertEntry u e r
/-- Entries of the store buffer that still have something to do, in program order (R103, R365). -/
def UnitSt.entriesAt (u : UnitSt) (cl : Nat) : List SbEntry := (u.liveSb.filter (fun e => e.site.cl == cl)).foldl (fun l e => u.insertEntry e l) []
/-- The section of cluster rank r (R365). -/
def UnitSt.section (u : UnitSt) (r : Nat) : List Item :=
  let pes := (u.pes.filter (fun p => p.1 / 256 == r)).flatMap (fun p => shiftItems (512 * (u.homeKey p.1 % 256)) (p.2.record u))
  let ms := u.ms.filter (fun e => e.rank == r)
  let home (e : MsEntry) : Nat := u.homeKey (peKey e.rank e.x e.y) % 256
  pes ++ numbered 0x20000 16 (fun e => leBytes 12 (tokenNat e.tok) ++ leBytes 1 (home e) ++ leBytes 1 e.q) ms ++
  [item 0x40000 8 ms.length, item 0x40008 8 (u.entriesAt (u.lead + r)).length] ++
  numbered 0x40100 48 SbEntry.bytes48 (u.entriesAt (u.lead + r))

/-- The header and resolved words of a command (R364). -/
def State.commandWords (s : State) (e : EngineId) (m : InMsg) : List Nat :=
  match s.handlerEntry e m.msg.handler.toNat with
  | some (ea, _) => (upFrom 0 4).map (fun k => (s.operand m ea k).toNat)
  | none => [0, 0, 0, 0]
/-- A copy or gather command with the bytes or elements that it has performed (R362, R364). -/
def State.commandItem (s : State) (e : EngineId) (m : InMsg) : List Byte :=
  leBytes 8 m.header.toNat ++ (s.commandWords e m).flatMap (leBytes 8) ++ leBytes 8 m.at_
/-- A pending matrix operation (R364): operation word, matrix word, address, PE and rank, TTAG, header, w0 to w3. -/
def State.matItem (s : State) (u : UnitSt) (o : MatOp) : List Byte :=
  let key := u.homeKey (u.keyOf o.site)
  match o.msg with
  | some m => leBytes 24 0 ++ leBytes 8 m.header.toNat ++ (s.commandWords ⟨.matrix, o.site.cl⟩ m).flatMap (leBytes 8)
  | none => leBytes 4 (u.pe (u.keyOf o.site)).op.toNat ++ leBytes 4 o.w.imm.toNat ++ leBytes 8 o.a.toNat ++
      leBytes 2 (key % 256) ++ leBytes 2 (key / 256) ++ leBytes 4 (ttagOf o.tok)
/-- An accumulator (R364). -/
def accItems (a : Nat) (x : Acc) : List Item :=
  (upFrom 0 1024).filterMap (fun i => if lget x.lanes i 0 = 0 then none else some (item (0x20000 + 8192 * a + 8 * i) 8 (i64 (lget x.lanes i 0)))) ++
  [item (0x30010 + 32 * a) 8 (match x.es with
    | some e => i64 e
    | none => 2 ^ 63), item (0x30018 + 32 * a) 8 x.kd,
   item (0x30020 + 32 * a) 8 (x.rv.foldr (fun b n => b.toNat + 4 * n) 0), item (0x30028 + 32 * a) 8 (x.cv.foldr (fun b n => b.toNat + 4 * n) 0)]
/-- Tile slots as STXS lays them out, the eight accumulators, and handoff counts (R364). -/
def EngSave.items (e : EngSave) : List Item :=
  e.slots.flatMap (fun p =>
    (if p.2.tag = 0#4 then [] else [(0x10000 + 4096 * p.1, storedImage p.2.tag.toNat p.2.img)]) ++ [item (0x30000 + p.1) 1 p.2.tag.toNat]) ++
  (upFrom 0 8).flatMap (fun a => accItems a (agetD e.acc a {})) ++
  e.handoff.filterMap (fun p => if p.1.1 = 0 || p.1.2 = 0 then none else some (item (0x30200 + 5 * (p.1.1 - 1) + (p.1.2 - 1)) 1 p.2))
/-- The CIM part of a cluster (R365). -/
def EngSave.cimItems (e : EngSave) : List Item :=
  e.cim.flatMap (fun p =>
    let g := wbits p.2.src 63 62 != 2 && p.2.tile.tag != 0#4
    [item (16 * p.1) 8 p.2.src.toNat, item (16 * p.1 + 8) 1 p.2.tile.tag.toNat, item (16 * p.1 + 9) 1 (b2n g)] ++
      (if g then [(0x2000 + 2048 * p.1, storedImage p.2.tile.tag.toNat p.2.tile.img)] else [])) ++
  e.tables.flatMap (fun p =>
    [(0x1000 + 64 * p.1, p.2.entries.flatMap (fun b => leBytes 2 b.toNat)), item (0x1020 + 64 * p.1) 2 p.2.cbid.toNat,
     item (0x1022 + 64 * p.1) 1 1, item (0x1028 + 64 * p.1) 8 p.2.src.toNat])

/-- Tag maps and open waves (R364). -/
def UnitSt.tagItems (u : UnitSt) : List Item :=
  u.tags.flatMap (fun t =>
    let ow := (agetD u.openWave (t.lvl, t.itag) 0#10).toNat
    if t.lvl = 0 then [item (0x1800 + 8 * t.itag) 8 (1 + 2 ^ 16 * ow + 2 ^ 32 * t.order)]
    else
      let a := 0x2000 + 0x1000 * (t.lvl - 1) + 16 * t.itag
      [item a 8 (1 + 2 ^ 8 * t.exits + 2 ^ 16 * t.plvl + 2 ^ 24 * t.pitag + 2 ^ 32 * t.pwave.toNat + 2 ^ 48 * ow), item (a + 8) 8 t.order])
/-- A special register as the save holds it (R364): as MFS reads it, USTAT without its counts. -/
def State.savedSpecial (s : State) (uid : Nat) (u : UnitSt) (n : Nat) : List Item :=
  match s.readSpecial uid u.lead n with
  | some v => [item (0x140 + 8 * n) 8 (if n = 8 then v.toNat % 65536 else v.toNat)]
  | none => []
/-- The unit part (R364). -/
def State.unitItems (s : State) (uid : Nat) (u : UnitSt) : List Item :=
  let stop := match u.status with
    | .draining _ h => h
    | _ => none
  let img (i : Option Image) : Nat := match i with
    | some x => x.addr.toNat
    | none => 0
  let gathered := u.savedMsgs.filter (fun p => p.1 == .copy || p.1 == .gather)
  let done := u.savedRuns.filter (fun r => r.eng.kind == .copy || r.eng.kind == .gather)
  [item 0 4 0xC5A7E001, item 4 4 1, item 8 8 (u.job % 2 ^ 32 + 2 ^ 32 * u.unitid.toNat + 2 ^ 48 * u.rshape)] ++
  (upFrom 0 32).map (fun g => item (0x40 + 8 * g) 8 (u.greg (BitVec.ofNat 5 g)).toNat) ++
  (upFrom 0 0x38).flatMap (s.savedSpecial uid u) ++
  [item 0x300 2 u.gates.toNat, item 0x310 8 (s.colourCount u 1), item 0x318 8 (s.colourCount u 2), item 0x320 8 (s.colourCount u 3),
   item 0x328 8 (img u.staged), item 0x330 8 (img u.active),
   item 0x338 8 (b2n u.handler + 2 * b2n u.claim + 4 * b2n u.overrun + 8 * b2n stop.isSome + 65536 * stop.getD 0),
   item 0x340 8 u.replies.length] ++
  numbered 0x800 64 id (gathered.map (fun p => s.commandItem ⟨p.1, p.2.cl⟩ p.2) ++ done.map (fun r => s.commandItem r.eng r.m)) ++
  u.sinks.flatMap (fun p => item (0x1400 + p.1) 1 p.2.length :: numbered (0x1000 + 64 * p.1) 16 tokBytes p.2) ++
  u.tagItems ++ (if u.claim then (agetD u.savedEng 0 {}).items else []) ++
  item 0x33FF8 8 u.savedMq.length :: numbered 0x34000 64 (s.matItem u) u.savedMq
/-- The whole save area (R364, R365). -/
def State.areaItems (s : State) (uid : Nat) (u : UnitSt) : List Item :=
  s.unitItems uid u ++
  (upFrom 0 u.size).flatMap (fun r => shiftItems (0x40000 + 0x41000 * r) (u.section r)) ++
  (if u.claim then (upFrom 0 u.size).flatMap (fun r => shiftItems (0x40000 + 0x41000 * u.size + 0x82000 * r) (agetD u.savedEng r {}).cimItems) else [])
/-- The save area written over zeros. -/
def State.writeArea (s : State) (base len : Nat) (l : List Item) : State :=
  l.foldl (fun s i => s.devWrite (base + i.1) i.2) ({ s with mem := Memory.clear s.mem base len } : State)

/-! ### The save (R361 steps 4 and 5) -/

/-- The engine state of a cluster for its claim holder. -/
def Cluster.engSave (c : Cluster) : EngSave := { slots := c.slots, acc := c.acc, cim := c.cim, tables := c.tables, handoff := c.handoff }
/-- Messages of a unit that wait at the engines, by kind. -/
def State.msgsOf (s : State) (uid : Nat) (u : UnitSt) : List (EngineKind × InMsg) :=
  let mine (k : EngineKind) (l : List InMsg) : List (EngineKind × InMsg) := (l.filter (fun m => m.unit == uid)).map (fun m => (k, m))
  u.clusterList.flatMap (fun c => let k := s.cluster c; mine .matrix k.inMatrix ++ mine .copy k.inCopy ++ mine .gather k.inGather) ++
  s.dies.flatMap (fun d => mine .collective d.inColl)
/-- What the unit takes with it: engine state under its claim, after an overrun its messages, commands and operations, and the tokens
that stand on links, for which the area has no field (R50; DEDUCED, log 41). -/
def State.gatherUnit (s : State) (uid : Nat) (u : UnitSt) : UnitSt :=
  { u with
    savedEng := if u.claim then u.clusterList.map (fun c => (c - u.lead, (s.cluster c).engSave)) else []
    savedMsgs := s.msgsOf uid u
    savedRuns := s.runs.filter (fun r => r.m.unit == uid && r.done)
    savedMq := u.clusterList.flatMap (fun c => (s.cluster c).mq.filter (fun o => o.unit == uid))
    savedFlights := s.flights.filter u.ownsFlight
    ldgLine := none }
/-- The region is free of the unit (R361 step 5, R298). -/
def State.freeRegion (s : State) (uid : Nat) (u : UnitSt) : State :=
  let s1 := u.clusterList.foldl (fun s c => s.modCluster c (fun k =>
    { k with claim := if k.claim == some uid then none else k.claim, handoff := if k.claim == some uid then [] else k.handoff
             inMatrix := k.inMatrix.filter (fun m => m.unit != uid), inCopy := k.inCopy.filter (fun m => m.unit != uid)
             inGather := k.inGather.filter (fun m => m.unit != uid), mq := k.mq.filter (fun o => o.unit != uid) })) s
  { s1 with dies := s1.dies.map (fun (d : Die) => { d with inColl := d.inColl.filter (fun m => m.unit != uid) })
            runs := s1.runs.filter (fun r => !(r.m.unit == uid && r.done)), flights := s1.flights.filter (fun f => !u.ownsFlight f) }
/-- The end of a pre-emption (R361 steps 4 and 5). -/
def State.saveUnit (s : State) (uid : Nat) (stop : Option Nat) : State :=
  let u0 := s.unit uid
  let fresh := u0.saveArea = 0
  let u1 := { s.gatherUnit uid u0 with saveArea := if fresh then s.saveNext else u0.saveArea }
  let s1 : State := { s.setUnit uid u1 with saveNext := if fresh then s.saveNext + u1.saveLen else s.saveNext }
  let s2 := s1.writeArea u1.saveArea u1.saveLen (s1.areaItems uid u1)
  (s2.freeRegion uid u1).modUnit uid (fun u => { u with status := .saved stop })

/-- The halves of a save area that hosts hold against its write, and lines of it with bytes still to be written (R117). -/
def State.areaHeld (s : State) (base len : Nat) : List Nat :=
  ((s.dir.map Prod.fst).filter (fun l => decide (base ≤ l * 128) && decide (l * 128 < base + len) && !s.hostReady (l * 128) 128 true)) ++
    s.devPend.filterMap (fun o => match o with
      | .area pa _ => if base ≤ pa && pa < base + len then some (pa / 128) else none
      | _ => none)
/-- DRAIN_COMPLETE (R361): the save is written when no host holds a part of its area (R117, R320). -/
def execDrainComplete (s : State) : Host.Outcome State Fault Refusal :=
  nextS (match aget s.units s.ev.u with
    | none => s
    | some u =>
      match u.status with
      | .draining _ stop =>
        if !s.drained s.ev.u u stop.isSome then s
        else
          match s.areaHeld (if u.saveArea = 0 then s.saveNext else u.saveArea) u.saveLen with
          | [] => s.saveUnit s.ev.u stop
          | ls => ls.foldl (fun s l => s.sendSnoops (l * 128) 128 true) s
      | _ => s)

/-- DRAIN_OVERRUN (R362): 200 µs of the hub counter after the request, cause 0x101. -/
def execDrainOverrun (s : State) : Host.Outcome State Fault Refusal :=
  nextS (match aget s.units s.ev.u with
    | none => s
    | some u =>
      match u.status with
      | .draining since _ =>
        if u.overrun || decide ((s.hub - wd since).toNat < 200000) then s
        else (s.unitRecord s.ev.u (unitRec u 0x101 2)).modUnit s.ev.u (fun u => { u with overrun := true })
      | _ => s)

end Sys2Proof.Machine
end

