-- ==== Sys2Proof/Machine/Graph.lean ====
section
/-! DEFINITION. Jasper: the evaluation of the nodes of a graph instance, the pending-launch pool, and phases (R289 to R293). -/

namespace Sys2Proof.Machine

/-! ### Nodes -/

/-- The node whose body holds node `n`; `none` for a node of the root graph (R328). -/
def parentOf (s : State) (job base n : Nat) : Option Nat :=
  let d := nodeDesc s job base n
  (upFrom 0 (objNodes s job base)).find? (fun p =>
    let e := nodeDesc s job base p
    e.kind != 0 && e.depth + 1 == d.depth && (bodyOf e).contains n)
/-- The nodes of a body and of the bodies nested in it. -/
def bodyTree (s : State) (job base : Nat) : Nat → Nat → List Nat
  | 0, _ => []
  | fuel + 1, n =>
    let d := nodeDesc s job base n
    if d.kind = 0 then [] else (bodyOf d).flatMap (fun b => b :: bodyTree s job base fuel b)
/-- Nodes of an instance set by a function. -/
def State.setNodes (s : State) (i : Nat) (ns : List Nat) (f : NodeRec → NodeRec) : State :=
  s.modInst i (fun x => { x with nodes := ns.foldl (fun l n => lmod l n f) x.nodes })
/-- The body of a node that does not run ends with it: its nodes that have not ended take a status. -/
def State.endBody (s : State) (inst : Instance) (n status : Nat) : State :=
  s.setNodes inst.id (bodyTree s inst.job inst.base.toNat 8 n) (fun r => if r.ended?.isSome then r else { r with st := .ended status })
/-- A node ends with a status without having run its body; the body's nodes end with `bodyStatus`. -/
def State.endUnrun (s : State) (inst : Instance) (n status bodyStatus : Nat) : State :=
  (s.endBody inst n bodyStatus).endNode inst.id n status
/-- A record of Jasper names the instance and, by its launch descriptor, the node (R289). -/
def State.nodeRecord (s : State) (inst : Instance) (d : NodeDesc) (cause addr d0 d1 : Nat) : State :=
  s.writeRecord (s.ringOf inst.job) { cause := cause, src := 2, job := inst.job, kseq := inst.kseq
                                      launch := if d.kind = 0 then d.arg else 0, addr := addr, d0 := d0, d1 := d1 }
/-- The condition word of a node, read as a load (R289): `none` while a host's or another device's answer is awaited. -/
def State.readCond (s : State) (inst : Instance) (d : NodeDesc) : State × Option (Except TFault Nat) :=
  match readG s 0 inst.job d.cond 8 .load 0 with
  | (s1, .ok b) => (s1, some (.ok (leNat b)))
  | (s1, .error (.fault f)) => (s1, some (.error f))
  | (s1, .error _) => (s1, none)
/-- A read of a condition word that faulted: the record, and the node ends with STATUS 0x03 (R289). -/
def State.condFault (s : State) (inst : Instance) (n : Nat) (d : NodeDesc) (f : TFault) : State :=
  (s.nodeRecord inst d f.cause d.cond f.d0.toNat f.d1.toNat).endUnrun inst n 3 2

/-! ### The pool (R291, R292) -/

/-- Entries of the partition of one depth. -/
def State.partition (s : State) : Nat := 512 / s.w2.poolD
/-- Entries that launches of one depth hold. -/
def State.poolUsed (s : State) (depth : Nat) : Nat :=
  s.insts.foldl (fun n i => n + ((upFrom 0 i.nodes.length).filter (fun k =>
    (lget i.nodes k {}).inPool && (nodeDesc s i.job i.base.toNat k).depth == depth)).length) 0
/-- Instance a is older than b (R291). -/
def Instance.olderThan (a b : Instance) : Bool := decide (a.hubTaken < b.hubTaken) || (a.hubTaken == b.hubTaken && decide (a.id < b.id))
/-- The instance is the oldest running one that has a node at a depth. -/
def State.oldestAt (s : State) (depth : Nat) (inst : Instance) : Bool :=
  !s.insts.any (fun i => i.status.isNone && i.olderThan inst &&
    (upFrom 0 i.nodes.length).any (fun k => (nodeDesc s i.job i.base.toNat k).depth == depth))
/-- A launch may take an entry: the last free one is the reserve. -/
def State.mayEnter (s : State) (inst : Instance) (depth : Nat) : Bool :=
  let free := s.partition - s.poolUsed depth
  decide (2 ≤ free) || (free == 1 && s.oldestAt depth inst)
/-- A launch enters the pool, or waits for an entry. -/
def State.admitNode (s : State) (inst : Instance) (n depth : Nat) : State :=
  if s.mayEnter inst depth then ((s.journal .launchInPool).setNodes inst.id [n] (fun r => { r with st := .running, inPool := true, held := false }))
  else s.setNodes inst.id [n] (fun r => { r with st := .eligible, held := false })

/-! ### Evaluation (R289, R290) -/

/-- A node runs: its body nodes become eligible as their own dependences allow. -/
def State.runNode (s : State) (inst : Instance) (n : Nat) : State :=
  ((s.setNodes inst.id [n] (fun r => { r with st := .running, held := false })).settleParents inst.id 8).settleInst inst.id
/-- The word of a cond, while or switch has been read as `v`. -/
def State.decideNode (s : State) (inst : Instance) (n : Nat) (d : NodeDesc) (v : Nat) : State :=
  match d.kind with
  | 1 => if v = 0 then s.endUnrun inst n 1 1 else s.runNode inst n
  | 2 => if v = 0 then s.endUnrun inst n (if (lget inst.nodes n {}).bad = 0 then 1 else 3) 1 else s.runNode inst n
  | _ =>
    let others := (bodyOf d).filter (fun b => b != d.body + v || d.arg ≤ v)
    let s1 := others.foldl (fun s b => (s.endBody inst b 1).setNodes inst.id [b] (fun r => { r with st := .ended 1 })) s
    s1.runNode inst n
/-- An eligible node past its HOLD word is evaluated by its kind. -/
def State.evaluate (s : State) (inst : Instance) (n : Nat) (d : NodeDesc) : State :=
  match d.kind with
  | 0 => s.admitNode inst n d.depth
  | 4 => s.runNode inst n
  | _ =>
    match s.readCond inst d with
    | (s1, none) => s1
    | (s1, some (.error f)) => s1.condFault inst n d f
    | (s1, some (.ok v)) => s1.decideNode inst n d v
/-- An eligible node: the configured depth, its HOLD word, its kind. -/
def State.eligibleNode (s : State) (inst : Instance) (n : Nat) (d : NodeDesc) : State :=
  if s.w2.poolD ≤ d.depth then (s.nodeRecord inst d 0x0E9 0 0 0).endUnrun inst n 3 2
  else if d.hold then
    (match s.readCond inst d with
     | (s1, none) => s1
     | (s1, some (.error f)) => s1.condFault inst n d f
     | (s1, some (.ok v)) =>
       if v = 0 then s1.setNodes inst.id [n] (fun r => { r with st := .eligible, held := true, due := false, nudges := [] })
       else s1.evaluate inst n d)
  else s.evaluate inst n d
/-- A while whose pass has ended: its body is reset and its word read again (R289). -/
def State.nextPass (s : State) (inst : Instance) (n : Nat) (d : NodeDesc) : State :=
  match s.readCond inst d with
  | (s1, none) => s1
  | (s1, some (.error f)) => s1.condFault inst n d f
  | (s1, some (.ok v)) =>
    let failed := (bodyOf d).any (fun b => (lget inst.nodes b {}).ended? != some 1)
    let s2 := s1.setNodes inst.id [n] (fun r => { r with bad := r.bad + b2n failed })
    if v = 0 then s2.endNode inst.id n (if (lget inst.nodes n {}).bad + b2n failed = 0 then 1 else 3)
    else s2.setNodes inst.id (bodyTree s2 inst.job inst.base.toNat 8 n) (fun _ => {})

/-- The graph that holds a node is running. -/
def State.graphRuns (s : State) (inst : Instance) (n : Nat) : Bool :=
  match parentOf s inst.job inst.base.toNat n with
  | none => true
  | some p => (lget inst.nodes p {}).isRunning
/-- What a node on hold has been told of concerns its condition word: a GNUDGE that named its address, or a host's write to its line (R289). -/
def State.nudged (s : State) (inst : Instance) (r : NodeRec) (d : NodeDesc) : Bool :=
  let va := d.cond % 2 ^ 56
  r.nudges.any (fun x =>
    if x.1 then x.2 == va
    else
      match walk s (s.job inst.job).ptroot va with
      | .leaf l _ e => s.extend (leafAddr e l va) (pteMT e) / 128 == x.2
      | .wait _ => true
      | .fault _ _ _ => false)
/-- A node of a running instance is looked at (R289, R290). -/
def State.evalNode (s : State) (inst : Instance) (n : Nat) : State :=
  let d := nodeDesc s inst.job inst.base.toNat n
  let r := lget inst.nodes n {}
  match r.st with
  | .waiting =>
    let deps := (nodeDeps s inst.job inst.base.toNat n).map (fun k => (lget inst.nodes k {}).ended?)
    if !s.graphRuns inst n || deps.any Option.isNone then s
    else if deps.any (fun e => e != some 1) then s.endUnrun inst n 2 2
    else (s.journal .nodeEligible).eligibleNode inst n d
  | .eligible =>
    if !r.held then s
    else if r.due || s.nudged inst r d then s.eligibleNode inst n d
    else s.setNodes inst.id [n] (fun r => { r with nudges := [] })
  | .running =>
    if d.kind = 2 && (bodyOf d).all (fun b => (lget inst.nodes b {}).ended?.isSome) then s.nextPass inst n d else s
  | .ended _ => s
/-- NODE_EVALUATE (R289, R290). -/
def execNodeEvaluate (s : State) : Host.Outcome State Fault Refusal :=
  nextS (match s.inst? s.ev.inst with
    | none => s
    | some inst =>
      if inst.status.isSome || decide (inst.nodes.length ≤ s.ev.node) then s
      else
        match s.anyObjectWaits with
        | some s1 => s1
        | none => s.evalNode inst s.ev.node)

/-- LAUNCH_POOL_ADMIT (R292). -/
def execLaunchPoolAdmit (s : State) : Host.Outcome State Fault Refusal :=
  nextS (match s.inst? s.ev.inst with
    | none => s
    | some inst =>
      let d := nodeDesc s inst.job inst.base.toNat s.ev.node
      match (lget inst.nodes s.ev.node {}).st with
      | .eligible =>
        if inst.status.isSome || (lget inst.nodes s.ev.node {}).held then s
        else
          match s.anyObjectWaits with
          | some s1 => s1
          | none => if d.kind == 0 then s.admitNode inst s.ev.node d.depth else s
      | _ => s)

/-! ### Phases (R293) -/

/-- The dies of a mask. -/
def diesOf (mask : Nat) : List Nat := (upFrom 0 4).filter (fun d => bit mask d)
/-- No phase of another job holds the die (R293 step 1). -/
def Die.freeFor (d : Die) (job : Nat) : Bool := d.wsJob.isNone || d.wsJob == some job
/-- The collective groups of a phase, read from its table (R336). -/
def State.readGroups (s : State) (job : Nat) (table : Nat) : List (Nat × List (Nat × Nat)) :=
  (upFrom 0 256).filterMap (fun g =>
    let a := peekG s job (table + 16 * g) 8
    let n := peekG s job (table + 16 * g + 8) 8
    if n = 0 then none
    else some (g, (upFrom 0 (n)).map (fun k => let p := peekG s job (a + 4 * k) 4; (bits p 9 0, bits p 27 16))))
/-- A phase enters RUN: its dies in the same hub clock, and the collective groups. -/
def State.enterRun (s : State) (p : Phase) : State :=
  let s1 := ((s.journal .phaseChanged).modPhase p.id (fun x => { x with st := .run, groups := s.readGroups p.job p.groupTable.toNat }))
  (diesOf p.dies).foldl (fun s d => s.modDie d (fun x => { x with run := true })) s1
/-- The collective group table of a phase, or a participant list, waits for a host (R117). -/
def State.groupsWait (s : State) (job table : Nat) : Option State :=
  (s.rangeWaits job table 4096).or ((upFrom 0 256).findSome? (fun g =>
    s.rangeWaits job (peekG s job (table + 16 * g) 8) (4 * peekG s job (table + 16 * g + 8) 8)))
/-- The dies that a job still holds for a phase that has ended are released: its next phase begins (R293 step 4). -/
def State.releaseDies (s : State) (job : Nat) : State :=
  { s with dies := s.dies.map (fun (d : Die) => if d.wsJob == some job && d.wsPhase.isNone then { d with wsJob := none } else d) }
/-- PHASE_CURRENT (R293 steps 1 and 2): dies that the job held for an earlier phase are released. A phase with no held dies goes directly to
RUN. -/
def execPhaseCurrent (s : State) : Host.Outcome State Fault Refusal :=
  nextS (match s.phase? s.ev.ph with
    | none => s
    | some p =>
      if p.st != .waiting || !(diesOf p.dies).all (fun d => (s.die d).freeFor p.job) then s
      else if (diesOf p.dies).isEmpty then (s.groupsWait p.job p.groupTable.toNat).getD ((s.releaseDies p.job).enterRun p)
      else
        let s1 := (s.journal .phaseChanged).releaseDies p.job
        let s2 := (diesOf p.dies).foldl (fun s d => s.modDie d (fun x => { x with wsJob := some p.job, wsPhase := some p.id, run := false })) s1
        s2.modPhase p.id (fun x => { x with st := .fill }))
/-- A fill launch of a phase that has not ended. -/
def State.fillPending (s : State) (p : Phase) : Bool :=
  s.insts.any (fun i => i.phase == some p.id && i.status.isNone && (upFrom 0 i.nodes.length).any (fun n =>
    let d := nodeDesc s i.job i.base.toNat n
    d.kind == 0 && (lget i.nodes n {}).ended?.isNone && (launchDesc s i.job i.base.toNat d.arg).fill))
/-- A WSFL of a job that has not completed. -/
def State.fillRunning (s : State) (job : Nat) : Bool :=
  let wsfl (m : InMsg) : Bool := m.job == job && m.opc == 0x23#8
  s.clusters.any (fun c => c.2.inCopy.any wsfl) || s.runs.any (fun r => wsfl r.m)
/-- The phase has had an instance. -/
def State.begun (s : State) (p : Phase) : Bool := decide (0 < p.ok + p.bad) || s.insts.any (fun i => i.phase == some p.id)
/-- PHASE_RUN (R293 step 3). -/
def execPhaseRun (s : State) : Host.Outcome State Fault Refusal :=
  nextS (match s.phase? s.ev.ph with
    | none => s
    | some p =>
      if p.st != .fill || s.fillPending p || s.fillRunning p.job then s
      else
        match s.groupsWait p.job p.groupTable.toNat with
        | some s1 => s1
        | none => s.enterRun p)
/-- PHASE_END (R293 step 4, R43): the counter is at zero; the phase, and the job when it was its last, ends. -/
def execPhaseEnd (s : State) : Host.Outcome State Fault Refusal :=
  nextS (match s.phase? s.ev.ph with
    | none => s
    | some p =>
      if p.st == .ended || !(p.closed || s.begun p) || s.insts.any (fun i => i.phase == some p.id && i.status.isNone) then s
      else (s.endPhase p.id).endJob p.job)

end Sys2Proof.Machine
end

