-- ==== Sys2Proof/Machine/Kick.lean ====
section
/-! DEFINITION. The kick registers and the queue threads (R287, R325, R331 to R337): entries and their form, kicks and patches,
waits, cancels, registration, phase entries, and the binding of a queue. -/

namespace Sys2Proof.Machine

/-! ### W1 (R325) -/

/-- A write from a host that does not own the queue (R325). -/
def State.foreignW1 (s : State) (q : Nat) : State := (s.modQueue q (fun x => { x with foreign := true })).devRecord 0x11D 3
/-- KICK_REGISTER_WRITE (R325): host `ev.host` writes `ev.bytes` at byte `ev.off` of queue `ev.q`'s register. -/
def execKickRegisterWrite (s : State) : Host.Outcome State Fault Refusal :=
  nextS (
    let q := s.queue s.ev.q
    let narrow := s.ev.off != 0 || s.ev.bytes.length != 64
    if 32 ≤ s.ev.q || (s.ev.off = 0 && s.ev.bytes.length = 8) then s
    else if q.host != s.ev.host + 1 then (s.modQueue s.ev.q (fun x => { x with short := x.short || narrow })).foreignW1 s.ev.q
    else if narrow then s.modQueue s.ev.q (fun x => { x with short := true })
    else if 16 ≤ q.entries.length then s.modQueue s.ev.q (fun x => { x with ovf := true })
    else s.modQueue s.ev.q (fun x => { x with entries := x.entries ++ [s.ev.bytes] }))
/-- KICK_STATUS_CLEAR (R325): the write-one-to-clear bits of the status word, from `ev.v`. -/
def execKickStatusClear (s : State) : Host.Outcome State Fault Refusal :=
  nextS (
    if 32 ≤ s.ev.q then s
    else if (s.queue s.ev.q).host != s.ev.host + 1 then s.foreignW1 s.ev.q
    else s.modQueue s.ev.q (fun x => { x with
      ovf := x.ovf && !s.ev.v.getLsbD 30, foreign := x.foreign && !s.ev.v.getLsbD 29, short := x.short && !s.ev.v.getLsbD 28 }))

/-! ### Entries (R332, R333) -/

/-- A field of an entry: `n` bytes from `off`. -/
def efield (e : List Byte) (off n : Nat) : Nat := leNat ((e.drop off).take n)
def entryHandle (e : List Byte) : Nat := efield e 5 3
def entrySeq (e : List Byte) : Nat := efield e 3 2
def entryPatches (e : List Byte) : Nat := bits (efield e 2 1) 7 4
def entryKind (e : List Byte) : Nat := bits (efield e 2 1) 3 0
def entryPtab (e : List Byte) : Bool := bit (efield e 0 2) 2
def entryCanprev (e : List Byte) : Bool := bit (efield e 0 2) 1
def entryBarrier (e : List Byte) : Bool := bit (efield e 0 2) 0
/-- A malformed entry (R333): a reserved KIND, a zero field that is not zero, NPATCH above 4, or a condition, source or level
outside the table. -/
def malformed (e : List Byte) : Bool :=
  entryKind e > 5 || bits (efield e 0 2) 15 3 != 0 || entryPatches e > 4 ||
  (match entryKind e with
   | 0 => efield e 12 4 != 0 || efield e 56 8 != 0
   | 1 => efield e 32 1 > 3 || efield e 33 1 > 1
   | 2 => (efield e 8 1 != 2 && efield e 8 1 != 4) || efield e 16 48 != 0
   | 3 => efield e 48 16 != 0
   | 4 => efield e 8 8 != 0 || efield e 48 16 != 0
   | _ => efield e 56 8 != 0)
/-- A refusal: a record with SRC 3 to the queue's fault queue (R333). -/
def State.refuseEntry (s : State) (q job cause : Nat) (e : List Byte) (addr d0 d1 : Nat := 0) : State :=
  (s.journal .entryRefused).writeRecord q { cause := cause, src := 3, job := job, kseq := entrySeq e, addr := addr, d0 := d0, d1 := d1 }
/-- The thread may take its next entry: it is not blocked and no cancel has arrived (R333, R335). -/
def Queue.idle (q : Queue) : Bool :=
  q.waiting.isNone && q.holding.isNone && q.unreg.isNone && !q.entries.any (fun e => entryKind e == 2)
/-- The outcome of an entry: done, or it waits with the state it has reached. -/
inductive EntryRes where
  | done (s : State)
  | wait (s : State)
/-- The thread of queue `ev.q` takes the entry at the head, of one kind (R333): its form, its SEQ, its effect. -/
def threadEntry (kind : Nat) (s : State) (body : State → Nat → Nat → List Byte → EntryRes) : State :=
  s.thread (fun s =>
  let qi := s.ev.q
  let q := s.queue qi
  match q.job, q.entries with
  | some job, e :: _ =>
    let drop (s : State) : State := s.modQueue qi (fun q => { q with entries := q.entries.drop 1 })
    if !q.idle || (entryKind e != kind && !(kind == 0 && decide (6 ≤ entryKind e))) then s
    else if malformed e then drop (s.refuseEntry qi job 0x11C e)
    else if entrySeq e = q.eseq.toNat then
      (match body s qi job e with
       | .wait s1 => s1
       | .done s1 => ((drop s1).journal .entryAccepted).modQueue qi (fun q => { q with eseq := q.eseq + 1#16 }))
    else if entrySeq e = (q.eseq - 1#16).toNat then drop s
    else drop (s.refuseEntry qi job 0x118 e)
  | _, _ => s)

/-! ### Patches and kicks (R287, R330, R334) -/

def State.object? (s : State) (job handle : Nat) : Option GObject := s.objects.find? (fun o => o.job == job && o.handle == handle)
/-- The patch uses of an object (R330): offset, bytes, slot and addend. -/
def patchUses (s : State) (job base : Nat) : List (Nat × Nat × Nat × Nat) :=
  let a := base + peekG s job (base + 24) 4
  (upFrom 0 (objPatches s job base)).map (fun i =>
    let d := peekG s job (a + 16 * i) 16
    (bits d 47 16, (if bit d 8 then 8 else 4), bits d 7 0, bits d 127 64))
/-- The patches of a kick, a wait, or none when they cannot be read. -/
inductive Patches where
  | ok (l : List (Nat × Nat))
  | bad
  | wait
/-- Entries of a patch table (R332). -/
def State.tablePatches (s : State) (job a : Nat) : Nat → State × Patches
  | 0 => (s, .ok [])
  | n + 1 =>
    match s.readWords 0 job a 2 with
    | (s1, .ok [x, v]) =>
      match State.tablePatches s1 job (a + 16) n with
      | (s2, .ok l) => (s2, .ok ((x.toNat % 256, v.toNat) :: l))
      | r => r
    | (s1, .ok _) => (s1, .bad)
    | (s1, .error (.fault _)) => (s1, .bad)
    | (s1, .error _) => (s1, .wait)
/-- Step 2 of R334: inline values, or the table. -/
def State.kickPatches (s : State) (job : Nat) (e : List Byte) : State × Patches :=
  if entryPtab e then
    let a := efield e 16 8 % 2 ^ 56
    match s.readWords 0 job a 1 with
    | (s1, .ok [n]) => if 256 < n.toNat then (s1, .bad) else s1.tablePatches job (a + 8) n.toNat
    | (s1, .ok _) => (s1, .bad)
    | (s1, .error (.fault _)) => (s1, .bad)
    | (s1, .error _) => (s1, .wait)
  else (s, .ok ((upFrom 0 (entryPatches e)).map (fun i => (efield e (8 + i) 1, efield e (16 + 8 * i) 8))))
/-- The value that patches give a slot: the last one given. -/
def slotValue (l : List (Nat × Nat)) (slot : Nat) : Option Nat := aget l.reverse slot
/-- The values of the uses of patched slots: address, bytes and value (R330). -/
def useValues (base : Nat) (uses : List (Nat × Nat × Nat × Nat)) (l : List (Nat × Nat)) : List (Nat × Nat × Nat) :=
  uses.filterMap (fun u => (slotValue l u.2.2.1).map (fun v => (base + u.1, u.2.1, (v + u.2.2.2) % 2 ^ 64)))
/-- Patches that R334 refuses: a slot without a use, or a 32-bit value that does not fit. -/
def badPatches (base : Nat) (uses : List (Nat × Nat × Nat × Nat)) (l : List (Nat × Nat)) : Bool :=
  l.any (fun p => !uses.any (fun u => u.2.2.1 == p.1)) || (useValues base uses l).any (fun v => v.2.1 == 4 && decide (2 ^ 32 ≤ v.2.2))
/-- The patch values written (R334 step 3), or a wait for a host that holds one of their places (R117). -/
def State.writePatches (s : State) (job : Nat) (l : List (Nat × Nat × Nat)) : State × Bool :=
  match l.findSome? (fun v => match translateReady s 0 job v.1 v.2.1 .patch 4 with
    | (s1, .wait) => some s1
    | _ => none) with
  | some s1 => (s1, false)
  | none => (l.foldl (fun s v => (s.garnetWrite job v.1 v.2.1 v.2.2 .patch).1) s, true)
/-- Some instance of an object of a job has not ended. -/
def State.objectLive (s : State) (job handle : Nat) : Bool := s.insts.any (fun i => i.job == job && i.handle == handle && i.status.isNone)
/-- A kick that its thread took at hub clock `taken` (R291) creates its instance (R287, R334 step 4); its phase is the job's current one
(R336). -/
def State.createInstance (s : State) (q job : Nat) (o : GObject) (e : List Byte) (taken : Nat) : State :=
  let i : Instance := { id := s.nextInst, job := job, queue := q, handle := o.handle, base := o.base, kseq := entrySeq e
                        phase := (s.job job).curPhase, cdone := wd (efield e 48 8), hubTaken := taken
                        nodes := List.replicate (objNodes s job o.base.toNat) {} }
  let s1 : State := { s.journal .instanceCreated with insts := s.insts ++ [i], nextInst := s.nextInst + 1 }
  s1.modJob job (fun j => { j with ended := false })
/-- A queue's earlier instance that runs. -/
def State.queueLive (s : State) (q : Nat) : Bool := s.insts.any (fun i => i.queue == q && i.status.isNone)
/-- The instances that a cancel-previous kick cancels (R287): level 2, one record each (R45). -/
def State.cancelPrevious (s : State) (q job : Nat) : State :=
  (s.insts.filter (fun i => i.queue == q && i.status.isNone)).foldl (fun s i =>
    (s.cancelRecord job 2 { cause := 0, kseq := i.kseq }).cancelInst i.id) s

/-- A kick of a registered object (R334 steps 2 to 4). -/
def State.takeKick (s : State) (q job : Nat) (e : List Byte) (o : GObject) : EntryRes :=
  match s.kickPatches job e with
  | (s1, .wait) => .wait s1
  | (s1, .bad) => .done (s1.refuseEntry q job 0x11B e)
  | (s1, .ok l) =>
    let base := o.base.toNat
    let uses := patchUses s1 job base
    if badPatches base uses l then .done (s1.refuseEntry q job 0x11B e)
    else
      let s2 := if entryCanprev e then s1.cancelPrevious q job else s1
      let vs := useValues base uses l
      if vs.all (fun v => peekG s2 job v.1 v.2.1 == v.2.2) then .done (s2.createInstance q job o e s.hub.toNat)
      else if s2.objectLive job o.handle then .done (s2.modQueue q (fun x => { x with holding := some (e, l, s.hub.toNat) }))
      else
        match s2.writePatches job vs with
        | (s3, true) => .done (s3.createInstance q job o e s.hub.toNat)
        | (s3, false) => .wait s3
/-- KICK (R287, R334). -/
def execKick (s : State) : Host.Outcome State Fault Refusal :=
  nextS (threadEntry 0 s (fun s q job e =>
    if entryBarrier e && !entryCanprev e && s.queueLive q then .wait s
    else
      match s.object? job (entryHandle e) with
      | none => .done (s.refuseEntry q job 0x119 e)
      | some o =>
        match s.objectWaits job o.base.toNat with
        | some s1 => .wait s1
        | none => s.takeKick q job e o))
/-- KICK_PATCH_APPLY (R334 step 3): the object's instances have ended; the values are written and the instance is created. -/
def execKickPatchApply (s : State) : Host.Outcome State Fault Refusal :=
  nextS (s.thread (fun s =>
    let q := s.queue s.ev.q
    match q.job, q.holding with
    | some job, some (e, l, taken) =>
      let release (t : State) : State := t.modQueue s.ev.q (fun x => { x with holding := none })
      match s.object? job (entryHandle e) with
      | none => (release s).refuseEntry s.ev.q job 0x119 e
      | some o =>
        if s.objectLive job o.handle then s
        else
          match s.objectWaits job o.base.toNat with
          | some s1 => s1
          | none =>
            match s.writePatches job (useValues o.base.toNat (patchUses s job o.base.toNat) l) with
            | (s1, true) => (release s1).createInstance s.ev.q job o e taken
            | (s1, false) => s1
    | _, _ => s))

/-! ### Waits (R335) -/

/-- The condition of a wait entry of source 0 on the masked word. -/
def waitMet (e : List Byte) (w : Nat) : Bool :=
  let m := efield e 24 8
  let x := w &&& m
  let c := efield e 16 8 &&& m
  match efield e 32 1 with
  | 0 => x == c
  | 1 => x != c
  | 2 => decide (c ≤ x)
  | _ => decide (x < c)
/-- The word of a wait entry, read as a load of the job: a misaligned one raises 0x060 (R81, R335). -/
def State.readWait (s : State) (job : Nat) (e : List Byte) : State × Except TrRes (List Byte) :=
  if efield e 8 8 % 8 != 0 then (s, .error (.fault { cause := 0x060 })) else readG s 0 job (efield e 8 8 % 2 ^ 56) 8 .load 0
/-- The thread reads its word, or looks for its instance, and stays blocked or goes on. -/
def State.pollWait (s : State) (q job : Nat) : State :=
  match (s.queue q).waiting with
  | none => s
  | some (e, told) =>
    let go (s : State) : State := s.modQueue q (fun x => { x with waiting := none, blocked := false })
    if efield e 33 1 = 1 then
      (if s.insts.any (fun i => i.queue == q && i.kseq == efield e 48 2 && i.status.isNone) then s else go s)
    else
      match s.readWait job e with
      | (s1, .ok b) => if waitMet e (leNat b) then go s1 else s1
      | (s1, .error (.fault f)) =>
        if told then s1
        else (s1.writeRecord q { cause := f.cause, src := 3, job := job, kseq := entrySeq e, addr := efield e 8 8, d0 := f.d0.toNat, d1 := f.d1.toNat }).modQueue q
          (fun x => { x with waiting := some (e, true) })
      | (s1, .error _) => s1
/-- WAIT_ENTRY (R335). -/
def execWaitEntry (s : State) : Host.Outcome State Fault Refusal :=
  nextS (threadEntry 1 s (fun s q job e =>
    .done ((s.modQueue q (fun x => { x with waiting := some (e, false), blocked := true })).pollWait q job)))
/-- WAIT_REREAD (R335). -/
def execWaitReread (s : State) : Host.Outcome State Fault Refusal :=
  nextS (s.thread (fun s => match (s.queue s.ev.q).job with
    | some job => s.pollWait s.ev.q job
    | none => s))

/-! ### Cancels (R333) -/

/-- CANCEL_ENTRY (R333): the first cancel among the entries, taken ahead of those that wait. -/
def execCancelEntry (s : State) : Host.Outcome State Fault Refusal :=
  nextS (s.thread (fun s =>
    let qi := s.ev.q
    let q := s.queue qi
    match q.job, lfind (fun e => entryKind e == 2) q.entries with
    | some job, some k =>
      let e := lget q.entries k []
      let s1 := s.modQueue qi (fun x => { x with entries := ldel x.entries k })
      if malformed e then s1.refuseEntry qi job 0x11C e
      else if efield e 8 1 = 2 then
        (match s.insts.find? (fun i => i.queue == qi && i.kseq == entrySeq e && i.status.isNone) with
         | some i => ((s1.journal .entryAccepted).cancelRecord job 2 { cause := 0, kseq := i.kseq }).cancelInst i.id
         | none => s1)
      else
        let s2 := s1.modQueue qi (fun x => { x with entries := [], blocked := false, waiting := none, holding := none })
        if (s.job job).ended then s2 else ((s2.journal .entryAccepted).cancelRecord job 4 { cause := 0, kseq := entrySeq e }).cancelJob job
    | _, _ => s))

/-! ### Objects (R331, R336) -/

/-- Pages from `a` for `n` bytes have valid leaves in a job's table. -/
def State.pagesValid (s : State) (job a n : Nat) : Bool :=
  (upFrom (a / 65536) ((a + n - 1) / 65536 + 1 - a / 65536)).all (fun p =>
    match walk s (s.job job).ptroot (p * 65536 % 2 ^ 56) with
    | .leaf _ _ _ => true
    | _ => false)
/-- A table of `n` entries of `k` bytes at `off` lies within an object of `len` bytes. -/
def tableOk (len off n k : Nat) : Bool := off % 64 == 0 && decide (off + n * k ≤ len)
/-- The checks of R331 on a node: counts lie in their ranges and its dependences within the object (DEDUCED, log 60). -/
def nodeOk (s : State) (job base len nn nl n : Nat) : Bool :=
  let d := nodeDesc s job base n
  let raw := peekG s job (base + peekG s job (base + 16) 4 + 32 * n) 32
  let par := parentOf s job base n
  d.kind ≤ 4 && bits raw 15 9 == 0 && bits raw 191 160 == 0 && d.depth ≤ 7 && d.ndep ≤ 64 && decide (d.depOff + 2 * d.ndep ≤ len) &&
  (d.kind != 0 || decide (d.arg < nl)) && (d.kind == 0 || decide (d.body + d.nbody ≤ nn)) &&
  (par.isSome || d.depth == 0) &&
  (d.kind == 0 || (bodyOf d).all (fun b => (nodeDesc s job base b).depth == d.depth + 1)) &&
  (nodeDeps s job base n).all (fun k => decide (k < n) && parentOf s job base k == par)
/-- The checks of R331 on a launch descriptor; the number of units lies in its range (DEDUCED, log 60). -/
def launchOk (s : State) (job base k : Nat) : Bool :=
  let d := launchDesc s job base k
  !bit d.dies 7 && d.nunit ≤ 4096 && (upFrom 0 8).all (fun n => bits d.lvl (8 * n + 7) (8 * n) != 0)
/-- The checks of R331 on a reduction group. A target that does not translate lies outside device memory (DEDUCED, log 37). -/
def groupOk (s : State) (job base len nl g : Nat) : Bool :=
  let r := redGroup s job base g
  let raw := peekG s job (base + peekG s job (base + 28) 4 + 64 * g) 64
  r.count == 0 ||
    (r.op ≤ 3 && (r.fmt == 1 || r.fmt == 2 || r.fmt == 5 || r.fmt == 6) && decide (r.launch < nl) && decide (r.listOff + 4 * r.count ≤ len) && bits raw 127 112 == 0 && bits raw 511 256 == 0 &&
      (match walk s (s.job job).ptroot (r.target % 2 ^ 56) with
       | .leaf l _ e => isDevXa (s.extend (leafAddr e l (r.target % 2 ^ 56)) (pteMT e)) && pteMT e != 3
       | _ => false))
/-- The table that maps the target of a present group waits for a host (R117). -/
def State.targetsWait (s : State) (job base : Nat) : Option State :=
  (upFrom 0 (objReds s job base)).findSome? (fun g =>
    let r := redGroup s job base g
    if r.count = 0 then none
    else
      match walk s (s.job job).ptroot (r.target % 2 ^ 56) with
      | .wait a => some (s.sendSnoops a 8 false)
      | _ => none)
/-- An object that R331 accepts at `base`. -/
def State.objectOk (s : State) (job base : Nat) : Bool :=
  let f (off n : Nat) : Nat := peekG s job (base + off) n
  let len := f 4 4
  let nn := objNodes s job base
  let nl := objLaunches s job base
  s.pagesValid job base 64 && f 0 4 == 0xA6B10E01 && decide (64 ≤ len) && s.pagesValid job base len &&
  f 32 4 == 0 && f 44 20 == 0 && f 36 8 == base &&
  decide (1 ≤ nn) && nn ≤ 4096 && decide (1 ≤ nl) && nl ≤ 4096 && objReds s job base ≤ 256 &&
  tableOk len (f 16 4) nn 32 && tableOk len (f 20 4) nl 64 && tableOk len (f 24 4) (objPatches s job base) 16 &&
  tableOk len (f 28 4) (objReds s job base) 64 &&
  (upFrom 0 nn).all (nodeOk s job base len nn nl) && (upFrom 0 nl).all (launchOk s job base) &&
  (upFrom 0 (objReds s job base)).all (groupOk s job base len nl) &&
  (upFrom 0 (objPatches s job base)).all (fun i =>
    let d := peekG s job (base + f 24 4 + 16 * i) 8
    bits d 15 9 == 0 && bits d 63 48 == 0 && decide (bits d 47 16 + (if bit d 8 then 8 else 4) ≤ len))
/-- The result word of a registration (R336). -/
def State.resultWord (s : State) (q job : Nat) (e : List Byte) (v : Nat) : State :=
  match s.garnetWrite job (efield e 16 8 % 2 ^ 56) 8 v .store with
  | (s1, some (.fault f)) => s1.refuseEntry q job f.cause e (efield e 16 8) f.d0.toNat f.d1.toNat
  | (s1, _) => s1
/-- The result word, whatever its value, has to wait for a host, or for what it releases (R112, R117). -/
def State.resultWaits (s : State) (job : Nat) (e : List Byte) : Option State :=
  match s.garnetWrite job (efield e 16 8 % 2 ^ 56) 8 0 .store with
  | (s1, some .wait) => some s1
  | _ => none
/-- REGISTER_ENTRY (R331, R336). -/
def execRegisterEntry (s : State) : Host.Outcome State Fault Refusal :=
  nextS (threadEntry 3 s (fun s q job e =>
    let base := efield e 8 8
    match ((s.resultWaits job e).or (s.objectWaits job base)).or (s.targetsWait job base) with
    | some s1 => .wait s1
    | none =>
    if (s.object? job (entryHandle e)).isSome then .done ((s.refuseEntry q job 0x119 e).resultWord q job e 0x119)
    else if !s.objectOk job base then .done ((s.refuseEntry q job 0x11A e).resultWord q job e 0x11A)
    else .done ((({ s with objects := s.objects ++ [⟨job, entryHandle e, wd base⟩] } : State).journal .objectRegistered).resultWord q job e 1)))
/-- An unregistration that waits is carried out when no instance of the handle runs and its result word can be written (R336). -/
def State.unregister (s : State) (q job : Nat) (e : List Byte) : State :=
  let held (s : State) : State := s.modQueue q (fun x => { x with unreg := some e })
  if s.objectLive job (entryHandle e) then held s
  else
  match s.resultWaits job e with
  | some s1 => held s1
  | none =>
  if (s.object? job (entryHandle e)).isNone then (s.modQueue q (fun x => { x with unreg := none })).resultWord q job e 0x119
  else (({ s with objects := s.objects.filter (fun o => !(o.job == job && o.handle == entryHandle e)) } : State).modQueue q
    (fun x => { x with unreg := none })).resultWord q job e 1
/-- UNREGISTER_ENTRY (R336). -/
def execUnregisterEntry (s : State) : Host.Outcome State Fault Refusal :=
  nextS (match (s.queue s.ev.q).job, (s.queue s.ev.q).unreg with
    | some job, some e => s.thread (fun s => s.unregister s.ev.q job e)
    | _, _ => threadEntry 4 s (fun s q job e => .done (s.unregister q job e)))
/-- PHASE_ENTRY (R293, R336). -/
def execPhaseEntry (s : State) : Host.Outcome State Fault Refusal :=
  nextS (threadEntry 5 s (fun s _ job e =>
    let s1 := match (s.job job).curPhase with
      | some p => s.modPhase p (fun x => { x with closed := true })
      | none => s
    let p : Phase := { id := s.nextPhase, job := job, dies := efield e 8 2, kseq := entrySeq e, groupTable := wd (efield e 16 8), cdone := wd (efield e 48 8) }
    .done (({ s1.journal .phaseChanged with phases := s1.phases ++ [p], nextPhase := s.nextPhase + 1 } : State).modJob job (fun j =>
      { j with curPhase := some p.id, openPhases := j.openPhases + 1, ended := false }))))

/-! ### Binding (R337) -/

/-- The job of a descriptor. Its bytes that R337 calls zero, and a CLASS above 2, are not checked (DESIGN CHOICE, log 51). -/
def jobOf (q host : Nat) (d : List Byte) : Job :=
  { queue := q, host := host, cls := efield d 4 1, weight := efield d 5 1, lsMode := bit (efield d 6 1) 0, tileShare := bit (efield d 6 1) 1
    deadline := efield d 8 8, ptroot := efield d 16 8, roles := wd (efield d 24 8), cdone := wd (efield d 32 8) }
/-- What a job leaves when its queue is bound to another. -/
def State.dropJob (s : State) (j : Nat) : State :=
  { s with jobs := adel s.jobs j, objects := s.objects.filter (fun o => o.job != j), tlb := s.tlb.filter (fun t => t.job != j)
           dies := s.dies.map (fun d => if d.wsJob == some j then { d with wsJob := none, wsPhase := none } else d) }
/-- QUEUE_BIND (R337): queue `ev.q` to the job of the descriptor `ev.bytes`, for host `ev.host`. -/
def execQueueBind (s : State) : Host.Outcome State Fault Refusal :=
  nextS (
    let q := s.queue s.ev.q
    let jid := efield s.ev.bytes 0 4
    if 32 ≤ s.ev.q || s.ev.bytes.length != 64 || !q.entries.isEmpty || s.queueLive s.ev.q || !q.idle ||
        (match aget s.jobs jid with
         | some j => j.queue != s.ev.q
         | none => false) then s
    else
      let s1 := match q.job with
        | some j => s.dropJob j
        | none => s
      ({ s1 with jobs := aset s1.jobs jid (jobOf s.ev.q (s.ev.host + 1) s.ev.bytes) } : State).modQueue s.ev.q
        (fun x => { x with job := some jid, eseq := 1#16, host := s.ev.host + 1 }))

end Sys2Proof.Machine
end

