-- ==== Sys2Proof/Machine/Garnet.lean ====
section
/-! DEFINITION. The journal, the heartbeat, takeover and live handover (R338 to R340, R389). -/

namespace Sys2Proof.Machine

/-- Hub clocks since a value of the hub counter. -/
def State.hubSince (s : State) (t : Nat) : Nat := (s.hub - wd t).toNat
def State.modFw (s : State) (f : Firmware → Firmware) : State := { s with fw := f s.fw }
/-- A handover is in progress: measuring, loading or replaying. -/
def Firmware.handing (f : Firmware) : Bool := f.hstate == 1 || f.hstate == 2 || f.hstate == 3
/-- An abort: HSTATE 5, no version changes, cause 0x169 in the device fault queue (R340). -/
def State.abortHandover (s : State) : State := (s.modFw (fun f => { f with hstate := 5, hovr := false })).devRecord 0x169 2
/-- A commit-point record: it has the next serial number (R338). -/
def State.commitPoint (s : State) : State :=
  (s.journal .commitPoint).modFw (fun f => { f with jcommit := f.jserial, committedAt := some s.hub.toNat })
/-- The thread of a queue is part-way through an entry: it waits, holds a kick, or holds an unregistration (R338). -/
def Queue.partWay (q : Queue) : Bool := q.waiting.isSome || q.holding.isSome || q.unreg.isSome
/-- A commit point may be recorded in this hub clock (R338): none has been, and no thread is part-way through an entry, or a handover is
pending and the last one is 10,000 hub clocks old. -/
def State.mayCommit (s : State) : Bool :=
  s.fw.committedAt != some s.hub.toNat &&
    (!s.queues.any Queue.partWay || (s.fw.handing && decide (10000 ≤ s.hubSince (s.fw.committedAt.getD s.fw.hgo))))

/-- GARNET_HEARTBEAT (R339): every 1024 hub clocks. -/
def execGarnetHeartbeat (s : State) : Host.Outcome State Fault Refusal :=
  nextS (if s.ev.former || s.fw.owner || decide (s.hubSince s.fw.heartbeat < 1024) then s else s.modFw (fun f => { f with heartbeat := s.hub.toNat }))
/-- COMMIT_POINT_RECORD (R338). -/
def execCommitPointRecord (s : State) : Host.Outcome State Fault Refusal := nextS (s.garnet (fun s => if s.mayCommit then s.commitPoint else s))
/-- The core that follows the journal replays its next record: Spinel, as the standby, or after a takeover up to the records that it found
(R339). A decision and its effect are one step, so that completing one changes nothing. -/
def State.replay (s : State) : State :=
  if s.fw.replayed < s.fw.jserial && (!s.fw.nostby || s.fw.replayed < s.fw.resumeAt) then s.modFw (fun f => { f with replayed := f.replayed + 1 }) else s
/-- SPINEL_TAKEOVER (R339): no heartbeat for 4096 hub clocks; a handover in progress aborts (R340); cause 0x168
is recorded (R344, R345). The threads resume when the journal has been replayed. -/
def execSpinelTakeover (s : State) : Host.Outcome State Fault Refusal :=
  nextS (
    if s.fw.owner || s.fw.nostby || decide (s.hubSince s.fw.heartbeat < 4096) then s
    else
      let s1 := if s.fw.handing then s.abortHandover else s
      (s1.devRecord 0x168 2).modFw (fun f => { f with owner := true, nostby := true, resumeAt := f.jserial, verActive := f.verStandby, verStandby := f.verActive }))
/-- HANDOVER_GO (R340): a write of HCTL, `ev.v`, with GO set. -/
def execHandoverGo (s : State) : Host.Outcome State Fault Refusal :=
  nextS (
    if !s.queues.any (fun q => q.host == s.ev.host + 1) then s.devRecord 0x11D 3
    else if !s.ev.v.getLsbD 0 || s.fw.handing then s
    else s.modFw (fun f => { f with hstate := 1, hgo := s.hub.toNat, hovr := true }))
/-- HANDOVER_MEASURED (R340): the staged image, of version `ev.v`, has been measured. -/
def execHandoverMeasured (s : State) : Host.Outcome State Fault Refusal :=
  nextS (if s.fw.hstate != 1 then s else s.modFw (fun f => { f with hstate := 2, verStaged := s.ev.v &&& 0xFFFFFFFF#64 }))
/-- HANDOVER_IMAGE_LOADED (R340). -/
def execHandoverImageLoaded (s : State) : Host.Outcome State Fault Refusal :=
  nextS (if s.fw.hstate != 2 then s else s.modFw (fun f => { f with hstate := 3 }))
/-- HANDOVER_COMMIT (R340): at a commit point, Spinel having replayed the journal, the owner bit passes; until the former core reloads there is
no standby. It falls in no hub clock in which Topaz has sampled the state before it (R389). -/
def execHandoverCommit (s : State) : Host.Outcome State Fault Refusal :=
  nextS (
    if s.ev.former || s.fw.hstate != 3 || decide (1000000 ≤ s.hubSince s.fw.hgo) || s.fw.replayed < s.fw.jserial || !s.mayCommit ||
      s.fw.sampledAt == some s.hub.toNat then s
    else s.commitPoint.modFw (fun f => { f with
      hstate := 4, hovr := false, owner := !f.owner, nostby := true, replayed := f.jserial, verActive := f.verStaged, verStandby := f.verActive }))
/-- HANDOVER_ABORT (R340): no commit point within 1 ms of GO. -/
def execHandoverAbort (s : State) : Host.Outcome State Fault Refusal :=
  nextS (if !s.fw.handing || decide (s.hubSince s.fw.hgo < 1000000) then s else s.abortHandover)
/-- STANDBY_RELOAD (R340 step 6, R389): the former core follows the journal, from its last record on. -/
def execStandbyReload (s : State) : Host.Outcome State Fault Refusal :=
  nextS (
    if !s.fw.nostby then s
    else s.modFw (fun f => { f with nostby := false, replayed := f.jserial, resumeAt := 0, verStandby := f.verActive, verStaged := if f.hstate = 4 then 0#64 else f.verStaged }))

end Sys2Proof.Machine
end

