-- ==== Sys2Proof/Machine/Register.lean ====
section
/-! DEFINITION. The registers of W2 and their actions (R2, R4, R341, R354, R360, R366, R367, R385, R388): writes by a host at port
`ev.host` of the value `ev.v`. -/

namespace Sys2Proof.Machine

def State.modW2 (s : State) (f : Window2 → Window2) : State := { s with w2 := f s.w2 }
/-- The host at a port owns the queue of a job (R325). -/
def State.ownsJob (s : State) (host job : Nat) : Bool := (aget s.jobs job).isSome && (s.queue (s.job job).queue).host == host + 1
/-- An access by a host that does not own the queue: discarded, cause 0x11D with SRC 3 in the device fault queue. -/
def State.foreign (s : State) : State := s.devRecord 0x11D 3
/-- The host at a port owns a mapped queue. -/
def State.ownsAny (s : State) (host : Nat) : Bool := s.queues.any (fun q => q.host == host + 1)
/-- A write of a register of W2 that names no job: one from a host that owns no mapped queue is discarded with cause 0x11D (17, before R379;
log 53). -/
def ownedWrite (s : State) (body : State → State) : State := if s.ownsAny s.ev.host then body s else s.foreign
/-- A number clamped to a range. -/
def clamp (lo hi v : Nat) : Nat := if v < lo then lo else if hi < v then hi else v

/-! ### Stopped units (R29, R353, R354) -/

def State.findStopped (s : State) (job h : Nat) : Option Nat :=
  (s.units.find? (fun p => p.2.job == job && p.2.stopHandle == some h)).map Prod.fst
/-- Resuming acts as ERET would (R352, R354): what the fault held is retried; the control stream goes on at TEPC, or, when the
fault arose in the handler, at the handler's own word, with the fault being handled, the first of those that wait, as before. -/
def State.resumeNow (s : State) (uid : Nat) : State :=
  let u := s.unit uid
  let s1 := match u.curFault with
    | some f => s.retryHeld uid f
    | none => s
  let inH := u.handler
  let s2 := s1.modUnit uid (fun u => { u with
    ccnt := if inH then u.ccnt else u.tepc, curFault := if inH then u.pend.head? else none, pend := if inH then u.pend.tail else u.pend
    resumeDue := false })
  match u.status with
  | .stopped _ =>
    let s3 := s2.modUnit uid (fun u => { u with status := .running, watchdog := 0 })
    if inH then s3
    else
      (match nextPending u.pend with
       | none => s3
       | some (f, rest) => (s3.modUnit uid (fun u => { u with pend := rest })).takeFault uid f.1 f.2)
  | .draining t _ => s2.modUnit uid (fun u => { u with status := .draining t none })
  | .saved _ => s2.modUnit uid (fun u => { u with status := .saved none })
  | _ => s2
/-- A resume: no unit resumes while starts are withheld or the module is too hot; a stopped one then resumes as soon as one may (R385). -/
def State.resumeUnit (s : State) (uid : Nat) : State :=
  match (s.unit uid).status with
  | .stopped _ => if s.pow.hold || s.pow.crit then s.modUnit uid (fun u => { u with resumeDue := true }) else s.resumeNow uid
  | _ => s.resumeNow uid
/-- The resumes that were due go ahead (R385): the first of each hub clock. -/
def State.resumeOwed (s : State) : State :=
  if s.pow.hold || s.pow.crit then s
  else
    match s.units.find? (fun p => p.2.resumeDue) with
    | some (uid, _) => s.resumeNow uid
    | none => s
/-- A write of UCMD, `ev.v`, whose GO has action `act` (R354): ownership, the fields, the unit that the handle names. -/
def ucmd (act : Nat) (s : State) (body : State → Nat → State) : State :=
  let v := s.ev.v
  let job := wbits v 63 32
  if !v.getLsbD 31 || wbits v 17 16 != act then s
  else if !s.ownsJob s.ev.host job then s.foreign
  else
    let s1 := s.modW2 (fun w => { w with ucmdJob := job, ucmdAct := act, ucmdHandle := wbits v 15 0 })
    match s.findStopped job (wbits v 15 0) with
    | none => s1.modW2 (fun w => { w with ucmdErr := true })
    | some uid => body (s1.modW2 (fun w => { w with ucmdErr := false })) uid
/-- UCMD_RESUME (R354, ACT 0). -/
def execUcmdResume (s : State) : Host.Outcome State Fault Refusal := nextS (ucmd 0 s State.resumeUnit)
/-- UCMD_END_FAULTED (R354, ACT 1). -/
def execUcmdEndFaulted (s : State) : Host.Outcome State Fault Refusal := nextS (ucmd 1 s (fun s uid => s.endUnit uid 3))
/-- UCMD_CANCEL_LAUNCH (R354, R45, ACT 2). -/
def execUcmdCancelLaunch (s : State) : Host.Outcome State Fault Refusal := nextS (ucmd 2 s (fun s uid => s.cancelFrom uid 1))
/-- UCMD_MOVE_OVFT (R29, R354, ACT 3): the port's UARG becomes OVFT. -/
def execUcmdMoveOvft (s : State) : Host.Outcome State Fault Refusal :=
  nextS (ucmd 3 s (fun s uid =>
    let a := if s.ev.host = 0 then s.w2.uargA else s.w2.uargB
    (s.modUnit uid (fun u => { u with ovft := a })).resumeUnit uid))

/-! ### Shootdowns (R360) -/

/-- The pages that a request names. -/
def inRequest (first n page : Nat) : Bool := n == 0 || (decide (first ≤ page) && decide (page < first + n))
/-- A cached translation touches the range. -/
def TlbEntry.touches (t : TlbEntry) (first n : Nat) : Bool := n == 0 || overlap first n t.vpage t.pages
/-- An access of the store buffer that holds a translation and has not performed: a held coloured write holds none (R37). -/
def SbEntry.inFlight (e : SbEntry) : Bool :=
  (e.phase == .issued || e.phase == .asked) && !e.lspace && e.op != .ldws && (e.xa != 0 || e.op == .flushr)
/-- The virtual pages that an access of the store buffer touches: the first and how many. -/
def SbEntry.pages (e : SbEntry) : Nat × Nat :=
  let va := e.ea % 2 ^ 56
  let n := Nat.max 1 (if e.op == .flushr then e.b.toNat else e.n)
  (va / 65536, (va + n - 1) / 65536 + 1 - va / 65536)
/-- What a shootdown waits for (R360): the accesses of the job in flight that touch the range or a page of a removed entry, as (unit, entry),
and the requests to other devices that may have been translated with one, as (0, tag). -/
def State.translated (s : State) (job first n : Nat) : List (Nat × Nat) :=
  let gone := s.tlb.filter (fun t => t.job == job && t.touches first n)
  let hit (p : Nat × Nat) : Bool := n == 0 || overlap first n p.1 p.2 || gone.any (fun t => overlap t.vpage t.pages p.1 p.2)
  (s.units.filter (fun p => p.2.job == job)).flatMap (fun p => (p.2.sb.filter (fun e => e.inFlight && hit e.pages)).map (fun e => (p.1, e.id))) ++
    (s.fyWait.filter (fun w => w.2 == (0, 0) || (w.2.1 != 0 && (s.unit w.2.1).job == job))).map (fun w => (0, w.1))
/-- TLB_SHOOTDOWN (R360): a write of TLBICTL with GO set. JOBID and a 1 in DONE are written as R2 says; only the GO is discarded while BUSY. A GO
leaves DONE as it is: only a 1 written to it clears it (R2; log 52). -/
def execTlbShootdown (s : State) : Host.Outcome State Fault Refusal :=
  nextS (
    let v := s.ev.v
    let job := wbits v 63 32
    if !v.getLsbD 0 then s
    else if !s.ownsJob s.ev.host job then s.foreign
    else
      let s1 := s.modW2 (fun w => { w with tlbJob := job, tlbDone := w.tlbDone && !v.getLsbD 2 })
      if s.w2.tlbBusy then s1
      else
        let first := wbits (if s.ev.host = 0 then s.w2.tlbVaA else s.w2.tlbVaB) 55 16
        let n := (if s.ev.host = 0 then s.w2.tlbNpA else s.w2.tlbNpB).toNat
        { s1 with tlb := s.tlb.filter (fun t => !(t.job == job && t.touches first n))
                  w2 := { s1.w2 with tlbBusy := true, tlbPend := s.translated job first n } })
/-- An access that a shootdown waits for is still in flight. -/
def State.stillInFlight (s : State) (p : Nat × Nat) : Bool :=
  if p.1 = 0 then s.fyWait.any (fun w => w.1 == p.2)
  else match (s.unit p.1).entry? p.2 with
    | some e => e.inFlight
    | none => false
/-- TLB_SHOOTDOWN_DONE (R360): every access translated with a removed entry has performed or been discarded. -/
def execTlbShootdownDone (s : State) : Host.Outcome State Fault Refusal :=
  nextS (
    if !s.w2.tlbBusy || s.w2.tlbPend.any s.stillInFlight then s
    else s.modW2 (fun w => { w with tlbBusy := false, tlbDone := true, tlbPend := [] }))

/-! ### Debug halt (R366, R367) -/

/-- A write of DBGCTL with action `act` under GO (R366). -/
def dbgctl (act : Nat) (s : State) (body : State → Nat → Nat → Nat → Nat → Bool → State) : State :=
  let v := s.ev.v
  let job := wbits v 63 32
  if !v.getLsbD 31 || wbits v 29 27 != act then s
  else if !s.ownsJob s.ev.host job then s.foreign
  else
    let s1 := s.modW2 (fun w => { w with
      dbgJob := job, dbgAtt := v.getLsbD 30, dbgAct := act, dbgWhole := v.getLsbD 26, dbgCl := wbits v 25 17, dbgY := wbits v 16 13, dbgX := wbits v 12 9 })
    body s1 job (wbits v 25 17) (wbits v 12 9) (wbits v 16 13) (v.getLsbD 26)

/-- Every PE of a cluster, in the contexts of a job. -/
def State.modJobCluster (s : State) (job cl : Nat) (f : PeCtx → PeCtx) : State :=
  { s with units := s.units.map (fun (p : Nat × UnitSt) =>
      if p.2.job == job && p.2.inRegion && p.2.covers cl then
        (p.1, { p.2 with pes := p.2.pes.map (fun q => if q.1 / 256 == cl - p.2.lead then (q.1, f q.2) else q) })
      else p) }
/-- Some part of a job is halted (R367). -/
def State.anyHalt (s : State) (job : Nat) : Bool :=
  !(s.job job).haltCl.isEmpty || !(s.job job).haltPe.isEmpty || s.units.any (fun p => p.2.job == job && p.2.inRegion && p.2.pes.any (fun q => q.2.halted))
/-- DEBUG_HALT (R367): DEBUG-HOLD with REASON 1. The job keeps the halt, for its units that start there later. -/
def execDebugHalt (s : State) : Host.Outcome State Fault Refusal :=
  nextS (dbgctl 1 s (fun s job cl x y whole =>
    let s1 := if whole then
        (s.modJob job (fun j => { j with haltCl := if j.haltCl.contains cl then j.haltCl else j.haltCl ++ [cl] })).modJobCluster job cl
          (fun p => { p with halted := true, stepOnce := false })
      else (s.modJob job (fun j => { j with haltPe := if j.haltPe.contains (cl, x, y) then j.haltPe else j.haltPe ++ [(cl, x, y)] })).modJobPe job cl x y
        (fun p => { p with halted := true, stepOnce := false })
    let h := s1.anyHalt job
    s1.modJob job (fun j => { j with dbgReason := 1, debugHold := h })))
/-- DEBUG_RESUME (R367): the halt named is lifted. -/
def execDebugResume (s : State) : Host.Outcome State Fault Refusal :=
  nextS (dbgctl 2 s (fun s job cl x y whole =>
    let s1 := if whole then
        (s.modJob job (fun j => { j with haltCl := j.haltCl.filter (fun c => c != cl), haltPe := j.haltPe.filter (fun p => p.1 != cl) })).modJobCluster job cl
          (fun p => { p with halted := false, stepOnce := false })
      else (s.modJob job (fun j => { j with haltPe := j.haltPe.filter (fun p => p != (cl, x, y)) })).modJobPe job cl x y
        (fun p => { p with halted := false, stepOnce := false })
    let h := s1.anyHalt job
    s1.modJob job (fun j => { j with debugHold := h })))
/-- DEBUG_STEP (R367): a halted PE may fire one operation. With WHOLE 1 no PE is stepped (DESIGN CHOICE, log 54). -/
def execDebugStep (s : State) : Host.Outcome State Fault Refusal :=
  nextS (dbgctl 3 s (fun s job cl x y whole =>
    if whole then s
    else s.modJobPe job cl x y (fun p => if p.halted then { p with stepOnce := true } else p)))

/-! ### Pool, power and attestation (R291, R385, R388) -/

/-- POOLCFG_WRITE (R291): discarded while a graph instance exists. -/
def execPoolcfgWrite (s : State) : Host.Outcome State Fault Refusal :=
  nextS (ownedWrite s (fun s =>
    if s.insts.any (fun i => i.status.isNone) then s else s.modW2 (fun w => { w with poolD := clamp 1 8 (wbits s.ev.v 3 0) })))
/-- The clocks since which every measurement has met the ends of R385, after one at hub clock `h`. -/
def Power.watch (p : Power) (h : Nat) : Power :=
  let keep (c : Bool) (o : Option Nat) : Option Nat := if c then o.or (some h) else none
  { p with calm := keep (decide (p.draw + 120 ≤ p.limit) && decide (p.inlet ≤ 4300)) p.calm, cool := keep (decide (p.inlet ≤ 4300)) p.cool }
/-- PWRCTL_WRITE (R385). -/
def execPwrctlWrite (s : State) : Host.Outcome State Fault Refusal :=
  nextS (ownedWrite s (fun s => { s with pow :=
    ({ s.pow with spacing := clamp 8 4096 (wbits s.ev.v 31 16), limit := clamp 1200 2400 (wbits s.ev.v 15 0) } : Power).watch s.hub.toNat }))
/-- A write of ATTCTL (R2, R388): KIND is set, a 1 clears DONE; a GO starts a request unless one is in progress. A GO leaves DONE as it is
(log 52). -/
def State.writeAttctl (s : State) (v : Word) : State :=
  let s1 := s.modFw (fun f => { f with attDone := f.attDone && !v.getLsbD 2, attKind := wbits v 5 4 })
  if !v.getLsbD 0 || s.fw.attBusy then s1
  else s1.modFw (fun f => { f with attBusy := true, attErr := false, attWork := wbits v 5 4, attHost := s.ev.host })
/-- A GO of ATTCTL with a KIND (R388). -/
def attGo (kind : Nat) (s : State) : State :=
  if !s.ev.v.getLsbD 0 || wbits s.ev.v 5 4 != kind then s else ownedWrite s (fun s => s.writeAttctl s.ev.v)
/-- ATTESTATION_QUOTE (R388). -/
def execAttestationQuote (s : State) : Host.Outcome State Fault Refusal := nextS (attGo 0 s)
/-- ATTESTATION_KEYS (R388). -/
def execAttestationKeys (s : State) : Host.Outcome State Fault Refusal := nextS (attGo 1 s)
/-- The code of the region assignment of a physical address (R318, R324): bit 0 host A, bit 1 host B. -/
def State.regionCode (s : State) (pa : Nat) : Nat := agetD s.regions (pa / 2 ^ 28) 0
/-- Bytes of device memory that lie in regions assigned to a host. -/
def State.assigned (s : State) (host pa n : Nat) : Bool :=
  decide (pa + n ≤ Config.memSize) && (upFrom (pa / 2 ^ 28) ((pa + n - 1) / 2 ^ 28 + 1 - pa / 2 ^ 28)).all (fun k => bit (agetD s.regions k 0) host)
/-- A field of a quote (R388): version and state, with the version's measurements. -/
def quoteField (ver : Word) (st : Nat) : List Byte :=
  if st = 0 then leBytes 144 0
  else leBytes 8 ver.toNat ++ leBytes 1 st ++ leBytes 7 0 ++ (upFrom 0 128).map (Config.measurement ver)
/-- Fields A and B at the sample (R389). -/
def Firmware.quoteFields (f : Firmware) : List Byte :=
  if f.hstate = 2 || f.hstate = 3 then quoteField f.verActive 1 ++ quoteField f.verStaged 2
  else if f.hstate = 4 && f.nostby then quoteField f.verActive 1 ++ quoteField f.verStandby 3
  else quoteField f.verActive 1 ++ quoteField 0#64 0
/-- A quote (R388); the signatures are free bytes (log 4). -/
def State.quote (s : State) : List Byte :=
  leBytes 8 0x0001515400000001 ++ s.fw.attNonce.flatMap (fun w => leBytes 8 w.toNat) ++ leBytes 8 (Config.identity 0).toNat ++
  leBytes 8 s.fw.jcommit ++ leBytes 8 s.hub.toNat ++ s.fw.quoteFields ++ (upFrom s.freeCtr (64 + 3309)).map Config.freeByte ++ leBytes 3 0
/-- What Topaz returns is sampled, once for a request, at one hub clock (R388, R389). -/
def State.attSampled (s : State) : State :=
  if s.fw.attSample.isSome then s
  else if s.fw.attWork = 0 then
    ({ s with freeCtr := s.freeCtr + (64 + 3309) } : State).modFw (fun f => { f with attSample := some s.quote, sampledAt := some s.hub.toNat })
  else s.modFw (fun f => { f with attSample := some ((upFrom 0 1984).map Config.publicKey) })
/-- The result may be written as a release at system scope (R106, R108, R117): no host holds a part of its place, no device has a copy of it or
of what was written before, and what the device sent before is complete. -/
def State.attReady (s : State) (n : Nat) : Bool :=
  s.hostReady s.fw.attDst n true && (touchedLines s.fw.attDst n).all (fun l => (s.dirOf l).remote.isEmpty) && !s.anyRemote &&
    !s.openBefore s.fyTag && !s.devPend.any DevOp.isOwn
/-- ATTESTATION_RESULT (R388, R389). What keeps the result back is asked to give way (log 9). -/
def execAttestationResult (s : State) : Host.Outcome State Fault Refusal :=
  nextS (
    if !s.fw.attBusy then s
    else if 1 < s.fw.attWork || !s.assigned s.fw.attHost s.fw.attDst (if s.fw.attWork = 0 then 3760 else 1984) then
      s.modFw (fun f => { f with attBusy := false, attErr := true, attSample := none })
    else
      let s1 := s.attSampled
      let bs := s1.fw.attSample.getD []
      if !s1.attReady bs.length then (touchedLines s1.fw.attDst bs.length).foldl (fun s l => s.invRemote l) (s1.sendSnoops s1.fw.attDst bs.length true)
      else (s1.devWrite s1.fw.attDst bs).modFw (fun f => { f with attBusy := false, attDone := true, attSample := none }))

/-! ### Writes of W2 registers without an action (R2, R4) -/

/-- A write to a fault-queue register (R341): queue q's are its owner's; the device fault queue's are those of any host that owns a queue. -/
def State.writeRing (s : State) (q reg : Nat) (v : Word) : State :=
  if (if q < 32 then (s.queue q).host != s.ev.host + 1 else !s.ownsAny s.ev.host) then s.foreign
  else
    { s with rings := lmod s.rings q (fun r =>
        match reg with
        | 0 => { r with base := wbits v 51 12 * 4096, size := wbits v 4 0 }
        | 2 => { r with tail := v.setWidth 32 }
        | 3 => { r with lost := r.lost &&& ~~~(v.setWidth 32) }
        | _ => r) }
/-- REGISTER_WRITE (R2): the 8 bytes `ev.v` at offset `ev.off` of W2, as far as they do no action: fields change by their Kind,
reserved and read-only fields discard the write. -/
def execRegisterWrite (s : State) : Host.Outcome State Fault Refusal :=
  nextS (
    let v := s.ev.v
    let off := s.ev.off
    let A := s.ev.host = 0
    if off % 8 != 0 then s
    else if off < 33 * 32 then s.writeRing (off / 32) (off % 32 / 8) v
    else if 0xB0000 ≤ off && off < 0xB0040 then
      ownedWrite s (fun s => s.modFw (fun f => { f with attNonce := lput 0#64 f.attNonce ((off - 0xB0000) / 8) v }))
    else
      match off with
      | 0x80010 => ownedWrite s (fun s => s.modFw (fun f => { f with hstage := wbits v 51 12 * 4096 }))
      | 0x90000 => s.modW2 (fun w => let x := v &&& 0x00FFFFFFFFFF0000#64; if A then { w with tlbVaA := x } else { w with tlbVaB := x })
      | 0x90008 => s.modW2 (fun w => let x := v.setWidth 32; if A then { w with tlbNpA := x } else { w with tlbNpB := x })
      | 0x90010 =>
        if v.getLsbD 0 then s
        else ownedWrite s (fun s => s.modW2 (fun w => { w with tlbJob := wbits v 63 32, tlbDone := w.tlbDone && !v.getLsbD 2 }))
      | 0x90040 =>
        if v.getLsbD 31 then s
        else if !s.ownsJob s.ev.host (wbits v 63 32) then s.foreign
        else s.modW2 (fun w => { w with ucmdJob := wbits v 63 32, ucmdAct := wbits v 17 16, ucmdHandle := wbits v 15 0 })
      | 0x90048 => s.modW2 (fun w => let x := v &&& 0x00FFFFFFFFFFFFF0#64; if A then { w with uargA := x } else { w with uargB := x })
      | 0xA0000 =>
        if v.getLsbD 31 && 1 ≤ wbits v 29 27 && wbits v 29 27 ≤ 3 then s
        else if !s.ownsJob s.ev.host (wbits v 63 32) then s.foreign
        else s.modW2 (fun w => { w with dbgJob := wbits v 63 32, dbgAtt := v.getLsbD 30, dbgAct := wbits v 29 27, dbgWhole := v.getLsbD 26
                                        dbgCl := wbits v 25 17, dbgY := wbits v 16 13, dbgX := wbits v 12 9 })
      | 0xA0010 => s.modW2 (fun w => let x := v &&& 0x00FF000003FFFE00#64; if A then { w with dbgSelA := x } else { w with dbgSelB := x })
      | 0xB0040 => ownedWrite s (fun s => s.modFw (fun f => { f with attDst := wbits v 51 6 * 64 }))
      | 0xB0048 => if v.getLsbD 0 && wbits v 5 4 ≤ 1 then s else ownedWrite s (fun s => s.writeAttctl v)
      | _ => s)

end Sys2Proof.Machine
end

