-- ==== Sys2Proof/Machine/Windows.lean ====
section
/-! DEFINITION. What a host reads in W0, W1 and W2 (R322 to R325, R341, R354, R360, R366, R383 to R388): pure functions of the state. -/

namespace Sys2Proof.Machine

/-! ### W0 (R322, R383 to R386) -/

/-- MSTAT. -/
def State.mstat (s : State) : Nat := s.fw.mstate + 2 ^ 8 * b2n s.fw.owner + 2 ^ 9 * b2n s.fw.nostby + 2 ^ 10 * b2n s.fw.hovr
/-- A mask of the clusters of a die that satisfy `p`: bits from `lo`, `n` of them. -/
def State.clusterMask (s : State) (die lo n : Nat) (p : Cluster → Bool) : Nat :=
  (upFrom 0 n).foldl (fun v c => v + (if p (s.cluster (80 * die + lo + c)) then 2 ^ c else 0)) 0
/-- A list of fields, least significant first, each with its width. -/
def packFields : List (Nat × Nat) → Nat
  | [] => 0
  | (w, v) :: r => v % 2 ^ w + 2 ^ w * packFields r
/-- Word `k` of the body of a capability (R323, R324, R383 to R386). -/
def State.capWord (s : State) (id k : Nat) : Nat :=
  match id with
  | 1 =>
    (match k with
     | 2 => ((Config.powerOn + s.fleet.upTime + s.hub.toNat) / 3600000000000) % 2 ^ 32
     | 3 => ((Config.identity k).toNat + s.fleet.resets) % 2 ^ 32
     | _ => (Config.identity k).toNat)
  | 2 =>
    let d := k / 5
    (match k % 5 with
     | 0 => packFields [(8, 80), (8, lget s.fleet.clSpare d 0), (8, lget s.fleet.retired d 0)]
     | 1 => s.clusterMask d 0 64 Cluster.pending
     | 2 => s.clusterMask d 64 16 Cluster.pending
     | 3 => s.clusterMask d 0 64 Cluster.unavail
     | _ => s.clusterMask d 64 16 Cluster.unavail)
  | 3 => if k = 0 then s.hub.toNat else if k < 5 then (s.die (k - 1)).cyc.toNat else if k = 14 then (Config.energy s.hub - Config.energy 0#64).toNat else agetD s.fleet.tele k 0
  | 4 =>
    (match k with
     | 0 => packFields [(16, 2400), (16, s.pow.limit), (16, s.pow.draw), (16, s.pow.inlet)]
     | 1 => b2n s.pow.alarm + 2 * b2n s.pow.hold + 4 * b2n s.pow.crit
     | _ => s.pow.alarms)
  | 5 => let p := lget s.ports k {}; packFields [(3, p.state), (5, p.width), (8, p.rate), (32, p.drop)]
  | 7 =>
    (match k with
     | 0 => packFields (s.fleet.clSpare.map (fun n => (8, n)))
     | 1 => packFields (s.fleet.chSpare.map (fun n => (4, n)) ++ (upFrom 0 16).map (fun i => (1, b2n (s.fleet.chPend.contains i))))
     | 2 => s.fleet.rowRep
     | _ => packFields ((upFrom 0 16).map (fun p => (1, b2n ((lget s.ports p {}).state == 3))) ++ [(16, 0), (16, s.fleet.peFail)]))
  | 8 =>
    (match k with
     | 0 => s.fw.verActive.toNat
     | 1 => s.fw.verStandby.toNat
     | _ => s.fw.verStaged.toNat)
  | 9 => if k = 0 then 28 + 2 ^ 16 * 2304 else packFields ((upFrom (32 * (k - 1)) 32).map (fun r => (2, agetD s.regions r 0)))
  | _ => 0

/-- The capabilities of W0: ID and LEN (R323, R324, R383 to R386). The manual gives no body of capability 6: LEN 0 (log 42). -/
def capabilities : List (Nat × Nat) := [(1, 4), (2, 20), (3, 24), (4, 3), (5, 18), (6, 0), (7, 4), (8, 3), (9, 73)]
/-- The offset of the capability behind one at `o` with a body of `len` words: greater than o + 8 + 8·LEN (R323), so one word lies between
them, which reads as 0 (DESIGN CHOICE, log 42). -/
def capNext (o len : Nat) : Nat := o + 16 + 8 * len
/-- The word at offset `off` of a list of capabilities that starts at `o`: a header of version 1 with NEXT, the words of its body, then the
next capability; 0 between them and beyond the last (R322, R323). -/
def State.capRead (s : State) (off : Nat) : List (Nat × Nat) → Nat → Nat
  | [], _ => 0
  | (id, len) :: r, o =>
    if off = o then packFields [(16, 0), (16, if r.isEmpty then 0 else capNext o len), (12, len), (4, 1), (16, id)]
    else if off < o + 8 + 8 * len then s.capWord id ((off - o) / 8 - 1)
    else if off < capNext o len then 0
    else s.capRead off r (capNext o len)
/-- A read of W0: the registers at its start, then the capabilities from CAPPTR on. The manual fixes CAPPTR and leaves the offsets of the
others to the device: here they stand in the order of their IDs (DESIGN CHOICE, log 42). -/
def State.readW0 (s : State) (off : Nat) : Nat :=
  match off with
  | 0x0000 => 0x8320 + 2 ^ 16 * Config.stepping.toNat + 2 ^ 24
  | 0x0008 => 0x0100
  | 0x0010 => s.mstat
  | 0x0018 => s.devNum.toNat
  | _ => if off < 0x0100 then 0 else s.capRead off capabilities 0x0100

/-! ### Base address registers (R316) -/

/-- The low and the high word of BAR 0, 2 or 4 (`k` 0, 1, 2) of a host port's function: its base over the four bits of a 64-bit memory BAR
(PRESUMED, log 58). -/
def State.readBar (s : State) (host k : Nat) : Nat × Nat :=
  let v := lget (lget s.bars host []) k 0 + 4
  (v % 2 ^ 32, v / 2 ^ 32)

/-! ### W1 (R325) -/

/-- The status word of a kick register, and bytes 8 to 11. -/
def State.readW1 (s : State) (q : Nat) : Nat × Nat :=
  let x := s.queue q
  (packFields [(24, 0), (4, x.host), (1, b2n x.short), (1, b2n x.foreign), (1, b2n x.ovf), (1, b2n x.blocked), (5, 16 - x.entries.length), (11, 0), (16, x.eseq.toNat)],
   x.job.getD 0)

/-! ### W2 -/

/-- The item that DBGSEL selects (R366): all ones for a PE that is not halted. Of several units of the job that share the cluster, the
first stands for the context (DESIGN CHOICE, log 54). -/
def State.debugItem (s : State) (sel : Word) : Nat :=
  let ones := 2 ^ 64 - 1
  let item := wbits sel 55 52
  let idx := wbits sel 51 48
  let cl := wbits sel 25 17
  match s.units.find? (fun p => p.2.job == s.w2.dbgJob && p.2.inRegion && p.2.covers cl) with
  | none => if item = 7 then 0 else ones
  | some (_, u) =>
    let p := u.pe (peKey (cl - u.lead) (wbits sel 12 9) (wbits sel 16 13))
    if item = 7 then agetD (s.cluster cl).trace (u.ctx, idx) 0
    else if !p.halted then ones
    else
      match item with
      | 0 => (p.reg idx).val.toNat
      | 1 => packFields ((upFrom 0 8).map (fun k => (8, (p.reg k).tag.toNat + 16 * b2n (p.reg k).full)))
      | 2 => tokenNat (lget (p.queue (idx / 4)) (idx % 4) {}) % 2 ^ 64
      | 3 => tokenNat (lget (p.queue (idx / 4)) (idx % 4) {}) / 2 ^ 64
      | 4 => lget (p.node.saved (match p.node with
          | .ldlk id => u.entry? id
          | _ => none)).2.1 idx 0
      | 5 => p.op.toNat + 2 ^ 32 * p.imm.toNat
      | _ => ones
/-- 8 bytes of the kick register of queue q, word `k`: the status, the job id in bytes 8 to 11, and zero in bytes 12 to 63 (R325). The window
beyond the 32 kick registers is not used (R316): it reads as 0. -/
def State.readW1Word (s : State) (q k : Nat) : Nat :=
  if 32 ≤ q then 0
  else
    match k with
    | 0 => (s.readW1 q).1
    | 1 => (s.readW1 q).2 % 2 ^ 32
    | _ => 0

/-- A register of W2 as the host at a port reads it. DBGDATA reads all ones for a host that does not own the job, so also after reset,
where R366's table gives it 0 (DESIGN CHOICE, log 54). -/
def State.readW2 (s : State) (host off : Nat) : Nat :=
  let w := s.w2
  let A := host = 0
  if off < 33 * 32 then
    let r := lget s.rings (off / 32) {}
    (match off % 32 / 8 with
     | 0 => r.base + r.size
     | 1 => r.head.toNat
     | 2 => r.tail.toNat
     | _ => r.lost.toNat)
  else if 0xB0000 ≤ off && off < 0xB0040 then (lget s.fw.attNonce ((off - 0xB0000) / 8) 0#64).toNat
  else
    match off with
    | 0x80000 => s.fw.jserial % 2 ^ 64
    | 0x80008 => s.fw.jcommit % 2 ^ 64
    | 0x80010 => s.fw.hstage
    | 0x80018 => 2 ^ 8 * s.fw.hstate
    | 0x80020 => w.poolD
    | 0x90000 => (if A then w.tlbVaA else w.tlbVaB).toNat
    | 0x90008 => (if A then w.tlbNpA else w.tlbNpB).toNat
    | 0x90010 => 2 * b2n w.tlbBusy + 4 * b2n w.tlbDone + 2 ^ 32 * w.tlbJob
    | 0x90040 => packFields [(16, w.ucmdHandle), (2, w.ucmdAct), (12, 0), (1, b2n w.ucmdErr), (1, 0), (32, w.ucmdJob)]
    | 0x90048 => (if A then w.uargA else w.uargB).toNat
    | 0xA0000 => packFields [(9, 0), (4, w.dbgX), (4, w.dbgY), (9, w.dbgCl), (1, b2n w.dbgWhole), (3, w.dbgAct), (1, b2n w.dbgAtt), (1, 0), (32, w.dbgJob)]
    | 0xA0008 => (s.job w.dbgJob).dbgReason + 2 ^ 8 * b2n (s.job w.dbgJob).debugHold
    | 0xA0010 => (if A then w.dbgSelA else w.dbgSelB).toNat
    | 0xA0018 => if s.ownsJob host w.dbgJob then s.debugItem (if A then w.dbgSelA else w.dbgSelB) else 2 ^ 64 - 1
    | 0xB0040 => s.fw.attDst
    | 0xB0048 => 2 * b2n s.fw.attBusy + 4 * b2n s.fw.attDone + 8 * b2n s.fw.attErr + 16 * s.fw.attKind
    | 0xC0000 => s.pow.limit + 2 ^ 16 * s.pow.spacing
    | _ => 0

end Sys2Proof.Machine
end

