-- ==== Sys2Proof/Machine/HostPort.lean ====
section
/-! DEFINITION. The host ports (R84, R94, R117, R316 to R321): link training, CXL.mem requests on half-lines, back-invalidate
snoops, and snoops of host lines that the device holds. Hosts are 0 for A and 1 for B. -/

namespace Sys2Proof.Machine

/-- Data that a host receives (model's own record of what leaves the port). -/
def State.toHost (s : State) (host pa : Nat) (bs : List Byte) : State := { s with hostRx := s.hostRx ++ [(host, pa, bs)] }
/-- A CXL.mem request for a region that is not the host's (R318). -/
def State.unassigned (s : State) (pa : Nat) : State := s.writeRecord 32 { cause := 0x11D, src := 3, addr := pa }
/-- A snoop of a half is outstanding; to which host (R321). -/
def DirEntry.snooped (d : DirEntry) (half : Nat) : Bool := d.snoops.any (fun p => decide (p.1 < 2) && p.2 % 2 == half)
/-- A back-invalidate snoop is sent to a host: for its data, or to invalidate (R320). -/
def State.sendBisnp (s : State) (line host half : Nat) (inv : Bool) : State :=
  s.modDir line (fun d => { d with snoops := d.snoops ++ [(host, half + 2 * b2n inv)] })
/-- A host's request for the half-line at `ev.pa` (R318, R321): it waits behind an outstanding snoop of the half, and while an
STXS holds the line (R99). `refused` is what a request for an unassigned region comes to. -/
def hostRequest (s : State) (refused : State → State) (body : State → Nat → Nat → Nat → DirEntry → State) : State :=
  let pa := s.ev.pa / 64 * 64
  let line := pa / 128
  if 2 ≤ s.ev.host then s
  else if !s.assigned s.ev.host pa 64 then refused (s.unassigned pa)
  else if (s.dirOf line).snooped (halfOf pa) || (s.dirOf line).lock.isSome then s
  else body s pa line (halfOf pa) (s.dirOf line)
/-- The 64 bytes of a half-line from the home. -/
def State.halfData (s : State) (pa : Nat) : List Byte := s.cohBytes pa 64
/-- A read of a half-line is answered (R369): its bytes, or, for a line whose check fails, all ones and a record that names no job. -/
def State.answerHost (s : State) (host pa : Nat) : State :=
  if s.bad.contains (pa / 128) then
    (s.writeRecord 32 { cause := 0x160, src := 3, addr := pa, d1 := pa / 128 * 128 }).toHost host pa (List.replicate 64 0xFF#8)
  else s.toHost host pa (s.halfData pa)

/-- HOST_READ_SHARED (R320). -/
def execHostReadShared (s : State) : Host.Outcome State Fault Refusal :=
  nextS (hostRequest s (fun t => t.toHost s.ev.host s.ev.pa (List.replicate 64 0xFF#8)) (fun s pa line h d =>
    let y := 1 - s.ev.host
    if d.host y h == .Hx then s.sendBisnp line y h false
    else
      let s1 := s.recall line true
      (s1.modDir line (fun d => d.setHost s.ev.host h .Hs)).answerHost s.ev.host pa))
/-- HOST_READ_OWNERSHIP (R320). The host may write the half from then on, so copies that other devices hold of the line are invalidated first
(R85, R119). -/
def execHostReadOwnership (s : State) : Host.Outcome State Fault Refusal :=
  nextS (hostRequest s (fun t => t.toHost s.ev.host s.ev.pa (List.replicate 64 0xFF#8)) (fun s pa line h d =>
    let y := 1 - s.ev.host
    if d.host y h != .Hi then s.sendBisnp line y h true
    else if !d.remote.isEmpty || s.remotePending line then s.invRemote line
    else
      let s1 := s.recall line false
      (s1.modDir line (fun d => d.setHost s.ev.host h .Hx)).answerHost s.ev.host pa))
/-- A half written at the home by a host: one write event (R94); Jasper re-reads the condition words of the line (R289). The write performs at
one point for every unit of the device, which R119 does not demand of plain writes to host memory (DESIGN CHOICE, log 70). -/
def State.hostWrite (s : State) (pa : Nat) (bs : List Byte) : State := (s.homeWrite pa bs).nudge (fun _ => true) (false, pa / 128)
/-- HOST_WRITEBACK (R320): the 64 bytes `ev.bytes` of a half held in Hx. -/
def execHostWriteback (s : State) : Host.Outcome State Fault Refusal :=
  nextS (hostRequest s id (fun s pa line h d =>
    if d.host s.ev.host h != .Hx || s.ev.bytes.length != 64 then s
    else (s.hostWrite pa s.ev.bytes).modDir line (fun d => d.setHost s.ev.host h .Hi)))
/-- HOST_EVICT_CLEAN (R320). -/
def execHostEvictClean (s : State) : Host.Outcome State Fault Refusal :=
  nextS (hostRequest s id (fun s _ line h _ => s.modDir line (fun d => d.setHost s.ev.host h .Hi)))
/-- BICONFLICT (R321): BIConflictAck once the snoop's transition is complete. -/
def execBiconflict (s : State) : Host.Outcome State Fault Refusal :=
  nextS (if (s.dirOf (s.ev.pa / 128)).snoops.any (fun p => p.1 == s.ev.host && p.2 % 2 == halfOf s.ev.pa) then s else s.toHost s.ev.host s.ev.pa [])
/-- BISNP_RESPONSE (R117, R320): the host's state changes, and data that it returns are written at the home. -/
def execBisnpResponse (s : State) : Host.Outcome State Fault Refusal :=
  nextS (
    let pa := s.ev.pa / 64 * 64
    let line := pa / 128
    let h := halfOf pa
    match (s.dirOf line).snoops.find? (fun p => p.1 == s.ev.host && decide (p.1 < 2) && p.2 % 2 == h) with
    | none => s
    | some p =>
      let s1 := if s.ev.bytes.length = 64 && (s.dirOf line).host s.ev.host h == .Hx then s.hostWrite pa s.ev.bytes else s
      s1.modDir line (fun d => { (d.setHost s.ev.host h (if p.2 < 2 then .Hs else .Hi)) with snoops := d.snoops.erase p }))
/-- HOST_SNOOP (R84, R319): a host snoops one of its half-lines that the device holds, to share it or (flag) to own it. The device then holds
it at most in S, or not at all, and its data returns. The snoop waits while an STXS holds the line (R99). -/
def execHostSnoop (s : State) : Host.Outcome State Fault Refusal :=
  nextS (
    let xa := hostBase + (s.ev.host % 2) * 2 ^ 51 + s.ev.pa % 2 ^ 51 / 64 * 64
    let h := (xa - hostBase) / 64
    if (s.dirOf (xa / 128)).lock.isSome then s
    else
      let s1 := s.recall (xa / 128) (!s.ev.flag)
      ({ s1 with hostHalf := if s.ev.flag then adel s1.hostHalf h else amod s1.hostHalf h (fun _ => .S) } : State).toHost s.ev.host s.ev.pa (s1.halfData xa))
/-- The host grants the device a half-line of its memory that was requested, in a state that a request asks for (R317, R319). -/
def State.hostGrant (s : State) (half : Nat) (st : Mesi) : State :=
  let met (a : Nat × Bool) : Bool := a.1 == half && decide (needRank a.2 ≤ st.rank)
  if s.hostAsk.any met && s.hostPortUp (hostBase + half * 64) then
    { s with hostHalf := aset s.hostHalf half st, hostAsk := s.hostAsk.filter (fun a => !met a) }
  else s
/-- A host writes bytes of its own memory: only where the device holds no half-line of them (R84, R319). -/
def State.hostOwnWrite (s : State) (pa : Nat) (bs : List Byte) : State :=
  let xa := hostBase + pa % 2 ^ 52
  if (touchedLines xa bs.length).all (fun l => (hostHalves l).all (fun h =>
      s.halfState h == .I || !overlap (hostBase + h * 64) 64 xa bs.length)) then s.hostWrite xa bs
  else s

/-! ### HDM decoders and region assignment (R318, R324) -/

/-- The HDM decoder of some port covers a region. -/
def State.decoded (s : State) (region : Nat) : Bool := s.decoders.any (fun d => d.1.2 == region)
/-- Sedon programs the decoder of a port: it covers only regions assigned to that port's host. -/
def State.programDecoder (s : State) (host region : Nat) : Option Nat → State
  | none => { s with decoders := adel s.decoders (host, region) }
  | some base => if host < 2 && region < 2304 && bit (agetD s.regions region 0) host then { s with decoders := aset s.decoders (host, region) base } else s
/-- Sedon changes the assignment of a region, only while neither host's decoder covers it. -/
def State.assignRegion (s : State) (region code : Nat) : State :=
  if region < 2304 && !s.decoded region then { s with regions := aset s.regions region (code % 4) } else s
/-- The physical address of a host's address: region base + (host address − decoder base). -/
def State.hdmMap (s : State) (host addr : Nat) : Option Nat :=
  (s.decoders.find? (fun d => d.1.1 == host && decide (d.2 ≤ addr) && decide (addr < d.2 + 2 ^ 28))).map (fun d => d.1.2 * 2 ^ 28 + (addr - d.2))
/-- A request of a host to device memory. -/
def isCxlMem : Instr → Bool
  | .hostReadShared => true
  | .hostReadOwnership => true
  | .hostWriteback => true
  | .hostEvictClean => true
  | _ => false

/-! ### Base address registers and the windows (R316) -/

/-- The size of the window of BAR 0, 2 or 4 (`k` 0, 1, 2). -/
def barSize (k : Nat) : Nat := if k = 2 then 2 ^ 20 else 2 ^ 16
/-- A host programs a BAR of its port's function: the bits below the size of the window stay 0. -/
def State.barWrite (s : State) (host k v : Nat) : State :=
  { s with bars := lmod s.bars host (fun l => lmod l k (fun _ => v % 2 ^ 64 / barSize k * barSize k)) }
/-- The window and the offset that a host's address falls on: 0 W0, 1 W1, 2 W2. A BAR whose base is 0 is not set. -/
def State.barDecode (s : State) (host addr : Nat) : Option (Nat × Nat) :=
  let l := lget s.bars host []
  ([0, 1, 2].find? (fun k => let b := lget l k 0; b != 0 && decide (b ≤ addr) && decide (addr < b + barSize k))).map (fun k => (k, addr - lget l k 0))
/-- The register of W2 that 8 bytes written at an offset act on, as an event of the table. -/
def w2Event (off : Nat) (v : Word) : Instr :=
  match off with
  | 0x80018 => .handoverGo
  | 0x80020 => .poolcfgWrite
  | 0x90010 => if v.getLsbD 0 then .tlbShootdown else .registerWrite
  | 0x90040 =>
    if !v.getLsbD 31 then .registerWrite
    else
      (match wbits v 17 16 with
       | 0 => .ucmdResume
       | 1 => .ucmdEndFaulted
       | 2 => .ucmdCancelLaunch
       | _ => .ucmdMoveOvft)
  | 0xA0000 =>
    if !v.getLsbD 31 then .registerWrite
    else
      (match wbits v 29 27 with
       | 1 => .debugHalt
       | 2 => .debugResume
       | 3 => .debugStep
       | _ => .registerWrite)
  | 0xB0048 =>
    if !v.getLsbD 0 then .registerWrite
    else
      (match wbits v 5 4 with
       | 0 => .attestationQuote
       | 1 => .attestationKeys
       | _ => .registerWrite)
  | 0xC0000 => .pwrctlWrite
  | _ => .registerWrite
/-- A host's write of `n` bytes at an address that a BAR of its port decodes, on a link that is up: the event that it is. W0 is read only. A
write of W2 that is not 8 bytes at an offset that is a multiple of 8 is discarded without a record: the manual gives W2 no access width
(DESIGN CHOICE, log 69). -/
def State.busEvent (s : State) (host addr n v : Nat) : Option (Instr × EvArgs) :=
  if (lget s.ports (16 + host) {}).state != 2 then none
  else
    match s.barDecode host addr with
    | some (1, off) =>
      if off % 64 = 0 && n = 8 then some (.kickStatusClear, { host := host, q := off / 64, v := wd v })
      else some (.kickRegisterWrite, { host := host, q := off / 64, off := off % 64, bytes := leBytes n v })
    | some (2, off) => if n = 8 && off % 8 = 0 then some (w2Event off (wd v), { host := host, off := off, v := wd v }) else none
    | _ => none

/-- A host's read of 8 bytes at an address that a BAR of its port decodes, on a link that is up. Reads of other widths or places are not
modelled, as with writes of W2 (DESIGN CHOICE, log 69). -/
def State.busRead (s : State) (host addr : Nat) : State :=
  if (lget s.ports (16 + host) {}).state != 2 || addr % 8 != 0 then s
  else
    match s.barDecode host addr with
    | some (0, off) => s.toHost host addr (leBytes 8 (s.readW0 off))
    | some (1, off) => s.toHost host addr (leBytes 8 (s.readW1Word (off / 64) (off % 64 / 8)))
    | some (_, off) => s.toHost host addr (leBytes 8 (s.readW2 host off))
    | none => s

/-- A port that is down begins to train (R316, R384). -/
def State.beginTraining (s : State) (port : Nat) : State :=
  if 18 ≤ port || !([0, 4, 5].contains (lget s.ports port {}).state) then s
  else { s with ports := lmod s.ports port (fun x => { x with state := 1, width := 0, rate := 0 }) }
/-- HOST_LINK_TRAINING (R316, R384): flag says whether the partner can use FLIT mode. A training that yields no lane fails (log 74). -/
def execHostLinkTraining (s : State) : Host.Outcome State Fault Refusal :=
  nextS (
    let p := 16 + s.ev.host
    if 2 ≤ s.ev.host then s
    else if !s.ev.flag then { s with ports := lmod s.ports p (fun x => { x with state := 5, width := 0, rate := 0 }) }
    else if s.ev.width = 0 then { s with ports := lmod s.ports p (fun x => { x with state := 4, width := 0, rate := 0 }) }
    else if [1, 2, 4, 8].contains s.ev.width && [16, 32, 64].contains s.ev.rate then
      { s with ports := lmod s.ports p (fun x => { x with state := 2, width := s.ev.width, rate := s.ev.rate }) }
    else s)
/-- HOST_PORT_DOWN (R358). -/
def execHostPortDown (s : State) : Host.Outcome State Fault Refusal :=
  nextS (
    let p := 16 + s.ev.host
    if (lget s.ports p {}).state != 2 then s
    else { s with ports := lmod s.ports p (fun x => { x with state := 0, width := 0, rate := 0 }) })

end Sys2Proof.Machine
end

