-- ==== Sys2Proof/Machine/Device.lean ====
section
/-! DEFINITION. Fyron (R82, R85, R343, R379, R384): packets received, forwarded or dropped, requests of other devices performed
here, and the ports. -/

namespace Sys2Proof.Machine

/-- A packet that the device drops (R343). -/
def State.dropPacket (s : State) (port : Nat) : State :=
  { s.count 21 1 with ports := lmod s.ports port (fun x => { x with drop := if x.drop < 2 ^ 32 - 1 then x.drop + 1 else x.drop }) }
/-- A malformed header: a reserved KIND or a zero field that is not zero (R343). -/
def badPacket (p : FyPacket) : Bool := decide (6 < p.kind.toNat) || p.zero1 != 0#5 || p.zero2 != 0#2

/-! ### Answers to requests of this device (R82, R85) -/

/-- The answer to a store-buffer entry's request (R82): a load has its value, a plain store its write ack; a synchronising access goes on to
its WACK, with what the record of its line leads to (R97). An engine's operation looks for its own answers. -/
def State.fabricDone (s : State) (uid : Nat) (e : SbEntry) (value : Nat) (seqTag : BitVec 16) (r : Option (Nat × Nat)) : State :=
  let sync : State :=
    let ok := e.op == .amx && (amxOp e.w.sub.toNat value e.b.toNat e.c.toNat).2
    let v := if e.op == .lda then loadVal e.w e.n value else wd value
    let s1 := s.modUnit uid (fun u => u.modEntry e.id (fun x => { x with phase := .performed, value := v, seqTag := seqTag, ok := ok }))
    ({ s1 with net := s1.net ++ [{ kind := .wack, line := e.xa / 128, cl := e.site.cl, unit := uid, id := e.id }] } : State).scopeReport uid e r
  match e.op with
  | .ld => s.loadDone uid e value 0#2
  | .st | .stxs => (s.modUnit uid (fun u => u.modEntry e.id (fun x => { x with seqTag := seqTag }))).retire uid e.id
  | .lda | .stl | .amo | .amx | .fence => sync
  | _ => s
/-- The request of a tag is answered: who made it. -/
def State.answered (s : State) (tag : Nat) : Option (Nat × Nat) := (s.fyWait.find? (fun p => p.1 == tag)).map Prod.snd
/-- A response reaches what waits for it, by its tag: an entry, a command, a control word, a line, or a reduction round. -/
def State.takeResponse (s : State) (tag : Nat) (value : Word) (seqTag : BitVec 16) (bs : List Byte) (r : Option (Nat × Nat)) (more : Bool) : State :=
  match s.answered tag with
  | none => s
  | some (uid, id) =>
    let s1 : State := { s with fyWait := s.fyWait.filter (fun p => p.1 != tag)
                               fyOpen := s.fyOpen ++ (if more && (uid != 0 || id = 0) then [(tag, uid, id)] else []) }
    let v := if bs.isEmpty then value.toNat else leNat bs
    if uid = 0 then (if id = 0 then s1.roundAnswered tag (.ok r) else { s1 with fyL2 := aset s1.fyL2 id bs, bad := s1.bad.filter (· != id) })
    else if id = 0 then { s1 with fyDone := s1.fyDone ++ [(tag, wd v, seqTag, r)] }
    else
      match (s1.unit uid).entry? id with
      | some e => if e.phase == .asked then s1.fabricDone uid e v seqTag r else s1
      | none => s1.runAnswered (uid, id) tag (.ok r)
/-- The line that a request would have consumed fails its check at device `dev` (R369): the access has no effect, and its cause is 0x160. -/
def State.takeFailure (s : State) (dev tag line : Nat) : State :=
  match s.answered tag with
  | none => s
  | some (uid, id) =>
    let s1 : State := { s with fyWait := s.fyWait.filter (fun p => p.1 != tag) }
    let pa := 2 ^ 50 + dev * 2 ^ 40 + line * 128
    if uid = 0 then
      (if id = 0 then s1.roundAnswered tag (.error pa) else { s1 with fyL2 := aset s1.fyL2 id [], bad := s1.bad.filter (· != id) ++ [id] })
    else if id = 0 then { s1 with fyFail := s1.fyFail ++ [(tag, pa)] }
    else
      match (s1.unit uid).entry? id with
      | some e => if e.phase == .asked then s1.sbFault uid e 0x160 e.ea 0#64 (wd pa) else s1
      | none => s1.runAnswered (uid, id) tag (.error pa)

/-! ### Requests of other devices, performed at their home slices here (R82, R85, R96) -/

/-- An answer goes to the device that asked. -/
def State.respond (s : State) (p : FyPacket) (pl : FyPayload) : State := s.fySend p.sdev.toNat 1 pl
/-- A line of [pa, pa+n) has copies on other devices, or invalidations of them are under way (R85). -/
def State.heldElsewhere (s : State) (pa n : Nat) : Bool := (touchedLines pa n).any (fun l => !(s.dirOf l).remote.isEmpty || s.remotePending l)
/-- A write of another device has been performed: it is acknowledged at once, and when copies are still to be invalidated the device is told
of the end of that later (R85). -/
def State.ackWrite (s : State) (p : FyPacket) (pa n : Nat) (value : Word) (r : Option (Nat × Nat)) (tag : Nat) : State :=
  let ls := touchedLines pa n
  let more := ls.any s.remotePending
  let s1 := s.respond p (.response tag value (s.dirOf (pa / 128)).tag [] r more)
  if more then { s1 with fyOwe := s1.fyOwe ++ [(tag, p.sdev.toNat, ls)] } else s1
/-- A synchronising access of another device (R96, R97): what it reads, what it leaves, and the record that it takes. -/
def State.remoteSync (s : State) (p : FyPacket) (pa n : Nat) (op : FyOp) (scope : Nat) (v c : Word) (tag : Nat) : State :=
  let r := (s.dirOf (pa / 128)).scopeRec
  let took (s : State) : State := s.modDir (pa / 128) (fun d => { d with scopeRec := some (scope, domainOf scope 0) })
  let old := s.cohN pa n
  match op with
  | .lda => let x := s.homeRead pa n; (took x.1).respond p (.response tag (wd (leNat x.2)) (x.1.dirOf (pa / 128)).tag [] r false)
  | .stl => (took (s.homeWrite pa (leBytes n v.toNat))).ackWrite p pa n 0#64 r tag
  | .amo k => (took (s.homeWrite pa (leBytes n (amoFold k (8 * n) old [v])))).ackWrite p pa n (wd old) r tag
  | .amx k =>
    let s1 := match (amxOp k old v.toNat c.toNat).1 with
      | some x => s.homeWrite pa (leBytes 8 x)
      | none => s.recall (pa / 128) true
    (took s1).ackWrite p pa n (wd old) r tag
  | .fence => (took (s.recall (pa / 128) true)).ackWrite p pa n 0#64 r tag
  | .red k fmt => (took (s.homeWrite pa (leBytes n (redOp k fmt old v.toNat)))).ackWrite p pa n (wd old) r tag
  | .adds ps => (took (s.homeParts pa true ps)).ackWrite p pa n 0#64 r tag
/-- The bytes from the address of an access to the end of its last part. -/
def partsEnd (ps : List (Nat × List Byte)) : Nat := ps.foldl (fun n p => Nat.max n (p.1 + p.2.length)) 0
/-- The access of a request: its lines, its bytes, and whether it writes. -/
def fyAccess : FyPayload → Option (Nat × Nat × Bool)
  | .memRead pa n _ => some (pa, n, false)
  | .memWrite pa bs _ _ => some (pa, bs.length, true)
  | .memParts pa ps _ => some (pa, partsEnd ps, true)
  | .memSync pa n op _ _ _ _ => some (pa, n, match op with
    | .lda => false
    | .fence => false
    | _ => true)
  | _ => none
/-- A request that reads: it consumes the line (R369). -/
def fyConsumes : FyPayload → Bool
  | .memRead _ _ _ => true
  | .memSync _ _ op _ _ _ _ => op != .stl && op != .fence
  | _ => false
/-- A write that is performed and acknowledged only when other devices' copies are gone (R85, R106). -/
def fyStrict : FyPayload → Bool
  | .memSync _ _ op _ _ _ _ => (match op with
    | .stl => true
    | .amx _ => true
    | _ => false)
  | _ => false
/-- A FENCE of another device. -/
def fyFence : FyPayload → Bool
  | .memSync _ _ op _ _ _ _ => op == .fence
  | _ => false
/-- The tag of a request. -/
def fyReqTag : FyPayload → Nat
  | .memRead _ _ t => t
  | .memWrite _ _ _ t => t
  | .memParts _ _ t => t
  | .memSync _ _ _ _ _ _ t => t
  | _ => 0
/-- A request is performed: nothing keeps it back any more. -/
def State.serve (s : State) (p : FyPacket) : State :=
  match p.payload with
  | .memRead pa n tag =>
    let r := s.homeRead pa n
    let s1 := if n = 128 then r.1.modDir (pa / 128) (fun d =>
      { d with remote := if d.remote.contains p.sdev.toNat then d.remote else d.remote ++ [p.sdev.toNat] }) else r.1
    s1.respond p (.response tag 0#64 (s1.dirOf (pa / 128)).tag r.2 none false)
  | .memWrite pa bs _ tag => (s.homeWrite pa bs).ackWrite p pa bs.length 0#64 none tag
  | .memParts pa ps tag => (s.homeParts pa false ps).ackWrite p pa (partsEnd ps) 0#64 none tag
  | .memSync pa n op scope v c tag => s.remoteSync p pa n op scope v c tag
  | _ => s
/-- A request waits behind an earlier one of its device (R343). -/
def State.queuedBehind (s : State) (p : FyPacket) : Bool :=
  s.devPend.any (fun o => match o with
    | .packet q => q.sdev == p.sdev
    | _ => false)
/-- A request of another device: the hosts' halves first (R117); an STL, an AMX or a FENCE waits for the copies of other devices (R85); one that
consumes a line whose check fails has no effect (R369). One that has to wait is kept (log 9). -/
def State.takeRequest (s : State) (p : FyPacket) : State :=
  let later (s : State) : State := { s with devPend := s.devPend ++ [.packet p] }
  match fyAccess p.payload with
  | none => s
  | some (pa, n, w) =>
    if s.queuedBehind p then later s
    else if !s.hostReady pa n w then later (s.sendSnoops pa n w)
    else if fyStrict p.payload && s.heldElsewhere pa n then later ((touchedLines pa n).foldl (fun s l => s.invRemote l) s)
    else if fyFence p.payload && (touchedLines pa n).any s.remotePending then later s
    else
      match (if fyConsumes p.payload then (touchedLines pa n).find? (fun l => s.bad.contains l) else none) with
      | some l => s.respond p (.failed (fyReqTag p.payload) l)
      | none => s.serve p
/-- The invalidations that a device was promised to hear of are acknowledged (R85): it is told. -/
def State.settleOwed (s : State) : State :=
  let done := s.fyOwe.filter (fun x => !x.2.2.any s.remotePending)
  done.foldl (fun (s : State) x => s.fySend x.2.1 1 (.completed x.1)) { s with fyOwe := s.fyOwe.filter (fun x => x.2.2.any s.remotePending) }
/-- A contribution of another device to a reduction round that has not been applied (R115). -/
def State.remotePart (s : State) (inst grp : Nat) (part : RedPart) : State :=
  let open_ (y : RedRound) : Bool := !y.applied && y.inst == inst && y.grp == grp
  if s.reds.any open_ then { s with reds := s.reds.map (fun (y : RedRound) => if open_ y then { y with parts := y.parts ++ [part] } else y) }
  else { s with reds := s.reds ++ [{ inst := inst, grp := grp, parts := [part] }] }
/-- A packet of a write of another device (R343): the bytes of its packets are put together, and the last one is the request. -/
def State.takeWrite (s : State) (p : FyPacket) (pa : Nat) (bs : List Byte) (last : Bool) (tag : Nat) : State :=
  let k := (p.sdev.toNat, tag)
  let all := agetD s.fyFrag k [] ++ bs
  if last then ({ s with fyFrag := adel s.fyFrag k } : State).takeRequest { p with payload := .memWrite pa all true tag }
  else { s with fyFrag := aset s.fyFrag k all }
/-- A packet for this device (R343). -/
def State.acceptPacket (s : State) (p : FyPacket) : State :=
  match p.payload with
  | .memWrite pa bs last tag => s.takeWrite p pa bs last tag
  | .response tag value seqTag bs r more => s.takeResponse tag value seqTag bs r more
  | .failed tag line => s.takeFailure p.sdev.toNat tag line
  | .completed tag => { s with fyOpen := s.fyOpen.filter (fun x => x.1 != tag) }
  | .invalidate pa =>
    let line := (fabBase + p.sdev.toNat * 2 ^ 40 + pa) / 128
    ({ s with fyL2 := adel s.fyL2 line, bad := s.bad.filter (· != line) } : State).fySend p.sdev.toNat 3 (.invalidateAck pa)
  | .invalidateAck pa => (s.modDir (pa / 128) (fun d => { d with snoops := d.snoops.erase (1000 + p.sdev.toNat, 0) })).settleOwed
  | .collective job grp rank opc ctl off total vs =>
    (match (s.job job).curPhase with
     | some ph =>
       if rank < (agetD ((s.phase? ph).map (fun x => x.groups) |>.getD []) grp []).length then
         s.takePart job ph grp off { rank := rank, opc := opc, ctl := ctl, src := vs, total := total }
       else s.refuseRound ph grp
     | none => s)
  | .reduction inst grp node idx v => s.remotePart inst grp { node := node, idx := idx, cl := 320 + p.sdev.toNat, value := v }
  | .management => s
  | _ => s.takeRequest p

/-- A record that waits is tried again: behind the words and records before it, and only for what came before it (R341). -/
def State.retryRecord (s : State) (ring : Nat) (bs : List Byte) (tag : Nat) (lines : List Nat) : State :=
  if s.devPend.any DevOp.isOwn || s.recordWaits ring tag lines then
    let s1 := s.sendSnoops (lget s.rings ring {}).slot 64 true
    { s1 with devPend := s1.devPend ++ [.record ring bs tag lines] }
  else s.putRecord ring bs
/-- What waits for a host or another device is tried again, oldest first (R85, R117; log 9). -/
def State.retryDev (s : State) : State :=
  s.devPend.foldl (fun (s : State) o =>
    match o with
    | .word job va v launch kseq => s.putWord job va v { launch := launch, kseq := kseq }
    | .record ring bs tag lines => s.retryRecord ring bs tag lines
    | .area pa bs => s.writeAreaBytes pa bs
    | .packet p => s.takeRequest p) { s with devPend := [] }

/-- FYRON_PACKET_RECEIVE (R343): the packet `ev.pkt` at port `ev.port`. -/
def execFyronPacketReceive (s : State) : Host.Outcome State Fault Refusal :=
  nextS (
    let p := s.ev.pkt
    let s1 := s.count 20 (fyFlits p.len.toNat)
    if badPacket p || !s.fyParts.contains p.pkey then s1.dropPacket s.ev.port
    else if p.ddev = s.devNum then s1.acceptPacket p
    else if p.hops.toNat ≤ 1 then s1.dropPacket s.ev.port
    else { s1.count 19 (fyFlits p.len.toNat) with fyOut := s.fyOut ++ [(agetD s.fyRoute p.ddev.toNat 0, { p with hops := p.hops - 1#6 })] })

/-- LANE_FAILURE (R379): the port retrains on its spare lane, or goes down and its traffic takes port `ev.i`. -/
def execLaneFailure (s : State) : Host.Outcome State Fault Refusal :=
  nextS (
    let q := lget s.ports s.ev.port {}
    if 16 ≤ s.ev.port || q.state = 0 then s
    else if q.spareUsed then
      { s with ports := lmod s.ports s.ev.port (fun x => { x with state := 0, width := 0, rate := 0 })
               fyRoute := s.fyRoute.map (fun r => if r.2 = s.ev.port then (r.1, s.ev.i) else r) }
    else { s with ports := lmod s.ports s.ev.port (fun x => { x with state := 1, width := 0, rate := 0, spareUsed := true }) })
/-- FYRON_PORT_TRAINING (R379, R384): the port comes up with the lanes and the rate that the training gave, in state 3 on its spare lane; a
training that yields no lane fails (DESIGN CHOICE, log 74). -/
def execFyronPortTraining (s : State) : Host.Outcome State Fault Refusal :=
  nextS (
    if 16 ≤ s.ev.port || 1 < (lget s.ports s.ev.port {}).state then s
    else { s with ports := lmod s.ports s.ev.port (fun x =>
        if s.ev.width % 32 = 0 then { x with state := 4, width := 0, rate := 0 }
        else { x with state := if x.spareUsed then 3 else 2, width := s.ev.width % 32, rate := s.ev.rate % 256 }) })

end Sys2Proof.Machine
end

