-- ==== Sys2Proof/Machine/Fleet.lean ====
section
/-! DEFINITION. Module reset, firmware, power, corrected errors and spares (R3, R9, R318, R322, R379 to R386). -/

namespace Sys2Proof.Machine

/-! ### Reset and firmware -/

/-- An HBM stack whose channel waits for remap, and that has a spare channel (R379). -/
def Fleet.remaps (f : Fleet) (st : Nat) : Bool := f.chPend.contains st && lget f.chSpare st 0 != 0
/-- The spares after a module reset: a pending channel of a stack takes the stack's spare one (R379; log 31), and the identity words go on
counting (R386). -/
def Fleet.afterReset (f : Fleet) (hub : Nat) : Fleet :=
  { resets := f.resets + 1, upTime := f.upTime + hub
    chSpare := f.chSpare.mapIdx (fun st (n : Nat) => if f.remaps st then n - 1 else n), chPend := f.chPend.filter (fun st => !f.remaps st) }
/-- MODULE_RESET (R3): every field at its Reset value; the memories of the module and of the hosts keep their bytes (log 13), and pending HBM
channels are remapped (R379). -/
def execModuleReset (s : State) : Host.Outcome State Fault Refusal :=
  nextS { State.reset with
    mem := s.mem, wst := s.wst, lsm := s.lsm, hmem := s.hmem, bad := s.bad, hostRx := s.hostRx, msix := s.msix, freeCtr := s.freeCtr, agenda := s.agenda
    fleet := s.fleet.afterReset s.hub.toNat }
/-- FIRMWARE_READY (R322): Sedon has loaded. `ev.nums` gives the handler table bases by 4 kind + die (R260), the
number of partition keys, the keys, and the port of each destination (R343); `ev.bytes` the region assignment codes (R318); `ev.v` the device number; `ev.i` the version that both cores run. -/
def execFirmwareReady (s : State) : Host.Outcome State Fault Refusal :=
  nextS (
    if s.fw.mstate != 1 then s
    else { s with
      fw := { s.fw with mstate := 2, heartbeat := s.hub.toNat, verActive := wd (s.ev.i % 2 ^ 32), verStandby := wd (s.ev.i % 2 ^ 32) }
      handlerBase := (upFrom 0 16).zip ((s.ev.nums.take 16).map (fun a => a % 2 ^ 52 / 64 * 64))
      fyParts := ((s.ev.nums.drop 17).take (lget s.ev.nums 16 0)).map (BitVec.ofNat 16)
      fyRoute := (upFrom 0 1024).zip (s.ev.nums.drop (17 + lget s.ev.nums 16 0))
      regions := (upFrom 0 2304).zip (s.ev.bytes.map (fun b => b.toNat % 4))
      devNum := s.ev.v.setWidth 10 })

/-! ### Power (R385) -/

def State.modPow (s : State) (f : Power → Power) : State := { s with pow := f s.pow }
/-- Draw and inlet as the power manager measures them. -/
def State.measured (s : State) : State := s.modPow (fun p => ({ p with draw := s.ev.draw, inlet := s.ev.inlet } : Power).watch s.hub.toNat)
/-- A condition has held in every measurement for some hub clocks. -/
def State.heldFor (s : State) (since : Option Nat) (n : Nat) : Bool := since.any (fun t => decide (n ≤ s.hubSince t))
/-- The alarm begins. -/
def State.raiseAlarm (s : State) : State :=
  if s.pow.alarm then s else s.modPow (fun p => { p with alarm := true, alarms := p.alarms + 1, since := s.hub.toNat })
/-- POWER_ALARM: draw above LIMIT or inlet above 45 °C. -/
def execPowerAlarm (s : State) : Host.Outcome State Fault Refusal :=
  nextS (if decide (s.pow.limit < s.ev.draw) || decide (4500 < s.ev.inlet) then s.measured.raiseAlarm else s.measured)
/-- START_HOLD: draw still above LIMIT 2 ms after narrowing. -/
def execStartHold (s : State) : Host.Outcome State Fault Refusal :=
  nextS (if s.pow.alarm && decide (2000000 ≤ s.hubSince s.pow.since) && decide (s.pow.limit < s.ev.draw) then s.measured.modPow (fun p => { p with hold := true })
    else s.measured)
/-- OVERTEMP_PREEMPT: inlet above 55 °C; every running unit is pre-empted and MSTAT.STATE is 3. -/
def execOvertempPreempt (s : State) : Host.Outcome State Fault Refusal :=
  nextS (
    if s.ev.inlet ≤ 5500 || s.pow.crit then s.measured
    else
      let s1 := (s.measured.raiseAlarm.modPow (fun p => { p with crit := true })).modFw (fun f => { f with mstate := 3 })
      ((s1.units.filter (fun p => p.2.isRunning)).map Prod.fst).foldl (fun s u => s.requestPreempt u true) s1)
/-- POWER_ALARM_END: draw at or below LIMIT − 120 W and inlet at or below 43 °C, both for 10 ms. -/
def execPowerAlarmEnd (s : State) : Host.Outcome State Fault Refusal :=
  nextS (
    let s1 := s.measured
    if s1.pow.alarm && s1.heldFor s1.pow.calm 10000000 && !s1.pow.crit then s1.modPow (fun p => { p with alarm := false }) else s1)
/-- START_HOLD_END: draw at or below LIMIT. -/
def execStartHoldEnd (s : State) : Host.Outcome State Fault Refusal :=
  nextS (if s.ev.draw ≤ s.pow.limit then s.measured.modPow (fun p => { p with hold := false }) else s.measured)
/-- OVERTEMP_END: inlet at or below 43 °C for 1 s. -/
def execOvertempEnd (s : State) : Host.Outcome State Fault Refusal :=
  nextS (
    let s1 := s.measured
    if s1.pow.crit && s1.heldFor s1.pow.cool 1000000000 then (s1.modPow (fun p => { p with crit := false })).modFw (fun f => { f with mstate := 2 })
    else s1)

/-! ### Corrected errors and spares (R379 to R382) -/

/-- A record of cause 0x164 with a physical address. -/
def State.spareRecord (s : State) (addr : Nat) : State := s.writeRecord 32 { cause := 0x164, src := 2, addr := addr }
def State.modFleet (s : State) (f : Fleet → Fleet) : State := { s with fleet := f s.fleet }
/-- A failed PE is marked, and a unit whose node there has no PE to migrate to ends (R379). -/
def State.failPe (s : State) (cl x y : Nat) : State :=
  let s1 := s.modFleet (fun f => if f.peFailed.contains (cl, x, y) then f else { f with peFail := f.peFail + 1, peFailed := f.peFailed ++ [(cl, x, y)] })
  (s.units.map Prod.fst).foldl State.endStranded s1
/-- The corrected errors that an element has logged within 2^40 hub clocks (R381). -/
def State.recentErrors (s : State) (e : Element) : List Nat := (agetD s.fleet.corrected e []).filter (fun t => decide (s.hubSince t < 2 ^ 40))
/-- An element logs a corrected error: telemetry word 15 counts those of HBM, word 17 those on the dies (R381, R386). A channel logs none of its
own. -/
def State.logCorrected (s : State) (e : Element) : State :=
  let log (s : State) : State := s.modFleet (fun f => { f with corrected := aset f.corrected e (s.recentErrors e ++ [s.hub.toNat]) })
  match e with
  | .hbmRow _ => log (s.count 15 1)
  | .hbmChannel _ _ => s
  | _ => log (s.count 17 1)
/-- The repair of an element that has crossed its threshold, with its record (R379, R381); of a channel whose row spares are exhausted, the
records of its pages (R382). -/
def State.repair (s : State) : Element → State
  | .hbmRow pa => (s.spareRecord pa).modFleet (fun f => { f with rowRep := f.rowRep + 1 })
  | .hbmChannel st pages =>
    pages.foldl (fun s p => s.spareRecord p) (s.modFleet (fun f => { f with chPend := if f.chPend.contains st then f.chPend else f.chPend ++ [st] }))
  | .l2Bank _ => s.spareRecord 0
  | .wsGroup _ _ => s.spareRecord 0
  | .lsBank cl _ => (s.spareRecord 0).modCluster cl (fun c => { c with pending := true })
  | .cimMacro cl _ => (s.spareRecord 0).modCluster cl (fun c => { c with pending := true })
  | .peConfig cl x y => (s.spareRecord 0).failPe cl x y
/-- The element of an event is an HBM channel, which crosses no threshold of its own (R379). -/
def isChannel : Element → Bool
  | .hbmChannel _ _ => true
  | _ => false
/-- CORRECTED_ERROR_THRESHOLD (R379, R381, R382): an element that has logged 8 corrected errors within 2^40 hub clocks is repaired, and its
count starts again. -/
def execCorrectedErrorThreshold (s : State) : Host.Outcome State Fault Refusal :=
  nextS (
    let e := s.ev.elem
    if isChannel e then s.repair e
    else if (s.recentErrors e).length < 8 then s
    else (s.modFleet (fun f => { f with corrected := adel f.corrected e })).repair e)
/-- An element of a cluster that a spare cluster replaces. -/
def elemInCluster (cl : Nat) : Element → Bool
  | .lsBank c _ => c == cl
  | .cimMacro c _ => c == cl
  | .peConfig c _ _ => c == cl
  | _ => false
/-- CLUSTER_REMAP (R9, R131, R380): a pending cluster that holds no unit takes a spare, or is marked unavailable. -/
def execClusterRemap (s : State) : Host.Outcome State Fault Refusal :=
  nextS (
    let cl := s.ev.cl
    let die := dieOf cl
    let used (c : Nat) : Bool := s.units.any (fun p => p.2.inRegion && p.2.covers c)
    let idle := !s.units.any (fun p => p.2.inRegion && p.2.die == die)
    if !(s.cluster cl).pending || used cl || !(idle || (s.die die).remap) then s
    else if lget s.fleet.clSpare die 0 = 0 then s.modCluster cl (fun c => { c with pending := false, unavail := true })
    else
      ((s.flushL1 cl).modCluster cl (fun _ => {})).modFleet (fun f =>
        { f with clSpare := lmod f.clSpare die (· - 1), retired := lmod f.retired die (· + 1), peFailed := f.peFailed.filter (fun p => p.1 != cl)
                 corrected := f.corrected.filter (fun p => !elemInCluster cl p.1) }))

end Sys2Proof.Machine
end

