-- ==== Sys2Proof/Machine/Turn.lean ====
section
/-! DEFINITION. The turn of a PE in an arithmetic clock (R187, R302) with the firings that take no token (R175, R180), and the moves
between a PE's queues and the matching store, which ask what the PE could fire (R26 to R28). -/

namespace Sys2Proof.Machine

/-! ### One arithmetic clock of a PE (R302) -/

/-- The unit and the key of a PE's context `c`, if it is ready. -/
def State.readyIn (s : State) (cl x y c : Nat) : Option (Nat × Nat) :=
  match s.unitAt cl c with
  | none => none
  | some uid =>
    let key := (s.unit uid).keyOf ⟨cl, x, y, c⟩
    if s.peReady uid key then some (uid, key) else none
/-- The ready context of the unit that started earliest, the lower context on a tie. -/
def State.earliestReady (s : State) (cl x y : Nat) : List Nat → Option Nat
  | [] => none
  | c :: r =>
    match s.readyIn cl x y c, State.earliestReady s cl x y r with
    | none, b => b
    | some _, none => some c
    | some (uid, _), some b =>
      match s.readyIn cl x y b with
      | some (v, _) => if (s.unit v).started < (s.unit uid).started then some b else some c
      | none => some c
/-- The context that fires in this clock: that of the pointer if it is ready. -/
def State.choosePe (s : State) (cl x y : Nat) : Option Nat :=
  let p := (s.die (dieOf cl)).pePtr
  if (s.readyIn cl x y p).isSome then some p else s.earliestReady cl x y [0, 1, 2, 3]
/-- The place of a PE in the order (cluster, y, x) of R187. -/
def clockKey (cl x y : Nat) : Nat := cl * 256 + y * 16 + x
/-- What a clock has used leaves PE(x,y) its turn: no PE from it on in the order (cluster, y, x) has had one (R187, R302). -/
def ClockUse.before (cl x y : Nat) : ClockUse → Bool
  | .pe c a b => decide (clockKey c a b < clockKey cl x y)
  | _ => true
/-- A PE has its turn: once in a clock, in the order (cluster, y, x) of its die (R187, R302; log 2). -/
def State.peTurn (s : State) (cl x y : Nat) : Bool := (s.die (dieOf cl)).used.all (ClockUse.before cl x y)
/-- The turn of a PE is taken. -/
def State.takeTurn (s : State) (cl x y : Nat) : State := s.useNow cl (.pe cl x y)
/-- The context that an event names is the one that fires in this clock of its PE. -/
def State.turnAt (s : State) (st : Site) : Bool := s.peTurn st.cl st.x st.y && s.choosePe st.cl st.x st.y == some st.ctx

/-! ### Firings that take no token -/

/-- A source-form CNTR emits (R180): in the turn of its PE. -/
def execCntrSourceEmit (s : State) : Host.Outcome State Fault Refusal :=
  let st := s.ev.site
  match s.evPe st with
  | some (uid, key) =>
    let p := (s.unit uid).pe key
    if s.turnAt st && p.opc == 0x36#7 && p.word.sa == 6#3 then execCntrSource p.word { s.takeTurn st.cl st.x st.y with focus := st } else nextS s
  | none => nextS s
/-- A free-form CONST fires (R175): in the turn of its PE. -/
def execConstFreeFire (s : State) : Host.Outcome State Fault Refusal :=
  let st := s.ev.site
  match s.evPe st with
  | some (uid, key) =>
    let p := (s.unit uid).pe key
    if s.turnAt st && p.opc == 0x24#7 && p.word.sb == 6#3 then execConstFree p.word { s.takeTurn st.cl st.x st.y with focus := st } else nextS s
  | none => nextS s

/-! ### Queues and the matching store -/

/-- A unit as if token `t` were the only one of queue `q` of PE `key`, what has spilled were in the matching store, and no debugger had halted
the PE (R367). -/
def UnitSt.asHead (u : UnitSt) (key q : Nat) (t : Token) : UnitSt :=
  let mine (e : MsEntry) : Bool := e.rank * 256 + e.y * 16 + e.x == key && e.q == q
  { u.modPe key (fun p => { p.setQueue q [t] with halted := false, stub := none }) with
    ms := (u.ms ++ u.ovf).filter (fun e => !mine e), ovf := [] }
/-- Whether token `t` of queue `q` can take part in a firing of PE `key` with what the unit holds (R23, R26). -/
def State.headFires (s : State) (uid key q : Nat) (t : Token) : Bool :=
  (s.setUnit uid ((s.unit uid).asHead key q t)).peReady uid key

/-- A head token that cannot fire, with another behind it, moves to the matching store (R26); in a stopped unit, too, while a migration has
yet to complete (R48). -/
def execHeadTokenToMatchingStore (s : State) : Host.Outcome State Fault Refusal :=
  nextS (match s.unitAt s.ev.site.cl s.ev.site.ctx with
    | none => s
    | some uid =>
      let u := s.unit uid
      let key := u.keyOf s.ev.site
      match (u.pe key).queue s.ev.q with
      | t :: r =>
        if r.isEmpty || !(u.fires || (u.completes && u.pes.any (fun p => p.2.stub.isSome))) || s.headFires uid key s.ev.q t then s
        else
          let e : MsEntry := { rank := key / 256, x := key % 16, y := key / 16 % 16, q := s.ev.q, tok := t }
          let x := s.makeWay uid e
          if x.2 then (x.1.putMs uid e).modUnit uid (fun u => u.modPe key (fun p => p.setQueue s.ev.q r)) else x.1
      | [] => s)

/-- An access to a unit's overflow table: what it read, or the state in which the unit has stopped or waits for a host (R28). -/
def State.tableAccess (s : State) (uid : Nat) (e : MsEntry) (va n : Nat) (bs : Option (List Byte)) : State × Option (List Byte) :=
  match s.ovfAccess uid va n bs with
  | (s1, .ok b) => (s1, some b)
  | (s1, .error (.fault f)) => (s1.stopUnit uid (peKey e.rank e.x e.y) e.tok f.cause va f.d0 f.d1, none)
  | (s1, .error _) => (s1, none)
/-- Entry `i` leaves the overflow table (R28): the last entry takes its place and the count goes down. Header and entries are read before
anything is written; any of the accesses may stop the unit. -/
def State.leaveTable (s : State) (uid i : Nat) (e : MsEntry) : State × Bool :=
  let base := (s.unit uid).ovft.toNat % 2 ^ 56
  let slot (k : Nat) : Nat := base + 16 + 16 * k
  let last := (s.unit uid).ovf.length - 1
  match s.tableAccess uid e base 16 none with
  | (s1, none) => (s1, false)
  | (s1, some hb) =>
    match s1.tableAccess uid e (slot i) 16 none with
    | (s2, none) => (s2, false)
    | (s2, some _) =>
      match s2.tableAccess uid e (slot last) 16 none with
      | (s3, none) => (s3, false)
      | (s3, some lb) =>
        match s3.tableAccess uid e (slot i) 16 (some lb) with
        | (s4, none) => (s4, false)
        | (s4, some _) =>
          match s4.tableAccess uid e base 8 (some (leBytes 8 (leNat (hb.take 8) - 1))) with
          | (s5, none) => (s5, false)
          | (s5, some _) =>
            (s5.modUnit uid (fun u => { u with ovf := match u.ovf[last]? with
              | some x => (lput default u.ovf i x).take last
              | none => u.ovf }), true)

/-- A spilled entry that a firing needs returns to the matching store, once a way is free (R27, R28). A spill that this causes may stop
its owner (R29). -/
def execMatchingStoreRefill (s : State) : Host.Outcome State Fault Refusal :=
  nextS (
    let uid := s.ev.u
    let u := s.unit uid
    match u.ovf[s.ev.i]? with
    | none => s
    | some e =>
      if !u.fires || !s.headFires uid (peKey e.rank e.x e.y) e.q e.tok then s
      else
        match s.makeWay uid e with
        | (s1, false) => s1
        | (s1, true) =>
          match s1.leaveTable uid s.ev.i e with
          | (s2, false) => s2
          | (s2, true) => (s2.putMs uid e).modCluster (u.lead + e.rank) (fun c =>
              { c with trace := aset c.trace (u.ctx, 2) (agetD c.trace (u.ctx, 2) 0 + 1) }))

end Sys2Proof.Machine
end

