-- ==== Sys2Proof/Machine/Dispatch.lean ====
section
/-! DEFINITION. One arm per constructor of `Instr`: a direct call of its meaning. -/

namespace Sys2Proof.Machine

/-- What an instruction does. -/
def exec (i : Instr) (s : State) : Host.Outcome State Fault Refusal :=
  match i with
  | .ill w => Sys2Proof.Machine.execIll w s
  | .add w => Sys2Proof.Machine.execAdd w s
  | .sub w => Sys2Proof.Machine.execSub w s
  | .neg w => Sys2Proof.Machine.execNeg w s
  | .mul w => Sys2Proof.Machine.execMul w s
  | .mulh w => Sys2Proof.Machine.execMulh w s
  | .madd w => Sys2Proof.Machine.execMadd w s
  | .div w => Sys2Proof.Machine.execDiv w s
  | .rem w => Sys2Proof.Machine.execRem w s
  | .min w => Sys2Proof.Machine.execMin w s
  | .max w => Sys2Proof.Machine.execMax w s
  | .abs w => Sys2Proof.Machine.execAbs w s
  | .absd w => Sys2Proof.Machine.execAbsd w s
  | .adds w => Sys2Proof.Machine.execAdds w s
  | .subs w => Sys2Proof.Machine.execSubs w s
  | .cmp w => Sys2Proof.Machine.execCmp w s
  | .and w => Sys2Proof.Machine.execAnd w s
  | .or w => Sys2Proof.Machine.execOr w s
  | .xor w => Sys2Proof.Machine.execXor w s
  | .andn w => Sys2Proof.Machine.execAndn w s
  | .not w => Sys2Proof.Machine.execNot w s
  | .shl w => Sys2Proof.Machine.execShl w s
  | .shr w => Sys2Proof.Machine.execShr w s
  | .sra w => Sys2Proof.Machine.execSra w s
  | .rot w => Sys2Proof.Machine.execRot w s
  | .clz w => Sys2Proof.Machine.execClz w s
  | .ctz w => Sys2Proof.Machine.execCtz w s
  | .popc w => Sys2Proof.Machine.execPopc w s
  | .bext w => Sys2Proof.Machine.execBext w s
  | .bins w => Sys2Proof.Machine.execBins w s
  | .sext w => Sys2Proof.Machine.execSext w s
  | .zext w => Sys2Proof.Machine.execZext w s
  | .lea w => Sys2Proof.Machine.execLea w s
  | .bchk w => Sys2Proof.Machine.execBchk w s
  | .sel w => Sys2Proof.Machine.execSel w s
  | .move w => Sys2Proof.Machine.execMove w s
  | .constFree w => Sys2Proof.Machine.execConstFree w s
  | .constTriggered w => Sys2Proof.Machine.execConstTriggered w s
  | .invOp w => Sys2Proof.Machine.execInvOp w s
  | .steer w => Sys2Proof.Machine.execSteer w s
  | .merge w => Sys2Proof.Machine.execMerge w s
  | .wadv w => Sys2Proof.Machine.execWadv w s
  | .tagnew w => Sys2Proof.Machine.execTagnew w s
  | .tagxl w => Sys2Proof.Machine.execTagxl w s
  | .tagend w => Sys2Proof.Machine.execTagend w s
  | .cntrSource w => Sys2Proof.Machine.execCntrSource w s
  | .cntrTriggered w => Sys2Proof.Machine.execCntrTriggered w s
  | .color w => Sys2Proof.Machine.execColor w s
  | .commit w => Sys2Proof.Machine.execCommit w s
  | .kill w => Sys2Proof.Machine.execKill w s
  | .gate w => Sys2Proof.Machine.execGate w s
  | .sink w => Sys2Proof.Machine.execSink w s
  | .scaletok w => Sys2Proof.Machine.execScaletok w s
  | .waitf w => Sys2Proof.Machine.execWaitf w s
  | .sete w => Sys2Proof.Machine.execSete w s
  | .fadd w => Sys2Proof.Machine.execFadd w s
  | .fsub w => Sys2Proof.Machine.execFsub w s
  | .fmul w => Sys2Proof.Machine.execFmul w s
  | .fma w => Sys2Proof.Machine.execFma w s
  | .fms w => Sys2Proof.Machine.execFms w s
  | .fnma w => Sys2Proof.Machine.execFnma w s
  | .fmin w => Sys2Proof.Machine.execFmin w s
  | .fmax w => Sys2Proof.Machine.execFmax w s
  | .fabs w => Sys2Proof.Machine.execFabs w s
  | .fneg w => Sys2Proof.Machine.execFneg w s
  | .fcmp w => Sys2Proof.Machine.execFcmp w s
  | .fdiv w => Sys2Proof.Machine.execFdiv w s
  | .fsqrt w => Sys2Proof.Machine.execFsqrt w s
  | .frcpe w => Sys2Proof.Machine.execFrcpe w s
  | .frsqe w => Sys2Proof.Machine.execFrsqe w s
  | .fclass w => Sys2Proof.Machine.execFclass w s
  | .fcvt w => Sys2Proof.Machine.execFcvt w s
  | .fcvtTile w => Sys2Proof.Machine.execFcvtTile w s
  | .ftoi w => Sys2Proof.Machine.execFtoi w s
  | .itof w => Sys2Proof.Machine.execItof w s
  | .frnd w => Sys2Proof.Machine.execFrnd w s
  | .cbd w => Sys2Proof.Machine.execCbd w s
  | .cbe w => Sys2Proof.Machine.execCbe w s
  | .lsum w => Sys2Proof.Machine.execLsum w s
  | .ldot w => Sys2Proof.Machine.execLdot w s
  | .lbc w => Sys2Proof.Machine.execLbc w s
  | .lshuf w => Sys2Proof.Machine.execLshuf w s
  | .lpack w => Sys2Proof.Machine.execLpack w s
  | .lunpk w => Sys2Proof.Machine.execLunpk w s
  | .lext w => Sys2Proof.Machine.execLext w s
  | .lins w => Sys2Proof.Machine.execLins w s
  | .lred w => Sys2Proof.Machine.execLred w s
  | .fscale w => Sys2Proof.Machine.execFscale w s
  | .ld w => Sys2Proof.Machine.execLd w s
  | .st w => Sys2Proof.Machine.execSt w s
  | .ldlk w => Sys2Proof.Machine.execLdlk w s
  | .pref w => Sys2Proof.Machine.execPref w s
  | .span w => Sys2Proof.Machine.execSpan w s
  | .ldsp w => Sys2Proof.Machine.execLdsp w s
  | .stsp w => Sys2Proof.Machine.execStsp w s
  | .ldws w => Sys2Proof.Machine.execLdws w s
  | .amo w => Sys2Proof.Machine.execAmo w s
  | .amx w => Sys2Proof.Machine.execAmx w s
  | .red w => Sys2Proof.Machine.execRed w s
  | .fence w => Sys2Proof.Machine.execFence w s
  | .flushr w => Sys2Proof.Machine.execFlushr w s
  | .memnop w => Sys2Proof.Machine.execMemnop w s
  | .lda w => Sys2Proof.Machine.execLda w s
  | .stl w => Sys2Proof.Machine.execStl w s
  | .ldxs w => Sys2Proof.Machine.execLdxs w s
  | .stxs w => Sys2Proof.Machine.execStxs w s
  | .mmul w => Sys2Proof.Machine.execMmul w s
  | .mdrn w => Sys2Proof.Machine.execMdrn w s
  | .mdrnZero w => Sys2Proof.Machine.execMdrnZero w s
  | .mdrnMem w => Sys2Proof.Machine.execMdrnMem w s
  | .mbld w => Sys2Proof.Machine.execMbld w s
  | .send w => Sys2Proof.Machine.execSend w s
  | .ttq w => Sys2Proof.Machine.execTtq w s
  | .hoff w => Sys2Proof.Machine.execHoff w s
  | .hwait w => Sys2Proof.Machine.execHwait w s
  | .trap w => Sys2Proof.Machine.execTrap w s
  | .brk w => Sys2Proof.Machine.execBrk w s
  | .rdctr w => Sys2Proof.Machine.execRdctr w s
  | .rdst w => Sys2Proof.Machine.execRdst w s
  | .wrst w => Sys2Proof.Machine.execWrst w s
  | .unassignedOpc opc w => Sys2Proof.Machine.execUnassignedOpc opc w s
  | .seqAdd c => Sys2Proof.Machine.execSeqAdd c s
  | .seqSub c => Sys2Proof.Machine.execSeqSub c s
  | .seqAnd c => Sys2Proof.Machine.execSeqAnd c s
  | .seqOr c => Sys2Proof.Machine.execSeqOr c s
  | .seqXor c => Sys2Proof.Machine.execSeqXor c s
  | .seqShl c => Sys2Proof.Machine.execSeqShl c s
  | .seqShr c => Sys2Proof.Machine.execSeqShr c s
  | .seqSra c => Sys2Proof.Machine.execSeqSra c s
  | .seqMul c => Sys2Proof.Machine.execSeqMul c s
  | .seqMulh c => Sys2Proof.Machine.execSeqMulh c s
  | .seqDiv c => Sys2Proof.Machine.execSeqDiv c s
  | .seqRem c => Sys2Proof.Machine.execSeqRem c s
  | .slt c => Sys2Proof.Machine.execSlt c s
  | .sltu c => Sys2Proof.Machine.execSltu c s
  | .seqMin c => Sys2Proof.Machine.execSeqMin c s
  | .seqMax c => Sys2Proof.Machine.execSeqMax c s
  | .addi c => Sys2Proof.Machine.execAddi c s
  | .andi c => Sys2Proof.Machine.execAndi c s
  | .ori c => Sys2Proof.Machine.execOri c s
  | .xori c => Sys2Proof.Machine.execXori c s
  | .shli c => Sys2Proof.Machine.execShli c s
  | .shri c => Sys2Proof.Machine.execShri c s
  | .srai c => Sys2Proof.Machine.execSrai c s
  | .ldhi c => Sys2Proof.Machine.execLdhi c s
  | .slti c => Sys2Proof.Machine.execSlti c s
  | .ldg c => Sys2Proof.Machine.execLdg c s
  | .stg c => Sys2Proof.Machine.execStg c s
  | .amog c => Sys2Proof.Machine.execAmog c s
  | .beq c => Sys2Proof.Machine.execBeq c s
  | .bne c => Sys2Proof.Machine.execBne c s
  | .blt c => Sys2Proof.Machine.execBlt c s
  | .bge c => Sys2Proof.Machine.execBge c s
  | .bltu c => Sys2Proof.Machine.execBltu c s
  | .bgeu c => Sys2Proof.Machine.execBgeu c s
  | .jal c => Sys2Proof.Machine.execJal c s
  | .jr c => Sys2Proof.Machine.execJr c s
  | .cfgl c => Sys2Proof.Machine.execCfgl c s
  | .cfgs c => Sys2Proof.Machine.execCfgs c s
  | .qwait c => Sys2Proof.Machine.execQwait c s
  | .gateo c => Sys2Proof.Machine.execGateo c s
  | .gatec c => Sys2Proof.Machine.execGatec c s
  | .iset c => Sys2Proof.Machine.execIset c s
  | .inj c => Sys2Proof.Machine.execInj c s
  | .extr c => Sys2Proof.Machine.execExtr c s
  | .bankr c => Sys2Proof.Machine.execBankr c s
  | .resz c => Sys2Proof.Machine.execResz c s
  | .hoffs c => Sys2Proof.Machine.execHoffs c s
  | .hwaits c => Sys2Proof.Machine.execHwaits c s
  | .post c => Sys2Proof.Machine.execPost c s
  | .cancl c => Sys2Proof.Machine.execCancl c s
  | .yield c => Sys2Proof.Machine.execYield c s
  | .wfe c => Sys2Proof.Machine.execWfe c s
  | .trapc c => Sys2Proof.Machine.execTrapc c s
  | .eret c => Sys2Proof.Machine.execEret c s
  | .mfs c => Sys2Proof.Machine.execMfs c s
  | .mts c => Sys2Proof.Machine.execMts c s
  | .fenceg c => Sys2Proof.Machine.execFenceg c s
  | .sendc c => Sys2Proof.Machine.execSendc c s
  | .ttqc c => Sys2Proof.Machine.execTtqc c s
  | .gnudge c => Sys2Proof.Machine.execGnudge c s
  | .done c => Sys2Proof.Machine.execDone c s
  | .nopc c => Sys2Proof.Machine.execNopc c s
  | .reservedControlOpcode op c => Sys2Proof.Machine.execReservedControlOpcode op c s
  | .cmdMbld m => Sys2Proof.Machine.execCmdMbld m s
  | .cmdMmul m => Sys2Proof.Machine.execCmdMmul m s
  | .macc m => Sys2Proof.Machine.execMacc m s
  | .cmdMdrn m => Sys2Proof.Machine.execCmdMdrn m s
  | .mqnt m => Sys2Proof.Machine.execMqnt m s
  | .mzer m => Sys2Proof.Machine.execMzer m s
  | .mcbt m => Sys2Proof.Machine.execMcbt m s
  | .mgrp m => Sys2Proof.Machine.execMgrp m s
  | .cpy m => Sys2Proof.Machine.execCpy m s
  | .cpy2d m => Sys2Proof.Machine.execCpy2d m s
  | .fill m => Sys2Proof.Machine.execFill m s
  | .wsfl m => Sys2Proof.Machine.execWsfl m s
  | .cpyxs m => Sys2Proof.Machine.execCpyxs m s
  | .gth m => Sys2Proof.Machine.execGth m s
  | .sct m => Sys2Proof.Machine.execSct m s
  | .scta m => Sys2Proof.Machine.execScta m s
  | .gthxs m => Sys2Proof.Machine.execGthxs m s
  | .cred m => Sys2Proof.Machine.execCred m s
  | .cagt m => Sys2Proof.Machine.execCagt m s
  | .crsc m => Sys2Proof.Machine.execCrsc m s
  | .cbcs m => Sys2Proof.Machine.execCbcs m s
  | .cbar m => Sys2Proof.Machine.execCbar m s
  | .moduleReset => Sys2Proof.Machine.execModuleReset s
  | .hostLinkTraining => Sys2Proof.Machine.execHostLinkTraining s
  | .tokenArrival => Sys2Proof.Machine.execTokenArrival s
  | .headTokenToMatchingStore => Sys2Proof.Machine.execHeadTokenToMatchingStore s
  | .matchingStoreRefill => Sys2Proof.Machine.execMatchingStoreRefill s
  | .waveHoldRelease => Sys2Proof.Machine.execWaveHoldRelease s
  | .tagnewWaitEnd => Sys2Proof.Machine.execTagnewWaitEnd s
  | .colourRelease => Sys2Proof.Machine.execColourRelease s
  | .commitTokenPass => Sys2Proof.Machine.execCommitTokenPass s
  | .quiescenceReport => Sys2Proof.Machine.execQuiescenceReport s
  | .storeBufferIssue => Sys2Proof.Machine.execStoreBufferIssue s
  | .gets => Sys2Proof.Machine.execGets s
  | .getm => Sys2Proof.Machine.execGetm s
  | .upg => Sys2Proof.Machine.execUpg s
  | .putm => Sys2Proof.Machine.execPutm s
  | .pute => Sys2Proof.Machine.execPute s
  | .puts => Sys2Proof.Machine.execPuts s
  | .inv => Sys2Proof.Machine.execInv s
  | .fwds => Sys2Proof.Machine.execFwds s
  | .fwdm => Sys2Proof.Machine.execFwdm s
  | .data => Sys2Proof.Machine.execData s
  | .ack => Sys2Proof.Machine.execAck s
  | .wack => Sys2Proof.Machine.execWack s
  | .homeStore => Sys2Proof.Machine.execHomeStore s
  | .syncAccessAtHome => Sys2Proof.Machine.execSyncAccessAtHome s
  | .amoMerge => Sys2Proof.Machine.execAmoMerge s
  | .redRoundComplete => Sys2Proof.Machine.execRedRoundComplete s
  | .collectiveRoundComplete => Sys2Proof.Machine.execCollectiveRoundComplete s
  | .hostReadShared => Sys2Proof.Machine.execHostReadShared s
  | .hostReadOwnership => Sys2Proof.Machine.execHostReadOwnership s
  | .hostWriteback => Sys2Proof.Machine.execHostWriteback s
  | .hostEvictClean => Sys2Proof.Machine.execHostEvictClean s
  | .biconflict => Sys2Proof.Machine.execBiconflict s
  | .fyronPacketReceive => Sys2Proof.Machine.execFyronPacketReceive s
  | .laneFailure => Sys2Proof.Machine.execLaneFailure s
  | .refreshWindowEnd => Sys2Proof.Machine.execRefreshWindowEnd s
  | .handoffPush => Sys2Proof.Machine.execHandoffPush s
  | .matrixIssue => Sys2Proof.Machine.execMatrixIssue s
  | .matrixRetire => Sys2Proof.Machine.execMatrixRetire s
  | .engineReply => Sys2Proof.Machine.execEngineReply s
  | .handlerBusyTimeout => Sys2Proof.Machine.execHandlerBusyTimeout s
  | .tileTaskStart => Sys2Proof.Machine.execTileTaskStart s
  | .tileTaskBlockDone => Sys2Proof.Machine.execTileTaskBlockDone s
  | .unitStart => Sys2Proof.Machine.execUnitStart s
  | .unitPlacement => Sys2Proof.Machine.execUnitPlacement s
  | .quantumExpiry => Sys2Proof.Machine.execQuantumExpiry s
  | .preemptRequest => Sys2Proof.Machine.execPreemptRequest s
  | .drainComplete => Sys2Proof.Machine.execDrainComplete s
  | .drainOverrun => Sys2Proof.Machine.execDrainOverrun s
  | .unitRestore => Sys2Proof.Machine.execUnitRestore s
  | .deadlineMissed => Sys2Proof.Machine.execDeadlineMissed s
  | .watchdogExpiry => Sys2Proof.Machine.execWatchdogExpiry s
  | .migration => Sys2Proof.Machine.execMigration s
  | .nodeEvaluate => Sys2Proof.Machine.execNodeEvaluate s
  | .launchPoolAdmit => Sys2Proof.Machine.execLaunchPoolAdmit s
  | .phaseCurrent => Sys2Proof.Machine.execPhaseCurrent s
  | .phaseRun => Sys2Proof.Machine.execPhaseRun s
  | .phaseEnd => Sys2Proof.Machine.execPhaseEnd s
  | .kickRegisterWrite => Sys2Proof.Machine.execKickRegisterWrite s
  | .kickStatusClear => Sys2Proof.Machine.execKickStatusClear s
  | .kick => Sys2Proof.Machine.execKick s
  | .kickPatchApply => Sys2Proof.Machine.execKickPatchApply s
  | .waitEntry => Sys2Proof.Machine.execWaitEntry s
  | .waitReread => Sys2Proof.Machine.execWaitReread s
  | .cancelEntry => Sys2Proof.Machine.execCancelEntry s
  | .registerEntry => Sys2Proof.Machine.execRegisterEntry s
  | .unregisterEntry => Sys2Proof.Machine.execUnregisterEntry s
  | .phaseEntry => Sys2Proof.Machine.execPhaseEntry s
  | .queueBind => Sys2Proof.Machine.execQueueBind s
  | .garnetHeartbeat => Sys2Proof.Machine.execGarnetHeartbeat s
  | .commitPointRecord => Sys2Proof.Machine.execCommitPointRecord s
  | .spinelTakeover => Sys2Proof.Machine.execSpinelTakeover s
  | .handoverGo => Sys2Proof.Machine.execHandoverGo s
  | .handoverCommit => Sys2Proof.Machine.execHandoverCommit s
  | .handoverAbort => Sys2Proof.Machine.execHandoverAbort s
  | .standbyReload => Sys2Proof.Machine.execStandbyReload s
  | .ucmdResume => Sys2Proof.Machine.execUcmdResume s
  | .ucmdEndFaulted => Sys2Proof.Machine.execUcmdEndFaulted s
  | .ucmdCancelLaunch => Sys2Proof.Machine.execUcmdCancelLaunch s
  | .ucmdMoveOvft => Sys2Proof.Machine.execUcmdMoveOvft s
  | .tlbShootdown => Sys2Proof.Machine.execTlbShootdown s
  | .tlbShootdownDone => Sys2Proof.Machine.execTlbShootdownDone s
  | .debugHalt => Sys2Proof.Machine.execDebugHalt s
  | .debugResume => Sys2Proof.Machine.execDebugResume s
  | .debugStep => Sys2Proof.Machine.execDebugStep s
  | .poolcfgWrite => Sys2Proof.Machine.execPoolcfgWrite s
  | .pwrctlWrite => Sys2Proof.Machine.execPwrctlWrite s
  | .attestationQuote => Sys2Proof.Machine.execAttestationQuote s
  | .attestationKeys => Sys2Proof.Machine.execAttestationKeys s
  | .attestationResult => Sys2Proof.Machine.execAttestationResult s
  | .registerWrite => Sys2Proof.Machine.execRegisterWrite s
  | .powerAlarm => Sys2Proof.Machine.execPowerAlarm s
  | .startHold => Sys2Proof.Machine.execStartHold s
  | .overtempPreempt => Sys2Proof.Machine.execOvertempPreempt s
  | .powerAlarmEnd => Sys2Proof.Machine.execPowerAlarmEnd s
  | .startHoldEnd => Sys2Proof.Machine.execStartHoldEnd s
  | .overtempEnd => Sys2Proof.Machine.execOvertempEnd s
  | .correctedErrorThreshold => Sys2Proof.Machine.execCorrectedErrorThreshold s
  | .clusterRemap => Sys2Proof.Machine.execClusterRemap s
  | .unitStateError => Sys2Proof.Machine.execUnitStateError s
  | .invRepeat => Sys2Proof.Machine.execInvRepeat s
  | .cntrSourceEmit => Sys2Proof.Machine.execCntrSourceEmit s
  | .cntrTriggeredEmit => Sys2Proof.Machine.execCntrTriggeredEmit s
  | .ldlkLoad => Sys2Proof.Machine.execLdlkLoad s
  | .constFreeFire => Sys2Proof.Machine.execConstFreeFire s
  | .wfeWake => Sys2Proof.Machine.execWfeWake s
  | .bisnpResponse => Sys2Proof.Machine.execBisnpResponse s
  | .hostSnoop => Sys2Proof.Machine.execHostSnoop s
  | .firmwareReady => Sys2Proof.Machine.execFirmwareReady s
  | .fyronPortTraining => Sys2Proof.Machine.execFyronPortTraining s
  | .hostPortDown => Sys2Proof.Machine.execHostPortDown s
  | .handoverMeasured => Sys2Proof.Machine.execHandoverMeasured s
  | .handoverImageLoaded => Sys2Proof.Machine.execHandoverImageLoaded s

end Sys2Proof.Machine
end

