-- ==== Sys2Proof/Machine/Agenda.lean ====
section
/-! DEFINITION. What each turn of the agenda does (R13, R14, R274, R295, R302, R349, R368; log 2): one clock of a PE, one control
word of a unit, the message at the head of an engine's inbox, accesses of a command, an event, a host's write on its bus, and the clocks. -/

namespace Sys2Proof.Machine

/-! ### One arithmetic clock of a PE (R302) -/

/-- The word that a context of a PE holds. -/
def State.peInstr (s : State) (cl x y c : Nat) : Option Instr :=
  (s.unitAt cl c).bind (fun uid =>
    let p := (s.unit uid).pe ((s.unit uid).keyOf ⟨cl, x, y, c⟩)
    if p.consumes then decodePe p.op p.seq p.imm else none)
/-- One arithmetic clock of PE(x,y) of a cluster: its turn, if it still has one in this clock. -/
def State.runPe (s : State) (cl x y : Nat) : Host.Outcome State Fault Refusal :=
  if !s.peTurn cl x y then .next s
  else
    let s1 := s.takeTurn cl x y
    match s.choosePe cl x y with
    | none => .next s1
    | some c =>
      match s.peInstr cl x y c with
      | none => .next s1
      | some i => exec i { s1 with focus := ⟨cl, x, y, c⟩ }

/-! ### One control word (R274, R349) -/

/-- A fetch that faulted: cause 0x0E4 with the address fetched, TEPC at the word whose branch led here; or 0x160. -/
def State.fetchFault (s : State) (uid : Nat) (f : TFault) : State :=
  let u := s.unit uid
  let r : Raised := { cause := if f.cause = 0x160 then 0x160 else 0x0E4, ctl := true, addr := u.ccnt, tepc := u.cameFrom.getD u.ccnt
                      d0 := if f.cause = 0x160 then f.d0 else wd f.cause, d1 := f.d1 }
  s.takeFault uid none r
/-- The sequencer of a unit takes a word now: it runs, its cluster is not halted, and it does not wait in WFE. -/
def State.sequences (s : State) (u : UnitSt) : Bool :=
  u.isRunning && !s.clusterHalted u.lead u.job &&
    (match u.wait with
     | .wfe _ _ _ => false
     | _ => true)
/-- The word at CCNT is fetched and executed. -/
def State.runWord (s : State) (uid : Nat) : Host.Outcome State Fault Refusal :=
  match aget s.units uid with
  | none => .next s
  | some u =>
    if !s.sequences u then .next s
    else
      match readG s u.lead u.job u.ccnt.toNat 4 .fetch 3 with
      | (s1, .ok bs) => exec (decodeCtl (BitVec.ofNat 32 (leNat bs))) { s1.modUnit uid (fun u => { u with cameFrom := none }) with curUnit := uid }
      | (s1, .error (.fault f)) => .next (s1.fetchFault uid f)
      | (s1, .error _) => .next s1

/-! ### One message (R261) -/

/-- An engine takes the message at the head of its inbox; a halted cluster's engines take nothing (R367). -/
def State.runMsg (s : State) (e : EngineId) : Host.Outcome State Fault Refusal :=
  match s.inbox e with
  | [] => .next s
  | m :: rest =>
    if s.clusterHalted m.cl m.job && !(s.unit m.unit).isDraining then .next s
    else
      match cmdRow m.opc m.msg with
      | none => .next ((s.setInbox e rest).nack e m 0x0C1 0#64)
      | some i => exec i { s with curEng := e }

/-! ### Placing one instruction -/

/-- Physical pages of the made-up address space of `placeWord`: four table pages and the code page. -/
def placeRoot : Nat := 0x10000
def placeCode : Nat := 0x50000
/-- The page table that maps page 0 of job 0 onto the code page, and the code word (R355). -/
def placeBytes (w : Nat) : List (Nat × List Byte) :=
  [(0x10000, leBytes 8 0x20001), (0x20000, leBytes 8 0x30001), (0x30000, leBytes 8 0x40001), (0x40000, leBytes 8 0x5302F), (placeCode, leBytes 4 w)]
/-- A PE context that holds one operation word, with a token in each queue and its element registers full (R23). -/
def placePe (w : Nat) : PeCtx :=
  let f : BitVec 4 := BitVec.ofNat 4 (bits w 21 18)
  let fmt := if f = 0#4 then 1#4 else f
  { hasOp := true, op := BitVec.ofNat 32 w, q := List.replicate 4 [{ fmt := fmt }], ereg := List.replicate 8 { full := true, tag := fmt } }
/-- The state with a made-up job 0 and unit on cluster 0, context 0, whose next turn runs the instruction of a table word: as the
operation of PE(0,0), or as the control word at CCNT (log 6). -/
def State.placeWord (s : State) (nbits w : Nat) : State :=
  let v := w % 2 ^ nbits % 2 ^ 32
  let pe := (decodeTableWord nbits w).any Instr.isPe
  let uid := s.nextUnit
  let u : UnitSt := { id := uid, pes := if pe then [(0, placePe v)] else [] }
  let s1 := (placeBytes v).foldl (fun s p => s.devWrite p.1 p.2) s
  let s2 : State := { s1 with
    units := aset (s1.units.filter (fun p => !(p.2.inRegion && p.2.covers 0 && p.2.ctx == 0))) uid u, nextUnit := uid + 1
    jobs := aset s1.jobs 0 { ptroot := placeRoot }, tlb := s1.tlb.filter (fun t => t.job != 0), bad := []
    agenda := (if pe then .pe 0 0 0 else .word uid) :: s1.agenda }
  if pe then s2.modDie 0 (fun d => { d with pePtr := 0, used := [] }) else s2

/-! ### Events and clocks -/

/-- An event of the table, with its arguments. -/
def State.runEvent (s : State) (i : Instr) (a : EvArgs) : Host.Outcome State Fault Refusal :=
  if i.isEvent then exec i { s with ev := a } else .next s
/-- What a unit counts in an arithmetic clock of its die: its watchdog, unless its job is under DEBUG-HOLD, and its quantum. -/
def State.tickUnit (s : State) (die : Nat) (u : UnitSt) : UnitSt :=
  if u.isRunning && dieOf u.lead == die then
    { u with freed := [], decided := [], flagsNow := {}, watchdog := if (s.job u.job).debugHold then u.watchdog else u.watchdog + 1
             quantum := u.quantum + 1 }
  else if dieOf u.lead == die then { u with freed := [], decided := [], flagsNow := {} } else u
/-- Charges of a die after a clock: one for each unit that holds a region there (R295). -/
def State.chargesOf (s : State) (die : Nat) : List (Nat × Nat) :=
  (s.units.filter (fun p => p.2.inRegion && dieOf p.2.lead == die)).foldl (fun l p => aset l p.2.job (agetD l p.2.job 0 + 1)) (s.die die).charges
/-- When a job began to wait on a die: it has ready units there and runs none (R295). -/
def State.waitsOf (s : State) (l : List Ready) (die : Nat) (j : Nat) (jb : Job) : List (Nat × Nat) :=
  let runs := s.units.any (fun p => p.2.job == j && p.2.inRegion && dieOf p.2.lead == die)
  let waits := l.any (fun r => r.job == j && r.waitsOn die)
  if runs || !waits then adel jb.waitSince die
  else if (aget jb.waitSince die).isSome then jb.waitSince
  else aset jb.waitSince die (s.die die).cyc.toNat
/-- One arithmetic clock of a die (R13, R14). -/
def State.tickDie (s : State) (die : Nat) : State :=
  let l := s.ready
  let s1 : State := { s with
    units := s.units.map (fun (p : Nat × UnitSt) => (p.1, s.tickUnit die p.2))
    jobs := s.jobs.map (fun (p : Nat × Job) => (p.1, { p.2 with waitSince := s.waitsOf l die p.1 p.2 })) }
  s1.modDie die (fun d => { d with cyc := d.cyc + 1#64, pePtr := (d.pePtr + 1) % 4, used := [], charges := s.chargesOf die })
/-- One hub clock (R13, R14): MSTAT leaves reset, the dies are powered 1 ms apart, and the alarm's clocks are counted (R322, R385,
R386), and what the device's machinery could not yet do is tried again (log 9), the resumes that were due too (R385). -/
def State.tickHub (s : State) : State :=
  let h := s.hub + 1#64
  let s1 : State := { s with
    hub := h, fw := { s.fw with mstate := if s.fw.mstate = 0 then 1 else s.fw.mstate }
    dies := s.dies.mapIdx (fun k (d : Die) => { d with powered := d.powered || decide ((k + 1) * 1000000 ≤ h.toNat) }) }
  State.resumeOwed (State.retryDev (if s.pow.alarm then s1.count 13 1 else s1))
/-- A line's stored code word begins to fail its check (R369, R386). -/
def State.failLine (s : State) (line : Nat) : State :=
  { s.count 16 1 with bad := if s.bad.contains line then s.bad else s.bad ++ [line] }

/-- One turn. -/
def State.runPick (s : State) : Pick → Host.Outcome State Fault Refusal
  | .pe cl x y => s.runPe cl x y
  | .word u => s.runWord u
  | .msg e => s.runMsg e
  | .access i ks => .next (s.performAccess i ks)
  | .event i a => s.runEvent i a
  | .clock die => .next (s.tickDie die)
  | .hubClock => .next s.tickHub
  | .hostMem pa bs => .next (s.hostOwnWrite pa bs)
  | .hostGrant half st => .next (s.hostGrant half st)
  | .hostCxl i addr a =>
    if !isCxlMem i then .next s
    else match s.hdmMap a.host addr with
      | some pa => s.runEvent i { a with pa := pa }
      | none => .next s
  | .hdmDecoder host region base => .next (s.programDecoder host region base)
  | .assignRegion region code => .next (s.assignRegion region code)
  | .correctedError e => .next (s.logCorrected e)
  | .replay => .next s.replay
  | .portTraining port => .next (s.beginTraining port)
  | .memError line => .next (s.failLine line)
  | .barWrite h k v => .next (s.barWrite h k v)
  | .busWrite h a n v =>
    match s.busEvent h a n v with
    | some (i, e) => s.runEvent i e
    | none => .next s
  | .busRead h a => .next (s.busRead h a)

end Sys2Proof.Machine
end

