-- ==== Sys2Proof/Machine/Step.lean ====
section
/-! DEFINITION. One step of the machine: the head of the agenda takes its turn (log 2); and the state in which the next step runs one
instruction of the table. -/

namespace Sys2Proof.Machine

/-- One step. An empty agenda is a machine in which nobody moves. -/
def step (s : State) : Host.Outcome State Fault Refusal :=
  match s.agenda with
  | [] => .next s
  | p :: rest => State.runPick { s with agenda := rest } p

/-- The state with the instruction of a table word placed where the next step fetches it (log 6). -/
def State.withFetchWord (s : State) (nbits w : Nat) : State := s.placeWord nbits w

end Sys2Proof.Machine
end

