-- ==== Sys2Proof/Safety.lean ====
section
/-! DEFINITION. What counts as a safe run: the memories keep their canonical form, and no step stops. -/

namespace Sys2Proof.Machine

/-- The memories of the machine are in canonical form, so that equal memories are equal data. -/
def State.memsOk (s : State) : Prop := s.mem.wf ∧ s.wst.wf ∧ s.lsm.wf ∧ s.hmem.wf

/-- The step of a state answers a state. -/
def Continues (s : State) : Prop := ∃ t, step s = .next t

end Sys2Proof.Machine
end

