-- ==== Sys2Proof/Claims.lean ====
section
/-! DEFINITION. The vocabulary of the obligations: the rows of the table grouped by shape, the state after a firing, and what a
statement says of one lane. Nothing here is part of the machine. -/

namespace Sys2Proof.Claims

open Sys2Proof Sys2Proof.Machine

/-! ### PE rows that compute -/

/-- What a computing row computes. -/
abbrev CalcFn := PeWord → Env → Opnd → Opnd → Opnd → Calc

/-- A computing row: its opcode, its function, its word, and the further condition on its PE. -/
structure CalcRow where
  opc : Nat
  f : CalcFn
  w : PeWord
  more : PeCtx → Bool := fun _ => true

/-- The rows of 07 and 08 whose firing computes a result from its operands and does nothing else. -/
def calcRow : Instr → Option CalcRow
  | .add w => some { opc := 0x01, f := calcAdd, w := w }
  | .sub w => some { opc := 0x02, f := calcSub, w := w }
  | .neg w => some { opc := 0x03, f := calcNeg, w := w }
  | .mul w => some { opc := 0x04, f := calcMul, w := w }
  | .mulh w => some { opc := 0x05, f := calcMulh, w := w }
  | .madd w => some { opc := 0x06, f := calcMadd, w := w }
  | .div w => some { opc := 0x07, f := calcDiv, w := w }
  | .rem w => some { opc := 0x08, f := calcRem, w := w }
  | .min w => some { opc := 0x09, f := calcMin, w := w }
  | .max w => some { opc := 0x0A, f := calcMax, w := w }
  | .abs w => some { opc := 0x0B, f := calcAbs, w := w }
  | .absd w => some { opc := 0x0C, f := calcAbsd, w := w }
  | .adds w => some { opc := 0x0D, f := calcAdds, w := w }
  | .subs w => some { opc := 0x0E, f := calcSubs, w := w }
  | .cmp w => some { opc := 0x0F, f := calcCmp, w := w }
  | .and w => some { opc := 0x10, f := calcAnd, w := w }
  | .or w => some { opc := 0x11, f := calcOr, w := w }
  | .xor w => some { opc := 0x12, f := calcXor, w := w }
  | .andn w => some { opc := 0x13, f := calcAndn, w := w }
  | .not w => some { opc := 0x14, f := calcNot, w := w }
  | .shl w => some { opc := 0x15, f := calcShl, w := w }
  | .shr w => some { opc := 0x16, f := calcShr, w := w }
  | .sra w => some { opc := 0x17, f := calcSra, w := w }
  | .rot w => some { opc := 0x18, f := calcRot, w := w }
  | .clz w => some { opc := 0x19, f := calcClz, w := w }
  | .ctz w => some { opc := 0x1A, f := calcCtz, w := w }
  | .popc w => some { opc := 0x1B, f := calcPopc, w := w }
  | .bext w => some { opc := 0x1C, f := calcBext, w := w }
  | .bins w => some { opc := 0x1D, f := calcBins, w := w }
  | .sext w => some { opc := 0x1E, f := calcSext, w := w }
  | .zext w => some { opc := 0x1F, f := calcZext, w := w }
  | .lea w => some { opc := 0x20, f := calcLea, w := w }
  | .bchk w => some { opc := 0x21, f := calcBchk, w := w }
  | .sel w => some { opc := 0x22, f := calcSel, w := w }
  | .move w => some { opc := 0x23, f := calcMove, w := w }
  | .fadd w => some { opc := 0x40, f := calcFadd, w := w }
  | .fsub w => some { opc := 0x41, f := calcFsub, w := w }
  | .fmul w => some { opc := 0x42, f := calcFmul, w := w }
  | .fma w => some { opc := 0x43, f := calcFma, w := w }
  | .fms w => some { opc := 0x44, f := calcFms, w := w }
  | .fnma w => some { opc := 0x45, f := calcFnma, w := w }
  | .fmin w => some { opc := 0x46, f := calcFmin, w := w }
  | .fmax w => some { opc := 0x47, f := calcFmax, w := w }
  | .fabs w => some { opc := 0x48, f := calcFabs, w := w }
  | .fneg w => some { opc := 0x49, f := calcFneg, w := w }
  | .fcmp w => some { opc := 0x4A, f := calcFcmp, w := w }
  | .fdiv w => some { opc := 0x4B, f := calcFdiv, w := w }
  | .fsqrt w => some { opc := 0x4C, f := calcFsqrt, w := w }
  | .frcpe w => some { opc := 0x4D, f := calcFrcpe, w := w }
  | .frsqe w => some { opc := 0x4E, f := calcFrsqe, w := w }
  | .fclass w => some { opc := 0x4F, f := calcFclass, w := w }
  | .fcvt w => some { opc := 0x50, f := calcFcvt, w := w }
  | .ftoi w => some { opc := 0x51, f := calcFtoi, w := w }
  | .itof w => some { opc := 0x52, f := calcItof, w := w }
  | .frnd w => some { opc := 0x53, f := calcFrnd, w := w }
  | .cbd w => some { opc := 0x54, f := calcCbd, w := w, more := tableFull }
  | .cbe w => some { opc := 0x55, f := calcCbe, w := w, more := tableFull }
  | .lsum w => some { opc := 0x56, f := calcLsum, w := w }
  | .ldot w => some { opc := 0x57, f := calcLdot, w := w }
  | .lbc w => some { opc := 0x58, f := calcLbc, w := w }
  | .lshuf w => some { opc := 0x59, f := calcLshuf, w := w }
  | .lpack w => some { opc := 0x5A, f := calcLpack, w := w }
  | .lunpk w => some { opc := 0x5B, f := calcLunpk, w := w }
  | .lext w => some { opc := 0x5C, f := calcLext, w := w }
  | .lins w => some { opc := 0x5D, f := calcLins, w := w }
  | .lred w => some { opc := 0x5E, f := calcLred, w := w }
  | .fscale w => some { opc := 0x5F, f := calcFscale, w := w }
  | _ => none

/-- The row is ready at the focus of `s` and passes the checks of R145: it fires in `s1` at PE `key` of unit `uid` with `g`. -/
def Fires (r : CalcRow) (s s1 : State) (uid key : Nat) (g : Gathered) : Prop :=
  prepFire r.opc r.w s (fun _ _ => true) r.more = .go s1 uid key g

/-- The state after a firing that computes: sticky flags `fl` raised, operands consumed, the result delivered as DST says with
the firing's tag, colour and LAST. -/
def afterCalc (s : State) (uid key : Nat) (w : PeWord) (g : Gathered) (v : Word) (tag fl : Nat) : State :=
  ((s.modUnit uid (fun u => u.raiseFlags fl)).commitFiring uid key g.toks).deliver uid key w
    { g.tok with payload := v, fmt := BitVec.ofNat 4 tag }

/-- Lane `l` of an operand in the lanes of tag `t`. -/
def opLane (o : Opnd) (t l : Nat) : Nat := lane o.v (laneW t) l

/-- A row that raises no flag gives each lane `l` the value `f w width a b c` of the operands' lanes. -/
def LaneRow (i : PeWord → Instr) (f : PeWord → Nat → Nat → Nat → Nat → Nat) : Prop :=
  ∀ (w : PeWord) (r : CalcRow) (s s1 : State) (uid key : Nat) (g : Gathered),
    calcRow (i w) = some r → Fires r s s1 uid key g →
    ∃ v : Word, exec (i w) s = .next (afterCalc s1 uid key w g v w.fmt.toNat 0) ∧
      ∀ l, l < lanesOf w.fmt.toNat →
        lane v (laneW w.fmt.toNat) l =
          f w (laneW w.fmt.toNat) (opLane g.a w.fmt.toNat l) (opLane g.b w.fmt.toNat l) (opLane g.c w.fmt.toNat l)

/-- A row that may raise flags: each lane has the value and the flag bits (NV, DZ, OF, UF, NX from bit 0) that `f` gives, and
the sticky flags become the union of what the lanes raise, when no trap is enabled. -/
def FlagRow (i : PeWord → Instr) (tag : PeWord → Nat) (f : PeWord → Env → Nat → Nat → Nat → Nat × Nat) : Prop :=
  ∀ (w : PeWord) (r : CalcRow) (s s1 : State) (uid key : Nat) (g : Gathered),
    calcRow (i w) = some r → Fires r s s1 uid key g → (s1.unit uid).uctl.toNat % 32 = 0 →
    ∃ (v : Word) (fl : Nat), exec (i w) s = .next (afterCalc s1 uid key w g v (tag w) fl) ∧
      (∀ l, l < lanesOf w.fmt.toNat →
        lane v (laneW (tag w)) l = (f w g.env (opLane g.a w.fmt.toNat l) (opLane g.b w.fmt.toNat l) (opLane g.c w.fmt.toNat l)).1 % 2 ^ laneW (tag w)) ∧
      (∀ k, k < 5 → (bit fl k = true ↔ ∃ l, l < lanesOf w.fmt.toNat ∧
        bit (f w g.env (opLane g.a w.fmt.toNat l) (opLane g.b w.fmt.toNat l) (opLane g.c w.fmt.toNat l)).2 k = true))

/-- A row that converts the lanes that its source and FMT both have; the other lanes of the result are 0 (R207). -/
def ConvRow (i : PeWord → Instr) (f : PeWord → Env → Nat → Nat → Nat × Nat) : Prop :=
  ∀ (w : PeWord) (r : CalcRow) (s s1 : State) (uid key : Nat) (g : Gathered),
    calcRow (i w) = some r → Fires r s s1 uid key g → (s1.unit uid).uctl.toNat % 32 = 0 →
    ∃ (v : Word) (fl : Nat), exec (i w) s = .next (afterCalc s1 uid key w g v w.fmt.toNat fl) ∧
      (∀ l, l < lanesOf w.fmt.toNat → lane v (laneW w.fmt.toNat) l =
        if l < lanesOf g.a.t then (f w g.env g.a.t (opLane g.a g.a.t l)).1 % 2 ^ laneW w.fmt.toNat else 0) ∧
      (∀ k, k < 5 → (bit fl k = true ↔ ∃ l, l < lanesOf w.fmt.toNat ∧ l < lanesOf g.a.t ∧ bit (f w g.env g.a.t (opLane g.a g.a.t l)).2 k = true))

/-- The sum of the 2^k lanes from lane l on, neighbours first, each addition with its rounding `f` (R75). -/
def treeSum (f : Nat → Nat → Nat × Nat) (x : Nat → Nat) : Nat → Nat → Nat
  | 0, l => x l
  | k + 1, l => (f (treeSum f x k l) (treeSum f x k (l + 2 ^ k))).1
/-- Flag `b` is raised by one of its additions. -/
def treeRaises (f : Nat → Nat → Nat × Nat) (x : Nat → Nat) (b : Nat) : Nat → Nat → Bool
  | 0, _ => false
  | k + 1, l => treeRaises f x b k l || treeRaises f x b k (l + 2 ^ k) || bit (f (treeSum f x k l) (treeSum f x k (l + 2 ^ k))).2 b
/-- Result lane j of LDOT with result tag `rt` (R217): its share of the products and lane j of c, rounded once. -/
def dotLane (w : PeWord) (g : Gathered) (rt j : Nat) : Nat × Nat :=
  let n := lanesOf w.fmt.toNat / lanesOf rt
  let r := dotExact (modeOf w g.env) ((upFrom (j * n) n).map (fun l =>
    (fpLane (fziBit w) w.fmt.toNat (opLane g.a w.fmt.toNat l), fpLane (fziBit w) w.fmt.toNat (opLane g.b w.fmt.toNat l)))) (fpLane (fziBit w) rt (opLane g.c rt j))
  roundLane w g.env rt r.1 r.2
/-- The pairs of source tag and FMT of LPACK (R221); those of LUNPK are the same the other way round (R222). -/
def packPairs : List (Nat × Nat) :=
  [(1, 2), (2, 3), (3, 4), (5, 6), (6, 7), (6, 8), (7, 9), (8, 9), (7, 10), (8, 10), (9, 11), (10, 11)]

/-! ### PE rows that steer, tag and colour -/

/-- The word of code `opc` is ready at the focus of `s` and passes its checks: it fires in `s1` with `g`. -/
def Go (opc : Nat) (w : PeWord) (s s1 : State) (uid key : Nat) (g : Gathered) : Prop := prepFire opc w s = .go s1 uid key g
/-- The same for an operation that waits until its operands have colour 0 (R35, R229). -/
def GoColourless (opc : Nat) (w : PeWord) (s s1 : State) (uid key : Nat) (g : Gathered) : Prop :=
  prepFire opc w s (fun u t => u.effCol t.col == 0#2) = .go s1 uid key g
/-- The operands of a firing consumed, and the firing counted. -/
def taken (s : State) (uid key : Nat) (g : Gathered) : State := s.commitFiring uid key g.toks
/-- Operand a as a token with the tag, colour and LAST of the firing. -/
def passed (g : Gathered) : Token := { g.tok with payload := g.a.v, fmt := BitVec.ofNat 4 g.a.t }
/-- The node of a PE. -/
def nodeAt (s : State) (uid key : Nat) : NodeState := ((s.unit uid).pe key).node
/-- The word of a PE. -/
def wordAt (s : State) (uid key : Nat) : PeWord := ((s.unit uid).pe key).word
/-- The unit at the focus with the tokens of killing colours annihilated, and the state that holds it. -/
def calm (s : State) (uid key : Nat) : UnitSt := (s.unit uid).purge key
def calmed (s : State) (uid key : Nat) : State := s.setUnit uid (calm s uid key)

/-- Token a carries the parent tag and wave that the tag map records for token b (R183). -/
def parentOf (u : UnitSt) (b a : Token) : Bool :=
  match u.tagEntry b.lvl.toNat b.itag.toNat with
  | some e => a.lvl.toNat == e.plvl && a.itag.toNat == e.pitag && a.wave == e.pwave
  | none => false
/-- What a COMMIT or KILL token `f` becomes as it goes on: a copy on every link and for every packet head of its route; none at a queue. -/
def onward (s : State) (f : Flight) : List Flight :=
  match s.flightUnit f, f.q with
  | some uid, none =>
    ((s.unit uid).outsOf f).filterMap (fun o => (nextPlace f.pos o).map (fun p => ({ f with pos := p.1, inp := p.2.1, lane := p.2.2 } : Flight))) ++
      ((s.unit uid).headsOf f).map (fun d => ({ f with pos := d.1, inp := 0, lane := 0, q := some d.2 } : Flight))
  | _, _ => []
/-- A unit less the debugger's steps that its PEs still have (R367). -/
def stepless (u : UnitSt) : UnitSt := { u with pes := u.pes.map (fun q => (q.1, { q.2 with stepOnce := false })) }
/-- The COLOR nodes of a unit that wait for colour k, with their tokens (R35). -/
def waitingForColour (u : UnitSt) (k : Nat) : List (Nat × Token) :=
  u.pes.filterMap (fun p => match p.2.node with
    | .colorWait t k' => if k' == k then some (p.1, t) else none
    | _ => none)

/-- A colour returns to open, and every COLOR that waits for it proceeds (R35). -/
def reopened (s : State) (uid k : Nat) : State :=
  (waitingForColour (s.unit uid) k).foldl (fun s' p =>
    (s'.setNode uid p.1 .idle).deliver uid p.1 (wordAt s' uid p.1) { p.2 with col := BitVec.ofNat 2 k }) (s.modUnit uid (fun u => u.setCol k 0))

/-! ### Memory-class rows -/

/-- A row of 09 whose firing puts an entry into the store buffer. -/
structure MemRow where
  opc : Nat
  op : MemOp
  ok : UnitSt → Token → Bool
  req : State → Nat → PeWord → Gathered → MemReq
  w : PeWord
def memRow : Instr → Option MemRow
  | .ld w => some ⟨0x60, .ld, anyColour, reqG, w⟩
  | .st w => some ⟨0x61, .st, anyColour, reqG, w⟩
  | .pref w => some ⟨0x63, .pref, anyColour, reqAddr 1, w⟩
  | .span w => some ⟨0x64, .span, anyColour, reqNone, w⟩
  | .ldsp w => some ⟨0x65, .ldsp, anyColour, reqFlat, w⟩
  | .stsp w => some ⟨0x66, .stsp, anyColour, reqFlat, w⟩
  | .ldws w => some ⟨0x67, .ldws, anyColour, reqFlat, w⟩
  | .amo w => some ⟨0x68, .amo, anyColour, reqAtomic (if w.fmt = 2#4 then 4 else 8), w⟩
  | .amx w => some ⟨0x69, .amx, anyColour, reqAtomic 8, w⟩
  | .red w => some ⟨0x6A, .red, colour0, reqRed, w⟩
  | .fence w => some ⟨0x6B, .fence, anyColour, reqAddr 1, w⟩
  | .flushr w => some ⟨0x6C, .flushr, anyColour, reqAddr 1, w⟩
  | .memnop w => some ⟨0x6D, .memnop, anyColour, reqNone, w⟩
  | .lda w => some ⟨0x6E, .lda, anyColour, reqG, w⟩
  | .stl w => some ⟨0x6F, .stl, anyColour, reqG, w⟩
  | _ => none
/-- The entry that such a firing makes. -/
def memEntry (r : MemRow) (u : UnitSt) (key : Nat) (g : Gathered) (ea n : Nat) : SbEntry :=
  { id := 0, site := u.siteOf key, op := r.op, opc := BitVec.ofNat 7 r.opc, w := r.w, tok := g.tok
    a := g.a.v, b := g.b.v, c := g.c.v, tags := g.a.t + 16 * g.b.t + 256 * g.c.t, ea := ea, n := n
    swz := u.swz, uctl := u.uctl, rm := u.rm }
/-- A RED whose contributor's earlier contribution is still under way waits in its node (R115, R246); no other row does. -/
def redWaits (i : Instr) (s : State) (uid : Nat) : Bool :=
  match i with
  | .red w => s.redBusy uid w
  | _ => false

/-! ### Control words -/

/-- The opcode, the word and the value of a word that only writes gd (R275); `none` for every other word. -/
def aluValue : Instr → Option (Nat × CWord × (UnitSt → Word))
  | .seqAdd c => some (0x01, c, fun u => u.greg c.ga + u.greg c.gb)
  | .seqSub c => some (0x01, c, fun u => u.greg c.ga - u.greg c.gb)
  | .seqAnd c => some (0x01, c, fun u => u.greg c.ga &&& u.greg c.gb)
  | .seqOr c => some (0x01, c, fun u => u.greg c.ga ||| u.greg c.gb)
  | .seqXor c => some (0x01, c, fun u => u.greg c.ga ^^^ u.greg c.gb)
  | .seqShl c => some (0x01, c, fun u => u.greg c.ga <<< ((u.greg c.gb).toNat % 64))
  | .seqShr c => some (0x01, c, fun u => u.greg c.ga >>> ((u.greg c.gb).toNat % 64))
  | .seqSra c => some (0x01, c, fun u => (u.greg c.ga).sshiftRight ((u.greg c.gb).toNat % 64))
  | .seqMul c => some (0x01, c, fun u => u.greg c.ga * u.greg c.gb)
  | .seqMulh c => some (0x01, c, fun u => BitVec.ofInt 64 ((u.greg c.ga).toInt * (u.greg c.gb).toInt / 2 ^ 64))
  | .seqDiv c => some (0x01, c, fun u => if u.greg c.gb = 0#64 then BitVec.allOnes 64 else (u.greg c.ga).sdiv (u.greg c.gb))
  | .seqRem c => some (0x01, c, fun u => if u.greg c.gb = 0#64 then u.greg c.ga else (u.greg c.ga).srem (u.greg c.gb))
  | .slt c => some (0x01, c, fun u => if (u.greg c.ga).slt (u.greg c.gb) then 1#64 else 0#64)
  | .sltu c => some (0x01, c, fun u => if (u.greg c.ga).ult (u.greg c.gb) then 1#64 else 0#64)
  | .seqMin c => some (0x01, c, fun u => if (u.greg c.gb).slt (u.greg c.ga) then u.greg c.gb else u.greg c.ga)
  | .seqMax c => some (0x01, c, fun u => if (u.greg c.ga).slt (u.greg c.gb) then u.greg c.gb else u.greg c.ga)
  | .addi c => some (0x02, c, fun u => u.greg c.ga + sx16 c)
  | .andi c => some (0x03, c, fun u => u.greg c.ga &&& zx16 c)
  | .ori c => some (0x04, c, fun u => u.greg c.ga ||| zx16 c)
  | .xori c => some (0x05, c, fun u => u.greg c.ga ^^^ zx16 c)
  | .shli c => some (0x06, c, fun u => u.greg c.ga <<< (CWord.imm16 c).toNat)
  | .shri c => some (0x07, c, fun u => u.greg c.ga >>> (CWord.imm16 c).toNat)
  | .srai c => some (0x08, c, fun u => (u.greg c.ga).sshiftRight (CWord.imm16 c).toNat)
  | .ldhi c => some (0x09, c, fun u => u.greg c.ga + (sx16 c <<< 16))
  | .slti c => some (0x0A, c, fun u => if (u.greg c.ga).slt (sx16 c) then 1#64 else 0#64)
  | _ => none
/-- The opcode, the word and the condition of a branch of format CB on its two registers (R277). -/
def branchCond : Instr → Option (Nat × CWord × (Word → Word → Bool))
  | .beq c => some (0x10, c, fun a b => decide (a = b))
  | .bne c => some (0x11, c, fun a b => decide (a ≠ b))
  | .blt c => some (0x12, c, fun a b => a.slt b)
  | .bge c => some (0x13, c, fun a b => !a.slt b)
  | .bltu c => some (0x14, c, fun a b => a.ult b)
  | .bgeu c => some (0x15, c, fun a b => !a.ult b)
  | _ => none
/-- The unit whose turn it is: present, running, and named by `curUnit`. -/
def Sequencing (s : State) (u : UnitSt) : Prop := aget s.units s.curUnit = some u ∧ u.status = .running
/-- The address of the word after the one at CCNT: 56 bits, 4-byte aligned. -/
def nextCcnt (u : UnitSt) : Word := (u.ccnt + 4#64) &&& codeMask
/-- The state in which the unit whose turn it is has become `u'` and nothing else has changed. -/
def unitBecomes (s : State) (u' : UnitSt) : State := { s with units := aset s.units s.curUnit u' }

/-- The unit whose turn it is has been reported quiescent, and still is (R41, R42). -/
def AtRest (s : State) (u : UnitSt) : Prop := u.quiet = true ∧ s.quiescent s.curUnit u = true
/-- The report of quiescence is used up. -/
def rested (s : State) : State := s.modUnit s.curUnit (fun x => { x with quiet := false })
/-- The word at CCNT is not the retry of one whose access has performed or been asked of another device. -/
def Fresh (u : UnitSt) : Prop := aget u.ctlHeld u.ccnt = none ∧ aget u.ctlAsked u.ccnt = none
/-- The synchronising words of a control stream (R276): opcode, word, entry, whether they release. -/
def syncWord (u : UnitSt) : Instr → Option (Nat × SbEntry × Bool)
  | .amog c => some (0x0D, ctlEntry u .amo (c.lo.setWidth 3) (u.greg c.gb) ((u.greg c.ga).toNat % 2 ^ 56) (if c.lo.getLsbD 3 then 4 else 8), false)
  | .post c => some (0x24, ctlEntry u .amo 0#3 1#64 (ctlEa u c) 8, true)
  | .gnudge c => some (0x2F, ctlEntry u .stl 0#3 (u.greg c.gb) ((u.greg c.ga).toNat % 2 ^ 56) 8, true)
  | _ => none
/-- What such a word does once its access has performed. -/
def syncAfter (u : UnitSt) (s : State) (v : Word) : Instr → State
  | .amog c => s.modUnit s.curUnit (fun x => x.setG c.gd v)
  | .gnudge c => s.nudge (· == u.job) (true, (u.greg c.ga).toNat % 2 ^ 56)
  | _ => s
/-- No cluster holds a line and no message about it is on its way. -/
def LineAtHome (s : State) (line : Nat) : Prop :=
  (∀ p ∈ s.clusters, p.2.spans.any (fun sp => sp.touches line) = false) ∧ (∀ m ∈ s.net, m.line ≠ line)

/-! ### Matrix operations -/

/-- A matrix operand of 32 rows of 32 significands, with 32 micro-exponents of 2 bits for its rows and for its columns (R66 to R68). -/
def Shaped (V : XsView) : Prop :=
  V.rows.length = 32 ∧ (∀ r ∈ V.rows, r.length = 32) ∧ V.rx.length = 32 ∧ V.cx.length = 32 ∧ ∀ x ∈ V.rx ++ V.cx, x ≤ 3
/-- Lane n = 32 i + j of an accumulator. -/
def accLane (a : Acc) (n : Nat) : Int := lget (accLanes a.lanes) n 0
/-- p(i, j) of R73 for n = 32 i + j. -/
def prodAt (A B : XsView) (n : Nat) : Int :=
  ((upFrom 0 32).map (fun k => lget (lget A.rows (n / 32) []) k 0 * lget (lget B.rows k []) (n % 32) 0 *
    ((2 ^ (6 - lget A.cx k 0 - lget B.rx k 0) : Nat) : Int))).sum
/-- What R73 leaves in lane n: SUB 0 sets, 1 adds and 2 subtracts, at the lesser of the exponent sums. -/
def newLane (sub : Nat) (A B : XsView) (acc : Acc) (n : Nat) : Int :=
  let es : Int := (A.e : Int) + (B.e : Int) - A.f - B.f
  let d := es - acc.es.getD es
  if sub = 0 then prodAt A B n
  else accLane acc n * ((2 ^ (-d).toNat : Nat) : Int) + (if sub = 2 then - prodAt A B n else prodAt A B n) * ((2 ^ d.toNat : Nat) : Int)

/-! ### Translation -/

/-- The walk reads entry `e` at index `l` of the table at `t`: device memory, free of a host's hold, whose line passes its check (R358). -/
def EntryAt (s : State) (va l t e : Nat) : Prop :=
  isDevXa t = true ∧ s.hostReady (t + 8 * walkIndex va l) 8 false = true ∧ s.bad.contains ((t + 8 * walkIndex va l) / 128) = false ∧
  e = s.cohN (t + 8 * walkIndex va l) 8
/-- A well-formed table entry (R355): valid, with no bit but V, PPN and SW. -/
def TableEntry (e : Nat) : Prop := bit e 0 = true ∧ bits e 15 1 = 0 ∧ bits e 55 52 = 0

/-! ### Engine commands -/

/-- The opcode, the number of operand words and the message of a command. -/
def cmdOf : Instr → Option (Nat × Nat × Message)
  | .cmdMbld m => some (0x10, 2, m)
  | .cmdMmul m => some (0x11, 1, m)
  | .macc m => some (0x12, 1, m)
  | .cmdMdrn m => some (0x13, 2, m)
  | .mqnt m => some (0x14, 1, m)
  | .mzer m => some (0x15, 1, m)
  | .mcbt m => some (0x16, 2, m)
  | .mgrp m => some (0x17, 4, m)
  | .cpy m => some (0x20, 3, m)
  | .cpy2d m => some (0x21, 4, m)
  | .fill m => some (0x22, 3, m)
  | .wsfl m => some (0x23, 3, m)
  | .cpyxs m => some (0x24, 3, m)
  | .gth m => some (0x30, 4, m)
  | .sct m => some (0x31, 4, m)
  | .scta m => some (0x32, 4, m)
  | .gthxs m => some (0x33, 4, m)
  | .cred m => some (0x40, 3, m)
  | .cagt m => some (0x41, 3, m)
  | .crsc m => some (0x42, 3, m)
  | .cbcs m => some (0x43, 3, m)
  | .cbar m => some (0x44, 1, m)
  | _ => none
/-- A command stands at the head of the inbox of its engine, and its sender has neither ended nor overrun its drain (R362). -/
def AtHead (i : Instr) (opc N : Nat) (s : State) (m : InMsg) (rest : List InMsg) : Prop :=
  cmdOf i = some (opc, N, m.msg) ∧ s.inbox s.curEng = m :: rest ∧ m.opc.toNat = opc ∧ engineOf opc m.cl = some s.curEng ∧
  (s.unit m.unit).isEnded = false ∧ (s.unit m.unit).overrun = false
/-- The checks of R261 that refuse a command whose handler entry has the first word h, in their order, with their causes. -/
def commandChecks (opc N : Nat) (s : State) (m : InMsg) (ea h : Nat) : List (Bool × Nat) :=
  [(s.bad.contains (ea / 128), 0x160), (!bit h 63, 0x0C2), (bit h 62, 0x0C3), (bits h 31 0 != m.job, 0x0C5),
   (bits h 55 48 != opc || opc == 0x17, 0x0C7), (decide (N < m.msg.nptr.toNat), 0x0C4),
   ((s.curEng.kind == .matrix || m.msg.hpop != 0#4 || m.msg.hpush != 0#4) && !s.claims m.cl m.unit, 0x0C8)]
/-- A command that passes steps 2 and 3 of R261, and whose entry can be read now. -/
def EntryRead (s : State) (m : InMsg) (ea h : Nat) : Prop :=
  m.msg.nptr.toNat ≤ 6 ∧ badEngineCode s.curEng m.msg.hpop.toNat = false ∧ badEngineCode s.curEng m.msg.hpush.toNat = false ∧
  s.handlerEntry s.curEng m.msg.handler.toNat = some (ea, h) ∧ s.hostReady ea 64 false = true
/-- The command passes every step of R261 up to its operands: the state and the message then, and its operand words. A message that has
passed steps 2 to 9 earlier does not meet them again. -/
def Accepts (i : Instr) (opc : Nat) (s s1 : State) (im : InMsg) (h : Nat) (w : Nat → Word) : Prop :=
  ∃ (N : Nat) (m : InMsg) (rest : List InMsg) (ea : Nat), AtHead i opc N s m rest ∧ EntryRead s m ea h ∧
    (m.checked = true ∨ (commandChecks opc N s m ea h).all (fun p => !p.1) = true) ∧
    (s.runsOf s.curEng < 8 ∨ s.curEng.kind = .matrix ∨ s.curEng.kind = .collective) ∧
    (m.msg.hpop = 0#4 ∨ m.popped = true ∨ s.canPop m.cl m.msg.hpop.toNat (engineCode s.curEng.kind) = true) ∧
    im = { m with popped := true, checked := true, busySince := none } ∧
    s1 = (if m.msg.hpop != 0#4 && !m.popped then s.popHandoff m.cl m.msg.hpop.toNat (engineCode s.curEng.kind) else s).setInbox s.curEng (im :: rest) ∧
    w = s1.operand im ea
/-- The command leaves the inbox and runs, with the accesses of `plan` to perform; it has been taken over; it is refused with a cause. -/
def commandRuns (e : EngineId) (s : State) (im : InMsg) (plan : List EngAcc) : State :=
  { s.setInbox e ((s.inbox e).drop 1) with runs := s.runs ++ [{ m := im, eng := e, plan := plan }] }
def commandTaken (e : EngineId) (s : State) : State := s.setInbox e ((s.inbox e).drop 1)
def commandRefused (e : EngineId) (s : State) (im : InMsg) (c : Nat) (h : Word) : State := (s.setInbox e ((s.inbox e).drop 1)).nack e im c h
/-- The operand checks of the matrix commands (R265), with their causes in order. -/
def matrixChecks (s : State) (im : InMsg) (w : Nat → Word) : Instr → List (Bool × Nat)
  | .cmdMbld _ => [(!addrOk 0b101 (w 0) || wbits (w 1) 63 12 != 0 || decide (4 < wbits (w 1) 11 8), 0x0CA),
      (s.taskOwned im.job (wbits (w 1) 7 0), 0x02A)]
  | .cmdMmul _ => [((w 0) &&& 0xFFFFFFFFFFF80008#64 != 0#64 || wbits (w 0) 17 16 == 3, 0x0CA),
      (!(s.cluster im.cl).slotBank (wbits (w 0) 7 4), 0x029), (s.taskOwned im.job (wbits (w 0) 15 8), 0x02A)]
  | .macc _ => [((w 0) &&& 0xFFFFFFFFFF080008#64 != 0#64 || wbits (w 0) 17 16 == 3 || decide (15 < wbits (w 0) 7 4 + wbits (w 0) 23 20) ||
      decide (255 < wbits (w 0) 15 8 + wbits (w 0) 23 20), 0x0CA),
      (!((upFrom (wbits (w 0) 7 4) (wbits (w 0) 23 20 + 1)).all (fun k => (s.cluster im.cl).slotBank k)), 0x029),
      (s.taskOwned im.job (wbits (w 0) 15 8 + wbits (w 0) 23 20), 0x02A)]
  | .cmdMdrn _ => [((w 0) &&& 0xFFFFFFFFFFC000C8#64 != 0#64, 0x0CA), (!tFmtOk 0x73 (wbits (w 0) 5 4) (wbits (w 0) 15 12), 0x004),
      (decide (wbits (w 0) 5 4 ≤ 1) && (roundMode (BitVec.ofNat 3 (wbits (w 0) 18 16)) im.rm).isNone, 0x001),
      (wbits (w 0) 5 4 == 1 && !addrOk 0b1 (w 1), 0x0CA),
      ((wbits (w 0) 5 4 == 0 || wbits (w 0) 5 4 == 2) && !(s.cluster im.cl).slotBank (wbits (w 0) 11 8), 0x029),
      (wbits (w 0) 5 4 == 1 && (w 1).toNat % 4096 != 0, 0x061)]
  | .mqnt _ => [((w 0) &&& 0xFFFFFFFFFFFE0000#64 != 0#64 || decide (15 < wbits (w 0) 3 0 + wbits (w 0) 15 12) ||
      decide (15 < wbits (w 0) 7 4 + wbits (w 0) 15 12), 0x0CA),
      (!((upFrom (wbits (w 0) 3 0) (wbits (w 0) 15 12 + 1) ++ upFrom (wbits (w 0) 7 4) (wbits (w 0) 15 12 + 1)).all
        (fun k => (s.cluster im.cl).slotBank k)), 0x029),
      (decide (wbits (w 0) 11 8 < 1) || decide (3 < wbits (w 0) 11 8), 0x025)]
  | .mzer _ => [((w 0) &&& 0xFFFFFFFFFFFFFF00#64 != 0#64, 0x0CA)]
  | .mcbt _ => [(!addrOk 0b1 (w 0) || (w 1) &&& 0xFFFFFFFFFFF80000#64 != 0#64, 0x0CA)]
  | _ => []
/-- The commands that queue M takes. -/
def isQueueM : Instr → Bool
  | .cmdMbld _ | .cmdMmul _ | .macc _ | .cmdMdrn _ | .mqnt _ | .mzer _ | .mcbt _ => true
  | _ => false
/-- The second operand word that an operation of queue M keeps. -/
def secondWord (w : Nat → Word) : Instr → Word
  | .cmdMbld _ | .cmdMdrn _ | .mcbt _ => w 1
  | _ => 0#64

/-- Whether the destinations of a round can be written now, each of `n` bytes. -/
def destsReady (s : State) (ps : List CollPart) (n : Nat) : State × Bool :=
  (ps.filterMap (fun p => p.m.map (fun im => (im, (⟨0, addrOf p.dst, n, .store⟩ : SAcc))))).foldl (fun (acc : State × Bool) x =>
    if x.2.n = 0 then acc
    else
      match acc.1.checkAll x.1 [x.2] with
      | (s1, some (.wait, _)) => (s1, false)
      | (s1, _) => (s1, acc.2)) (s, true)

/-! ### Queues -/

/-- The thread of a mapped queue runs (R338, R339): the event comes from the core that owns the queues, its standby does not lag the whole journal
behind, and a takeover has replayed the journal. -/
def ThreadRuns (s : State) : Prop :=
  s.ev.former = false ∧ (s.fw.nostby = true ∨ s.fw.jserial < s.fw.replayed + 8192) ∧ s.fw.resumeAt ≤ s.fw.replayed
/-- The thread of queue `ev.q` takes the well-formed entry `e` at its head, of one kind and in sequence (R333). -/
def Taking (s : State) (kind job : Nat) (e : List Byte) (l : List (List Byte)) : Prop :=
  ThreadRuns s ∧ (s.queue s.ev.q).job = some job ∧ (s.queue s.ev.q).entries = e :: l ∧ (s.queue s.ev.q).idle = true ∧ (s.queue s.ev.q).unreg = none ∧
  entryKind e = kind ∧ malformed e = false ∧ entrySeq e = (s.queue s.ev.q).eseq.toNat
/-- The entry at the head of queue q is done with: it leaves, and the next sequence number is expected. -/
def entryDone (q : Nat) (s : State) : State :=
  ((s.modQueue q (fun x => { x with entries := x.entries.drop 1 })).journal .entryAccepted).modQueue q (fun x => { x with eseq := x.eseq + 1#16 })

end Sys2Proof.Claims
end

