-- ==== Sys2Proof/Certificates/Slice0/Obligations.lean ====
section
/-! DEFINITION. The statements for the provers. A statement `∃ t, exec i s = .next t ∧ …` or `exec i s = .next (…)` says that the
instruction completes with its own effect; the functions named in it are those of the meanings. -/

open Sys2Proof Sys2Proof.Machine Sys2Proof.Claims

/-! ### Reset, steps, encodings -/

/-- Reset (R3, R14, R93): counters, tags and waiting work are 0 or absent, no unit exists, no line is held by a cluster, a host or another
device, no fault is pending, every ring is empty, nothing is listed in a memory, and the memories are in canonical form. What the manual
leaves open at reset is not stated here (log 3); that memory lists nothing rests on log 1. -/
def Obligations.ResetLeavesNothingBehind : Prop :=
  (State.reset.hub = 0#64 ∧ (∀ d, (State.reset.die d).cyc = 0#64) ∧ (∀ l, (State.reset.dirOf l).tag = 0#16) ∧
  State.reset.units = [] ∧ State.reset.insts = [] ∧ State.reset.phases = [] ∧ State.reset.jobs = [] ∧ State.reset.flights = [] ∧
  State.reset.net = [] ∧ State.reset.runs = [] ∧ State.reset.tlb = [] ∧ State.reset.queues.length = 32 ∧
  (∀ q, (State.reset.queue q).entries = [] ∧ (State.reset.queue q).blocked = false) ∧ State.reset.rings.length = 33 ∧
  (∀ k, (lget State.reset.rings k {}).head = 0#32 ∧ (lget State.reset.rings k {}).tail = 0#32 ∧ (lget State.reset.rings k {}).lost = 0#32) ∧
  (∀ c, (State.reset.cluster c).spans = []) ∧
  (∀ l, (State.reset.dirOf l).sharers = [] ∧ (State.reset.dirOf l).halfHeld = false ∧ (State.reset.dirOf l).remote = [] ∧
    (State.reset.dirOf l).snoops = [] ∧ (State.reset.dirOf l).lock = none ∧ (State.reset.dirOf l).scopeRec = none) ∧
  State.reset.devPend = [] ∧ State.reset.fyWait = [] ∧ State.reset.fyOpen = [] ∧ State.reset.fyOut = [] ∧ State.reset.fyL2 = [] ∧
  State.reset.hostHalf = [] ∧ State.reset.hostAsk = [] ∧ State.reset.reds = [] ∧ State.reset.colls = [] ∧ State.reset.objects = [] ∧
  State.reset.mem = [] ∧ State.reset.wst = [] ∧ State.reset.lsm = [] ∧ State.reset.hmem = []) ∧
  (State.reset.memsOk)

/-- Every step keeps every memory in canonical form: equal memories stay equal data. -/
def Obligations.StepKeepsMemoriesCanonical : Prop :=
  ∀ s t : State, s.memsOk → step s = .next t → t.memsOk

/-- No step stops the machine: every fault of the manual is taken, recorded or escalated (R345), and no instruction is refused. -/
def Obligations.EveryStepContinues : Prop :=
  ∀ s : State, Continues s

/-- A step takes the head of the agenda (log 2) and runs exec of the instruction it decodes there. PE(x, y): the context chosen under R302
executes the operation that its words decode to. A unit's sequencer: the four bytes at CCNT, fetched with the access of a fetch, decode to
the word that is executed for that unit (R148, R274); a fetch that faults raises 0x0E4, or 0x160 for a line that fails its check. An engine:
the message at the head of its inbox is executed as the command its opcode names (R153, R261); one whose opcode has no row is refused with
0x0C1. An event of the table is executed with the arguments that its agent gives it. -/
def Obligations.StepsRunTheDecodedInstruction : Prop :=
  (∀ (s s0 : State) (cl x y : Nat) (rest : List Pick), s.agenda = .pe cl x y :: rest → s0 = { s with agenda := rest } →
    (∀ (c uid : Nat) (p : PeCtx) (i : Instr), s0.peTurn cl x y = true → s0.choosePe cl x y = some c → s0.unitAt cl c = some uid →
      p = (s.unit uid).pe ((s.unit uid).keyOf ⟨cl, x, y, c⟩) → p.consumes = true → decodePe p.op p.seq p.imm = some i →
      step s = exec i { s0.takeTurn cl x y with focus := ⟨cl, x, y, c⟩ }) ∧
    (s0.peTurn cl x y = true → s0.choosePe cl x y = none → step s = .next (s0.takeTurn cl x y)) ∧
    (s0.peTurn cl x y = false → step s = .next s0)) ∧
  (∀ (s : State) (uid : Nat) (u : UnitSt) (rest : List Pick),
    s.agenda = .word uid :: rest → aget s.units uid = some u → State.sequences { s with agenda := rest } u = true →
    (∀ s1 bs, readG { s with agenda := rest } u.lead u.job u.ccnt.toNat 4 .fetch 3 = (s1, .ok bs) →
      step s = exec (decodeCtl (BitVec.ofNat 32 (leNat bs))) { s1.modUnit uid (fun u => { u with cameFrom := none }) with curUnit := uid }) ∧
    (∀ s1 f, readG { s with agenda := rest } u.lead u.job u.ccnt.toNat 4 .fetch 3 = (s1, .error (.fault f)) →
      step s = .next (s1.fetchFault uid f))) ∧
  (∀ (s : State) (e : EngineId) (m : InMsg) (l : List InMsg) (rest : List Pick),
    s.agenda = .msg e :: rest → State.inbox { s with agenda := rest } e = m :: l →
    (State.clusterHalted { s with agenda := rest } m.cl m.job = false ∨ (s.unit m.unit).isDraining = true) →
    (∀ i, cmdRow m.opc m.msg = some i → step s = exec i { s with agenda := rest, curEng := e }) ∧
    (cmdRow m.opc m.msg = none →
      step s = .next ((State.setInbox { s with agenda := rest } e l).nack e m 0x0C1 0#64))) ∧
  (∀ (s : State) (i : Instr) (a : EvArgs) (rest : List Pick), s.agenda = .event i a :: rest →
    step s = if i.isEvent then exec i { s with agenda := rest, ev := a } else .next { s with agenda := rest })

/-- Words that the manual writes out decode to the instructions it says they are: `div.u.i32x2 q0, q1` (R166), `fma.f64.rne.sat q0, q1, e3 =>
e3` and `st.i64 q0, q1 <3,4,5>` (06, the worked encodings), `mmul.acc.xs8 a1, m2, b7, #0x11` (R253), `ldxs.t.xs8 m2 <0,1,2>` (R249), control
words (R148, R279) and the header of a CPY2D (R153). -/
def Obligations.WordsOfTheManualDecode : Prop :=
  (decodePe 0x0E481C00#32 0#32 0#32 = some (.div ⟨1, 2, 0, 1, 6, 0, 0, 0, false, 0, 0⟩)) ∧
  (decodePe 0x865418D0#32 0#32 0#32 = some (.fma ⟨1, 5, 0, 1, 4, 3, 1, 0, false, 0, 0⟩)) ∧
  (decodePe 0xC2041C30#32 0x00C04014#32 0#32 = some (.st ⟨0, 1, 0, 1, 6, 0, 3, 0, false, 0x00C04014, 0⟩)) ∧
  (decodePe 0xE448481D#32 0#32 0x11#32 = some (.mmul ⟨1, 2, 0, 4, 4, 0, 1, 6, true, 0, 0x11⟩)) ∧
  (decodePe 0xE0488000#32 0x00001008#32 0#32 = some (.ldxs ⟨1, 2, 1, 0, 0, 0, 0, 0, false, 0x00001008, 0⟩)) ∧
  (decodeCtl 0x2CA10000#32 = .ldg ⟨5, 1, 0, 0⟩) ∧ (decodeCtl 0x08600001#32 = .addi ⟨3, 0, 0, 1⟩) ∧
  (decodeCtl 0x74632000#32 = .iset ⟨3, 3, 4, 0⟩) ∧ (decodeCtl 0x60050000#32 = .cfgl ⟨0, 5, 0, 0⟩) ∧
  (decodeCtl 0x64000000#32 = .cfgs ⟨0, 0, 0, 0⟩) ∧ (decodeCtl 0x68000000#32 = .qwait ⟨0, 0, 0, 0⟩) ∧
  (decodeCtl 0x7CE00000#32 = .extr ⟨7, 0, 0, 0⟩) ∧ (decodeCtl 0x30C10008#32 = .stg ⟨6, 1, 0, 8⟩) ∧
  (decodeCtl 0xC0000000#32 = .done ⟨0, 0, 0, 0⟩) ∧
  ((decodeMessage [0x212000050611A000#64, 1#64, 2#64]).toOption.map Prod.fst =
    some (.cpy2d ⟨2, 0, 0, 5, 0x0611A000, [1#64, 2#64]⟩))

/-- Decoding what the encoder writes for a well-formed PE instruction gives the instruction back, with every field (R142, R146). -/
def Obligations.PeEncodingRoundTrips : Prop :=
  ∀ (i : Instr) (ws rest : List Word32), i.wf = true → i.isPe = true → encode i = some ws →
    decodePeWords (ws ++ rest) = .ok (i, rest)

/-- Decoding what the encoder writes for a well-formed control word gives the word back (R147, R148), and every 32-bit word is the encoding of
the word it decodes to, if that is well formed. Decoding what the encoder writes for a well-formed engine command gives the command back
with its pointers (R153). -/
def Obligations.StreamEncodingsRoundTrip : Prop :=
  ((∀ (i : Instr) (ws : List Word32), i.wf = true → i.isCtl = true → encode i = some ws → ws.map decodeCtl = [i]) ∧
  (∀ w : Word32, (decodeCtl w).wf = true → encode (decodeCtl w) = some [w])) ∧
  (∀ (i : Instr) (ws rest : List Word), i.wf = true → encodeCmd i = some ws → decodeMessage (ws ++ rest) = .ok (i, rest))

/-! ### Firings -/

/-- When a PE fires (R23, R35, R145): the focus names a PE that may fire; the element register that selector 4 reads is full; its queues hold
tokens of one tag; and the word, selector 7, the operand tags and the colours pass their checks. Then the firing has those tokens, the
operands that the selectors name, and the tag of its first token with the joined colour and the OR of LAST. -/
def Obligations.FiringIsReady : Prop :=
  ∀ (opc : Nat) (w : PeWord) (s : State) (uid key : Nat) (toks : List (Nat × Token)) (col : BitVec 2),
    s.focusPe = some (uid, key) →
    eregReady w (((s.unit uid).purge key).pe key) = true →
    ((s.unit uid).purge key).matchSet key (selQueues w) (fun _ => true) = some toks →
    wordFault opc ((s.unit uid).purge key).rm w = none →
    emptySel7 w (((s.unit uid).purge key).pe key) = false →
    tagFaults opc w (operandsOf opc w (((s.unit uid).purge key).pe key) toks).1
      (operandsOf opc w (((s.unit uid).purge key).pe key) toks).2.1 (operandsOf opc w (((s.unit uid).purge key).pe key) toks).2.2 = none →
    ((s.unit uid).purge key).joinCol (toks.map Prod.snd) = some col →
    ∃ g : Gathered, prepFire opc w s = .go (s.setUnit uid ((s.unit uid).purge key)) uid key g ∧ g.toks = toks ∧
      (g.a, g.b, g.c) = operandsOf opc w (((s.unit uid).purge key).pe key) toks ∧ g.tok.col = col ∧
      g.tok.last = toks.any (fun p => p.2.last) ∧ g.tok.lvl = ((toks.map Prod.snd).headD {}).lvl ∧
      g.tok.itag = ((toks.map Prod.snd).headD {}).itag ∧ g.tok.wave = ((toks.map Prod.snd).headD {}).wave

/-- Every computing row completes: it consumes its operands and delivers its result with its tag, and raises its sticky flags, when its operands
raise no cause and no flag whose trap is enabled (R24, R64, R162, R165 to R174, R200 to R223). -/
def Obligations.ComputingRowsComplete : Prop :=
  ∀ (i : Instr) (r : CalcRow) (s s1 : State) (uid key : Nat) (g : Gathered) (v : Word) (t : Nat) (fl : List (Nat × Nat)),
    calcRow i = some r → Fires r s s1 uid key g → r.f r.w g.env g.a g.b g.c = .ok v t fl →
    trapFlag (s1.unit uid).uctl.toNat (flagUnion fl) = none →
    exec i s = .next (afterCalc s1 uid key r.w g v t (flagUnion fl))

/-- A computing row that raises a flag whose trap is enabled (R64): the sticky flags are set, nothing is consumed or delivered, and the cause of
the lowest enabled flag is taken with the mask of the lanes that raised it. -/
def Obligations.EnabledTrapsHoldTheFiring : Prop :=
  ∀ (i : Instr) (r : CalcRow) (s s1 : State) (uid key : Nat) (g : Gathered) (v : Word) (t k : Nat) (fl : List (Nat × Nat)),
    calcRow i = some r → Fires r s s1 uid key g → r.f r.w g.env g.a g.b g.c = .ok v t fl →
    trapFlag (s1.unit uid).uctl.toNat (flagUnion fl) = some k →
    exec i s = .next ((s1.modUnit uid (fun u => u.raiseFlags (flagUnion fl))).faultAt uid key
      (raise (0x040 + k) g.tok (wd (flagLanes fl k)))) ∧
    bit (flagUnion fl) k = true ∧ bit (s1.unit uid).uctl.toNat k = true ∧
    (∀ j, j < k → (bit (flagUnion fl) j && bit (s1.unit uid).uctl.toNat j) = false)

/-- The frame of a computing row (R24, R64, R162): memories, directories, queues, phases, jobs, rounds, other units, and of its own unit every
register of the sequencer and every special register, colour, image and waiting fault, are unchanged, and of other PEs everything is
unchanged; only its PE's queues, element registers and out port, the matching store, FIRED, the watchdog, the sticky flags and the tokens on
links change. A firing that was a debugger's step uses the step up in every context of the job and leaves REASON 3 (R367). -/
def Obligations.ComputingRowsFrame : Prop :=
  ∀ (i : Instr) (r : CalcRow) (s s1 t : State) (uid key : Nat) (g : Gathered) (v : Word) (tg : Nat) (fl : List (Nat × Nat)),
    calcRow i = some r → Fires r s s1 uid key g → r.f r.w g.env g.a g.b g.c = .ok v tg fl →
    trapFlag (s1.unit uid).uctl.toNat (flagUnion fl) = none → exec i s = .next t →
    (∀ a, t.mem.rd a = s.mem.rd a ∧ t.wst.rd a = s.wst.rd a ∧ t.lsm.rd a = s.lsm.rd a ∧ t.hmem.rd a = s.hmem.rd a) ∧
    t.dir = s.dir ∧ t.net = s.net ∧ t.clusters = s.clusters ∧ t.dies = s.dies ∧ t.queues = s.queues ∧ t.insts = s.insts ∧
    t.phases = s.phases ∧ t.rings = s.rings ∧ t.runs = s.runs ∧ t.tlb = s.tlb ∧ t.reds = s.reds ∧ t.colls = s.colls ∧ t.msix = s.msix ∧
    (((s.unit uid).pe key).stepOnce = false → t.jobs = s.jobs ∧ ∀ v, v ≠ uid → aget t.units v = aget s.units v) ∧
    (((s.unit uid).pe key).stepOnce = true → t.jobs = (s.modJob (s.unit uid).job (fun j => { j with dbgReason := 3 })).jobs ∧
      ∀ v, v ≠ uid → (aget t.units v).map stepless = (aget s.units v).map stepless) ∧
    (t.unit uid).g = (s.unit uid).g ∧ (t.unit uid).ccnt = (s.unit uid).ccnt ∧ (t.unit uid).tvec = (s.unit uid).tvec ∧
    (t.unit uid).tepc = (s.unit uid).tepc ∧ (t.unit uid).tcause = (s.unit uid).tcause ∧ (t.unit uid).taddr = (s.unit uid).taddr ∧
    (t.unit uid).ttag = (s.unit uid).ttag ∧ (t.unit uid).rm = (s.unit uid).rm ∧ (t.unit uid).uctl = (s.unit uid).uctl ∧
    (t.unit uid).tags = (s.unit uid).tags ∧ (t.unit uid).sb = (s.unit uid).sb ∧ (t.unit uid).sinks = (s.unit uid).sinks ∧
    (t.unit uid).status = (s.unit uid).status ∧ (t.unit uid).handler = (s.unit uid).handler ∧
    (t.unit uid).lvl = (s.unit uid).lvl ∧ (t.unit uid).ovft = (s.unit uid).ovft ∧ (t.unit uid).ixb = (s.unit uid).ixb ∧
    (t.unit uid).ixs = (s.unit uid).ixs ∧ (t.unit uid).ixn = (s.unit uid).ixn ∧ (t.unit uid).swz = (s.unit uid).swz ∧
    (t.unit uid).gates = (s.unit uid).gates ∧ (t.unit uid).col1 = (s.unit uid).col1 ∧ (t.unit uid).col2 = (s.unit uid).col2 ∧
    (t.unit uid).col3 = (s.unit uid).col3 ∧ (t.unit uid).decided = (s.unit uid).decided ∧ (t.unit uid).staged = (s.unit uid).staged ∧
    (t.unit uid).active = (s.unit uid).active ∧ (t.unit uid).tagOrder = (s.unit uid).tagOrder ∧ (t.unit uid).openWave = (s.unit uid).openWave ∧
    (t.unit uid).curFault = (s.unit uid).curFault ∧ (t.unit uid).pend = (s.unit uid).pend ∧
    (∀ k, k ≠ key → (t.unit uid).pe k = (s.unit uid).pe k)

/-- The integer rows of R165, lane by lane; x, y, z are the lanes of a, b, c and n the lane width. DIV and REM: a zero divisor gives all ones
and the dividend and raises DZ; otherwise the quotient towards zero and the remainder with the dividend's sign. -/
def Obligations.IntegerLanes : Prop :=
  (LaneRow .add (fun _ n x y _ => (x + y) % 2 ^ n) ∧ LaneRow .sub (fun _ n x y _ => (x + 2 ^ n - y) % 2 ^ n) ∧
  LaneRow .neg (fun _ n x _ _ => (2 ^ n - x) % 2 ^ n) ∧ LaneRow .mul (fun _ n x y _ => x * y % 2 ^ n) ∧
  LaneRow .mulh (fun w n x y _ => wrapNat n (laneVal (isU w) n x * laneVal (isU w) n y / ((2 ^ n : Nat) : Int))) ∧
  LaneRow .madd (fun _ n x y z => (x * y + z) % 2 ^ n) ∧
  LaneRow .min (fun w n x y _ => if laneVal (isU w) n y < laneVal (isU w) n x then y else x) ∧
  LaneRow .max (fun w n x y _ => if laneVal (isU w) n x < laneVal (isU w) n y then y else x) ∧
  LaneRow .abs (fun _ n x _ _ => (sextNat n x).natAbs % 2 ^ n) ∧
  LaneRow .absd (fun w n x y _ => (laneVal (isU w) n x - laneVal (isU w) n y).natAbs) ∧
  LaneRow .adds (fun w n x y _ => wrapNat n (clampInt (laneMin (isU w) n) (laneMax (isU w) n) (laneVal (isU w) n x + laneVal (isU w) n y))) ∧
  LaneRow .subs (fun w n x y _ => wrapNat n (clampInt (laneMin (isU w) n) (laneMax (isU w) n) (laneVal (isU w) n x - laneVal (isU w) n y)))) ∧
  (FlagRow .div (fun w => w.fmt.toNat) (fun w _ x y _ =>
    if y = 0 then (2 ^ laneW w.fmt.toNat - 1, 2)
    else (wrapNat (laneW w.fmt.toNat) ((laneVal (isU w) (laneW w.fmt.toNat) x).tdiv (laneVal (isU w) (laneW w.fmt.toNat) y)), 0)) ∧
  FlagRow .rem (fun w => w.fmt.toNat) (fun w _ x y _ =>
    if y = 0 then (x, 2)
    else (wrapNat (laneW w.fmt.toNat) ((laneVal (isU w) (laneW w.fmt.toNat) x).tmod (laneVal (isU w) (laneW w.fmt.toNat) y)), 0)))

/-- Shifts, counts and bit fields, lane by lane (R168, R169). The bitwise rows act on all 64 bits and deliver tag FMT (R167). CMP delivers a
predicate: bit l of the payload is the condition of SUB on lane l, and the others are 0 (R166). -/
def Obligations.LogicAndBitLanes : Prop :=
  (LaneRow .shl (fun _ n x y _ => x * 2 ^ (y % n) % 2 ^ n) ∧ LaneRow .shr (fun _ n x y _ => x / 2 ^ (y % n)) ∧
  LaneRow .sra (fun _ n x y _ => wrapNat n (sextNat n x / ((2 ^ (y % n) : Nat) : Int))) ∧
  LaneRow .rot (fun _ n x y _ => (x * 2 ^ (y % n) + x / 2 ^ (n - y % n)) % 2 ^ n) ∧
  LaneRow .clz (fun _ n x _ _ => if x = 0 then n else n - 1 - Nat.log2 x) ∧
  LaneRow .ctz (fun _ n x _ _ => ctzNat n x) ∧ LaneRow .popc (fun _ n x _ _ => popNat n x) ∧
  LaneRow .bext (fun _ n x y _ => if n ≤ bits y 5 0 ∨ bits y 14 8 = 0 then 0 else x / 2 ^ bits y 5 0 % 2 ^ Nat.min (bits y 14 8) (n - bits y 5 0)) ∧
  LaneRow .bins (fun _ n x y z => binsLane n x y z)) ∧
  (∀ (w : PeWord) (f : Word → Word → Word) (i : Instr) (r : CalcRow) (s s1 : State) (uid key : Nat) (g : Gathered),
    (i, f) ∈ [(Instr.and w, fun a b => a &&& b), (Instr.or w, fun a b => a ||| b), (Instr.xor w, fun a b => a ^^^ b),
      (Instr.andn w, fun a b => a &&& ~~~b), (Instr.not w, fun a _ => ~~~a)] →
    calcRow i = some r → Fires r s s1 uid key g →
    exec i s = .next (afterCalc s1 uid key w g (f g.a.v g.b.v) w.fmt.toNat 0)) ∧
  (∀ (w : PeWord) (s s1 : State) (uid key : Nat) (g : Gathered),
    prepFire 0x0F w s = .go s1 uid key g →
    ∃ v : Word, exec (.cmp w) s = .next (afterCalc s1 uid key w g v 13 0) ∧
      ∀ l, l < 64 → v.getLsbD l = (decide (l < lanesOf w.fmt.toNat) &&
        cmpCond w.sub.toNat (laneW w.fmt.toNat) (opLane g.a w.fmt.toNat l) (opLane g.b w.fmt.toNat l)))

/-- SEXT and ZEXT, LEA, BCHK, SEL and MOVE (R170 to R174). FABS and FNEG change the sign bit of each lane and nothing else, also of a NaN
(R201); LBC, LEXT, LINS and LSHUF move lanes (R219, R220). -/
def Obligations.SelectionAndLaneMoves : Prop :=
  ((∀ (w : PeWord) (s s1 : State) (uid key : Nat) (g : Gathered), prepFire 0x20 w s = .go s1 uid key g →
    exec (.lea w) s = .next (afterCalc s1 uid key w g
      (if w.fmt = 14#4 then g.a.v.extractLsb' 56 8 ++ (g.a.v.setWidth 56 + (g.b.v <<< w.sub.toNat).setWidth 56)
       else g.a.v + (g.b.v <<< w.sub.toNat)) w.fmt.toNat 0)) ∧
  (∀ (w : PeWord) (s s1 : State) (uid key : Nat) (g : Gathered), prepFire 0x21 w s = .go s1 uid key g → w.fmt ≠ 14#4 →
    (∀ l, l < lanesOf w.fmt.toNat → opLane g.c w.fmt.toNat l ≤ opLane g.a w.fmt.toNat l ∧ opLane g.a w.fmt.toNat l < opLane g.b w.fmt.toNat l) →
    exec (.bchk w) s = .next (afterCalc s1 uid key w g g.a.v w.fmt.toNat 0)) ∧
  (∀ (w : PeWord) (s s1 : State) (uid key : Nat) (g : Gathered), prepFire 0x21 w s = .go s1 uid key g → w.fmt ≠ 14#4 →
    (∃ l, l < lanesOf w.fmt.toNat ∧ ¬ (opLane g.c w.fmt.toNat l ≤ opLane g.a w.fmt.toNat l ∧ opLane g.a w.fmt.toNat l < opLane g.b w.fmt.toNat l)) →
    ∃ mask : Word, exec (.bchk w) s = .next (s1.faultAt uid key (raise 0x048 g.tok mask)) ∧ ∀ l, l < 64 → mask.getLsbD l =
      (decide (l < lanesOf w.fmt.toNat) &&
        !decide (opLane g.c w.fmt.toNat l ≤ opLane g.a w.fmt.toNat l ∧ opLane g.a w.fmt.toNat l < opLane g.b w.fmt.toNat l))) ∧
  (∀ (w : PeWord) (s s1 : State) (uid key : Nat) (g : Gathered), prepFire 0x21 w s = .go s1 uid key g → w.fmt = 14#4 →
    exec (.bchk w) s = .next (if g.c.v.toNat % 2 ^ 56 ≤ g.a.v.toNat % 2 ^ 56 ∧ g.a.v.toNat % 2 ^ 56 < g.b.v.toNat % 2 ^ 56
      then afterCalc s1 uid key w g g.a.v 14 0 else s1.faultAt uid key (raise 0x048 g.tok 1#64))) ∧
  (∀ (w : PeWord) (s s1 : State) (uid key : Nat) (g : Gathered), prepFire 0x22 w s = .go s1 uid key g → g.a.t = 1 →
    exec (.sel w) s = .next (afterCalc s1 uid key w g (if g.a.v = 0#64 then g.c.v else g.b.v) w.fmt.toNat 0)) ∧
  (∀ (w : PeWord) (s s1 : State) (uid key : Nat) (g : Gathered), prepFire 0x22 w s = .go s1 uid key g → g.a.t = 13 →
    ∃ v, exec (.sel w) s = .next (afterCalc s1 uid key w g v w.fmt.toNat 0) ∧ ∀ l, l < lanesOf w.fmt.toNat →
      lane v (laneW w.fmt.toNat) l = if g.a.v.getLsbD l then opLane g.b w.fmt.toNat l else opLane g.c w.fmt.toNat l) ∧
  (∀ (w : PeWord) (s s1 : State) (uid key : Nat) (g : Gathered), prepFire 0x23 w s = .go s1 uid key g →
    exec (.move w) s = .next (afterCalc s1 uid key w g g.a.v (if w.sub.getLsbD 0 then w.fmt.toNat else g.a.t) 0)) ∧
  (∀ (w : PeWord) (s s1 : State) (uid key : Nat) (g : Gathered), prepFire 0x1E w s = .go s1 uid key g →
    ∃ v, exec (.sext w) s = .next (afterCalc s1 uid key w g v w.fmt.toNat 0) ∧ ∀ l, l < lanesOf w.fmt.toNat →
      lane v (laneW w.fmt.toNat) l = wrapNat (laneW w.fmt.toNat) (sextNat (8 * 2 ^ w.sub.toNat) (opLane g.a w.fmt.toNat l))) ∧
  (∀ (w : PeWord) (s s1 : State) (uid key : Nat) (g : Gathered), prepFire 0x1F w s = .go s1 uid key g →
    ∃ v, exec (.zext w) s = .next (afterCalc s1 uid key w g v w.fmt.toNat 0) ∧ ∀ l, l < lanesOf w.fmt.toNat →
      lane v (laneW w.fmt.toNat) l = opLane g.a w.fmt.toNat l % 2 ^ (8 * 2 ^ w.sub.toNat))) ∧
  (LaneRow .fabs (fun _ n x _ _ => x % 2 ^ (n - 1)) ∧
  LaneRow .fneg (fun _ n x _ _ => (x + 2 ^ (n - 1)) % 2 ^ n) ∧
  (∀ (w : PeWord) (s s1 : State) (uid key : Nat) (g : Gathered), prepFire 0x58 w s = .go s1 uid key g →
    ∃ v, exec (.lbc w) s = .next (afterCalc s1 uid key w g v w.fmt.toNat 0) ∧ ∀ l, l < lanesOf w.fmt.toNat →
      lane v (laneW w.fmt.toNat) l = opLane g.a w.fmt.toNat (laneIdx g.b (lanesOf w.fmt.toNat))) ∧
  (∀ (w : PeWord) (s s1 : State) (uid key : Nat) (g : Gathered), prepFire 0x5C w s = .go s1 uid key g →
    exec (.lext w) s = .next (afterCalc s1 uid key w g (wd (opLane g.a w.fmt.toNat (laneIdx g.b (lanesOf w.fmt.toNat)))) w.fmt.toNat 0)) ∧
  (∀ (w : PeWord) (s s1 : State) (uid key : Nat) (g : Gathered), prepFire 0x5D w s = .go s1 uid key g →
    ∃ v, exec (.lins w) s = .next (afterCalc s1 uid key w g v w.fmt.toNat 0) ∧ ∀ l, l < lanesOf w.fmt.toNat →
      lane v (laneW w.fmt.toNat) l = if l = laneIdx g.c (lanesOf w.fmt.toNat) then opLane g.b w.fmt.toNat 0 else opLane g.a w.fmt.toNat l) ∧
  (∀ (w : PeWord) (s s1 : State) (uid key : Nat) (g : Gathered), prepFire 0x59 w s = .go s1 uid key g →
    ∃ v, exec (.lshuf w) s = .next (afterCalc s1 uid key w g v w.fmt.toNat 0) ∧ ∀ l, l < lanesOf w.fmt.toNat →
      lane v (laneW w.fmt.toNat) l =
        if lane g.b.v (64 / lanesOf w.fmt.toNat) l % (2 * lanesOf w.fmt.toNat) < lanesOf w.fmt.toNat then
          opLane g.a w.fmt.toNat (lane g.b.v (64 / lanesOf w.fmt.toNat) l % (2 * lanesOf w.fmt.toNat))
        else opLane g.c w.fmt.toNat (lane g.b.v (64 / lanesOf w.fmt.toNat) l % (2 * lanesOf w.fmt.toNat) - lanesOf w.fmt.toNat)))

/-- The floating-point arithmetic rows, lane by lane, with their flags: the exact result of R200 and R204 brought to the format by the one
result stage of R63 under MOD, FZI, FZO and SAT; the estimates of R205 rounded to their bits; minimum and maximum (R202); and the predicate
of FCMP (R203), whose bits beyond the lanes are 0. -/
def Obligations.FloatArithmeticLanes : Prop :=
  FlagRow .fadd (fun w => w.fmt.toNat) (fun w env x y _ =>
    let r := addExact (modeOf w env) (fpLane (fziBit w) w.fmt.toNat x) (fpLane (fziBit w) w.fmt.toNat y); roundLane w env w.fmt.toNat r.1 r.2) ∧
  FlagRow .fsub (fun w => w.fmt.toNat) (fun w env x y _ =>
    let r := addExact (modeOf w env) (fpLane (fziBit w) w.fmt.toNat x) (fpLane (fziBit w) w.fmt.toNat y).negate; roundLane w env w.fmt.toNat r.1 r.2) ∧
  FlagRow .fmul (fun w => w.fmt.toNat) (fun w env x y _ =>
    let r := mulExact (modeOf w env) (fpLane (fziBit w) w.fmt.toNat x) (fpLane (fziBit w) w.fmt.toNat y); roundLane w env w.fmt.toNat r.1 r.2) ∧
  FlagRow .fdiv (fun w => w.fmt.toNat) (fun w env x y _ =>
    let r := divExact (modeOf w env) (fpLane (fziBit w) w.fmt.toNat x) (fpLane (fziBit w) w.fmt.toNat y); roundLane w env w.fmt.toNat r.1 r.2) ∧
  FlagRow .fma (fun w => w.fmt.toNat) (fun w env x y z =>
    let r := fmaExact false false (modeOf w env) (fpLane (fziBit w) w.fmt.toNat x) (fpLane (fziBit w) w.fmt.toNat y) (fpLane (fziBit w) w.fmt.toNat z)
    roundLane w env w.fmt.toNat r.1 r.2) ∧
  FlagRow .fms (fun w => w.fmt.toNat) (fun w env x y z =>
    let r := fmaExact false true (modeOf w env) (fpLane (fziBit w) w.fmt.toNat x) (fpLane (fziBit w) w.fmt.toNat y) (fpLane (fziBit w) w.fmt.toNat z)
    roundLane w env w.fmt.toNat r.1 r.2) ∧
  FlagRow .fnma (fun w => w.fmt.toNat) (fun w env x y z =>
    let r := fmaExact true false (modeOf w env) (fpLane (fziBit w) w.fmt.toNat x) (fpLane (fziBit w) w.fmt.toNat y) (fpLane (fziBit w) w.fmt.toNat z)
    roundLane w env w.fmt.toNat r.1 r.2) ∧
  FlagRow .fsqrt (fun w => w.fmt.toNat) (fun w env x _ _ =>
    let r := sqrtExact (fpLane (fziBit w) w.fmt.toNat x); roundLane w env w.fmt.toNat r.1 r.2) ∧
  FlagRow .fmin (fun w => w.fmt.toNat) (fun w _ x y _ =>
    minMaxCode (ffmtOf w.fmt.toNat) false (fzoBit w) (fziCode (ffmtOf w.fmt.toNat) (fziBit w) x) (fziCode (ffmtOf w.fmt.toNat) (fziBit w) y)) ∧
  FlagRow .fmax (fun w => w.fmt.toNat) (fun w _ x y _ =>
    minMaxCode (ffmtOf w.fmt.toNat) true (fzoBit w) (fziCode (ffmtOf w.fmt.toNat) (fziBit w) x) (fziCode (ffmtOf w.fmt.toNat) (fziBit w) y)) ∧
  FlagRow .frcpe (fun w => w.fmt.toNat) (fun w _ x _ _ =>
    let r := rcpExact (fpLane (fziBit w) w.fmt.toNat x)
    let d := deliverFp (ffmtOf w.fmt.toNat) 0 false false (roundSig (estBits w.fmt.toNat) r.1)
    (d.1, d.2 ||| r.2)) ∧
  FlagRow .frsqe (fun w => w.fmt.toNat) (fun w _ x _ _ =>
    let r := rsqExact (fpLane (fziBit w) w.fmt.toNat x)
    let d := deliverFp (ffmtOf w.fmt.toNat) 0 false false (roundSig (estBits w.fmt.toNat) r.1)
    (d.1, d.2 ||| r.2)) ∧
  FlagRow .fcmp (fun _ => 13) (fun w _ x y _ =>
    fcmpLane (w.sub.toNat % 4) (fpLane (fziBit w) w.fmt.toNat x) (fpLane (fziBit w) w.fmt.toNat y)) ∧
  (∀ (w : PeWord) (s s1 : State) (uid key : Nat) (g : Gathered), prepFire 0x4A w s = .go s1 uid key g → (s1.unit uid).uctl.toNat % 32 = 0 →
    ∃ (v : Word) (fl : Nat), exec (.fcmp w) s = .next (afterCalc s1 uid key w g v 13 fl) ∧ ∀ l, lanesOf w.fmt.toNat ≤ l → v.getLsbD l = false)

/-- The values of FCLASS, FCVT, FTOI, ITOF, FRND and FSCALE, lane by lane, with their flags; a conversion takes the lanes that source and result
both have, and the others are 0. CBD and CBE look up and search the codebook in e4 to e7. LSUM by the tree of R75, LDOT exact with one
rounding for each result lane, LRED, LPACK and LUNPK (R206 to R223). -/
def Obligations.FloatConversionAndLaneValues : Prop :=
  ((∀ (w : PeWord) (s s1 : State) (uid key : Nat) (g : Gathered), prepFire 0x4F w s = .go s1 uid key g →
    ∃ v : Word, exec (.fclass w) s = .next (afterCalc s1 uid key w g v (intTagOf w.fmt.toNat) 0) ∧ ∀ l, l < lanesOf w.fmt.toNat →
      lane v (laneW w.fmt.toNat) l = 2 ^ fclassBit (ffmtOf w.fmt.toNat) (opLane g.a w.fmt.toNat l) % 2 ^ laneW w.fmt.toNat) ∧
  ConvRow .fcvt (fun w env t c =>
    let x := fpLane (fziBit w) t c
    roundLane w env w.fmt.toNat x (snanFlag [x])) ∧
  ConvRow .ftoi (fun w env t c => deliverInt (laneW w.fmt.toNat) (w.sub.getLsbD 1) (modeOf w env) (fpLane (fziBit w) t c)) ∧
  ConvRow .itof (fun w env t c => roundLane w env w.fmt.toNat (intFp (laneVal (fziBit w) (laneW t) c)) 0) ∧
  FlagRow .frnd (fun w => w.fmt.toNat) (fun w env x _ _ => frndLane (ffmtOf w.fmt.toNat) (modeOf w env) (fziCode (ffmtOf w.fmt.toNat) (fziBit w) x)) ∧
  FlagRow .fscale (fun w => w.fmt.toNat) (fun w env x y _ =>
    let v := fpLane (fziBit w) w.fmt.toNat x
    let r : FpVal := match v with
      | .fin n m e => .fin n m (e + clampInt (-5000) 5000 (sextNat (laneW w.fmt.toNat) y))
      | v => v
    roundLane w env w.fmt.toNat r (snanFlag [v])) ∧
  (∀ (w : PeWord) (s s1 : State) (uid key : Nat) (g : Gathered), prepFire 0x54 w s (fun _ _ => true) tableFull = .go s1 uid key g →
    tableFault g.env.ereg = none →
    ∃ v : Word, exec (.cbd w) s = .next (afterCalc s1 uid key w g v 8 0) ∧ ∀ l, l < 4 →
      lane v 16 l = tableEntry g.env.ereg (lane g.a.v 4 (4 * (g.b.v.toNat % 4) + l))) ∧
  (∀ (w : PeWord) (s s1 : State) (uid key q : Nat) (g : Gathered) (tb : List FpVal), prepFire 0x55 w s (fun _ _ => true) tableFull = .go s1 uid key g →
    tableFault g.env.ereg = none → (s1.unit uid).uctl.toNat % 32 = 0 → q = g.b.v.toNat % 4 →
    tb = (upFrom 0 16).map (fun k => decodeFp fmtBf16 (tableEntry g.env.ereg k)) →
    ∃ (v : Word) (fl : Nat), exec (.cbe w) s = .next (afterCalc s1 uid key w g v 12 fl) ∧
      (∀ l, l < 16 → lane v 4 l = if 4 * q ≤ l ∧ l < 4 * q + 4 then (cbeLane tb (decodeFp fmtBf16 (lane g.a.v 16 (l - 4 * q)))).1 % 16 else lane g.c.v 4 l) ∧
      (∀ k, k < 5 → (bit fl k = true ↔ ∃ l, l < 4 ∧ bit (cbeLane tb (decodeFp fmtBf16 (lane g.a.v 16 l))).2 k = true))) ∧
  (∀ (i : Instr) (w : PeWord) (opc c : Nat) (d : Word) (s s1 : State) (uid key : Nat) (g : Gathered), (i, opc) ∈ [(Instr.cbd w, 0x54), (Instr.cbe w, 0x55)] →
    prepFire opc w s (fun _ _ => true) tableFull = .go s1 uid key g → tableFault g.env.ereg = some (c, d) →
    exec i s = .next (s1.faultAt uid key (raise c g.tok d)))) ∧
  ((∀ (w : PeWord) (s s1 : State) (uid key : Nat) (g : Gathered), prepFire 0x56 w s = .go s1 uid key g → w.fmt.toNat ≤ 4 →
    ∃ v : Word, exec (.lsum w) s = .next (afterCalc s1 uid key w g v w.fmt.toNat 0) ∧ ∀ l, l < lanesOf w.fmt.toNat →
      lane v (laneW w.fmt.toNat) l = ((upFrom 0 (lanesOf w.fmt.toNat)).map (opLane g.a w.fmt.toNat)).sum % 2 ^ laneW w.fmt.toNat) ∧
  (∀ (w : PeWord) (s s1 : State) (uid key : Nat) (g : Gathered) (f : Nat → Nat → Nat × Nat), prepFire 0x56 w s = .go s1 uid key g → 6 ≤ w.fmt.toNat →
    (s1.unit uid).uctl.toNat % 32 = 0 →
    (∀ x y, f x y = (let r := addExact (modeOf w g.env) (fpLane (fziBit w) w.fmt.toNat x) (fpLane (fziBit w) w.fmt.toNat y); roundLane w g.env w.fmt.toNat r.1 r.2)) →
    ∃ (v : Word) (fl : Nat), exec (.lsum w) s = .next (afterCalc s1 uid key w g v w.fmt.toNat fl) ∧
      (∀ l, l < lanesOf w.fmt.toNat → lane v (laneW w.fmt.toNat) l =
        treeSum f (opLane g.a w.fmt.toNat) (Nat.log2 (lanesOf w.fmt.toNat)) 0 % 2 ^ laneW w.fmt.toNat) ∧
      (∀ k, k < 5 → bit fl k = treeRaises f (opLane g.a w.fmt.toNat) k (Nat.log2 (lanesOf w.fmt.toNat)) 0)) ∧
  (∀ (w : PeWord) (s s1 : State) (uid key : Nat) (g : Gathered), prepFire 0x56 w s = .go s1 uid key g → w.fmt.toNat = 5 →
    (s1.unit uid).uctl.toNat % 32 = 0 →
    exec (.lsum w) s = .next (if (decodeFp fmtF64 g.a.v.toNat).isNan
      then afterCalc s1 uid key w g (wd fmtF64.cnan) 5 (if (decodeFp fmtF64 g.a.v.toNat).isSnan then 1 else 0)
      else afterCalc s1 uid key w g (wd (fziCode fmtF64 (fziBit w) g.a.v.toNat)) 5 0)) ∧
  (∀ (w : PeWord) (s s1 : State) (uid key rt : Nat) (g : Gathered), prepFire 0x57 w s = .go s1 uid key g → (s1.unit uid).uctl.toNat % 32 = 0 →
    rt = (if w.fmt.toNat ≤ 6 then 5 else 6) →
    ∃ (v : Word) (fl : Nat), exec (.ldot w) s = .next (afterCalc s1 uid key w g v rt fl) ∧
      (∀ j, j < lanesOf rt → lane v (laneW rt) j = (dotLane w g rt j).1 % 2 ^ laneW rt) ∧
      (∀ k, k < 5 → (bit fl k = true ↔ ∃ j, j < lanesOf rt ∧ bit (dotLane w g rt j).2 k = true))) ∧
  (∀ (w : PeWord) (s s1 : State) (uid key : Nat) (g : Gathered), prepFire 0x5E w s = .go s1 uid key g → w.fmt.toNat ≤ 4 →
    ∃ (v : Word) (m : Nat), exec (.lred w) s = .next (afterCalc s1 uid key w g v w.fmt.toNat 0) ∧ m < lanesOf w.fmt.toNat ∧
      (∀ l, l < lanesOf w.fmt.toNat → lane v (laneW w.fmt.toNat) l = opLane g.a w.fmt.toNat m ∧
        (if w.sub.getLsbD 0 then sextNat (laneW w.fmt.toNat) (opLane g.a w.fmt.toNat m) ≤ sextNat (laneW w.fmt.toNat) (opLane g.a w.fmt.toNat l)
         else sextNat (laneW w.fmt.toNat) (opLane g.a w.fmt.toNat l) ≤ sextNat (laneW w.fmt.toNat) (opLane g.a w.fmt.toNat m)))) ∧
  (∀ (w : PeWord) (s s1 : State) (uid key : Nat) (g : Gathered) (F : FFmt), prepFire 0x5E w s = .go s1 uid key g → 5 ≤ w.fmt.toNat → F = ffmtOf w.fmt.toNat →
    (s1.unit uid).uctl.toNat % 32 = 0 →
    ∃ (v : Word) (fl : Nat), exec (.lred w) s = .next (afterCalc s1 uid key w g v w.fmt.toNat fl) ∧
      (∀ l, l < lanesOf w.fmt.toNat → lane v (laneW w.fmt.toNat) l =
        (if ∃ m, m < lanesOf w.fmt.toNat ∧ (decodeFp F (opLane g.a w.fmt.toNat m)).isNan = true then F.cnan
         else ((upFrom 1 (lanesOf w.fmt.toNat - 1)).map (opLane g.a w.fmt.toNat)).foldl (fun x y => (minMaxCode F (!w.sub.getLsbD 0) false x y).1)
           (opLane g.a w.fmt.toNat 0)) % 2 ^ laneW w.fmt.toNat) ∧
      (∀ k, k < 5 → (bit fl k = true ↔ k = 0 ∧ ∃ m, m < lanesOf w.fmt.toNat ∧ (decodeFp F (opLane g.a w.fmt.toNat m)).isSnan = true))) ∧
  (∀ (w : PeWord) (s s1 : State) (uid key ta tb : Nat) (g : Gathered), prepFire 0x5A w s = .go s1 uid key g → (s1.unit uid).uctl.toNat % 32 = 0 →
    ta = (if w.sa = 6#3 then g.b.t else g.a.t) → tb = (if w.sb = 6#3 then ta else g.b.t) →
    ((ta, w.fmt.toNat) ∉ packPairs → exec (.lpack w) s = .next (s1.faultAt uid key (raise 0x004 g.tok))) ∧
    ((ta, w.fmt.toNat) ∈ packPairs → tb ≠ ta → tb ≠ 15 → exec (.lpack w) s = .next (s1.faultAt uid key (raise 0x021 g.tok (wd (tb + 16))))) ∧
    ((ta, w.fmt.toNat) ∈ packPairs → tb = ta → ∃ (v : Word) (fl : Nat), exec (.lpack w) s = .next (afterCalc s1 uid key w g v w.fmt.toNat fl) ∧
      ∀ l, l < lanesOf w.fmt.toNat → ∃ c, c = (if l < lanesOf ta then opLane g.a ta l else opLane g.b ta (l - lanesOf ta)) ∧
        lane v (laneW w.fmt.toNat) l = (if w.fmt.toNat ≤ 4 then c
          else (deliverFp (ffmtOf w.fmt.toNat) (modeOf w g.env) false false (fpLane false ta c)).1) % 2 ^ laneW w.fmt.toNat)) ∧
  (∀ (w : PeWord) (s s1 : State) (uid key : Nat) (g : Gathered), prepFire 0x5B w s = .go s1 uid key g → (s1.unit uid).uctl.toNat % 32 = 0 →
    ((w.fmt.toNat, g.a.t) ∉ packPairs → exec (.lunpk w) s = .next (s1.faultAt uid key (raise 0x004 g.tok))) ∧
    ((w.fmt.toNat, g.a.t) ∈ packPairs → ∃ (v : Word) (fl : Nat), exec (.lunpk w) s = .next (afterCalc s1 uid key w g v w.fmt.toNat fl) ∧
      ∀ l, l < lanesOf w.fmt.toNat → ∃ c, c = opLane g.a g.a.t ((if w.sub.getLsbD 0 then lanesOf w.fmt.toNat else 0) + l) ∧
        lane v (laneW w.fmt.toNat) l = (if w.fmt.toNat ≤ 4 then wrapNat (laneW w.fmt.toNat) (sextNat (laneW g.a.t) c)
          else (deliverFp (ffmtOf w.fmt.toNat) 0 false false (fpLane false g.a.t c)).1 % 2 ^ laneW w.fmt.toNat))))

/-! ### Dataflow control -/

/-- CONST in both forms (R175), INV (R176) and CNTR in both forms (R180): the tokens that the firing emits, and what the node keeps for the
others. The tokens after the first (R31): a busy INV or triggered CNTR, a source-form CNTR and a free-form CONST emit when the wave window
is open. -/
def Obligations.ConstantsAndCounters : Prop :=
  ((∀ (w : PeWord) (s : State) (uid key : Nat), s.focusPe = some (uid, key) → ((s.unit uid).pe key).constFired = false →
    wordFault 0x24 (s.unit uid).rm w = none →
    exec (.constFree w) s = .next ((((s.modUnit uid (fun u => u.modPe key (fun p => { p with constFired := true }))).fired uid key).deliver uid key w
      { payload := constVal w, fmt := w.fmt, ctx := BitVec.ofNat 2 (s.unit uid).ctx, last := true }))) ∧
  (∀ (w : PeWord) (s s1 : State) (uid key : Nat) (g : Gathered), Go 0x24 w s s1 uid key g →
    exec (.constTriggered w) s = .next ((taken s1 uid key g).deliver uid key w { g.tok with payload := constVal w, fmt := w.fmt })) ∧
  (∀ (w : PeWord) (s s1 : State) (uid key : Nat) (g : Gathered), Go 0x25 w s s1 uid key g →
    (g.b.v = 0#64 → exec (.invOp w) s = .next (taken s1 uid key g)) ∧
    (g.b.v = 1#64 → exec (.invOp w) s = .next ((taken s1 uid key g).deliver uid key w { passed g with last := true })) ∧
    (1 < g.b.v.toNat → exec (.invOp w) s = .next
      ((((taken s1 uid key g).deliver uid key w { passed g with last := false }).useNode s.focus).setNode uid key (.inv (passed g) 1 g.b.v.toNat)))) ∧
  (∀ (w : PeWord) (s s1 : State) (uid key : Nat) (g : Gathered), Go 0x36 w s s1 uid key g →
    (g.a.v = 0#64 → exec (.cntrTriggered w) s = .next (taken s1 uid key g)) ∧
    (g.a.v = 1#64 → exec (.cntrTriggered w) s = .next ((taken s1 uid key g).deliver uid key w (cntrToken w g.tok g.b.v g.c.v 0 1))) ∧
    (1 < g.a.v.toNat → exec (.cntrTriggered w) s = .next
      ((((taken s1 uid key g).deliver uid key w (cntrToken w g.tok g.b.v g.c.v 0 g.a.v.toNat)).useNode s.focus).setNode uid key
        (.cntrTrig g.tok g.b.v g.c.v 1 g.a.v.toNat)))) ∧
  (∀ (w : PeWord) (s : State) (uid key k : Nat) (base step n : Word) (t : Token), s.evPe s.focus = some (uid, key) →
    nodeAt s uid key = .cntrSrc base step n k → wordFault 0x36 (s.unit uid).rm w = none → k < n.toNat →
    (s.unit uid).gates.getLsbD (w.imm.toNat / 16 % 16) = true →
    t = { payload := cntrVal w.fmt base step k, fmt := w.fmt, ctx := BitVec.ofNat 2 (s.unit uid).ctx, wave := BitVec.ofNat 10 k, last := k + 1 == n.toNat } →
    s.windowOpen uid t = true →
    exec (.cntrSource w) s = .next (((s.setNode uid key (.cntrSrc base step n (k + 1))).fired uid key).deliver uid key w t))) ∧
  ((∀ (s : State) (uid key k n : Nat) (t : Token), s.evPe s.ev.site = some (uid, key) → nodeAt s uid key = .inv t k n →
    (s.unit uid).killed t = false → s.emitsNow s.ev.site = true → s.windowOpen uid (invToken t k n) = true →
    exec .invRepeat s = .next ((((s.useNode s.ev.site).setNode uid key (if k + 1 = n then .idle else .inv t (k + 1) n)).progress uid).deliver uid key
      (wordAt s uid key) (invToken t k n))) ∧
  (∀ (s : State) (uid key k n : Nat) (t : Token) (base step : Word), s.evPe s.ev.site = some (uid, key) →
    nodeAt s uid key = .cntrTrig t base step k n → (s.unit uid).killed t = false → s.emitsNow s.ev.site = true →
    s.windowOpen uid (cntrToken (wordAt s uid key) t base step k n) = true →
    exec .cntrTriggeredEmit s = .next ((((s.useNode s.ev.site).setNode uid key (if k + 1 = n then .idle else .cntrTrig t base step (k + 1) n)).progress
      uid).deliver uid key (wordAt s uid key) (cntrToken (wordAt s uid key) t base step k n))) ∧
  (∀ (s s0 : State) (uid key k : Nat) (base step n : Word) (w : PeWord) (t : Token), s.evPe s.ev.site = some (uid, key) →
    s.turnAt s.ev.site = true → s0 = { s.takeTurn s.ev.site.cl s.ev.site.x s.ev.site.y with focus := s.ev.site } →
    ((s.unit uid).pe key).opc = 0x36#7 → nodeAt s uid key = .cntrSrc base step n k → w = wordAt s uid key → w.sa = 6#3 →
    wordFault 0x36 (s.unit uid).rm w = none → k < n.toNat → (s.unit uid).gates.getLsbD (w.imm.toNat / 16 % 16) = true →
    t = { payload := cntrVal w.fmt base step k, fmt := w.fmt, ctx := BitVec.ofNat 2 (s.unit uid).ctx, wave := BitVec.ofNat 10 k, last := k + 1 == n.toNat } →
    s.windowOpen uid t = true →
    exec .cntrSourceEmit s = .next (((s0.setNode uid key (.cntrSrc base step n (k + 1))).fired uid key).deliver uid key w t)) ∧
  (∀ (s s0 : State) (uid key : Nat), s.evPe s.ev.site = some (uid, key) → s.turnAt s.ev.site = true →
    s0 = { s.takeTurn s.ev.site.cl s.ev.site.x s.ev.site.y with focus := s.ev.site } →
    ((s.unit uid).pe key).opc = 0x24#7 → (wordAt s uid key).sb = 6#3 →
    ((s.unit uid).pe key).constFired = false → ((s.unit uid).pe key).free = true → (s.unit uid).fires = true →
    wordFault 0x24 (s.unit uid).rm (wordAt s uid key) = none →
    exec .constFreeFire s = .next ((((s0.modUnit uid (fun u => u.modPe key (fun p => { p with constFired := true }))).fired uid key).deliver uid key
      (wordAt s uid key) { payload := constVal (wordAt s uid key), fmt := (wordAt s uid key).fmt, ctx := BitVec.ofNat 2 (s.unit uid).ctx, last := true }))))

/-- STEER passes a when the predicate agrees with SUB and swallows it otherwise (R177); MERGE.p passes the arm that the predicate chooses,
MERGE.any the oldest token of either arm (R178). GATE passes or holds (R189), SINK keeps or discards (R190), WAITF passes the last token of
a stream (R191), SETE delivers the value of the previous firing (R192), SCALETOK sends its constant once for each token of a stream (R193). -/
def Obligations.SteeringGatesAndStreams : Prop :=
  ((∀ (w : PeWord) (s s1 : State) (uid key : Nat) (g : Gathered), Go 0x30 w s s1 uid key g →
    (predTrue g.b ≠ w.sub.getLsbD 0 → exec (.steer w) s = .next ((taken s1 uid key g).deliver uid key w (passed g))) ∧
    (predTrue g.b = w.sub.getLsbD 0 → exec (.steer w) s = .next (taken s1 uid key g))) ∧
  (∀ (w : PeWord) (s : State) (uid key : Nat) (toks : List (Nat × Token)) (a x : Opnd) (first : Bool) (col : BitVec 2),
    w.sub.getLsbD 0 = false → s.focusPe = some (uid, key) → mergeChoice w (calm s uid key) key = some toks →
    wordFault 0x31 (calm s uid key).rm w = none → a = operandOf 0x31 w ((calm s uid key).pe key) toks w.sa 0x2002 → first = predTrue a →
    x = operandOf 0x31 w ((calm s uid key).pe key) toks (if first then w.sb else w.sc) 0x7FFF →
    ((w.sa ≠ 7#3 ∧ (if first then w.sb else w.sc) ≠ 7#3) ∨ (((calm s uid key).pe key).reg w.ei.toNat).full = true) →
    tagFault 0 a 0x2002 = none → tagFault (if first then 1 else 2) x 0x7FFF = none → (calm s uid key).joinCol (toks.map Prod.snd) = some col →
    exec (.merge w) s = .next (((calmed s uid key).commitFiring uid key toks).deliver uid key w
      { (toks.map Prod.snd).headD {} with ctx := BitVec.ofNat 2 (calm s uid key).ctx, payload := x.v, fmt := BitVec.ofNat 4 x.t, col := col
                                          last := toks.any (fun p => p.2.last) })) ∧
  (∀ (w : PeWord) (s : State) (uid key q : Nat) (t : Token) (arms : List Nat),
    w.sub.getLsbD 0 = true → s.focusPe = some (uid, key) →
    arms = [w.sa, w.sb].filterMap (fun x => if x.ult 4#3 then some x.toNat else none) →
    (calm s uid key).oldest (arms.flatMap (fun q => (calm s uid key).avail key q)) = some t →
    arms.find? (fun q => ((calm s uid key).avail key q).contains t) = some q → wordFault 0x31 (calm s uid key).rm w = none → t.fmt ≠ 15#4 →
    exec (.merge w) s = .next (((calmed s uid key).commitFiring uid key [(q, t)]).deliver uid key w
      { t with ctx := BitVec.ofNat 2 (calm s uid key).ctx, col := (calm s uid key).effCol t.col }))) ∧
  ((∀ (w : PeWord) (s s1 : State) (uid key : Nat) (g : Gathered), Go 0x3A w s s1 uid key g →
    exec (.gate w) s = .next (if ((taken s1 uid key g).unit uid).gates.getLsbD (w.imm.toNat % 16) && !((taken s1 uid key g).unit uid).isDraining
      then (taken s1 uid key g).deliver uid key w (passed g) else (taken s1 uid key g).setNode uid key (.gateHold (passed g)))) ∧
  (∀ (w : PeWord) (s s1 : State) (uid key : Nat) (g : Gathered), Go 0x3B w s s1 uid key g →
    (w.imm.getLsbD 4 = true → exec (.sink w) s = .next (taken s1 uid key g)) ∧
    (w.imm.getLsbD 4 = false → (agetD (s1.unit uid).sinks (w.imm.toNat % 16) []).length < 4 →
      exec (.sink w) s = .next ((taken s1 uid key g).modUnit uid (fun u =>
        { u with sinks := aset u.sinks (w.imm.toNat % 16) (agetD u.sinks (w.imm.toNat % 16) [] ++ [passed g]) })))) ∧
  (∀ (w : PeWord) (s s1 : State) (uid key : Nat) (g : Gathered), Go 0x3D w s s1 uid key g →
    exec (.waitf w) s = .next (if g.tok.last then (taken s1 uid key g).deliver uid key w (passed g) else taken s1 uid key g)) ∧
  (∀ (w : PeWord) (s s1 : State) (uid key : Nat) (g : Gathered) (e : EReg), Go 0x3E w s s1 uid key g → e = ((s1.unit uid).pe key).reg w.ei.toNat →
    exec (.sete w) s = .next (((taken s1 uid key g).modUnit uid (fun u => u.modPe key (fun p =>
      p.setReg w.ei.toNat (if g.tok.last then {} else ⟨true, BitVec.ofNat 4 g.a.t, g.a.v⟩)))).sendOut uid key
        (if e.full then { g.tok with payload := e.val, fmt := BitVec.ofNat 4 e.tag.toNat }
         else { g.tok with payload := g.b.v, fmt := BitVec.ofNat 4 g.b.t }))) ∧
  (∀ (w : PeWord) (s : State) (uid key : Nat) (t : Token), s.focusPe = some (uid, key) →
    (((calm s uid key).pe key).reg w.ei.toNat).full = false → w.sb.ult 4#3 = true →
    (calm s uid key).oldest ((calm s uid key).avail key w.sb.toNat) = some t → wordFault 0x3C (calm s uid key).rm w = none → t.fmt ≠ 15#4 →
    exec (.scaletok w) s = .next (((calmed s uid key).commitFiring uid key [(w.sb.toNat, t)]).modUnit uid (fun u =>
      u.modPe key (fun p => p.setReg w.ei.toNat ⟨true, t.fmt, t.payload⟩)))) ∧
  (∀ (w : PeWord) (s : State) (uid key : Nat) (t : Token) (e : EReg), s.focusPe = some (uid, key) →
    e = ((calm s uid key).pe key).reg w.ei.toNat → e.full = true → w.sa.ult 4#3 = true →
    (calm s uid key).oldest ((calm s uid key).avail key w.sa.toNat) = some t → wordFault 0x3C (calm s uid key).rm w = none → t.fmt ≠ 15#4 →
    exec (.scaletok w) s = .next ((if t.last then ((calmed s uid key).commitFiring uid key [(w.sa.toNat, t)]).modUnit uid (fun u =>
        u.modPe key (fun p => p.setReg w.ei.toNat {}))
      else (calmed s uid key).commitFiring uid key [(w.sa.toNat, t)]).sendOut uid key
      { t with ctx := BitVec.ofNat 2 (calm s uid key).ctx, payload := e.val, fmt := e.tag, col := (calm s uid key).effCol t.col })))

/-- WADV and its hold (R31, R179); TAGNEW, its wait and its level limit (R34, R181, R182); TAGXL (R183) and TAGEND (R184), which take cause
0x0A7 for a tag without a mapping (R32); a TAGEND whose operand carries LAST counts an exit, and the last of them frees the tag. -/
def Obligations.WavesAndTagsAdvance : Prop :=
  (∀ (w : PeWord) (s s1 : State) (uid key : Nat) (g : Gathered) (t : Token), Go 0x32 w s s1 uid key g →
    t = { passed g with wave := g.tok.wave + 1#10 } →
    exec (.wadv w) s = .next (if (taken s1 uid key g).windowOpen uid t then (taken s1 uid key g).deliver uid key w t
      else (taken s1 uid key g).setNode uid key (.wadvHold t))) ∧
  (∀ (s : State) (uid key : Nat) (t : Token), s.evPe s.ev.site = some (uid, key) → nodeAt s uid key = .wadvHold t → s.windowOpen uid t = true →
    exec .waveHoldRelease s = .next (((s.setNode uid key .idle).progress uid).deliver uid key (wordAt s uid key) t)) ∧
  (∀ (w : PeWord) (s s1 : State) (uid key : Nat) (g : Gathered), GoColourless 0x33 w s s1 uid key g →
    (g.tok.lvl = 7#3 → exec (.tagnew w) s = .next (s1.faultAt uid key (raise 0x0A5 g.tok))) ∧
    (∀ c, g.tok.lvl ≠ 7#3 → (taken s1 uid key g).freeTag uid (passed g) = some c →
      exec (.tagnew w) s = .next (((taken s1 uid key g).modUnit uid (fun u => u.allocTag (passed g) c (w.imm.toNat % 16 + 1))).deliver uid key w
        (childToken (passed g) c))) ∧
    (g.tok.lvl ≠ 7#3 → (taken s1 uid key g).freeTag uid (passed g) = none →
      exec (.tagnew w) s = .next ((taken s1 uid key g).setNode uid key (.tagnewWait (passed g) (w.imm.toNat % 16 + 1))))) ∧
  (∀ (s : State) (uid key exits c : Nat) (t : Token), s.evPe s.ev.site = some (uid, key) → nodeAt s uid key = .tagnewWait t exits →
    s.freeTag uid t = some c →
    exec .tagnewWaitEnd s = .next (((s.modUnit uid (fun u => (u.allocTag t c exits).modPe key (fun p => { p with node := .idle }))).progress uid).deliver
      uid key (wordAt s uid key) (childToken t c))) ∧
  (∀ (w : PeWord) (s : State) (uid key : Nat) (a b : Token) (col : BitVec 2),
    s.focusPe = some (uid, key) → w.sa.ult 4#3 = true → w.sb.ult 4#3 = true →
    (∀ t ∈ (calm s uid key).avail key w.sb.toNat, ((calm s uid key).tagEntry t.lvl.toNat t.itag.toNat).isSome = true) →
    (calm s uid key).oldest (((calm s uid key).avail key w.sb.toNat).filter (fun b =>
      ((calm s uid key).avail key w.sa.toNat).any (parentOf (calm s uid key) b))) = some b →
    ((calm s uid key).avail key w.sa.toNat).find? (parentOf (calm s uid key) b) = some a → wordFault 0x34 (calm s uid key).rm w = none →
    a.fmt ≠ 15#4 → b.fmt ≠ 15#4 → (calm s uid key).joinCol [a, b] = some col →
    exec (.tagxl w) s = .next (((calmed s uid key).commitFiring uid key [(w.sa.toNat, a), (w.sb.toNat, b)]).deliver uid key w
      { b with ctx := BitVec.ofNat 2 (calm s uid key).ctx, payload := a.payload, fmt := a.fmt, last := false, col := col })) ∧
  (∀ (w : PeWord) (s : State) (uid key : Nat) (t : Token), s.focusPe = some (uid, key) → w.sa.ult 4#3 = true → w.sb.ult 4#3 = true →
    (calm s uid key).oldest (((calm s uid key).avail key w.sb.toNat).filter (fun t =>
      ((calm s uid key).tagEntry t.lvl.toNat t.itag.toNat).isNone)) = some t → wordFault 0x34 (calm s uid key).rm w = none →
    exec (.tagxl w) s = .next ((calmed s uid key).faultAt uid key (raise 0x0A7 t))) ∧
  (∀ (w : PeWord) (s s1 : State) (uid key : Nat) (g : Gathered), GoColourless 0x35 w s s1 uid key g →
    (s1.unit uid).tagEntry g.tok.lvl.toNat g.tok.itag.toNat = none → exec (.tagend w) s = .next (s1.faultAt uid key (raise 0x0A7 g.tok))) ∧
  (∀ (w : PeWord) (s s1 : State) (uid key : Nat) (g : Gathered) (e : TagEntry), GoColourless 0x35 w s s1 uid key g →
    (s1.unit uid).tagEntry g.tok.lvl.toNat g.tok.itag.toNat = some e →
    exec (.tagend w) s = .next (((taken s1 uid key g).modUnit uid (fun u =>
      if g.tok.last = false then u
      else if 1 < e.exits then
        { u with tags := u.tags.map (fun x => if x.lvl == e.lvl && x.itag == e.itag then { x with exits := x.exits - 1 } else x) }
      else { u with tags := u.tags.filter (fun x => !(x.lvl == e.lvl && x.itag == e.itag)), freed := u.freed ++ [(e.lvl, e.itag)] })).deliver uid key w
      { passed g with lvl := BitVec.ofNat 3 e.plvl, itag := BitVec.ofNat 8 e.pitag, wave := e.pwave, last := false, col := 0#2 }))

/-- Colours (R35, R38, R39, R40, R185, R186): COLOR paints or waits; COMMIT and KILL decide a colour once, with cause 0x0A9 for one that is
decided already or colour 0, and their tokens run along their routes ahead of nothing they have not passed; a colour returns to open when
its count is zero and a COLOR fires or waits for it. That it stays as it is while no COLOR does is log 36 (DEDUCED). -/
def Obligations.ColoursAreDecided : Prop :=
  (∀ (w : PeWord) (s s1 : State) (uid key : Nat) (g : Gathered), Go 0x37 w s s1 uid key g →
    (g.tok.col = 0#2 ∨ g.tok.col.toNat = w.imm.toNat % 4) → ((taken s1 uid key g).unit uid).colState (w.imm.toNat % 4) = 0 →
    exec (.color w) s = .next ((taken s1 uid key g).deliver uid key w { passed g with col := BitVec.ofNat 2 (w.imm.toNat % 4) })) ∧
  (∀ (w : PeWord) (s s1 : State) (uid key : Nat) (g : Gathered), Go 0x37 w s s1 uid key g →
    (g.tok.col = 0#2 ∨ g.tok.col.toNat = w.imm.toNat % 4) → ((taken s1 uid key g).unit uid).colState (w.imm.toNat % 4) ≠ 0 →
    ((taken s1 uid key g).colourCount ((taken s1 uid key g).unit uid) (w.imm.toNat % 4)) ≠ 0 →
    exec (.color w) s = .next ((taken s1 uid key g).setNode uid key (.colorWait (passed g) (w.imm.toNat % 4)))) ∧
  (∀ (w : PeWord) (s s1 : State) (uid key : Nat) (g : Gathered), Go 0x37 w s s1 uid key g →
    g.tok.col ≠ 0#2 → g.tok.col.toNat ≠ w.imm.toNat % 4 → exec (.color w) s = .next (s1.faultAt uid key (raise 0x0A8 g.tok))) ∧
  (∀ (w : PeWord) (s s1 : State) (uid key : Nat) (g : Gathered), Go 0x37 w s s1 uid key g →
    (g.tok.col = 0#2 ∨ g.tok.col.toNat = w.imm.toNat % 4) → ((taken s1 uid key g).unit uid).colState (w.imm.toNat % 4) ≠ 0 →
    ((taken s1 uid key g).colourCount ((taken s1 uid key g).unit uid) (w.imm.toNat % 4)) = 0 →
    exec (.color w) s = .next (if ((taken s1 uid key g).unit uid).decided.contains (w.imm.toNat % 4)
      then (taken s1 uid key g).setNode uid key (.colorWait (passed g) (w.imm.toNat % 4))
      else (reopened (taken s1 uid key g) uid (w.imm.toNat % 4)).deliver uid key w
        { passed g with col := BitVec.ofNat 2 (w.imm.toNat % 4) })) ∧
  (∀ (i : Instr) (opc : Nat) (w : PeWord) (s s1 : State) (uid key : Nat) (g : Gathered),
    (i, opc) ∈ [(Instr.commit w, 0x38), (Instr.kill w, 0x39)] → GoColourless opc w s s1 uid key g →
    (w.imm.toNat % 4 = 0 ∨ (s1.unit uid).colState (w.imm.toNat % 4) ≠ 0) →
    exec i s = .next (s1.faultAt uid key (raise 0x0A9 g.tok))) ∧
  (∀ (w : PeWord) (s s1 : State) (uid key : Nat) (g : Gathered), GoColourless 0x38 w s s1 uid key g →
    w.imm.toNat % 4 ≠ 0 → (s1.unit uid).colState (w.imm.toNat % 4) = 0 →
    exec (.commit w) s = .next ((((taken s1 uid key g).commitColour uid (w.imm.toNat % 4)).modUnit uid (fun u =>
        { u with decided := u.decided ++ [w.imm.toNat % 4] })).emit uid key
      { g.tok with payload := 0#64, fmt := 0#4, col := BitVec.ofNat 2 (w.imm.toNat % 4), kind := 2#2, last := false })) ∧
  (∀ (w : PeWord) (s s1 : State) (uid key : Nat) (g : Gathered), GoColourless 0x39 w s s1 uid key g →
    w.imm.toNat % 4 ≠ 0 → (s1.unit uid).colState (w.imm.toNat % 4) = 0 →
    exec (.kill w) s = .next ((((taken s1 uid key g).killColour uid (w.imm.toNat % 4)).modUnit uid (fun u =>
        { u with decided := u.decided ++ [w.imm.toNat % 4] })).emit uid key
      { g.tok with payload := 0#64, fmt := 0#4, col := BitVec.ofNat 2 (w.imm.toNat % 4), kind := 3#2, last := false })) ∧
  (∀ (s : State) (l r : List Flight) (f : Flight), s.flights = l ++ f :: r → s.ev.i = l.length → f.tok.kind = 3#2 →
    exec .commitTokenPass s = .next { s with flights := (l ++ r).filter (fun g => !f.passes g) ++ onward s f }) ∧
  (∀ (s : State) (l r : List Flight) (f : Flight), s.flights = l ++ f :: r → s.ev.i = l.length → f.tok.kind = 2#2 →
    exec .commitTokenPass s = .next { s with
      flights := (l ++ r).map (fun g => if f.passes g then { g with tok := { g.tok with col := 0#2 } } else g) ++ onward s f }) ∧
  (∀ (s : State), waitingForColour (s.unit s.ev.u) s.ev.k = [] → exec .colourRelease s = .next s) ∧
  (∀ (s : State), (s.unit s.ev.u).fires = true → (s.unit s.ev.u).colState s.ev.k ≠ 0 → s.colourCount (s.unit s.ev.u) s.ev.k = 0 →
    (s.unit s.ev.u).decided.contains s.ev.k = false → waitingForColour (s.unit s.ev.u) s.ev.k ≠ [] →
    exec .colourRelease s = .next (reopened s s.ev.u s.ev.k)) ∧
  (∀ (s : State), (s.unit s.ev.u).fires = false → exec .colourRelease s = .next s)

/-! ### Memory-class, tile and system rows -/

/-- Every memory-class row of 09 except LDLK (R101, R104, R227): a firing with a free place in the buffer, a good address and a fresh sequence
number consumes its operands and makes its store-buffer entry. One that is misaligned, names a missing reduction group, or reuses a sequence
number takes its cause and enters nothing (R101, R227, R246); a full buffer holds it back (R104). -/
def Obligations.MemoryRowsFire : Prop :=
  (∀ (i : Instr) (r : MemRow) (s s1 : State) (uid key ea n : Nat) (g : Gathered),
    memRow i = some r → prepFire r.opc r.w s r.ok = .go s1 uid key g → (s1.unit uid).sbFull r.op g.tok.col = false →
    r.req s1 uid r.w g = .entry ea n → (s1.unit uid).badOwn r.w g.tok = false → redWaits i s uid = false →
    exec i s = .next (s1.enterBuffer uid key g.toks (memEntry r (s1.unit uid) key g ea n))) ∧
  (∀ (i : Instr) (r : MemRow) (s s1 : State) (uid key : Nat) (g : Gathered),
    memRow i = some r → prepFire r.opc r.w s r.ok = .go s1 uid key g →
    (redWaits i s uid = true → exec i s = .next s) ∧ (redWaits i s uid = false →
    ((s1.unit uid).sbFull r.op g.tok.col = true → exec i s = .next s1) ∧
    (∀ c a d, (s1.unit uid).sbFull r.op g.tok.col = false → r.req s1 uid r.w g = .bad c a d →
      exec i s = .next (s1.faultAt uid key { cause := c, addr := wd a, tag := g.tok, d0 := d })) ∧
    (∀ ea n, (s1.unit uid).sbFull r.op g.tok.col = false → r.req s1 uid r.w g = .entry ea n → (s1.unit uid).badOwn r.w g.tok = true →
      exec i s = .next (s1.faultAt uid key (raise 0x0AA g.tok)))))

/-- The natural alignment of LD, ST, LDA, STL, AMO and AMX (R227): a misaligned address is cause 0x060 with that address, an aligned one makes
an entry of the access size. -/
def Obligations.GSpaceAccessesAreAligned : Prop :=
  (∀ (s : State) (uid : Nat) (w : PeWord) (g : Gathered), reqG s uid w g =
    if addDisp g.a.v (dispOf w) % Machine.sizeOf w = 0 then .entry (addDisp g.a.v (dispOf w)) (Machine.sizeOf w) else .bad 0x060 (addDisp g.a.v (dispOf w)) 0#64) ∧
  (∀ (s : State) (uid n : Nat) (w : PeWord) (g : Gathered), n ∈ [4, 8] → reqAtomic n s uid w g =
    if g.a.v.toNat % 2 ^ 56 % n = 0 then .entry (g.a.v.toNat % 2 ^ 56) n else .bad 0x060 (g.a.v.toNat % 2 ^ 56) 0#64) ∧
  (∀ (a : Word) (d : Int), (addDisp a d : Int) = (a.toNat + d) % 2 ^ 56)

/-- LDLK (R236), the tile rows LDXS, STXS, MDRN.mem and MBLD (R248, R250, R254, R255): their entries. -/
def Obligations.LinkAndTileRowsEnterTheStoreBuffer : Prop :=
  (∀ (w : PeWord) (s s1 : State) (uid key : Nat) (g : Gathered) (e : SbEntry), GoColourless 0x62 w s s1 uid key g →
    (s1.unit uid).sbFull .ldlk g.tok.col = false → (s1.unit uid).badOwn w g.tok = false →
    e = { id := 0, site := (s1.unit uid).siteOf key, op := .ldlk, opc := 0x62#7, w := w, tok := g.tok, a := g.a.v, b := g.b.v
          ea := addDisp g.a.v (dispOf w), n := 8 } →
    exec (.ldlk w) s = .next (if g.b.v = 0#64 then s1.enterBuffer uid key g.toks e
      else (s1.enterBuffer uid key g.toks e).setNode uid key (.ldlk (s1.unit uid).nextId))) ∧
  (∀ (w : PeWord) (s s1 : State) (uid key : Nat) (g : Gathered), prepFireT 0x70 w s = .go s1 uid key g →
    (s1.unit uid).sbFull .ldxs g.tok.col = false → s1.claims ((s1.unit uid).siteOf key).cl uid = true →
    (s1.cluster ((s1.unit uid).siteOf key).cl).slotBank (tdOf w) = true → tileMisplaced (tileEa w g) (imageLen (ldxsFmt w)) = false →
    (s1.unit uid).badOwn w g.tok = false →
    exec (.ldxs w) s = .next (s1.enterBuffer uid key g.toks { id := 0, site := (s1.unit uid).siteOf key, op := .ldxs, opc := 0x70#7, w := w
                                                              tok := g.tok, a := g.a.v, ea := tileEa w g, swz := (s1.unit uid).swz, uctl := (s1.unit uid).uctl, rm := (s1.unit uid).rm
                                                              n := if ldxsFmt w = 0 then 4096 else imageLen (ldxsFmt w) })) ∧
  (∀ (w : PeWord) (s s1 : State) (uid key : Nat) (g : Gathered), prepFireT 0x71 w s = .go s1 uid key g →
    (s1.unit uid).sbFull .stxs g.tok.col = false → s1.claims ((s1.unit uid).siteOf key).cl uid = true →
    (s1.cluster ((s1.unit uid).siteOf key).cl).slotBank (taOf w) = true →
    (aeOf w = false ∨ ((s1.cluster ((s1.unit uid).siteOf key).cl).slot (taOf w)).tag ≠ 0#4) → tileMisplaced (tileEa w g) (imageLen w.fmt.toNat) = false →
    (s1.unit uid).badOwn w g.tok = false →
    exec (.stxs w) s = .next (s1.enterBuffer uid key g.toks { id := 0, site := (s1.unit uid).siteOf key, op := .stxs, opc := 0x71#7, w := w
                                                              tok := g.tok, a := g.a.v, ea := tileEa w g, swz := (s1.unit uid).swz, uctl := (s1.unit uid).uctl, rm := (s1.unit uid).rm
                                                              n := if w.fmt = 0#4 then 4096 else imageLen w.fmt.toNat })) ∧
  (∀ (w : PeWord) (s s1 : State) (uid key : Nat) (g : Gathered), prepFireT 0x73 w s = .go s1 uid key g →
    (s1.unit uid).sbFull .mdrnMem g.tok.col = false → matFault s1 uid ((s1.unit uid).siteOf key).cl w none none = none →
    g.a.v.toNat % 4096 = 0 → (s1.unit uid).badOwn w g.tok = false →
    exec (.mdrnMem w) s = .next (s1.enterBuffer uid key g.toks { id := 0, site := (s1.unit uid).siteOf key, op := .mdrnMem, opc := 0x73#7, w := w
                                                                 tok := g.tok, a := g.a.v, ea := g.a.v.toNat % 2 ^ 56, n := 4096
                                                                 swz := (s1.unit uid).swz, uctl := (s1.unit uid).uctl, rm := (s1.unit uid).rm })) ∧
  (∀ (w : PeWord) (s s1 : State) (uid key : Nat) (g : Gathered), prepFireT 0x7D w s = .go s1 uid key g →
    (s1.unit uid).sbFull .mbld g.tok.col = false → matFault s1 uid ((s1.unit uid).siteOf key).cl w none (some (tbOf w)) = none →
    g.a.v.toNat % 128 = 0 → (s1.unit uid).badOwn w g.tok = false →
    exec (.mbld w) s = .next (s1.enterBuffer uid key g.toks { id := 0, site := (s1.unit uid).siteOf key, op := .mbld, opc := 0x7D#7, w := w
                                                              tok := g.tok, a := g.a.v, c := if g.a.t = 1 then 1#64 else 0#64
                                                              ea := if g.a.t = 1 then g.a.v.toNat else g.a.v.toNat % 2 ^ 56, n := 4096
                                                              swz := (s1.unit uid).swz, uctl := (s1.unit uid).uctl, rm := (s1.unit uid).rm }))

/-- MMUL, MDRN into a slot and MDRN.zero join the queue M of the cluster in firing order, with a result slot kept at the out port (R252 to
R254); the tile form of FCVT quantises a raw slot into another (R209). A lane of a product is the exact sum over k, joined to the
accumulator at the lesser exponent sum; causes 0x02C and 0x02D leave the accumulator; a zero tile counts and adds nothing (R73). A drained
lane is the exact value of the lane of the accumulator rounded once to binary32, or quantised with the others (R74); a quantised tile has
the exponents that R69 computes, and each of its significands is rounded once to nearest even and clamped. -/
def Obligations.MatrixRowsJoinTheQueue : Prop :=
  ((∀ (i : Instr) (w : PeWord) (opc : Nat) (slot cim : Option Nat) (s s1 : State) (uid key : Nat) (g : Gathered),
    (i, opc, slot, cim) ∈ [(Instr.mmul w, 0x72, some (taOf w), some (tbOf w)), (Instr.mdrn w, 0x73, some (tdOf w), none),
      (Instr.mdrnZero w, 0x73, none, none)] →
    prepFireT opc w s = .go s1 uid key g → matFault s1 uid ((s1.unit uid).siteOf key).cl w slot cim = none →
    exec i s = .next (((taken s1 uid key g).modUnit uid (fun u =>
      { (u.modPe key (fun p => { p with out := p.out ++ [.pending (s1.unit uid).nextId] })) with nextId := (s1.unit uid).nextId + 1, quiet := false })).modCluster
        ((s1.unit uid).siteOf key).cl (fun c => { c with mq := c.mq ++
          [{ id := (s1.unit uid).nextId, opc := BitVec.ofNat 8 opc, w := w, unit := uid, site := (s1.unit uid).siteOf key, tok := g.tok
             rm := (s1.unit uid).rm, uctl := (s1.unit uid).uctl }] }))) ∧
  (∀ (w : PeWord) (s s2 : State) (uid key fl : Nat) (toks : List (Nat × Token)) (a : Opnd) (t : Tile) (img : List Byte), s.focusPe = some (uid, key) →
    eregReady w ((calm s uid key).pe key) = true → (calm s uid key).matchSet key (selQueues w) (fun _ => true) = some toks →
    a = operandOf 0x50 w ((calm s uid key).pe key) toks w.sa 0b10 → fcvtTileFieldsOk w = true → (roundMode w.mod (calm s uid key).rm).isSome = true →
    (w.sa ≠ 5#3 ∨ w.x = true) → (w.sa ≠ 7#3 ∨ (((calm s uid key).pe key).reg w.ei.toNat).full = true) → tagFault 0 a 0b10 = none →
    fcvtTileCheck (calmed s uid key) uid ((calm s uid key).siteOf key).cl a.v = some (.ok t) →
    quantise (wbits a.v 11 8) (rawValues t.tag.toNat (w.sub.getLsbD 2) t.img) = (img, fl) →
    (calmed s uid key).tileFlags uid fl (calm s uid key).uctl = (s2, none) →
    exec (.fcvtTile w) s = .next (((s2.commitFiring uid key toks).modCluster ((calm s uid key).siteOf key).cl (fun c =>
      c.setSlot (wbits a.v 3 0) ⟨BitVec.ofNat 4 (wbits a.v 11 8), img⟩)).deliver uid key w
        { (toks.map Prod.snd).headD {} with ctx := BitVec.ofNat 2 (calm s uid key).ctx, payload := a.v, fmt := 1#4
                                            col := (calm s uid key).effCol ((toks.map Prod.snd).headD {}).col, kind := 0#2 }))) ∧
  ((∀ (sub : Nat) (A B : XsView) (acc : Acc) (es : Int), sub ≤ 2 → Shaped A → Shaped B → (acc.lanes = [] ∨ acc.lanes.length = 1024) →
    (sub = 0 ∨ acc.kd ≠ 8) → A.e ≠ 0 → B.e ≠ 0 → es = (A.e : Int) + (B.e : Int) - A.f - B.f →
    (sub = 0 ∨ acc.es = none ∨ (acc.rv = A.rx.map (BitVec.ofNat 2) ∧ acc.cv = B.cx.map (BitVec.ofNat 2))) →
    ((∀ n, n < 1024 → fits40 (newLane sub A B acc n) = true) → ∃ x, mmulAcc sub A B acc = .ok x ∧ (∀ n, n < 1024 → accLane x n = newLane sub A B acc n) ∧
      x.kd = (if sub = 0 then 1 else acc.kd + 1) ∧ x.es = some (if sub = 0 then es else min (acc.es.getD es) es) ∧
      x.rv = A.rx.map (BitVec.ofNat 2) ∧ x.cv = B.cx.map (BitVec.ofNat 2)) ∧
    ((∃ n, n < 1024 ∧ fits40 (newLane sub A B acc n) = false) → mmulAcc sub A B acc = .error 0x02D)) ∧
  (∀ (sub : Nat) (A B : XsView) (acc : Acc), sub ≠ 0 → acc.kd ≠ 8 → A.e ≠ 0 → B.e ≠ 0 → acc.es ≠ none →
    (acc.rv ≠ A.rx.map (BitVec.ofNat 2) ∨ acc.cv ≠ B.cx.map (BitVec.ofNat 2)) → mmulAcc sub A B acc = .error 0x02D) ∧
  (∀ (sub : Nat) (A B : XsView) (acc : Acc), sub ≠ 0 → acc.kd = 8 → mmulAcc sub A B acc = .error 0x02C) ∧
  (∀ (sub : Nat) (A B : XsView) (acc : Acc), (sub = 0 ∨ acc.kd ≠ 8) → (A.e = 0 ∨ B.e = 0) →
    mmulAcc sub A B acc = .ok { acc with lanes := if sub = 0 then [] else acc.lanes, kd := if sub = 0 then 1 else acc.kd + 1 }) ∧
  (∀ (tag : Nat) (img : List Byte) (tab : List Nat), Shaped (viewTile tag img tab) ∧ ∀ n, n < 1024 →
    lget (lget (viewTile tag img tab).rows (n / 32) []) (n % 32) 0 =
      if tag = 4 then lget (heldTable tab).1 (lget (tileCodes tag img) n 0) 0 else sextNat (codeBits tag) (lget (tileCodes tag img) n 0)) ∧
  (∀ (s : State) (cl uid k a b fmt sub : Nat) (ae : Bool) (A B : XsView), (s.cluster cl).pair a b fmt ae = .ok A B →
    (∀ x, mmulAcc sub A B ((s.cluster cl).accOf k) = .ok x →
      s.issueProducts cl uid k a b fmt 1 sub ae = .ok (((s.count (9 + dieOf cl) 1).modCluster cl (fun c => c.setAcc k x)).noteNarrow uid) 0) ∧
    (∀ c, mmulAcc sub A B ((s.cluster cl).accOf k) = .error c → s.issueProducts cl uid k a b fmt 1 sub ae = .fault s (cause c)))) ∧
  ((∀ (acc : Acc) (n : Nat), n < 1024 → acc.rv.length = 32 → acc.cv.length = 32 → (acc.lanes = [] ∨ acc.lanes.length = 1024) →
    lget (accValues acc) n (.fin false 0 0) = match acc.es with
      | none => .fin false 0 0
      | some es => if accLane acc n = 0 then .fin false 0 0
        else .fin (decide (accLane acc n < 0)) (accLane acc n).natAbs
          (es - 254 - 6 - ((lget acc.rv (n / 32) 0#2).toNat : Int) - ((lget acc.cv (n % 32) 0#2).toNat : Int))) ∧
  (∀ (mode : Nat) (fzo sat : Bool) (acc : Acc) (n : Nat), n < 1024 → (accValues acc).length = 1024 →
    lget (rawElems 7 (drainF32 mode fzo sat acc).1) n 0 = (deliverFp fmtF32 mode fzo sat (lget (accValues acc) n (.fin false 0 0))).1 % 2 ^ 32 ∧
    ∀ k, bit (drainF32 mode fzo sat acc).2 k = true ↔ ∃ v, v ∈ accValues acc ∧ bit (deliverFp fmtF32 mode fzo sat v).2 k = true) ∧
  (∀ (s : State) (cl job va traps code : Nat) (who : Nat × Nat) (d : Drain), d.sub = 0 ∨ d.sub = 2 →
    trapFlag traps (d.image ((s.cluster cl).accOf d.acc)).2.2 = none →
    ∃ t : State, s.issueDrain cl who job va d traps code = .ok t (d.image ((s.cluster cl).accOf d.acc)).2.2
      [(d.slot, ⟨BitVec.ofNat 4 (d.image ((s.cluster cl).accOf d.acc)).1, (d.image ((s.cluster cl).accOf d.acc)).2.1⟩)] ∧ t.units = s.units ∧ t.mem = s.mem ∧
      (d.clr = false → ∀ k, (t.cluster cl).accOf k = (s.cluster cl).accOf k)) ∧
  (∀ (d : Drain) (a : Acc), d.image a = if d.sub = 2 then (d.fmt, quantise d.fmt (accValues a)) else (7, drainF32 d.mode d.fzo d.sat a)) ∧
  (∀ (tag : Nat) (vs : List FpVal) (img : List Byte) (M : Int), tag ∈ [1, 2, 3] → vs.length = 1024 → (∀ v ∈ vs, v.isNan = false ∧ v.isInf = false) →
    maxInt (vs.filterMap expOf) = some M → 1 ≤ M + 127 → M + 127 ≤ 254 → img = (quantise tag vs).1 →
    imgByte img 0 = tag ∧ (imgByte img 1 : Int) = M + 127 ∧
    (∀ i, i < 32 → lget (microOf img 2) i 0 = match maxInt ((upFrom 0 32).filterMap (fun j => expOf (lget vs (32 * i + j) (.fin false 0 0)))) with
      | some e => cap3 (M - e)
      | none => 3) ∧
    (∀ j, j < 32 → lget (microOf img 10) j 0 = match minInt ((upFrom 0 32).filterMap (fun i =>
        (expOf (lget vs (32 * i + j) (.fin false 0 0))).map (fun e => M - ((lget (microOf img 2) i 0 : Nat) : Int) - e))) with
      | some d => cap3 d
      | none => 3) ∧
    (∀ n neg m e, n < 1024 → lget vs n (.fin false 0 0) = .fin neg m e →
      sextNat (codeBits tag) (lget (tileCodes tag img) n 0) = (if neg then -1 else 1) *
        ((Nat.min (roundAt 0 neg m (e + ((fracBits tag : Int) - M + (lget (microOf img 2) (n / 32) 0 : Nat) + (lget (microOf img 10) (n % 32) 0 : Nat))) 0).1
          (2 ^ (codeBits tag - 1) - 1) : Nat) : Int))) ∧
  (∀ (tag : Nat) (vs : List FpVal), tag ∈ [1, 2, 3] → vs.length = 1024 → (∀ v ∈ vs, v.isInf = false) →
    (∀ M, maxInt (vs.filterMap expOf) = some M → M + 127 < 1) → quantise tag vs = (mkXs tag 0 [] [] 0 [],
      (if vs.any FpVal.isNan then 1 else 0) + if (vs.filterMap expOf).isEmpty then 0 else 24)) ∧
  (∀ (qtag : Nat) (fzi : Bool) (t : Tile), t.tag.toNat ∈ [5, 6, 7] → quantTile qtag fzi t = .ok (⟨BitVec.ofNat 4 qtag, (quantise qtag (rawValues t.tag.toNat fzi t.img)).1⟩,
    (quantise qtag (rawValues t.tag.toNat fzi t.img)).2)))

/-- SEND and TTQ consume their operands when their message or record has been read and taken (R258); HOFF pushes and HWAIT pops one count and
delivers a (R137, R259); a full or empty FIFO holds the firing. -/
def Obligations.MessagesAndHandoffsFire : Prop :=
  (∀ (w : PeWord) (s s1 s2 : State) (uid key : Nat) (g : Gathered), GoColourless 0x74 w s s1 uid key g → (s1.unit uid).issuedDone = true →
    s1.sendMessage uid ((s1.unit uid).siteOf key).cl g.a.v g.tok = (s2, .done) → exec (.send w) s = .next (taken s2 uid key g)) ∧
  (∀ (w : PeWord) (s s1 s2 : State) (uid key : Nat) (g : Gathered), GoColourless 0x75 w s s1 uid key g → (s1.unit uid).issuedDone = true →
    s1.submitRecord uid ((s1.unit uid).siteOf key).cl g.a.v = (s2, .done) → exec (.ttq w) s = .next (taken s2 uid key g)) ∧
  (∀ (w : PeWord) (s s1 : State) (uid key cl : Nat) (g : Gathered), Go 0x76 w s s1 uid key g → cl = ((s1.unit uid).siteOf key).cl →
    handoffFault s1 uid cl 1 w.fmt.toNat = none →
    (s1.canPush cl 1 w.fmt.toNat = true → exec (.hoff w) s = .next ((taken (s1.pushHandoff cl 1 w.fmt.toNat) uid key g).deliver uid key w (passed g))) ∧
    (s1.canPush cl 1 w.fmt.toNat = false → exec (.hoff w) s = .next s1)) ∧
  (∀ (w : PeWord) (s s1 : State) (uid key cl : Nat) (g : Gathered), Go 0x77 w s s1 uid key g → cl = ((s1.unit uid).siteOf key).cl →
    handoffFault s1 uid cl 1 w.fmt.toNat = none →
    (s1.canPop cl w.fmt.toNat 1 = true → exec (.hwait w) s = .next ((taken (s1.popHandoff cl w.fmt.toNat 1) uid key g).deliver uid key w (passed g))) ∧
    (s1.canPop cl w.fmt.toNat 1 = false → exec (.hwait w) s = .next s1))

/-- RDCTR delivers CYC of the die of the lead cluster or FIRED; RDST a special register; WRST writes one under the Kinds of its fields (R149,
R285); an unassigned number takes cause 0x0E2. What the special registers take from a write, and what they read then (R280 to R283): RW
fields take their bits, every other bit reads 0, a read-only register and the read-only fields of USTAT keep theirs, and so does every other
register; a flag raised in the clock of the write stays set (R198). ILL and the unassigned codes raise 0x000 (R145, R152), TRAP raises 0x120
+ k, BRK raises 0x140, or halts the job with REASON 2 when a debugger is attached (R284, R366). -/
def Obligations.SpecialRegistersAndTraps : Prop :=
  ((∀ (w : PeWord) (s s1 : State) (uid key : Nat) (g : Gathered), Go 0x7A w s s1 uid key g →
    exec (.rdctr w) s = .next ((taken s1 uid key g).deliver uid key w
      { g.tok with payload := if w.sub = 0#3 then (s1.die (dieOf (s1.unit uid).lead)).cyc else (s1.unit uid).fired, fmt := 1#4 })) ∧
  (∀ (w : PeWord) (s s1 : State) (uid key : Nat) (g : Gathered), Go 0x7B w s s1 uid key g →
    (∀ v, s1.readSpecial uid ((s1.unit uid).siteOf key).cl (w.imm.toNat % 256) = some v →
      exec (.rdst w) s = .next ((taken s1 uid key g).deliver uid key w { g.tok with payload := v, fmt := 1#4 })) ∧
    (s1.readSpecial uid ((s1.unit uid).siteOf key).cl (w.imm.toNat % 256) = none →
      exec (.rdst w) s = .next (s1.faultAt uid key (raise 0x0E2 g.tok)))) ∧
  (∀ (w : PeWord) (s s1 : State) (uid key : Nat) (g : Gathered), Go 0x7C w s s1 uid key g →
    ((s1.readSpecial uid ((s1.unit uid).siteOf key).cl (w.imm.toNat % 256)).isSome = true →
      exec (.wrst w) s = .next (if w.dst = 0#2 then
          ((taken s1 uid key g).modUnit uid (fun u => u.writeSpecial (w.imm.toNat % 256) g.a.v)).sendOut uid key { g.tok with payload := 0#64, fmt := 1#4 }
        else (taken s1 uid key g).modUnit uid (fun u => u.writeSpecial (w.imm.toNat % 256) g.a.v))) ∧
    (s1.readSpecial uid ((s1.unit uid).siteOf key).cl (w.imm.toNat % 256) = none →
      exec (.wrst w) s = .next (s1.faultAt uid key (raise 0x0E2 g.tok))))) ∧
  ((∀ (s s1 : State) (uid cl n : Nat) (u : UnitSt) (v : Word), aget s.units uid = some u → s1 = s.modUnit uid (fun u => u.writeSpecial n v) →
    (n = 0x01 ∨ n = 0x02 → s1.readSpecial uid cl n = some (v &&& 0x00FFFFFFFFFFFFFC#64)) ∧
    (n = 0x08 → ∃ x y, s.readSpecial uid cl n = some x ∧ s1.readSpecial uid cl n = some y ∧ y >>> 10 = x >>> 10 ∧
      y.extractLsb' 7 3 = v.extractLsb' 7 3 ∧ y.getLsbD 0 = (v.getLsbD 0 || u.flagsNow.nx) ∧ y.getLsbD 1 = (v.getLsbD 1 || u.flagsNow.uf) ∧
      y.getLsbD 2 = (v.getLsbD 2 || u.flagsNow.ofl) ∧ y.getLsbD 3 = (v.getLsbD 3 || u.flagsNow.dz) ∧ y.getLsbD 4 = (v.getLsbD 4 || u.flagsNow.nv) ∧
      y.getLsbD 5 = (v.getLsbD 5 || u.flagsNow.tblinex) ∧ y.getLsbD 6 = (v.getLsbD 6 || u.flagsNow.narrow)) ∧
    (n = 0x09 → s1.readSpecial uid cl n = some (v &&& 0xF1F#64)) ∧
    (0x10 ≤ n → n < 0x1C → s1.readSpecial uid cl n = some v) ∧
    (0x20 ≤ n → n < 0x28 → s1.readSpecial uid cl n = some (v &&& 0x1FF#64)) ∧
    (n = 0x2A → s1.readSpecial uid cl n = some (v &&& 0xFF01#64)) ∧
    (n = 0x35 → s1.readSpecial uid cl n = some (v &&& 0x00FFFFFFFFFFFFF0#64)) ∧
    (∀ k, k ≠ n → s1.readSpecial uid cl k = s.readSpecial uid cl k)) ∧
  (∀ (u : UnitSt) (n : Nat) (v : Word), n ∈ [0x00, 0x03, 0x04, 0x05, 0x28, 0x29, 0x2B, 0x2C, 0x2D, 0x2E, 0x2F, 0x30, 0x31, 0x32, 0x33, 0x34] →
    u.writeSpecial n v = u) ∧
  (∀ (s : State) (uid cl : Nat), s.readSpecial uid cl 0x05 = some ((s.unit uid).ttag.setWidth 64)) ∧
  (∀ (t : Token), (BitVec.ofNat 25 (ttagOf t)).extractLsb' 0 10 = t.wave ∧ (BitVec.ofNat 25 (ttagOf t)).extractLsb' 10 8 = t.itag ∧
    (BitVec.ofNat 25 (ttagOf t)).extractLsb' 18 3 = t.lvl ∧ (BitVec.ofNat 25 (ttagOf t)).extractLsb' 21 2 = t.col ∧
    (BitVec.ofNat 25 (ttagOf t)).extractLsb' 23 2 = t.ctx)) ∧
  ((∀ (i : Instr) (w : PeWord) (opc : BitVec 7) (s : State) (uid key : Nat) (toks : List (Nat × Token)),
    i ∈ [Instr.ill w, Instr.unassignedOpc opc w] → s.focusPe = some (uid, key) → eregReady w ((calm s uid key).pe key) = true →
    (calm s uid key).matchSet key (selQueues w) (fun _ => true) = some toks →
    exec i s = .next ((calmed s uid key).faultAt uid key (raise 0x000 ((toks.map Prod.snd).headD {})))) ∧
  (∀ (w : PeWord) (s s1 : State) (uid key : Nat) (g : Gathered), Go 0x78 w s s1 uid key g →
    exec (.trap w) s = .next (s1.faultAt uid key (raise (0x120 + w.imm.toNat % 32) g.tok))) ∧
  (∀ (w : PeWord) (s s1 : State) (uid key : Nat) (g : Gathered), Go 0x79 w s s1 uid key g →
    exec (.brk w) s = .next (if s1.debugged (s1.unit uid).job then (taken s1 uid key g).haltJob (s1.unit uid).job 2
      else s1.faultAt uid key (raise 0x140 g.tok))))

/-! ### Exceptions -/

/-- Taking a class T fault (R350): with TVEC set, outside handler mode and not draining, TCAUSE, TADDR, TTAG and TEPC record it, the unit enters
handler mode, and CCNT becomes TVEC; nothing else of the unit and nothing else of the machine changes; under any other condition the handler
is not entered. TEPC of TRAPC is the word after it; a word that waits has not completed, and CCNT names it; the fabric keeps firing, and the
faulting node keeps its operands. -/
def Obligations.HandlerTakesAFault : Prop :=
  (∀ (s : State) (uid : Nat) (u : UnitSt) (key : Option Nat) (r : Raised),
    aget s.units uid = some u → u.status = .running → u.handler = false → u.tvec ≠ 0#64 → isStopCause r.cause = false →
    s.takeFault uid key r = { s with units := aset s.units uid { u with
      tcause := BitVec.ofNat 17 ((if r.ctl then 2 ^ 16 else 0) + r.cause), taddr := r.addr
      ttag := if r.ctl then 0#25 else BitVec.ofNat 25 (ttagOf r.tag), tepc := if r.ctl then r.tepc else u.ccnt
      handler := true, ccnt := u.tvec, curFault := some (key, r), wait := .none } }) ∧
  (∀ (s : State) (uid : Nat) (u : UnitSt) (key : Option Nat) (r : Raised), aget s.units uid = some u → u.handler = false →
    (u.tvec = 0#64 ∨ isStopCause r.cause = true ∨ u.status ≠ .running) → ((s.takeFault uid key r).unit uid).handler = false) ∧
  (∀ (s : State) (uid : Nat) (u : UnitSt) (key : Option Nat) (r : Raised), aget s.units uid = some u → u.status = .running → u.handler = true →
    r.ctl = false → isStopCause r.cause = false → ((s.takeFault uid key r).unit uid).tepc = u.tepc ∧ ((s.takeFault uid key r).unit uid).ccnt = u.ccnt) ∧
  (∀ (s : State) (uid key : Nat) (u : UnitSt) (r : Raised), aget s.units uid = some u → u.status = .running → u.handler = false → u.tvec ≠ 0#64 →
    isStopCause r.cause = false → ((s.faultAt uid key r).unit uid).fires = true ∧ (((s.faultAt uid key r).unit uid).pe key).held = some r ∧
      (((s.faultAt uid key r).unit uid).pe key).q = (u.pe key).q ∧
      ∀ k, k ≠ key → ((s.faultAt uid key r).unit uid).pe k = u.pe k) ∧
  (∀ (c : CWord) (s : State) (u : UnitSt), Sequencing s u → ctlFieldsOk 0x28 c = true →
    exec (.trapc c) s = .next (s.takeFault s.curUnit none { cause := 0x120 + (CWord.imm16 c).toNat % 32, ctl := true, tepc := nextCcnt u })) ∧
  (∀ (c : CWord) (s : State) (u : UnitSt), Sequencing s u → ¬ AtRest s u →
    (ctlFieldsOk 0x1A c = true → exec (.qwait c) s = .next s) ∧
    (ctlFieldsOk 0x1F c = true → u.oldest (agetD u.sinks ((CWord.imm16 c).toNat % 16) []) = none → exec (.extr c) s = .next s))

/-- Where the handler does not take a fault (R345, R351, R353): without TVEC, for a class S cause, or for a control word in handler mode, the
unit stops with a stop handle of 16 bits that no stopped unit has, and keeps its region; a fabric fault in handler mode waits; a draining
unit ends faulted. -/
def Obligations.OtherFaultsWaitStopOrEnd : Prop :=
  (∀ (s : State) (uid : Nat) (u : UnitSt) (key : Option Nat) (r : Raised),
    aget s.units uid = some u → u.status = .running → (isStopCause r.cause = true ∨ u.handler = false ∧ u.tvec = 0#64 ∨ u.handler = true ∧ r.ctl = true) →
    ((s.takeFault uid key r).unit uid).status = .stopped s.newHandle ∧ ((s.takeFault uid key r).unit uid).lead = u.lead ∧
    (s.takeFault uid key r).nextHandle = s.nextHandle + 1 ∧ 1 ≤ s.newHandle ∧ s.newHandle < 65536 ∧
    (s.usedHandles.length < 65535 → s.newHandle ∉ s.usedHandles)) ∧
  (∀ (s : State) (uid : Nat) (u : UnitSt) (key : Option Nat) (r : Raised),
    aget s.units uid = some u → u.status = .running → u.handler = true → r.ctl = false → isStopCause r.cause = false →
    s.takeFault uid key r = s.modUnit uid (fun u => { u with pend := u.pend ++ [(key, r)] })) ∧
  (∀ (s : State) (uid since : Nat) (stop : Option Nat) (u : UnitSt) (key : Option Nat) (r : Raised),
    aget s.units uid = some u → u.status = .draining since stop →
    s.takeFault uid key r = (s.unitRecord uid { faultRec u key r with uend := true }).endUnit uid 3)

/-- ERET (R279, R351, R352): in handler mode CCNT becomes TEPC, handler mode ends, and the firing, the store-buffer entry or the result that the
fault held is retried or released; then the next waiting fault is taken, control words first. Outside a handler ERET raises 0x0E7. -/
def Obligations.EretReturnsFromTheHandler : Prop :=
  (∀ (c : CWord) (s : State) (u : UnitSt), Sequencing s u → ctlFieldsOk 0x29 c = true → u.handler = true → u.pend = [] → u.curFault = none →
    exec (.eret c) s = .next (unitBecomes s { u with ccnt := u.tepc, handler := false, curFault := none, watchdog := 0 })) ∧
  (∀ (c : CWord) (s : State) (u : UnitSt), Sequencing s u → ctlFieldsOk 0x29 c = true → u.handler = true → u.pend = [] →
    ∃ t : State, exec (.eret c) s = .next t ∧ (t.unit s.curUnit).ccnt = u.tepc ∧ (t.unit s.curUnit).handler = false ∧
      (t.unit s.curUnit).curFault = none ∧ (t.unit s.curUnit).g = u.g ∧ t.mem = s.mem ∧ t.dir = s.dir ∧
      (∀ v, v ≠ s.curUnit → aget t.units v = aget s.units v) ∧
      (∀ (key : Nat) (r : Raised), u.curFault = some (some key, r) → (u.pe key).held = some r → ((t.unit s.curUnit).pe key).held = none) ∧
      (∀ (key : Option Nat) (r : Raised) (e : SbEntry), u.curFault = some (key, r) → r.entry ≠ 0 → u.entry? r.entry = some e →
        (t.unit s.curUnit).entry? r.entry = some (if e.phase == .faulted
          then { e with scopeStop := false, phase := .waiting, uctl := u.uctl, rm := u.rm } else { e with scopeStop := false }))) ∧
  (∀ (c : CWord) (s : State) (u : UnitSt) (f : Option Nat × Raised) (rest : List (Option Nat × Raised)), Sequencing s u → ctlFieldsOk 0x29 c = true →
    u.handler = true → nextPending u.pend = some (f, rest) → isStopCause f.2.cause = false → u.tvec ≠ 0#64 →
    ∃ t : State, exec (.eret c) s = .next t ∧ (t.unit s.curUnit).handler = true ∧ (t.unit s.curUnit).ccnt = u.tvec ∧
      (t.unit s.curUnit).curFault = some f ∧ (t.unit s.curUnit).pend = rest ∧ (t.unit s.curUnit).taddr = f.2.addr ∧
      (t.unit s.curUnit).tepc = if f.2.ctl then f.2.tepc else u.tepc) ∧
  (∀ (l rest : List (Option Nat × Raised)) (f : Option Nat × Raised), nextPending l = some (f, rest) →
    f ∈ l ∧ (∀ x ∈ rest, x ∈ l) ∧ rest.length + 1 = l.length ∧ (f.2.ctl = false → ∀ x ∈ l, x.2.ctl = false ∧ f.1.getD 0 ≤ x.1.getD 0)) ∧
  (∀ (c : CWord) (s : State) (u : UnitSt), Sequencing s u → ctlFieldsOk 0x29 c = true → u.handler = false →
    exec (.eret c) s = .next (s.ctlFault s.curUnit 0x0E7))

/-! ### Control words -/

/-- The arithmetic words act on 64-bit g registers, modulo 2^64, and a write to g0 is discarded (R275): gd takes the value, CCNT goes to the
next word, and nothing else changes. -/
def Obligations.SequencerArithmetic : Prop :=
  (∀ (i : Instr) (op : Nat) (c : CWord) (f : UnitSt → Word) (s : State) (u : UnitSt), aluValue i = some (op, c, f) → Sequencing s u →
    ctlFieldsOk op c = true →
    exec i s = .next (unitBecomes s { u.setG c.gd (f u) with ccnt := nextCcnt u, wait := .none, watchdog := 0 })) ∧
  (∀ (u : UnitSt) (v : Word) (r : BitVec 5), u.greg 0#5 = 0#64 ∧ (u.setG 0#5 v).greg r = u.greg r) ∧
  (∀ (u : UnitSt) (v : Word) (d r : BitVec 5), d ≠ 0#5 → (u.setG d v).greg r = if r = d then v else u.greg r)

/-- The branch words compare ga with gb and go to their own address + 4 × OFF16; jal and jr write the address of the word + 4 to gd and jump, jr
to the old ga + 4 × IMM16 (R277, R148). A jr target that is not 4-byte aligned raises 0x0E4; that TADDR then holds the target in 56 bits is
log 8 (DEDUCED). -/
def Obligations.BranchesGoWhereTheySay : Prop :=
  (∀ (i : Instr) (op : Nat) (c : CWord) (p : Word → Word → Bool) (s : State) (u : UnitSt), branchCond i = some (op, c, p) →
    Sequencing s u → ctlFieldsOk op c = true →
    exec i s = .next (unitBecomes s (if p (u.greg c.gd) (u.greg c.ga) then
      { u with ccnt := (u.ccnt + ((CWord.imm16 c).signExtend 64 <<< 2)) &&& codeMask, cameFrom := some u.ccnt, wait := .none, watchdog := 0 }
      else { u with ccnt := nextCcnt u, wait := .none, watchdog := 0 }))) ∧
  (∀ (c : CWord) (s : State) (u : UnitSt), Sequencing s u → ctlFieldsOk 0x16 c = true →
    exec (.jal c) s = .next (unitBecomes s { u.setG c.gd (u.ccnt + 4#64) with
      ccnt := (u.ccnt + ((CWord.off21 c).signExtend 64 <<< 2)) &&& codeMask, cameFrom := some u.ccnt, wait := .none, watchdog := 0 })) ∧
  (∀ (c : CWord) (s : State) (u : UnitSt) (t : Word), Sequencing s u → ctlFieldsOk 0x17 c = true →
    t = u.greg c.ga + ((CWord.imm16 c).signExtend 64 <<< 2) →
    (t &&& 3#64 = 0#64 → exec (.jr c) s = .next (unitBecomes s { u.setG c.gd (u.ccnt + 4#64) with
      ccnt := t &&& codeMask, cameFrom := some u.ccnt, wait := .none, watchdog := 0 })) ∧
    (t &&& 3#64 ≠ 0#64 → ∃ r : Raised, r.cause = 0x0E4 ∧ r.ctl = true ∧ r.addr = t &&& 0x00FFFFFFFFFFFFFF#64 ∧ r.tepc = u.ccnt ∧
      exec (.jr c) s = .next (s.takeFault s.curUnit none r)))

/-- LDG and STG (R276): an aligned access that translates performs at once and the sequencer goes on, an LDG with the span that a load with hint
0 fills (R88) and once no store of the context is pending whose value another load has taken (R105); a misaligned one raises 0x060. -/
def Obligations.SequencerLoadsAndStores : Prop :=
  (∀ (c : CWord) (s s0 s1 s2 : State) (u : UnitSt) (e : SbEntry) (xa mt sc : Nat) (bs : List Byte), Sequencing s u → ctlFieldsOk 0x0B c = true → Fresh u →
    ctlEa u c % 8 = 0 → s0 = s.modUnit s.curUnit (fun x => { x with ldgLine := none }) →
    translateReady s0 u.lead u.job (ctlEa u c) 8 .load 0 = (s1, .ok xa mt sc) →
    e = { ctlEntry u .ld 0#3 0#64 (ctlEa u c) 8 with xa := xa, mt := mt } → u.readPends e = false →
    s1.readNearXa u.lead xa 8 mt = (s2, .ok bs) →
    ∃ l : Option Nat, (∀ xa mt sc, (translate (s2.fillEntry e) u.lead u.job (ctlEa u c) .load 0).2 = .ok xa mt sc → l = some (xa / 128)) ∧
      exec (.ldg c) s = .next ((((s2.fillEntry e).modUnit s.curUnit (fun x => { x with ldgLine := l })).modUnit s.curUnit
        (fun x => x.setG c.gd (wd (leNat bs)))).nextWord s.curUnit)) ∧
  (∀ (c : CWord) (s s1 : State) (u : UnitSt) (xa mt sc : Nat), Sequencing s u → ctlFieldsOk 0x0C c = true → Fresh u → ctlEa u c % 8 = 0 →
    translateReady s u.lead u.job (ctlEa u c) 8 .store 1 = (s1, .ok xa mt sc) → isFabXa xa = false →
    exec (.stg c) s = .next ((s1.homeWrite xa (leBytes 8 (u.greg c.gd).toNat)).nextWord s.curUnit)) ∧
  (∀ (c : CWord) (s : State) (u : UnitSt), Sequencing s u → ctlFieldsOk 0x0B c = true → Fresh u → ctlEa u c % 8 ≠ 0 →
    exec (.ldg c) s = .next ((s.modUnit s.curUnit (fun x => { x with ldgLine := none })).ctlFault s.curUnit 0x060 (ctlEa u c))) ∧
  (∀ (c : CWord) (s : State) (u : UnitSt), Sequencing s u → ctlFieldsOk 0x0C c = true → Fresh u → ctlEa u c % 8 ≠ 0 →
    exec (.stg c) s = .next (s.ctlFault s.curUnit 0x060 (ctlEa u c))) ∧
  (∀ (u : UnitSt) (c : CWord), (ctlEa u c : Int) = ((u.greg c.ga).toNat + (CWord.imm16 c).toInt) % 2 ^ 56)

/-- A write performed at a line's home (R94): its bytes take their new values, every other byte of every memory is as before, the weight store
and the local stores too, and the line's sequence tag counts one write event. -/
def Obligations.HomeWritesStoreTheirBytesOnly : Prop :=
  ∀ (s : State) (xa : Nat) (bs : List Byte), s.mem.wf → s.hmem.wf → xa + bs.length ≤ fabBase → (xa + bs.length ≤ hostBase ∨ hostBase ≤ xa) →
    (∀ l ∈ touchedLines xa bs.length, LineAtHome s l) →
    (∀ a, (xa ≤ a ∧ a < xa + bs.length → (s.homeWrite xa bs).homeByte a = lget bs (a - xa) 0#8) ∧
      (¬ (xa ≤ a ∧ a < xa + bs.length) → (s.homeWrite xa bs).homeByte a = s.homeByte a)) ∧
    (s.homeWrite xa bs).wst = s.wst ∧ (s.homeWrite xa bs).lsm = s.lsm ∧
    (∀ l ∈ touchedLines xa bs.length, ((s.homeWrite xa bs).dirOf l).tag = (s.dirOf l).tag + 1#16)

/-- AMOG, POST and GNUDGE (R276): when the access has performed they write gd, or wake the graph, and go on; a misaligned one raises 0x060.
FENCEG waits for what was issued before it. -/
def Obligations.SequencerSynchronises : Prop :=
  (∀ (i : Instr) (op : BitVec 6) (c : CWord) (s s1 : State) (u : UnitSt) (n : Nat) (e : SbEntry) (rel : Bool) (v : Word),
    syncWord u i = some (n, e, rel) → i.ctlPart = some (op, c) → Sequencing s u → ctlFieldsOk op.toNat c = true → Fresh u →
    ctlSync s s.curUnit u e rel = .ok s1 v → s1.curUnit = s.curUnit → exec i s = .next ((syncAfter u s1 v i).nextWord s.curUnit)) ∧
  (∀ (i : Instr) (op : BitVec 6) (c : CWord) (s : State) (u : UnitSt) (n : Nat) (e : SbEntry) (rel : Bool),
    syncWord u i = some (n, e, rel) → i.ctlPart = some (op, c) → Sequencing s u → ctlFieldsOk op.toNat c = true → Fresh u → e.ea % e.n ≠ 0 →
    exec i s = .next (s.ctlFault s.curUnit 0x060 e.ea)) ∧
  (∀ (c : CWord) (s s1 s2 : State) (u : UnitSt) (xa mt sc k ord : Nat), Sequencing s u → ctlFieldsOk 0x2C c = true → Fresh u →
    (∀ o, u.wait ≠ .fence o) → ord = u.ordCtr → k = (CWord.imm16 c).toNat % 4 →
    translate s u.lead u.job ((u.greg c.ga).toNat % 2 ^ 56) .fence 0 = (s1, .ok xa mt sc) →
    s2 = s1.modUnit s.curUnit (fun x => { x with wait := .fence ord }) →
    (s2.fencegDone s.curUnit u k ord = false → exec (.fenceg c) s = .next s2) ∧
    (s2.fencegDone s.curUnit u k ord = true →
      (k = 0 ∨ (scopeCheck (s2.dirOf (xa / 128)).scopeRec sc u.lead).1 < 3 ∨ s2.fabricReleased s.curUnit = true) →
      (∀ s3, isFabXa xa = true → ctlAsk s2 s.curUnit u xa (fun t => .memSync (xa % 2 ^ 40) 8 .fence sc 0#64 0#64 t) = .wait s3 →
        exec (.fenceg c) s = .next s3) ∧
      (∀ s3 v e, e = { ctlEntry u .fence 0#3 0#64 ((u.greg c.ga).toNat % 2 ^ 56) 8 with xa := xa, scope := sc } →
        isFabXa xa = false → (s2.dirOf (xa / 128)).lock = none →
        ctlScope (s2.syncEffect e []).1 s.curUnit u e (s2.dirOf (xa / 128)).scopeRec 0#64 = .ok s3 v →
        exec (.fenceg c) s = .next (s3.nextWord s.curUnit))))

/-- QWAIT, CFGS, YIELD and DONE wait for quiescence (R42, R278, R279). Then QWAIT goes on; CFGS checks LVL0 to LVL7 (0x0A6) and activates the
staged image, or raises 0x0E3: the image's PEs, element registers and node state are fresh, the colours open, sinks, open waves and buffers
empty (R19, R190), a source-form CNTR has latched its registers (R180), and a unit whose image puts a node on a failed PE with no target to
migrate to ends (R379); YIELD goes on and is pre-empted if a unit of equal or higher class waits (that it completes first is log 8,
DEDUCED); DONE ends the unit with status 1. -/
def Obligations.WordsThatWaitForQuiescence : Prop :=
  (∀ (i : Instr) (op : BitVec 6) (c : CWord) (s : State) (u : UnitSt), i ∈ [Instr.qwait c, Instr.cfgs c, Instr.yield c, Instr.done c] →
    i.ctlPart = some (op, c) → Sequencing s u → ctlFieldsOk op.toNat c = true → ¬ AtRest s u → exec i s = .next s) ∧
  (∀ (c : CWord) (s : State) (u : UnitSt), Sequencing s u → AtRest s u →
    (ctlFieldsOk 0x1A c = true → exec (.qwait c) s = .next ((rested s).nextWord s.curUnit)) ∧
    (ctlFieldsOk 0x30 c = true → exec (.done c) s = .next ((rested s).endUnit s.curUnit 1)) ∧
    (ctlFieldsOk 0x19 c = true → u.lvlsOk = false → exec (.cfgs c) s = .next ((rested s).ctlFault s.curUnit 0x0A6)) ∧
    (ctlFieldsOk 0x19 c = true → u.lvlsOk = true → u.staged = none → exec (.cfgs c) s = .next ((rested s).ctlFault s.curUnit 0x0E3)) ∧
    (∀ img t, ctlFieldsOk 0x19 c = true → u.lvlsOk = true → u.staged = some img →
      t = (rested s).modUnit s.curUnit (fun x => { x.next with
        active := some img, staged := none, pes := img.pes.map (fun p => (p.1, { x.freshPe p.2 with halted := (x.pe p.1).halted }))
        col1 := 0, col2 := 0, col3 := 0, sinks := [], openWave := [], spanHints := [], sb := [], ms := [], ovf := [], quiet := false }) →
      exec (.cfgs c) s = .next (t.endStranded s.curUnit) ∧ (t.fleet.peFailed = [] → t.endStranded s.curUnit = t)) ∧
    (∀ p, (u.freshPe p).q = p.q ∧ (u.freshPe p).ereg = p.ereg ∧ (p.opc = 0x36#7 → p.word.sa = 6#3 → p.word.sb = 6#3 → p.word.sc = 6#3 →
      ∃ d, d = p.word.imm.toNat % 4 ∧ (u.freshPe p).node = .cntrSrc (lget u.ixb d 0#64) (lget u.ixs d 0#64) (lget u.ixn d 0#64) 0)) ∧
    (ctlFieldsOk 0x26 c = true → ((rested s).nextWord s.curUnit).displaced u false = false → exec (.yield c) s = .next ((rested s).nextWord s.curUnit)) ∧
    (ctlFieldsOk 0x26 c = true → ((rested s).nextWord s.curUnit).displaced u false = true →
      exec (.yield c) s = .next (((rested s).nextWord s.curUnit).requestPreempt s.curUnit false)))

/-- BANKR and RESZ (R123 to R125): under the wrong local-store mode 0x0EA, not applicable 0x0EB, else every cluster of the region takes its new
roles. INJ sends one token into the region, EXTR takes the oldest token of a sink, CFGL stages an image (R278): each with the causes that
the rule names. The ADDR of a refused CFGL is log 7 (DEDUCED); that RESZ changes every cluster of the region or none is log 8 (DEDUCED);
where INJ places its token is log 67 (DEDUCED). -/
def Obligations.BanksTokensAndImages : Prop :=
  ((∀ (c : CWord) (s : State) (u : UnitSt), Sequencing s u → ctlFieldsOk 0x20 c = true →
    (u.clusterList.any (fun k => (s.cluster k).lsMode) = true → exec (.bankr c) s = .next (s.ctlFault s.curUnit 0x0EA)) ∧
    (u.clusterList.any (fun k => (s.cluster k).lsMode) = false →
      s.units.any (fun p => p.1 != s.curUnit && p.2.inRegion && u.clusterList.any (fun k => p.2.covers k)) = true →
      exec (.bankr c) s = .next (s.ctlFault s.curUnit 0x0EB)) ∧
    (u.clusterList.any (fun k => (s.cluster k).lsMode) = false →
      s.units.any (fun p => p.1 != s.curUnit && p.2.inRegion && u.clusterList.any (fun k => p.2.covers k)) = false → AtRest s u →
      exec (.bankr c) s = .next ((u.clusterList.foldl (fun s k => s.setRoles k (u.greg c.ga)) (rested s)).nextWord s.curUnit))) ∧
  (∀ (c : CWord) (s : State) (u : UnitSt) (n : Nat), Sequencing s u → ctlFieldsOk 0x21 c = true → n = (CWord.imm16 c).toNat % 64 →
    (u.clusterList.any (fun k => !(s.cluster k).lsMode) = true → exec (.resz c) s = .next (s.ctlFault s.curUnit 0x0EA)) ∧
    (u.clusterList.any (fun k => !(s.cluster k).lsMode) = false → u.clusterList.any (fun k => (reszRoles (s.cluster k) n).isNone) = true →
      exec (.resz c) s = .next (s.ctlFault s.curUnit 0x0EB)) ∧
    (u.clusterList.any (fun k => !(s.cluster k).lsMode) = false → u.clusterList.any (fun k => (reszRoles (s.cluster k) n).isNone) = false →
      ∃ t : State, exec (.resz c) s = .next (t.nextWord s.curUnit) ∧ t.mem = s.mem ∧ t.units = s.units ∧
        (∀ k ∈ u.clusterList, some (t.cluster k).roles = reszRoles (s.cluster k) n) ∧ (∀ k, k ∉ u.clusterList → t.cluster k = s.cluster k))) ∧
  (∀ (s : State) (k : Nat) (r : Word), ((s.setRoles k r).cluster k).roles = r ∧ (∀ j, j ≠ k → (s.setRoles k r).cluster j = s.cluster j) ∧
    (∀ b i, b < 32 → (s.cluster k).role b ≠ 1 → ({ s.cluster k with roles := r } : Cluster).role b = 1 → i < 32768 →
      (s.setRoles k r).lsm.rd (k * 2 ^ 20 + b * 32768 + i) = Config.unlistedByte)) ∧
  (∀ (k : Cluster) (n : Nat) (r : Word), n ≤ 32 → reszRoles k n = some r → ({ k with roles := r } : Cluster).nc = n)) ∧
  ((∀ (c : CWord) (s : State) (u : UnitSt) (d : Site × Nat) (pos : Site) (itag : Nat), Sequencing s u → ctlFieldsOk 0x1E c = true →
    d = routeSite ((u.greg c.gb).toNat % 2 ^ 32) → itag = bits (u.greg c.gb).toNat 39 32 → d.1.cl < u.size →
    (u.greg c.gb).toNat % 2048 = 0 → itag < (lget u.lvl 0 0#9).toNat → u.active.isSome = true →
    pos = u.placeOf ⟨u.lead + d.1.cl, d.1.x, d.1.y, u.ctx⟩ → (∀ key, u.nodeAt pos = some key → ((u.pe key).queue d.2).length < 4) →
    exec (.inj c) s = .next { unitBecomes s { u.next.holdTag0 itag with quiet := false } with
      flights := s.flights ++ [{ src := ⟨u.lead, 16, 17, u.ctx⟩, pos := pos, q := some d.2
                                 tok := { payload := u.greg c.ga, fmt := c.lo.setWidth 4, ctx := BitVec.ofNat 2 u.ctx, itag := BitVec.ofNat 8 itag
                                          wave := BitVec.ofNat 10 (bits (u.greg c.gb).toNat 49 40), last := c.lo.getLsbD 4 } }] }) ∧
  (∀ (c : CWord) (s : State) (u : UnitSt), Sequencing s u → ctlFieldsOk 0x1E c = true →
    (u.size ≤ (routeSite ((u.greg c.gb).toNat % 2 ^ 32)).1.cl ∨ (u.greg c.gb).toNat % 2048 ≠ 0 ∨
      (lget u.lvl 0 0#9).toNat ≤ bits (u.greg c.gb).toNat 39 32 ∨ u.active = none) → exec (.inj c) s = .next (s.ctlFault s.curUnit 0x0E5)) ∧
  (∀ (c : CWord) (s : State) (u : UnitSt) (k : Nat), Sequencing s u → ctlFieldsOk 0x1F c = true → k = (CWord.imm16 c).toNat % 16 →
    (∀ t, u.oldest (agetD u.sinks k []) = some t → exec (.extr c) s = .next (unitBecomes s
      { (u.setG c.gd t.payload).next with sinks := aset u.sinks k ((agetD u.sinks k []).erase t) })) ∧
    (u.oldest (agetD u.sinks k []) = none → AtRest s u → exec (.extr c) s = .next (s.ctlFault s.curUnit 0x0E6)) ∧
    (u.oldest (agetD u.sinks k []) = none → ¬ AtRest s u → exec (.extr c) s = .next s)) ∧
  (∀ (c : CWord) (s s1 : State) (u : UnitSt) (va : Nat), Sequencing s u → ctlFieldsOk 0x18 c = true →
    va = (u.greg c.ga + (sx16 c <<< 6)).toNat % 2 ^ 56 →
    (∀ img, s.loadImage u va = (s1, .ok img) → exec (.cfgl c) s = .next (s1.modUnit s.curUnit (fun x => { x.next with staged := some img }))) ∧
    (∀ k, s.loadImage u va = (s1, .error (.reject k)) →
      exec (.cfgl c) s = .next (s1.ctlFault s.curUnit k (if va % 64 = 0 then 0 else va))) ∧
    (∀ k a d0 d1, s.loadImage u va = (s1, .error (.fetch k a d0 d1)) → k ≠ 0x160 →
      exec (.cfgl c) s = .next (s1.ctlFault s.curUnit 0x0E8 a (wd k) d1)) ∧
    (va % 64 ≠ 0 → exec (.cfgl c) s = .next (s.ctlFault s.curUnit 0x008 va))))

/-- GATEO, GATEC, ISET, NOPC, HOFFS, HWAITS, SENDC, TTQC, CANCL, WFE, TRAPC, MFS and MTS (R278, R279). A word whose fields break the table
raises 0x0E1, an opcode without a word 0x0E0; the word has no effect and TEPC names it (R148); that fields which the table neither uses nor
sets to 0 are not read is log 50 (DEDUCED). -/
def Obligations.RemainingControlWords : Prop :=
  (∀ (c : CWord) (s : State) (u : UnitSt) (m : Nat), Sequencing s u → m = (CWord.imm16 c).toNat →
    (ctlFieldsOk 0x1B c = true →
      exec (.gateo c) s = .next ((unitBecomes s { u.next with gates := u.gates ||| CWord.imm16 c }).releaseGates s.curUnit)) ∧
    (ctlFieldsOk 0x1C c = true → exec (.gatec c) s = .next (unitBecomes s { u.next with gates := u.gates &&& ~~~ CWord.imm16 c })) ∧
    (ctlFieldsOk 0x1D c = true → ∃ d, d = c.lo.toNat % 4 ∧ exec (.iset c) s = .next (unitBecomes s { u.next with
      ixb := lput 0#64 u.ixb d (u.greg c.ga), ixn := lput 0#64 u.ixn d (u.greg c.gb), ixs := lput 0#64 u.ixs d (u.greg c.gd) })) ∧
    (ctlFieldsOk 0x31 c = true → exec (.nopc c) s = .next (unitBecomes s u.next)) ∧
    (ctlFieldsOk 0x22 c = true → handoffFault s s.curUnit u.lead 2 (m % 16) = none →
      exec (.hoffs c) s = .next (if s.canPush u.lead 2 (m % 16) then (s.pushHandoff u.lead 2 (m % 16)).nextWord s.curUnit else s)) ∧
    (ctlFieldsOk 0x23 c = true → handoffFault s s.curUnit u.lead 2 (m % 16) = none →
      exec (.hwaits c) s = .next (if s.canPop u.lead (m % 16) 2 then (s.popHandoff u.lead (m % 16) 2).nextWord s.curUnit else s)) ∧
    (∀ s1, ctlFieldsOk 0x2D c = true → u.issuedDone = true →
      s.sendMessage s.curUnit u.lead (u.greg c.ga) { ctx := BitVec.ofNat 2 u.ctx } = (s1, .done) → exec (.sendc c) s = .next (s1.nextWord s.curUnit)) ∧
    (∀ s1, ctlFieldsOk 0x2E c = true → u.issuedDone = true →
      s.submitRecord s.curUnit u.lead (u.greg c.ga) = (s1, .done) → exec (.ttqc c) s = .next (s1.nextWord s.curUnit)) ∧
    (ctlFieldsOk 0x25 c = true → exec (.cancl c) s = .next (if ((s.cancelFrom s.curUnit (m % 8)).unit s.curUnit).isEnded
      then s.cancelFrom s.curUnit (m % 8) else (s.cancelFrom s.curUnit (m % 8)).nextWord s.curUnit)) ∧
    (ctlFieldsOk 0x27 c = true → u.wait = .none → ∃ tag, (∀ l, u.ldgLine = some l → tag = (s.dirOf l).tag.toNat) ∧
      exec (.wfe c) s = .next (unitBecomes s { u with wait := .wfe u.ldgLine tag (s.die (dieOf u.lead)).cyc.toNat })) ∧
    (ctlFieldsOk 0x28 c = true → exec (.trapc c) s = .next (s.takeFault s.curUnit none
      { cause := 0x120 + m % 32, ctl := true, tepc := nextCcnt u })) ∧
    (∀ v, ctlFieldsOk 0x2A c = true → s.readSpecial s.curUnit u.lead (m % 256) = some v →
      exec (.mfs c) s = .next (unitBecomes s (u.setG c.gd v).next)) ∧
    (∀ v, ctlFieldsOk 0x2B c = true → s.readSpecial s.curUnit u.lead (m % 256) = some v →
      exec (.mts c) s = .next (unitBecomes s (u.writeSpecial (m % 256) (u.greg c.ga)).next)) ∧
    (ctlFieldsOk 0x2A c = true → s.readSpecial s.curUnit u.lead (m % 256) = none → exec (.mfs c) s = .next (s.ctlFault s.curUnit 0x0E2)) ∧
    (ctlFieldsOk 0x2B c = true → s.readSpecial s.curUnit u.lead (m % 256) = none → exec (.mts c) s = .next (s.ctlFault s.curUnit 0x0E2))) ∧
  ((∀ (i : Instr) (op : BitVec 6) (c : CWord) (s : State) (u : UnitSt), i.ctlPart = some (op, c) →
    (∀ o x, i ≠ .reservedControlOpcode o x) → Sequencing s u → ctlFieldsOk op.toNat c = false →
    exec i s = .next (s.takeFault s.curUnit none { cause := 0x0E1, ctl := true, tepc := u.ccnt })) ∧
  (∀ (op : BitVec 6) (c : CWord) (s : State) (u : UnitSt), Sequencing s u →
    exec (.reservedControlOpcode op c) s = .next (s.takeFault s.curUnit none { cause := 0x0E0, ctl := true, tepc := u.ccnt })))

/-! ### Engines -/

/-- The acceptance steps of R261: the first check that fails refuses the command with its cause; a BUSY entry holds it; a full set of runs or an
empty FIFO holds it; MGRP as a message is refused with 0x0C7 (log 55). 0x0C8 for a handoff code without the claim is log 28, the rounding
mode of the sender and 0x001 are log 48 (DESIGN CHOICE), and the wait for a host that holds a handler entry is log 9. MBLD, MMUL, MACC,
MDRN, MQNT, MZER and MCBT (R265): their operand checks in order, then the command joins queue M behind the operations already there. -/
def Obligations.CommandsAreCheckedInOrder : Prop :=
  ((∀ (i : Instr) (opc N : Nat) (s : State) (m : InMsg) (rest : List InMsg), AtHead i opc N s m rest → m.checked = false →
    (6 < m.msg.nptr.toNat → exec i s = .next ((s.setInbox s.curEng rest).nack s.curEng m 0x0C4 0#64)) ∧
    (m.msg.nptr.toNat ≤ 6 → (badEngineCode s.curEng m.msg.hpop.toNat = true ∨ badEngineCode s.curEng m.msg.hpush.toNat = true) →
      exec i s = .next ((s.setInbox s.curEng rest).nack s.curEng m 0x0C9 0#64))) ∧
  (∀ (i : Instr) (opc N : Nat) (s : State) (m : InMsg) (rest : List InMsg), AtHead i opc N s m rest → m.msg.nptr.toNat ≤ 6 →
    badEngineCode s.curEng m.msg.hpop.toNat = false → badEngineCode s.curEng m.msg.hpush.toNat = false →
    (s.handlerEntry s.curEng m.msg.handler.toNat = none → exec i s = .next ((s.setInbox s.curEng rest).nack s.curEng m 0x0C2 0#64)) ∧
    (∀ ea h, s.handlerEntry s.curEng m.msg.handler.toNat = some (ea, h) → s.hostReady ea 64 false = false →
      exec i s = .next (s.sendSnoops ea 64 false))) ∧
  (∀ (i : Instr) (opc N ea h : Nat) (s : State) (m : InMsg) (rest : List InMsg), AtHead i opc N s m rest → EntryRead s m ea h → m.checked = false →
    (s.bad.contains (ea / 128) = true →
      exec i s = .next ((s.setInbox s.curEng rest).nackF s.curEng m ⟨0x160, 0#64, wd (ea / 128 * 128)⟩ m.addr)) ∧
    (∀ c, (commandChecks opc N s m ea h).find? (fun p => p.1) = some (true, c) → c ≠ 0x160 → c ≠ 0x0C3 →
      exec i s = .next ((s.setInbox s.curEng rest).nack s.curEng m c (wd h))) ∧
    ((commandChecks opc N s m ea h).find? (fun p => p.1) = some (true, 0x0C3) →
      exec i s = .next (if m.busySince = none then s.setInbox s.curEng ({ m with busySince := some (s.die (dieOf m.cl)).cyc.toNat } :: rest) else s))) ∧
  (∀ (i : Instr) (opc N ea h : Nat) (s : State) (m : InMsg) (rest : List InMsg), AtHead i opc N s m rest → EntryRead s m ea h →
    (m.checked = true ∨ (commandChecks opc N s m ea h).all (fun p => !p.1) = true) →
    (8 ≤ s.runsOf s.curEng ∧ s.curEng.kind ≠ .matrix ∧ s.curEng.kind ≠ .collective ∨
      m.msg.hpop ≠ 0#4 ∧ m.popped = false ∧ s.canPop m.cl m.msg.hpop.toNat (engineCode s.curEng.kind) = false) →
    exec i s = .next (s.setInbox s.curEng ({ m with checked := true, busySince := none } :: rest))) ∧
  (∀ (x : Message) (ea h : Nat) (s : State) (m : InMsg) (rest : List InMsg), AtHead (.mgrp x) 0x17 4 s m rest → EntryRead s m ea h →
    m.checked = false → s.bad.contains (ea / 128) = false → bit h 63 = true → bit h 62 = false → bits h 31 0 = m.job →
    exec (.mgrp x) s = .next ((s.setInbox s.curEng rest).nack s.curEng m 0x0C7 (wd h)))) ∧
  (∀ (i : Instr) (opc h : Nat) (s s1 : State) (im : InMsg) (w : Nat → Word), isQueueM i = true → Accepts i opc s s1 im h w →
    (∀ c, (matrixChecks s1 im w i).find? (fun p => p.1) = some (true, c) → c ≠ 0x025 → exec i s = .next (commandRefused s.curEng s1 im c (wd h))) ∧
    ((matrixChecks s1 im w i).find? (fun p => p.1) = some (true, 0x025) →
      exec i s = .next ((s1.setInbox s.curEng ((s1.inbox s.curEng).drop 1)).nackF s.curEng im (tagCause 0x025 (wbits (w 0) 11 8) 5) im.addr)) ∧
    ((matrixChecks s1 im w i).all (fun p => !p.1) = true → ∃ o : MatOp, o.opc = im.opc ∧ o.msg = some im ∧ o.unit = im.unit ∧ o.a = w 0 ∧
      o.b = secondWord w i ∧ o.rm = im.rm ∧ o.issued = false ∧
      exec i s = .next (commandTaken s.curEng (s1.modCluster im.cl (fun c => { c with mq := c.mq ++ [o] })))))

/-- CPY, CPY2D, FILL and WSFL (R266): operands with a reserved bit or an overlap are refused with 0x0CA; otherwise, once every access is
possible, the command runs with the parts of its bytes to move. A part reads its bytes and then writes them (R98, R126, R135). CPYXS, GTHXS,
GTH, SCT and SCTA (R266 to R268): images move whole between their places; elements go from the indexed side to the list, from the list to
the indexed side, or are added there. -/
def Obligations.DataCommandsMoveTheirBytes : Prop :=
  ((∀ (x : Message) (h n d a : Nat) (s s1 : State) (im : InMsg) (w : Nat → Word), Accepts (.cpy x) 0x20 s s1 im h w →
    n = wbits (w 2) 31 0 → d = addrOf (w 0) → a = addrOf (w 1) →
    ((addrOk 0b11 (w 0) = false ∨ addrOk 0b11 (w 1) = false ∨ wbits (w 2) 63 32 ≠ 0 ∨ n ≠ 0 ∧ spaceOf (w 0) = spaceOf (w 1) ∧ overlap d n a n = true) →
      exec (.cpy x) s = .next (commandRefused s.curEng s1 im 0x0CA (wd h))) ∧
    (∀ s2, addrOk 0b11 (w 0) = true → addrOk 0b11 (w 1) = true → wbits (w 2) 63 32 = 0 → n ≠ 0 → (spaceOf (w 0) ≠ spaceOf (w 1) ∨ overlap d n a n = false) →
      s1.checkAll im [⟨spaceOf (w 1), a, n, .load⟩, ⟨spaceOf (w 0), d, n, .store⟩] = (s2, none) →
      exec (.cpy x) s = .next (commandRuns s.curEng s2 im (byteParts (spaceOf (w 1)) a (spaceOf (w 0)) d n))) ∧
    (addrOk 0b11 (w 0) = true → addrOk 0b11 (w 1) = true → wbits (w 2) 63 32 = 0 → n = 0 → exec (.cpy x) s = .next (commandRuns s.curEng s1 im []))) ∧
  (∀ (x : Message) (h n rows : Nat) (s s1 s2 : State) (im : InMsg) (w : Nat → Word) (pairs : List (Nat × Nat)) (l : List SAcc),
    Accepts (.cpy2d x) 0x21 s s1 im h w → n = wbits (w 2) 31 0 → rows = wbits (w 2) 47 32 → n ≠ 0 → rows ≠ 0 →
    addrOk 0b11 (w 0) = true → addrOk 0b11 (w 1) = true → wbits (w 2) 63 48 = 0 →
    pairs = (upFrom 0 rows).map (fun k => (addrOf (w 1) + k * wbits (w 3) 31 0, addrOf (w 0) + k * wbits (w 3) 63 32)) →
    (spaceOf (w 0) ≠ spaceOf (w 1) ∨ pairs.any (fun p => pairs.any (fun q => overlap p.1 n q.2 n)) = false) →
    l = pairs.flatMap (fun p => [⟨spaceOf (w 1), p.1, n, .load⟩, ⟨spaceOf (w 0), p.2, n, .store⟩]) → s1.checkAll im l = (s2, none) →
    exec (.cpy2d x) s = .next (commandRuns s.curEng s2 im (pairs.flatMap (fun p => byteParts (spaceOf (w 1)) p.1 (spaceOf (w 0)) p.2 n)))) ∧
  (∀ (x : Message) (h n d : Nat) (s s1 s2 : State) (im : InMsg) (w : Nat → Word), Accepts (.fill x) 0x22 s s1 im h w →
    n = wbits (w 1) 31 0 → d = addrOf (w 0) → n ≠ 0 → addrOk 0b11 (w 0) = true → wbits (w 1) 63 32 = 0 →
    s1.checkAll im [⟨spaceOf (w 0), d, n, .store⟩] = (s2, none) →
    exec (.fill x) s = .next (commandRuns s.curEng s2 im ((byteParts 0 0 (spaceOf (w 0)) d n).map (fun p =>
      { p with got := (upFrom p.d p.n).map (fun x => BitVec.ofNat 8 ((w 2).toNat / 256 ^ (x % 8))) })))) ∧
  (∀ (x : Message) (h n d : Nat) (s s1 s2 : State) (im : InMsg) (w : Nat → Word) (dies : List Nat), Accepts (.wsfl x) 0x23 s s1 im h w →
    n = wbits (w 2) 31 0 → d = addrOf (w 0) → n ≠ 0 → addrOk 0b100 (w 0) = true → addrOk 0b11 (w 1) = true → wbits (w 2) 63 32 = 0 →
    d % 8 = 0 → n % 8 = 0 → d + n ≤ 2 ^ 30 → dies = upFrom (d / 2 ^ 28) ((d + n - 1) / 2 ^ 28 + 1 - d / 2 ^ 28) →
    (∀ k ∈ dies, s1.phaseDie im.job k = true ∧ (s1.die k).run = false) →
    s1.checkAll im [⟨spaceOf (w 1), addrOf (w 1), n, .load⟩] = (s2, none) →
    exec (.wsfl x) s = .next (commandRuns s.curEng s2 im (byteParts (spaceOf (w 1)) (addrOf (w 1)) 2 d n)))) ∧
  ((∀ (s : State) (i : Nat) (r : Run) (p : EngAcc) (rest : List EngAcc), s.runs[i]? = some r → r.plan = p :: rest → p.tile = false →
    (s.unit r.m.unit).overrun = false → p.got = [] → 0 < p.n → p.ss = 1 → p.a % 8 + p.n ≤ 8 →
    (∀ q ∈ rest, q.tile = true ∨ q.ss ≠ 1 ∨ q.a / 8 ≠ p.a / 8) →
    s.performAccess i [0] = s.modRun i (fun x => { x with plan := { p with got := s.readL r.m p.a p.n } :: rest })) ∧
  (∀ (s : State) (i : Nat) (r : Run) (p : EngAcc) (rest : List EngAcc), s.runs[i]? = some r → r.plan = p :: rest → p.tile = false →
    (s.unit r.m.unit).overrun = false → p.add = false → p.got.length = p.n → 0 < p.n →
    (∀ q ∈ rest, q.tile = true ∨ q.ds ≠ p.ds ∨ q.d / 8 ≠ p.d / 8) →
    (p.ds = 1 → s.performAccess i [0] = (s.writeL r.m p.d p.got).modRun i (fun r => r.did [0] 0)) ∧
    (p.ds = 2 → s.refreshedRange p.d p.n = true →
      s.performAccess i [0] = ({ s with wst := s.wst.wrBytes p.d p.got } : State).modRun i (fun r => r.did [0] 0))) ∧
  (∀ (r : Run) (p : EngAcc) (rest : List EngAcc), r.plan = p :: rest → (r.did [0] 0).plan = rest) ∧
  (∀ (s : State) (i : Nat) (ks : List Nat) (r : Run), s.runs[i]? = some r → (r.plan = [] ∨ (s.unit r.m.unit).overrun = true) →
    s.performAccess i ks = s)) ∧
  ((∀ (x : Message) (h n : Nat) (s s1 s2 : State) (im : InMsg) (w : Nat → Word) (places : Nat → Nat → Nat → List Nat) (ss ds sst dst : Nat)
      (plan : List EngAcc),
    Accepts (.cpyxs x) 0x24 s s1 im h w → n = wbits (w 2) 7 0 + 1 → ds = spaceOf (w 0) → ss = spaceOf (w 1) →
    sst = (if ss = 3 then 1 else 128 * wbits (w 2) 31 16) → dst = (if ds = 3 then 1 else 128 * wbits (w 2) 47 32) →
    places = (fun sp a st => (upFrom 0 n).map (fun i => if sp = 3 then a + i else (a + i * st) % 2 ^ 56)) →
    addrOk 0b1001 (w 0) = true → addrOk 0b1001 (w 1) = true → wbits (w 2) 15 9 = 0 → wbits (w 2) 63 48 = 0 →
    s1.slotCause im ds (addrOf (w 0)) n = none → s1.slotCause im ss (addrOf (w 1)) n = none →
    s1.moveImages im ss ds (places ss (addrOf (w 1)) sst) (places ds (addrOf (w 0)) dst)
      (ss == ds && addrOf (w 0) == addrOf (w 1) && sst == dst) ((w 2).getLsbD 8) = .run s2 plan →
    exec (.cpyxs x) s = .next (commandRuns s.curEng s2 im plan)) ∧
  (∀ (x : Message) (h n ds : Nat) (s s1 s2 s3 : State) (im : InMsg) (w : Nat → Word) (is : List Int) (k : Nat) (plan : List EngAcc),
    Accepts (.gthxs x) 0x33 s s1 im h w → n = wbits (w 3) 31 0 → n ≠ 0 → ds = spaceOf (w 0) → addrOk 0b1001 (w 0) = true → addrOk 0b1 (w 1) = true →
    addrOk 0b11 (w 2) = true → wbits (w 3) 33 32 = 0 → wbits (w 3) 63 36 = 0 → s1.slotCause im ds (addrOf (w 0)) n = none →
    k = (if (w 3).getLsbD 34 then 8 else 4) → addrOf (w 2) % k = 0 →
    s1.checkAll im [⟨spaceOf (w 2), addrOf (w 2), n * k, .load⟩] = (s2, none) →
    is = (cutBytes k n (s2.readS im (spaceOf (w 2)) (addrOf (w 2)) (n * k)).2).map (idxOf ((w 3).getLsbD 34) ((w 3).getLsbD 35)) →
    (s2.readS im (spaceOf (w 2)) (addrOf (w 2)) (n * k)).1.moveImages im 0 ds (is.map (fun i => wrapNat 56 ((addrOf (w 1) : Int) + i * 4096)))
      ((upFrom 0 n).map (fun k => if ds = 3 then addrOf (w 0) + k else (addrOf (w 0) + 4096 * k) % 2 ^ 56)) true false = .run s3 plan →
    exec (.gthxs x) s = .next (commandRuns s.curEng s3 im plan)) ∧
  (∀ (i : Instr) (x : Message) (opc h n k z : Nat) (s s1 s2 s3 : State) (im : InMsg) (w : Nat → Word) (is : List Int) (l : List (Nat × Nat))
      (acc : List SAcc),
    i ∈ [Instr.gth x, Instr.sct x, Instr.scta x] → Accepts i opc s s1 im h w → n = wbits (w 3) 31 0 → gatherCause w (opc == 0x32) = false →
    k = (if (w 3).getLsbD 34 then 8 else 4) → addrOf (w 2) % k = 0 →
    s1.checkAll im [⟨spaceOf (w 2), addrOf (w 2), n * k, .load⟩] = (s2, none) →
    is = (cutBytes k n (s2.readS im (spaceOf (w 2)) (addrOf (w 2)) (n * k)).2).map (idxOf ((w 3).getLsbD 34) ((w 3).getLsbD 35)) →
    z = 2 ^ wbits (w 3) 33 32 → l = elemPairs (addrOf (w 0)) (addrOf (w 1)) (wbits (w 3) 33 32) is → unaligned z l = none →
    acc = l.flatMap (fun p => if opc = 0x30 then [⟨spaceOf (w 1), p.2, z, .load⟩, ⟨spaceOf (w 0), p.1, z, .store⟩]
      else [⟨spaceOf (w 0), p.1, z, .load⟩, ⟨spaceOf (w 1), p.2, z, if opc = 0x31 then .store else .atomic⟩]) →
    (s2.readS im (spaceOf (w 2)) (addrOf (w 2)) (n * k)).1.checkAll im acc = (s3, none) →
    exec i s = .next (commandRuns s.curEng s3 im (l.map (fun p =>
      if opc = 0x30 then { ss := spaceOf (w 1), a := p.2, ds := spaceOf (w 0), d := p.1, n := z }
      else { ss := spaceOf (w 0), a := p.1, ds := spaceOf (w 1), d := p.2, n := z, add := opc == 0x32 })))))

/-- The collective commands (R269): a contribution whose group is set up joins its round with its source elements, and its command stays
outstanding; without a group it is refused with 0x0CB, and a sender outside the group has every command of the round refused. -/
def Obligations.CollectiveCommandsJoinTheirRound : Prop :=
  (∀ (i : Instr) (opc h ph rank z n : Nat) (s s1 s2 t : State) (im : InMsg) (w : Nat → Word) (l : List (Nat × Nat)) (vals : List Nat),
    cmdOf i = some (opc, (if opc = 0x44 then 1 else 3), im.msg) → 0x40 ≤ opc → Accepts i opc s s1 im h w →
    wbits (w 0) 15 13 = 0 → wbits (w 0) 63 56 = 0 → collOp (w 0) ≠ 3 → collFmt (w 0) ≤ 3 →
    (opc = 0x44 ∨ addrOk 0b1 (w 1) = true ∧ addrOk 0b1 (w 2) = true) → s1.collGroup (s1.unit im.unit) (collGrp (w 0)) = some (ph, l) →
    rankOf l s1.devNum.toNat (s1.unit im.unit).unitid.toNat = some rank → (opc = 0x43 → collRoot (w 0) < l.length) →
    s1.unitReleased im.unit 3 = true → s1.colls.any (fun r => r.phase == ph && r.grp == collGrp (w 0) && r.parts.any (fun p => p.rank == rank)) = false →
    z = collSize (w 0) → (opc = 0x44 ∨ addrOf (w 1) % z = 0 ∧ addrOf (w 2) % z = 0) →
    n = collSrc opc (w 0) l.length rank * z →
    s1.checkAll im ([⟨0, addrOf (w 2), n, .load⟩, ⟨0, addrOf (w 1), collDst opc (w 0) l.length * z, .store⟩].filter (fun a => a.n != 0)) = (s2, none) →
    (t, vals) = (if n = 0 then (s2, []) else ((s2.readRange im.cl im.job (addrOf (w 2)) n).1,
      (cutBytes z (n / z) (s2.readRange im.cl im.job (addrOf (w 2)) n).2).map leNat)) → (∀ p ∈ l, p.1 = t.devNum.toNat) →
    exec i s = .next (commandTaken s.curEng { t.addPart im.job ph (collGrp (w 0)) { rank := rank, m := some im, opc := opc, ctl := w 0, dst := w 1, src := vals, total := vals.length } with
      runs := t.runs ++ [{ m := im, eng := t.curEng, done := false, scope := 3 }] })) ∧
  (∀ (i : Instr) (opc h : Nat) (s s1 : State) (im : InMsg) (w : Nat → Word),
    cmdOf i = some (opc, (if opc = 0x44 then 1 else 3), im.msg) → 0x40 ≤ opc → Accepts i opc s s1 im h w →
    wbits (w 0) 15 13 = 0 → wbits (w 0) 63 56 = 0 → collOp (w 0) ≠ 3 → collFmt (w 0) ≤ 3 →
    (opc = 0x44 ∨ addrOk 0b1 (w 1) = true ∧ addrOk 0b1 (w 2) = true) →
    (s1.collGroup (s1.unit im.unit) (collGrp (w 0)) = none → exec i s = .next (commandRefused s.curEng s1 im 0x0CB (wd h))) ∧
    (∀ ph l, s1.collGroup (s1.unit im.unit) (collGrp (w 0)) = some (ph, l) → rankOf l s1.devNum.toNat (s1.unit im.unit).unitid.toNat = none →
      (∀ p ∈ l, p.1 = s1.devNum.toNat) → exec i s = .next (commandRefused s.curEng (s1.refuseRound ph (collGrp (w 0))) im 0x0CB (wd h)))) ∧
  (∀ (s : State) (ph g : Nat) (c : CollRound), s.colls.find? (fun c => c.phase == ph && c.grp == g) = some c →
    s.refuseRound ph g = c.parts.foldl State.refusePart (s.dropColl ph g)) ∧
  (∀ (wd0 : Word) (P r : Nat) (ps : List CollPart), r < P →
    collResult 0x41 wd0 P r ps = ((upFrom 0 P).map (rankSrc ps)).flatten ∧ collResult 0x43 wd0 P r ps = rankSrc ps (collRoot wd0) ∧
    collResult 0x44 wd0 P r ps = [])

/-- What engines do later (R137, R138, R252, R256, R261, R262, R269, R272, R303). -/
def Obligations.EnginesComplete : Prop :=
  (∀ (s : State) (r : Run) (c : Nat) (push : Bool), s.runs[s.ev.i]? = some r → c = r.m.msg.hpush.toNat → s.runDone r = true →
    push = (c != 0 && !(s.unit r.m.unit).isEnded) → (push = false ∨ s.canPush r.m.cl (engineCode r.eng.kind) c = true) →
    ∃ t, t = ((({ (if push then s.pushHandoff r.m.cl (engineCode r.eng.kind) c else s) with
        runs := ldel s.runs s.ev.i } : State).engineFlags r.m r.flags).sendReply r.eng r.m (replyPayload false r.m 0)) ∧
      exec .engineReply s = .next t ∧ (s.ev.flag = false → exec .handoffPush s = .next t)) ∧
  (∀ (s s1 s2 : State) (o : MatOp), (s.cluster s.ev.cl).mq[s.ev.i]? = some o → o.issued = false → o.held = false →
    ((s.cluster s.ev.cl).mq.take s.ev.i).any (fun x => !x.issued && !x.held && o.sameSource x) = false → o.mayGo (s.unit o.unit) = true →
    (s.clusterHalted s.ev.cl (s.unit o.unit).job = false ∨ (s.unit o.unit).isDraining = true) → (o.hpop = 0 ∨ s.canPop s.ev.cl o.hpop 3 = true) →
    s1 = (if o.hpop = 0 then s else (s.popHandoff s.ev.cl o.hpop 3).modMq s.ev.cl s.ev.i (fun x => { x with popped := true })) →
    (∀ fl fs cim sc, s1.issueMat s.ev.cl o = .ok s2 fl fs cim sc →
      exec .matrixIssue s = .next (((if o.msg.isSome then s2 else s2.modUnit o.unit (fun u => u.raiseFlags fl)).progress o.unit).modMq
        s.ev.cl s.ev.i (fun x => { x with issued := true, flags := fl, fills := fs, cimFill := cim, scope := sc }))) ∧
    (∀ f m, s1.issueMat s.ev.cl o = .fault s2 f → o.msg = some m →
      exec .matrixIssue s = .next ((s2.modCluster s.ev.cl (fun c => { c with mq := ldel c.mq s.ev.i })).nackF ⟨.matrix, s.ev.cl⟩ m f m.addr)) ∧
    (∀ f, s1.issueMat s.ev.cl o = .fault s2 f → o.msg = none →
      exec .matrixIssue s = .next ((s2.modMq s.ev.cl s.ev.i (fun x => { x with held := true })).takeFault o.unit (some ((s.unit o.unit).keyOf o.site))
        { cause := f.cause, addr := if o.sbId = 0 then 0#64 else o.a, tag := o.tok, d0 := f.d0, d1 := f.d1, mat := o.id }))) ∧
  (∀ (s s0 : State) (o : MatOp) (t : State), (s.cluster s.ev.cl).mq[s.ev.i]? = some o → o.issued = true →
    ((s.cluster s.ev.cl).mq.take s.ev.i).any (fun x => !x.fills.isEmpty || x.cimFill.isSome) = false → s0 = s.fillSlots s.ev.cl s.ev.i o →
    (o.hpush = 0 ∨ s0.canPush s.ev.cl 3 o.hpush = true) → s0.fyPending (fun w => w == o.who && w.2 != 0) = false →
    t = ((if o.hpush = 0 then s0 else s0.pushHandoff s.ev.cl 3 o.hpush).modCluster s.ev.cl (fun c => { c with mq := ldel c.mq s.ev.i })).progress o.unit →
    exec .matrixRetire s = .next (match o.msg with
      | some m => { t with runs := t.runs ++ [{ m := m, eng := ⟨.matrix, s.ev.cl⟩, flags := o.flags, scope := o.scope }] }
      | none => if o.sbId ≠ 0 then t.retire o.unit o.sbId
        else t.resolveOut o.unit ((t.unit o.unit).keyOf o.site) o.id (some { o.tok with payload := 0#64, fmt := 1#4 })) ∧
    (s.ev.flag = true → exec .handoffPush s = exec .matrixRetire s)) ∧
  (∀ (s : State) (m : InMsg) (rest : List InMsg) (c ea h : Nat), s.inbox s.ev.eng = m :: rest → m.busySince = some c →
    s.handlerEntry s.ev.eng m.msg.handler.toNat = some (ea, h) → s.hostReady ea 64 false = true → bit h 62 = true →
    (4096 ≤ ((s.die (dieOf m.cl)).cyc - wd c).toNat → exec .handlerBusyTimeout s = .next ((s.setInbox s.ev.eng rest).nack s.ev.eng m 0x0C3 (wd h))) ∧
    (((s.die (dieOf m.cl)).cyc - wd c).toNat < 4096 → exec .handlerBusyTimeout s = .next s)) ∧
  (∀ (s : State) (t : TileTask) (i o k : Nat), nextTask (s.die s.ev.die).tasks 0 = some (i, o, k) → (s.die s.ev.die).tasks[i]? = some t → t.running = [] →
    s.ev.die < 4 → (∃ cl, 80 * s.ev.die ≤ cl ∧ cl < 80 * s.ev.die + 80 ∧ s.taskEngine cl = true) →
    ∃ (u : State) (t' : TileTask), exec .tileTaskStart s = .next u ∧ (u.die s.ev.die).tasks[i]? = some t' ∧ t'.running ≠ [] ∧ t.nextBlk < t'.nextBlk) ∧
  (∀ (s s1 s2 : State) (t t1 : TileTask) (blk cl fl sc : Nat), (s.die s.ev.die).tasks[s.ev.i]? = some t → t.running[s.ev.k]? = some (blk, cl) →
    s.runBlock t blk cl = .ok s1 fl sc → t1 = { t with running := ldel t.running s.ev.k, ok := t.ok + 1, scope := Nat.max t.scope sc } →
    s2 = (if (s1.unit t.unit).isEnded then s1 else (s1.modUnit t.unit (fun u => u.raiseFlags fl)).noteNarrow t.unit) →
    exec .tileTaskBlockDone s = .next (if t1.running.isEmpty && decide (t1.blocks ≤ t1.nextBlk) then
        (s2.modTask s.ev.die s.ev.i (fun _ => t1)).finishTask s.ev.die s.ev.i t1
      else s2.modTask s.ev.die s.ev.i (fun _ => t1))) ∧
  (∀ (s : State) (c : CollRound) (ph : Phase), s.colls.find? (fun c => c.phase == s.ev.ph && c.grp == s.ev.grp) = some c → s.phase? s.ev.ph = some ph →
    (∀ q, q < (agetD ph.groups c.grp []).length → c.parts.any (fun p => p.rank == q && p.whole) = true) →
    (∃ p ∈ c.parts, p.ctl ≠ (c.parts.headD { rank := 0 }).ctl ∨ p.opc ≠ (c.parts.headD { rank := 0 }).opc) →
    exec .collectiveRoundComplete s = .next (c.parts.foldl State.refusePart (s.dropColl c.phase c.grp))) ∧
  (∀ (s t : State) (c : CollRound) (ph : Phase) (P opc : Nat) (w : Word), s.colls.find? (fun c => c.phase == s.ev.ph && c.grp == s.ev.grp) = some c →
    s.phase? s.ev.ph = some ph → P = (agetD ph.groups c.grp []).length → (∀ q, q < P → c.parts.any (fun p => p.rank == q && p.whole) = true) → c.parts ≠ [] →
    (∀ p ∈ c.parts, p.ctl = w ∧ p.opc = opc) → destsReady s c.parts (collDst opc w P * collSize w) = (t, true) →
    exec .collectiveRoundComplete s = .next (c.parts.foldl (fun s p => s.finishPart P c.parts p)
      { t with colls := (s.dropColl c.phase c.grp).colls }))

/-! ### The fabric and the coherence network -/

/-- Tokens on their way and at rest (R25 to R28, R41, R286, R301): a packet enters its queue when the queue takes it; a token on a lane moves on
all outputs of its route at once; a token for a queue that no operation consumes and a second token of a tag are discarded with 0x000 and
0x0A2; a full queue holds it. A head token that cannot fire moves to a set of the matching store with a free way, an entry of a full set
spills first, and an entry comes back from the overflow table; a state that holds is reported quiescent. A node moves to a PE of its cluster
that holds no operation in the context and keeps there what it had; the switch words that the event brings take the place of the old ones,
then and while the stub stands, if they leave every node its consumers (log 75). -/
def Obligations.TokensArriveAndWait : Prop :=
  (∀ (s : State) (f : Flight) (uid q : Nat), s.flights[s.ev.i]? = some f → f.tok.kind = 0#2 → s.flightUnit f = some uid → f.q = some q →
    (s.flights.take s.ev.i).any (fun g => g.src == f.src && g.pos == f.pos && g.q == f.q) = false →
    exec .tokenArrival s = .next (if s.queueTakes uid f.pos q f.tok
      then (({ s with flights := ldel s.flights s.ev.i } : State).enterQueue uid f.pos q f.tok).settleStubs uid else s)) ∧
  (∀ (s : State) (f : Flight) (uid : Nat), s.flights[s.ev.i]? = some f → f.tok.kind = 0#2 → s.flightUnit f = some uid → f.q = none →
    ((s.unit uid).outsOf f ≠ [] ∨ (s.unit uid).headsOf f ≠ []) →
    exec .tokenArrival s = .next (if s.movable uid f && !s.yields uid f
      then (({ s with flights := ldel s.flights s.ev.i } : State).moveToken uid f).settleStubs uid else s)) ∧
  (∀ (s : State) (pos : Site) (uid key q : Nat) (tok t : Token), (s.unit uid).nodeAt pos = some key → t = { tok with col := (s.unit uid).effCol tok.col } →
    (s.queueTakes uid pos q tok = true → ((s.unit uid).pe key).takes q = true → (s.unit uid).duplicate key q tok = false →
      (((s.unit uid).pe key).queue q).length < 4) ∧
    (((s.unit uid).pe key).takes q = true → (s.unit uid).duplicate key q t = false →
      s.enterQueue uid pos q tok = (s.useNow pos.cl (.queue pos.cl pos.x pos.y q)).modUnit uid (fun u =>
        { (u.modPe key (fun p => p.setQueue q (p.queue q ++ [t]))) with quiet := false })) ∧
    (((s.unit uid).pe key).takes q = true → (s.unit uid).duplicate key q t = true →
      s.enterQueue uid pos q tok = (s.useNow pos.cl (.queue pos.cl pos.x pos.y q)).takeFault uid (some key) (raise 0x0A2 t)) ∧
    (((s.unit uid).pe key).takes q = false →
      s.enterQueue uid pos q tok = (s.useNow pos.cl (.queue pos.cl pos.x pos.y q)).takeFault uid (some key) (raise 0x000 t))) ∧
  (∀ (s : State) (uid key : Nat) (t : Token) (r : List Token) (e : MsEntry) (es : List (Nat × MsEntry)), s.unitAt s.ev.site.cl s.ev.site.ctx = some uid →
    key = (s.unit uid).keyOf s.ev.site → ((s.unit uid).pe key).queue s.ev.q = t :: r → r ≠ [] → (s.unit uid).fires = true →
    s.headFires uid key s.ev.q t = false → e = { rank := key / 256, x := key % 16, y := key / 16 % 16, q := s.ev.q, tok := t } →
    es = (s.msEntries ((s.unit uid).lead + e.rank)).filter (fun p => msSet (s.unit p.1).ctx p.2 == msSet (s.unit uid).ctx e) →
    (es.length < 8 → exec .headTokenToMatchingStore s = .next ((s.modUnit uid (fun u => { u with ms := u.ms ++ [e] })).modUnit uid
      (fun u => u.modPe key (fun p => p.setQueue s.ev.q r)))) ∧
    (∀ v s1, 8 ≤ es.length → s.victim uid es = some v → s.spill v.1 v.2 = (s1, true) →
      exec .headTokenToMatchingStore s = .next ((s1.modUnit uid (fun u => { u with ms := u.ms ++ [e] })).modUnit uid
        (fun u => u.modPe key (fun p => p.setQueue s.ev.q r))))) ∧
  (∀ (s s1 s2 : State) (u : UnitSt) (e : MsEntry), u = s.unit s.ev.u → u.ovf[s.ev.i]? = some e → u.fires = true →
    s.headFires s.ev.u (peKey e.rank e.x e.y) e.q e.tok = true → s.makeWay s.ev.u e = (s1, true) → s1.leaveTable s.ev.u s.ev.i e = (s2, true) →
    exec .matchingStoreRefill s = .next ((s2.modUnit s.ev.u (fun u => { u with ms := u.ms ++ [e] })).modCluster (u.lead + e.rank)
      (fun c => { c with trace := aset c.trace (u.ctx, 2) (agetD c.trace (u.ctx, 2) 0 + 1) }))) ∧
  (∀ (s : State), exec .quiescenceReport s = .next (if s.quiescent s.ev.u (s.unit s.ev.u) then
    s.modUnit s.ev.u (fun u => { u with quiet := true }) else s)) ∧
  (∀ (s s1 : State) (uid key key' : Nat) (u v : UnitSt) (st d : Site), st = s.ev.site → s.unitAt st.cl st.ctx = some uid → u = s.unit uid →
    key = u.keyOf st → d = { st with x := s.ev.x2, y := s.ev.y2 } → key' = u.keyOf d → d.x < 16 → d.y < 16 →
    s.ev.words.all ((u.withWords s.ev.words).wordsOk u) = true →
    (∀ q, (u.pe key).stub = some q → v = u.withWords s.ev.words → s.rewriteOk u v st { st with x := q.1, y := q.2 } id = true →
      exec .migration s = .next ((s.setUnit uid v).settleStubs uid)) ∧
    ((u.pe key).stub = none → key ≠ key' → (u.pe key).consumes = true → (u.pe key').consumes = false → u.isDraining = false → s.hasStub st.cl = false →
      s.fleet.peFailed.contains (d.cl, d.x, d.y) = false → v = (u.moveNode st d).withWords s.ev.words → s.rewriteOk u v st d (moveKey key key') = true →
      s1 = (s.setUnit uid v).modCluster st.cl (fun c => { c with
        mq := c.mq.map (fun o => if o.unit == uid && o.site == st then { o with site := d } else o)
        trace := aset c.trace (u.ctx, 0) (agetD c.trace (u.ctx, 0) 0 + 1) }) → s1.setsHold d = true →
      exec .migration s = .next ((s1.count 22 1).settleStubs uid))) ∧
  (∀ (u v : UnitSt) (st d : Site) (p p' : PeCtx), u.keyOf st ≠ u.keyOf d → v = u.moveNode st d → p = v.pe (u.keyOf d) → p' = v.pe (u.keyOf st) →
    p.op = (u.pe (u.keyOf st)).op ∧ p.q = (u.pe (u.keyOf st)).q ∧ p.ereg = (u.pe (u.keyOf st)).ereg ∧ p.node = (u.pe (u.keyOf st)).node ∧
    p.home = (u.pe (u.keyOf st)).home ∧ p.sw = (u.pe (u.keyOf d)).sw ∧ p'.sw = (u.pe (u.keyOf st)).sw ∧ p'.consumes = false ∧ p'.stub = some (d.x, d.y))

/-- The store buffer issues in program order and performs (R37, R39, R102, R227, R353): what is not free to move stays; an entry that may not
issue waits, one behind an entry of its invocation that failed among them; an entry that has issued performs or asks for its line, of a
stopped or ended unit too; a coloured write is held. The hint that acts is that of R84, R86 and R231. -/
def Obligations.StoreBufferIssuesInOrder : Prop :=
  (∀ (s : State) (e : SbEntry), (s.unit s.ev.u).entry? s.ev.id = some e → (s.unit s.ev.u).completes = true →
    (e.phase = .waiting → ((s.unit s.ev.u).fires = false ∨ (s.unit s.ev.u).canIssue e = false) → exec .storeBufferIssue s = .next s) ∧
    (e.phase = .issued → exec .storeBufferIssue s = .next (s.performEntry s.ev.u e)) ∧
    (e.phase = .waiting → (s.unit s.ev.u).fires = true → (s.unit s.ev.u).canIssue e = true → e.op = .ldxs → exec .storeBufferIssue s = .next (s.issueEntry s.ev.u e)) ∧
    (∀ x, e.phase = .waiting → (s.unit s.ev.u).fires = true → (s.unit s.ev.u).canIssue e = true → e.op ≠ .ldxs → ((s.issueEntry s.ev.u e).unit s.ev.u).entry? e.id = some x →
      exec .storeBufferIssue s = .next (if x.phase = .issued then (s.issueEntry s.ev.u e).performEntry s.ev.u x else s.issueEntry s.ev.u e)) ∧
    (e.phase = .issued → (s.unit s.ev.u).mayPerform e = true → e.op = .stsp →
      exec .storeBufferIssue s = .next (({ s with lsm := s.lsm.wrBytes (e.xa - lBase) e.bytes } : State).retire s.ev.u e.id)) ∧
    (e.phase = .issued → (s.unit s.ev.u).mayPerform e = true → e.op = .st → isFabXa e.xa = false → e.tagged = false → e.mt ≠ 2 →
      s.l1Owns e.site.cl e.xa e.n = true →
      exec .storeBufferIssue s = .next (((s.l1Write e.site.cl e.xa .M e.bytes).keepFor e).retire s.ev.u e.id))) ∧
  (∀ (s : State) (e : SbEntry), (s.unit s.ev.u).entry? s.ev.id = some e → (s.unit s.ev.u).isEnded = true →
    exec .storeBufferIssue s = .next (if e.phase = .issued then s.performEntry s.ev.u e else s)) ∧
  (∀ (u : UnitSt) (e : SbEntry), u.behindFault e = true → u.canIssue e = false) ∧
  (∀ (c : Cluster) (e : SbEntry), c.nc ≠ 0 → (e.mt = 2 → hintOf c e = 2) ∧ (e.mt = 1 → e.w.mod = 0#3 → hintOf c e = 1) ∧
    (e.op = .ld → e.w.mod = 4#3 → (e.mt = 0 → hintOf c e = 0) ∧ (e.mt = 1 → hintOf c e = 1))) ∧
  (∀ (s : State) (uid : Nat) (e : SbEntry), (s.unit uid).mayPerform e = false → s.performEntry uid e = s) ∧
  (∀ (s : State) (uid : Nat) (e : SbEntry), (s.unit uid).mayPerform e = true → e.op = .stsp →
    s.performEntry uid e = ({ s with lsm := s.lsm.wrBytes (e.xa - lBase) e.bytes } : State).retire uid e.id) ∧
  (∀ (s : State) (uid : Nat) (e : SbEntry), (s.unit uid).mayPerform e = true → e.op = .st → isFabXa e.xa = false → e.tagged = false → e.mt ≠ 2 →
    s.l1Owns e.site.cl e.xa e.n = true → s.performEntry uid e = ((s.l1Write e.site.cl e.xa .M e.bytes).keepFor e).retire uid e.id) ∧
  (∀ (s : State) (uid : Nat) (e : SbEntry), (s.unit uid).mayPerform e = true → e.op = .st → isFabXa e.xa = false → (e.tagged = true ∨ e.mt = 2) →
    s.performEntry uid e = s.ask uid e .homeStore) ∧
  (∀ (s : State) (uid : Nat) (e : SbEntry), e.op.held = true →
    (e.killed = true → s.issueEntry uid e = s.retireKilled uid e) ∧
    (e.killed = false → (s.unit uid).coloured e = true → s.issueEntry uid e = (s.markHeld uid e (s.heldXa uid e)).modUnit uid (fun x =>
      if e.op == .flushr then x.modEntry e.id (fun y => { y with ranges := s.heldRanges uid e }) else x)))

/-- GETS, GETM and UPG at a line's home (R93, R94, R320): a read is granted exclusively when no other copy exists, shared otherwise; an
exclusive or modified holder is asked to share first; a write is granted when every other copy has been given up. PUTM, PUTE and PUTS at the
home, INV, FWDS and FWDM at a cluster, and the responses DATA, ACK and WACK (R89, R93 to R95). -/
def Obligations.LinesAreGrantedAndMoved : Prop :=
  ((∀ (s : State) (i xa n : Nat) (m : CohMsg), s.pickMsg .getS = some (i, m) → xa = m.line / 32 * 4096 + m.w0 * 4 → n = (m.w1 + 1 - m.w0) * 4 →
    (s.hostReady xa n false = false → exec .gets s = .next (s.sendSnoops xa n false)) ∧
    (∀ c, s.hostReady xa n false = true →
      (s.dirOf m.line).sharers.find? (fun c => c != m.cl && ((s.dirOf m.line).mesi == .E || (s.dirOf m.line).mesi == .M)) = some c →
      exec .gets s = .next (s.sendActions i m [{ kind := .fwdS, line := m.line, cl := c }])) ∧
    (s.hostReady xa n false = true →
      (s.dirOf m.line).sharers.find? (fun c => c != m.cl && ((s.dirOf m.line).mesi == .E || (s.dirOf m.line).mesi == .M)) = none →
      (m.mesi = .I → exec .gets s = .next (s.replaceMsg i [{ m with kind := .data }])) ∧
      (∀ s1 s2 d1 own, m.mesi ≠ .I → s1 = (s.replaceMsg i []).flushPuts m.line → d1 = s1.dirOf m.line →
        own = (d1.sharers.all (· == m.cl) && !d1.halfHeld && d1.remote.isEmpty && s1.hostReady (m.line * 128) 128 true &&
          (d1.sharers.isEmpty || d1.mesi != .S)) →
        s2 = s1.modDir m.line (fun d => { d with mesi := if own then (if d.mesi == .M then .M else .E) else .S
                                                 sharers := if d.sharers.contains m.cl then d.sharers else d.sharers ++ [m.cl] }) →
        exec .gets s = .next { s2 with net := s2.net ++ [{ m with kind := .data, mesi := if own then .E else .S }] }))) ∧
  (∀ (x : Instr) (k : MsgKind) (s : State) (i : Nat) (m : CohMsg) (e : SbEntry), (x, k) ∈ [(Instr.getm, MsgKind.getM), (Instr.upg, MsgKind.upg)] →
    s.pickMsg k = some (i, m) → s.msgEntry m = some e → e.op ≠ .stxs → (s.dirOf m.line).lock = none →
    ((s.dirOf m.line).halfHeld = true → exec x s = .next (s.replaceMsg i [{ m with kind := .homeStore }])) ∧
    ((s.dirOf m.line).halfHeld = false → isHostXa (m.line * 128) = true → s.hostReady (m.line * 128) 128 true = false →
      exec x s = .next (s.sendSnoops (m.line * 128) 128 true)) ∧
    ((s.dirOf m.line).halfHeld = false → (isHostXa (m.line * 128) = false ∨ s.hostReady (m.line * 128) 128 true = true) → k = .upg →
      (s.dirOf m.line).sharers.contains m.cl = false →
      exec x s = .next ((s.replaceMsg i []).modUnit m.unit (fun u => u.modEntry e.id (fun x => { x with phase := .issued })))) ∧
    (∀ s1 s2, (s.dirOf m.line).halfHeld = false → (isHostXa (m.line * 128) = false ∨ s.hostReady (m.line * 128) 128 true = true) → (k = .upg → (s.dirOf m.line).sharers.contains m.cl = true) →
      (∀ c ∈ (s.dirOf m.line).sharers, c = m.cl) → s1 = ((s.replaceMsg i []).flushPuts m.line).invRemote m.line →
      s2 = s1.modDir m.line (fun d => { d with mesi := .M, sharers := [m.cl] }) →
      exec x s = .next { s2 with net := s2.net ++ [{ m with kind := if k = .upg then .ack else .data, mesi := .M }] }) ∧
    (∀ c cs, (s.dirOf m.line).halfHeld = false → (isHostXa (m.line * 128) = false ∨ s.hostReady (m.line * 128) 128 true = true) → (k = .upg → (s.dirOf m.line).sharers.contains m.cl = true) →
      (s.dirOf m.line).sharers.filter (· != m.cl) = c :: cs →
      exec x s = .next (s.sendActions i m ((c :: cs).map (fun d =>
        { kind := if (s.dirOf m.line).mesi == .S then .inv else .fwdM, line := m.line, cl := d, mesi := .I }))))) ∧
  (∀ (s s1 : State) (i : Nat) (m : CohMsg) (e : SbEntry), s.pickMsg .getM = some (i, m) → s.msgEntry m = some e → e.op = .stxs →
    s.hostReady (m.line * 128) 128 true = true → (∀ c ∈ (s.dirOf m.line).sharers, c = m.cl) →
    s1 = (((s.replaceMsg i []).flushPuts m.line).takeLine m.cl m.line false).modDir m.line (fun d =>
      { d with mesi := .M, sharers := [m.cl], lock := some (m.unit, m.id) }) →
    (m.line < (e.xa + e.n - 1) / 128 → exec .getm s = .next { s1 with net := s1.net ++ [{ m with line := m.line + 1 }] }) ∧
    ((e.xa + e.n - 1) / 128 ≤ m.line → exec .getm s = .next ((((touchedLines e.xa e.n).foldl (fun s l => s.modDir l (fun d =>
      { d with mesi := .I, sharers := [], lock := none })) s1).homeWrite e.xa (storedImage e.tile.tag.toNat e.tile.img)).retire m.unit m.id)))) ∧
  ((∀ (x : Instr) (k : MsgKind) (s s2 : State) (i : Nat) (m : CohMsg), (x, k) ∈ [(Instr.putm, MsgKind.putM), (Instr.pute, MsgKind.putE), (Instr.puts, MsgKind.putS)] →
    s.pickMsg k = some (i, m) →
    s2 = (if m.words = [] then s.replaceMsg i [] else ((s.replaceMsg i []).writeWords (lineRegion m.line) m.words).bumpTag m.line) →
    ((s2.cluster m.cl).spans.any (fun sp => sp.touches m.line) = false →
      exec x s = .next (s2.modDir m.line (fun d =>
        { d with sharers := d.sharers.filter (· != m.cl), mesi := if (d.sharers.filter (· != m.cl)).isEmpty then .I else d.mesi }))) ∧
    ((s2.cluster m.cl).spans.any (fun sp => sp.touches m.line && sp.mesi != .S) = true → exec x s = .next s2) ∧
    ((s2.cluster m.cl).spans.any (fun sp => sp.touches m.line) = true → (s2.cluster m.cl).spans.any (fun sp => sp.touches m.line && sp.mesi != .S) = false →
      exec x s = .next (s2.modDir m.line (fun d => { d with mesi := if d.mesi == .I then .I else .S })))) ∧
  (∀ (x : Instr) (k : MsgKind) (keep : Bool) (s : State) (m : CohMsg),
    (x, k, keep) ∈ [(Instr.inv, MsgKind.inv, false), (Instr.fwds, MsgKind.fwdS, true), (Instr.fwdm, MsgKind.fwdM, false)] →
    s.net[s.ev.i]? = some m → m.kind = k →
    exec x s = .next ((s.takeLine m.cl m.line keep).replaceMsg s.ev.i [{ kind := .ack, line := m.line, cl := m.cl, mesi := if keep then .S else .I }])) ∧
  (∀ (s s1 s2 : State) (m : CohMsg) (e : SbEntry), s.net[s.ev.i]? = some m → m.kind = .data → s1 = s.replaceMsg s.ev.i [] → s1.msgEntry m = some e →
    e.phase = .asked → s2 = (if m.mesi = .I ∨ s1.grantStands m = false then s1 else s1.fill m) →
    (e.op ≠ .ld → exec .data s = .next (s1.storeGranted m e)) ∧
    (e.op = .ld → badLine s1 e.xa e.n = none → exec .data s = .next (s2.loadDone m.unit e (s2.cohN e.xa e.n) 0#2)) ∧
    (∀ f, e.op = .ld → badLine s1 e.xa e.n = some f → exec .data s = .next (s1.sbFault m.unit e f.cause e.ea f.d0 f.d1))) ∧
  (∀ (s : State) (m : CohMsg), s.net[s.ev.i]? = some m → m.kind = .ack →
    (m.unit = 0 → exec .ack s = .next ((s.replaceMsg s.ev.i []).modDir m.line (fun d => if m.mesi == .S then { d with mesi := .S }
      else { d with sharers := d.sharers.filter (· != m.cl), mesi := if (d.sharers.filter (· != m.cl)).isEmpty then .I else d.mesi }))) ∧
    (∀ e, m.unit ≠ 0 → (s.replaceMsg s.ev.i []).msgEntry m = some e → e.phase = .asked →
      exec .ack s = .next ((s.replaceMsg s.ev.i []).storeGranted m e))) ∧
  (∀ (s : State) (m : CohMsg) (e : SbEntry), s.net[s.ev.i]? = some m → m.kind = .wack → s.msgEntry m = some e →
    (e.scopeStop = false → ((e.op ≠ .stl ∧ e.op ≠ .amx ∧ e.op ≠ .fence) ∨ s.remotePending m.line = false) →
      exec .wack s = .next ((s.replaceMsg s.ev.i []).retire m.unit e.id)) ∧
    ((e.scopeStop = true ∨ e.op = .stl ∧ s.remotePending m.line = true) → exec .wack s = .next s)))

/-- Accesses performed at the home (R91, R94 to R96, R108, R113, R114): HOME_STORE writes its bytes after the other copies are gone; a
synchronising access has its effect at once and its record is taken; AMOs of one kind at one address may arrive as one write event. -/
def Obligations.HomePerformsAccesses : Prop :=
  (∀ (s : State) (i : Nat) (m : CohMsg) (e : SbEntry), s.pickMsg .homeStore = some (i, m) → s.msgEntry m = some e →
    (s.hostReady e.xa e.n true = false → exec .homeStore s = .next (s.sendSnoops e.xa e.n true)) ∧
    (∀ s0 s1, s.hostReady e.xa e.n true = true → s0 = s.replaceMsg i [{ m with kind := .wack }] →
      (e.tagged = true ∨ e.mt = 2 ∨ (s0.storeParts m.cl e.xa e.bytes).1 = []) →
      s1 = (if e.tagged && e.mt != 2 then s0.homeWriteKeep m.cl e.xa e.bytes else s0.homeWrite e.xa e.bytes) →
      exec .homeStore s = .next (s1.modUnit m.unit (fun u => u.modEntry e.id (fun x => { x with phase := .performed, seqTag := (s1.dirOf m.line).tag }))))) ∧
  (∀ (s : State) (i uid : Nat) (m : CohMsg) (e : SbEntry) (rest : List (Nat × SbEntry)) (rel : Bool), s.pickMsg .sync = some (i, m) →
    s.arrivals m = (uid, e) :: rest → (s.dirOf m.line).lock = none → rel = (e.op == .stl || e.op == .amx || (e.op == .fence && e.w.sub != 0#3)) →
    (e.op = .fence ∨ s.hostReady e.xa e.n (e.op == .stl || e.op == .amo || e.op == .amx) = true) →
    (rel = true → (s.redPending uid e = true ∨ 3 ≤ (scopeCheck (s.dirOf m.line).scopeRec e.scope e.site.cl).1 ∧ s.fabricReleased uid = false) →
      exec .syncAccessAtHome s = .next s) ∧
    ((s.redPending uid e = false ∧ ((scopeCheck (s.dirOf m.line).scopeRec e.scope e.site.cl).1 < 3 ∨ s.fabricReleased uid = true)) →
      (e.op = .stl ∨ e.op = .amx) → ((s.dirOf m.line).remote ≠ [] ∨ s.remotePending m.line = true) → exec .syncAccessAtHome s = .next (s.invRemote m.line)) ∧
    ((rel = false ∨ s.redPending uid e = false ∧ ((scopeCheck (s.dirOf m.line).scopeRec e.scope e.site.cl).1 < 3 ∨ s.fabricReleased uid = true)) →
      (e.op = .stl ∨ e.op = .amx → (s.dirOf m.line).remote = [] ∧ s.remotePending m.line = false) →
      (e.op = .lda ∨ e.op = .amo ∨ e.op = .amx → badLine s e.xa e.n = none) →
      exec .syncAccessAtHome s = .next (((uid, ((s.replaceMsg i []).syncEffect e (rest.map (fun p => p.2.b))).2) :: rest).foldl (fun s p => s.arrived m m.line p)
        ((s.replaceMsg i []).syncEffect e (rest.map (fun p => p.2.b))).1))) ∧
  (∀ (s : State) (e : SbEntry) (vs : List Word), (e.op = .amo → (s.syncEffect e vs).1 = s.homeWrite e.xa
      (leBytes e.n (amoFold e.w.sub.toNat (8 * e.n) (s.cohN e.xa e.n) (e.b :: vs))) ∧ (s.syncEffect e vs).2.value = wd (s.cohN e.xa e.n)) ∧
    (e.op = .stl → (s.syncEffect e vs).1 = if e.tagged then s.homeWriteKeep e.site.cl e.xa e.bytes else s.homeWrite e.xa e.bytes) ∧ (e.op = .fence → (s.syncEffect e vs).1 = s.recall (e.xa / 128) true)) ∧
  (∀ (op w old : Nat) (v : Word), v.toNat < 2 ^ w → amoFold op w old [v] = amoOp op w old v.toNat) ∧
  (∀ w old v, v < 2 ^ w → old < 2 ^ w → amoOp 0 w old v = (old + v) % 2 ^ w ∧ amoOp 6 w old v = min old v ∧ amoOp 7 w old v = max old v ∧
    amoOp 1 w old v = old &&& v ∧ amoOp 2 w old v = old ||| v ∧ amoOp 3 w old v = old ^^^ v) ∧
  (∀ (s : State) (m n : CohMsg) (e f : SbEntry), s.net[s.ev.i]? = some m → s.net[s.ev.k]? = some n → s.ev.i ≠ s.ev.k →
    s.msgEntry m = some e → s.msgEntry n = some f → m.kind = .sync → n.kind = .sync → e.op = .amo → f.op = .amo →
    (e.w.dst = 3#2 ∨ e.w.dst = 1#2) → (f.w.dst = 3#2 ∨ f.w.dst = 1#2) → e.mt ≠ 3 → f.mt ≠ 3 → e.xa = f.xa → e.w.sub = f.w.sub → e.n = f.n →
    exec .amoMerge s = .next { s with net := ldel (lmod s.net s.ev.i (fun m => { m with more := m.more ++ (n.unit, n.id) :: n.more })) s.ev.k })

/-- A linked load of a traversal (R236), a reduction round whose contributors have all arrived (R116, R247), and the end of a refresh window
(R136). -/
def Obligations.TraversalsAndRoundsProceed : Prop :=
  (∀ (s s1 s2 s3 : State) (u : UnitSt) (e : SbEntry) (key xa mt sc val : Nat) (col : BitVec 2) (t : Token) (v : Word) (last : Bool), u = s.unit s.ev.u →
    u.entry? s.ev.id = some e → key = u.keyOf e.site → t = { e.tok with wave := e.tok.wave + BitVec.ofNat 10 e.k, col := 0#2 } → e.op = .ldlk →
    e.phase = .issued → u.fires = true → s.windowOpen s.ev.u t = true → (u.pe key).portBlocked = false → e.ea % 8 = 0 →
    translate s e.site.cl u.job e.ea .load 0 = (s1, .ok xa mt sc) → u.mayPerform { e with xa := xa, mt := mt } = true →
    s1.linkValue s.ev.u { e with xa := xa, mt := mt } mt = (s2, .ok (val, col)) →
    v = wd val → last = (v == 0#64 || e.k + 1 == e.b.toNat) →
    s3 = s2.modUnit s.ev.u (fun u => u.modEntry e.id (fun x => { x with k := e.k + 1, ea := addDisp v (dispOf e.w) })) →
    exec .ldlkLoad s = .next (((if last then (s3.setNode s.ev.u key .idle).retire s.ev.u e.id else s3).progress s.ev.u).deliver s.ev.u key e.w
      { t with payload := v, fmt := e.w.fmt, last := last, col := col })) ∧
  (∀ (s s1 s2 s3 s4 : State) (round : RedRound) (inst : Instance) (g : RedGroup) (d : LaunchDesc) (n cl xa mt sc : Nat) (rs : Nat × Nat × Bool),
    s.reds.find? (fun r => r.inst == s.ev.inst && r.grp == s.ev.grp) = some round → s.inst? s.ev.inst = some inst → round.applied = false → round.id = 0 →
    s.objectWaits inst.job inst.base.toNat = none → g = redGroup s inst.job inst.base.toNat round.grp → d = launchDesc s inst.job inst.base.toNat g.launch →
    (∀ c ∈ redContributors s inst.job inst.base.toNat round.grp, round.parts.any (fun p => (p.node, p.idx) == c) = true) →
    n = (if g.fmt = 1 ∨ g.fmt = 5 then 8 else 4) → cl = (round.parts.map RedPart.cl).headD 0 →
    translateReady s cl inst.job g.target n .atomic 2 = (s1, .ok xa mt sc) → badLine s1 xa n = none → isFabXa xa = false →
    rs = roundScope (s1.dirOf (xa / 128)).scopeRec sc (round.parts.map RedPart.cl) →
    s2 = s1.homeWrite xa (leBytes n (redOp g.op g.fmt (s1.cohN xa n) (roundTotal (redOp g.op g.fmt) d.g1 d.g2 round.parts))) →
    s3 = s2.modDir (xa / 128) (fun d => { d with scopeRec := some (rs.1, rs.2.1) }) →
    s4 = (if rs.2.2 then s3.roundRecord inst g.launch 0x06C g.target (scopeDetail (s1.dirOf (xa / 128)).scopeRec sc) 0#64 else s3) →
    exec .redRoundComplete s = .next (if g.done = 0 then s4.dropRound round
      else { s4 with reds := s4.reds.map (fun r => if r = round then { r with applied := true, scope := sc, id := 0 } else r) })) ∧
  (∀ (s : State) (round : RedRound) (inst : Instance), s.reds.find? (fun r => r.inst == s.ev.inst && r.grp == s.ev.grp) = some round →
    s.inst? s.ev.inst = some inst → round.applied = true → round.id = 0 → s.objectWaits inst.job inst.base.toNat = none →
    (s.roundReleased inst round = false → exec .redRoundComplete s = .next s) ∧
    (∀ (s1 s2 s3 : State) (g : RedGroup) (cl xa mt sc : Nat) (rs : Nat × Nat × Bool), s.roundReleased inst round = true →
      g = redGroup s inst.job inst.base.toNat round.grp → cl = (round.parts.map RedPart.cl).headD 0 →
      translateReady s cl inst.job g.done 8 .atomic 2 = (s1, .ok xa mt sc) → isFabXa xa = false → s2 = s1.dropRound round → badLine s2 xa 8 = none →
      rs = roundScope (s2.dirOf (xa / 128)).scopeRec sc (round.parts.map RedPart.cl) →
      s3 = (s2.homeWrite xa (leBytes 8 ((s2.cohN xa 8 + 1) % 2 ^ 64))).modDir (xa / 128) (fun d => { d with scopeRec := some (rs.1, rs.2.1) }) →
      exec .redRoundComplete s = .next (if rs.2.2 then s3.roundRecord inst g.launch 0x06C g.done (scopeDetail (s2.dirOf (xa / 128)).scopeRec sc) 0#64 else s3))) ∧
  (∀ (s : State) (round : RedRound) (inst : Instance), s.reds.find? (fun r => r.inst == s.ev.inst && r.grp == s.ev.grp) = some round →
    s.inst? s.ev.inst = some inst → round.applied = false → s.objectWaits inst.job inst.base.toNat = none →
    (∃ c ∈ redContributors s inst.job inst.base.toNat round.grp, round.parts.any (fun p => (p.node, p.idx) == c) = false) → exec .redRoundComplete s = .next s) ∧
  (∀ (s : State) (l : List (Nat × SbEntry)), l = s.units.flatMap (fun p => (p.2.sb.filter (fun e => e.op == .ldws && e.phase == .issued &&
      (e.xa - wBase) / 2 ^ 28 == s.ev.die && bits (e.xa - wBase) 11 8 == s.ev.i)).map (fun e => (p.1, e))) →
    exec .refreshWindowEnd s = .next (l.foldl (fun t p => if (t.unit p.1).completes then t.performEntry p.1 p.2 else t) s))

/-- The walk of R358 over the tables of R355: at each level an entry outside device memory, one whose line fails its check, one that is not
valid and one that is malformed take their cause; table entries lead on, and a leaf of level 2 or 3 ends the walk. The checks on a leaf: a
walk that finds a good one sets A, and D for a write, before the access performs; a cached leaf whose D is 0 grants no write (R356, R357,
R359). The map of the L space (R126): an address beyond the scratchpad banks takes cause 0x065; a linear one lies in the bank of its 32 KiB;
an interleaved one in the bank that the swizzle names, or takes cause 0x066; every byte lies in a scratchpad bank, and no two addresses
share one. -/
def Obligations.TranslationAndLSpace : Prop :=
  ((∀ (s : State) (va l t : Nat), l ≤ 3 →
    (isDevXa t = false → walkFrom s va (4 - l) l t = .fault (0x093 + 4 * l) l 0) ∧
    (isDevXa t = true → s.hostReady (t + 8 * walkIndex va l) 8 false = true → s.bad.contains ((t + 8 * walkIndex va l) / 128) = true →
      walkFrom s va (4 - l) l t = .fault (0x092 + 4 * l) l 0) ∧
    (∀ e, EntryAt s va l t e →
      (bit e 0 = false → walkFrom s va (4 - l) l t = .fault (0x090 + 4 * l) l e) ∧
      (bit e 0 = true → bits e 3 1 ≠ 0 → l < 2 ∨ bits e 15 14 ≠ 0 ∨ bits e 9 8 = 3 ∨ l = 2 ∧ (bits e 9 8 ≠ 0 ∨ bits e 28 16 ≠ 0) →
        walkFrom s va (4 - l) l t = .fault (0x091 + 4 * l) l e) ∧
      (bit e 0 = true → bits e 3 1 = 0 → l = 3 ∨ bits e 15 1 ≠ 0 ∨ bits e 55 52 ≠ 0 → walkFrom s va (4 - l) l t = .fault (0x091 + 4 * l) l e))) ∧
  (∀ (s : State) (root va e0 e1 e2 : Nat), EntryAt s va 0 root e0 → TableEntry e0 → EntryAt s va 1 (bits e0 51 16 * 65536) e1 → TableEntry e1 →
    EntryAt s va 2 (bits e1 51 16 * 65536) e2 →
    (bit e2 0 = true → bits e2 3 1 ≠ 0 → bits e2 15 14 = 0 → bits e2 9 8 = 0 → bits e2 28 16 = 0 →
      walk s root va = .leaf 2 (bits e1 51 16 * 65536 + 8 * bits va 41 29) e2 ∧ leafAddr e2 2 va = bits e2 51 29 * 2 ^ 29 + va % 2 ^ 29) ∧
    (∀ e3, TableEntry e2 → EntryAt s va 3 (bits e2 51 16 * 65536) e3 → bit e3 0 = true → bits e3 3 1 ≠ 0 → bits e3 15 14 = 0 → bits e3 9 8 ≠ 3 →
      walk s root va = .leaf 3 (bits e2 51 16 * 65536 + 8 * bits va 28 16) e3 ∧ leafAddr e3 3 va = bits e3 51 16 * 2 ^ 16 + va % 2 ^ 16))) ∧
  ((∀ (s : State) (e l va : Nat) (k : Acc5), leafFault s e l va k = none ↔ (k = .patch ∨
    (bits e 6 4 ≤ 4 ∧ (k ∈ [Acc5.load, .flushClean, .flushInv, .tileLoad, .atomic] → bit e 1 = true) ∧
      (k ∈ [Acc5.store, .flushInv, .tileStore, .atomic] → bit e 2 = true) ∧ (k = .fetch → bit e 3 = true) ∧
      (k ∈ [Acc5.tileLoad, .tileStore] → bits e 11 10 ≠ 3) ∧ (bits e 11 10 = 3 → s.hostPortUp (leafAddr e l va) = true) ∧
      (k ∈ [Acc5.store, .atomic, .flushInv, .tileStore] → bit e 7 = false)))) ∧
  (∀ (s : State) (e l va : Nat) (k : Acc5) (c : Nat), k ≠ .patch → leafFault s e l va k = some c →
    c ∈ [0x08A, 0x080, 0x081, 0x083, 0x082, 0x084, 0x085, 0x08C] ∧ (c = 0x08A ↔ 4 < bits e 6 4) ∧ (c = 0x080 → bit e 1 = false) ∧
    (c = 0x081 → bit e 2 = false) ∧ (c = 0x083 → k = .atomic) ∧ (c = 0x082 → k = .fetch ∧ bit e 3 = false) ∧ (c = 0x084 → bits e 11 10 = 3) ∧
    (c = 0x085 → bits e 11 10 = 3) ∧ (c = 0x08C → bit e 7 = true)) ∧
  (∀ (s s1 : State) (cl job va acc l a e e1 pa : Nat) (k : Acc5), va < 2 ^ 56 →
    ((tlbHit s cl job va).or (tlbHit s (320 + dieOf cl) job va)).filter (fun t => !k.writes || pteD t.pte.toNat) = none →
    walk s (s.job job).ptroot va = .leaf l a e → leafFault s e l va k = none →
    e1 = e ||| 2 ^ 12 ||| (if k ∈ [Acc5.store, .atomic, .flushInv, .tileStore, .patch] then 2 ^ 13 else 0) → (e1 = e ∨ s.hostReady a 8 true = true) →
    s1 = (((if e1 = e then s else s.devWrite a (leBytes 8 e1)).tlbFill cl job va e1 l 256).tlbFill (320 + dieOf cl) job va e1 l 8192) →
    leafFault s1 e1 l va k = none → pa = leafAddr e1 l va → s1.rangeFault pa (pteMT e1) (pteScope e1) = false →
    translate s cl job va k acc = (s1, .ok (s1.extend pa (pteMT e1)) (pteMT e1) (pteScope e1))) ∧
  (∀ (s : State) (cl job va acc c : Nat) (l a e : Nat) (k : Acc5), va < 2 ^ 56 →
    ((tlbHit s cl job va).or (tlbHit s (320 + dieOf cl) job va)).filter (fun t => !k.writes || pteD t.pte.toNat) = none →
    walk s (s.job job).ptroot va = .leaf l a e → leafFault s e l va k = some c →
    translate s cl job va k acc = (s, .fault ⟨c, wd e, wd (l + 16 * acc)⟩)) ∧
  (∀ (s : State) (cl job va acc pa : Nat) (k : Acc5) (t : TlbEntry), va < 2 ^ 56 → tlbHit s cl job va = some t → (k.writes = true → pteD t.pte.toNat = true) →
    leafFault s (t.leafFor va) t.level va k = none → pa = leafAddr (t.leafFor va) t.level va →
    s.rangeFault pa (pteMT (t.leafFor va)) (pteScope (t.leafFor va)) = false →
    translate s cl job va k acc = (s, .ok (s.extend pa (pteMT (t.leafFor va))) (pteMT (t.leafFor va)) (pteScope (t.leafFor va)))) ∧
  (∀ (s : State) (holder job va e l cap : Nat), e < 2 ^ 64 →
    ∃ t, t ∈ (s.tlbFill holder job va e l cap).tlb ∧ t.holder = holder ∧ t.job = job ∧ t.level = l ∧ t.leafFor va = e ∧
      t.vpage ≤ va / 65536 ∧ va / 65536 < t.vpage + t.pages)) ∧
  ((∀ (c : Cluster) (cl swz a : Nat), (c.banks 1).length * 32768 ≤ a → lspace c cl swz a = .error 0x065) ∧
  (∀ (c : Cluster) (cl swz a : Nat), a < (c.banks 1).length * 32768 → bit swz 0 = false →
    lspace c cl swz a = .ok (cl * 2 ^ 20 + lget (c.banks 1) (a / 32768) 0 * 32768 + a % 32768)) ∧
  (∀ (c : Cluster) (cl swz a ns : Nat), ns = (c.banks 1).length → a < ns * 32768 → bit swz 0 = true →
    ((∃ j, ns = 2 ^ j ∧ bits swz 10 8 ≤ 5 ∧ (bits swz 10 8 = 0 ∨ 7 + j ≤ bits swz 15 11)) →
      lspace c cl swz a = .ok (cl * 2 ^ 20 + lget (c.banks 1) (((a / 128 % 32) ^^^ (a / 2 ^ bits swz 15 11 % 2 ^ bits swz 10 8)) % ns) 0 * 32768 +
        (a / 128 / ns * 128 + a % 128))) ∧
    ((¬ ∃ j, ns = 2 ^ j ∧ bits swz 10 8 ≤ 5 ∧ (bits swz 10 8 = 0 ∨ 7 + j ≤ bits swz 15 11)) → lspace c cl swz a = .error 0x066)) ∧
  (∀ (c : Cluster) (cl swz a x : Nat), lspace c cl swz a = .ok x →
    ∃ k off, k ∈ c.banks 1 ∧ off < 32768 ∧ x = cl * 2 ^ 20 + k * 32768 + off) ∧
  (∀ (c : Cluster) (cl swz a b x : Nat), lspace c cl swz a = .ok x → lspace c cl swz b = .ok x → a = b))

/-! ### Units -/

/-- A unit starts (R19, R274, R299, R302): its registers, its claim, its initial image, and then its sequencer. The scheduler of a die places
the unit that it serves first in the region chosen for it (R294, R295): a fresh unit of a launch, or a saved one that goes there with its
nodes, tokens and route tags. Which of two units is placed before the other, and that one which has to wait gives its place back, is the
order of R288 as log 16 (DEDUCED) reads it. -/
def Obligations.UnitsStartWhereTheyArePlaced : Prop :=
  ((∀ (s s1 s3 : State) (u : UnitSt) (d : LaunchDesc), aget s.units s.ev.u = some u → u.status = .placed none → s.startOk u.die = true →
    s.placedBefore u = false → s.readyBefore u = false → d = s.descOf u → (d.image = 0 ∨ s.awaitImage u (d.image % 2 ^ 56) = none) →
    s.writeHeader u d = (s1, none) →
    s3 = (if d.claim then u.clusterList.foldl (fun t c => t.modCluster c (fun k => k.freshClaim s.ev.u)) (s1.setUnit s.ev.u (u.startRegs d))
      else s1.setUnit s.ev.u (u.startRegs d)) →
    (d.image = 0 → exec .unitStart s = .next ((s3.startSequencer s.ev.u id).leavePool u.inst u.node d.nunit)) ∧
    (∀ s4 img, d.image ≠ 0 → s3.loadImage (u.startRegs d) (d.image % 2 ^ 56) = (s4, .ok img) →
      exec .unitStart s = .next (((s4.startSequencer s.ev.u (fun x => x.activate img)).endStranded s.ev.u).leavePool u.inst u.node d.nunit)) ∧
    (∀ s4 k, d.image ≠ 0 → s3.loadImage (u.startRegs d) (d.image % 2 ^ 56) = (s4, .error (.reject k)) →
      exec .unitStart s = .next ((s4.endFaulted s.ev.u k).leavePool u.inst u.node d.nunit))) ∧
  (∀ (s : State) (u : UnitSt), aget s.units s.ev.u = some u → u.status = .placed none → s.startOk u.die = true →
    (s.placedBefore u = true → exec .unitStart s = .next s) ∧
    (s.placedBefore u = false → s.readyBefore u = true →
      exec .unitStart s = .next (s.giveUpPlace s.ev.u) ∧ ((s.giveUpPlace s.ev.u).unit s.ev.u).status = .ready)) ∧
  (∀ (u : UnitSt) (d : LaunchDesc), (u.startRegs d).ccnt = wd d.entry &&& codeMask ∧ (u.startRegs d).greg 1#5 = wd d.args ∧
    (∀ r : BitVec 5, r ≠ 1#5 → (u.startRegs d).greg r = 0#64)) ∧
  (∀ (s : State) (uid : Nat) (u : UnitSt) (f : UnitSt → UnitSt), aget s.units uid = some u →
    ((s.startSequencer uid f).unit uid).status = .running ∧ ((s.startSequencer uid f).unit uid).watchdog = 0 ∧
    (s.startSequencer uid f).startCtr = s.startCtr + 1 ∧ (s.startSequencer uid f).mem = s.mem)) ∧
  ((∀ (s : State) (r : Ready) (i : Instance) (b ctx die : Nat), s.firstServed s.ev.die (s.ready.filter (fun r => match s.bestRegion s.ready r with
      | some (d, _, _) => d == s.ev.die
      | none => false)) = some r → s.bestRegion s.ready r = some (die, b, ctx) → s.inst? r.inst = some i →
    (r.uid = none → exec .unitPlacement s = .next ((s.newUnit r i).takeRegion r s.nextUnit s.ev.die b ctx id)) ∧
    (∀ uid, r.uid = some uid → (s.unit uid).status = .ready →
      exec .unitPlacement s = .next (s.takeRegion r uid s.ev.die b ctx (fun u => { u with status := .placed none }))) ∧
    (∀ uid, r.uid = some uid → (s.unit uid).status ≠ .ready →
      exec .unitPlacement s = .next ((s.rebindColl (s.unit uid) (80 * s.ev.die + b * 2 ^ r.d.rshape) ctx).takeRegion r uid
        s.ev.die b ctx (fun u => { u.rebind (80 * s.ev.die + b * 2 ^ r.d.rshape) ctx with status := .placed (some none) })))) ∧
  (∀ (s : State) (r : Ready) (uid die b ctx : Nat) (u : UnitSt), aget s.units uid = some u →
    ((s.takeRegion r uid die b ctx id).unit uid).lead = 80 * die + b * 2 ^ r.d.rshape ∧ ((s.takeRegion r uid die b ctx id).unit uid).ctx = ctx ∧
    ((s.takeRegion r uid die b ctx id).unit uid).die = die))

/-- Pre-emption (R296 to R298, R361, R362): a quantum ends only below the deadline class and only if another unit waits; a deadline unit's
request drains the units of the region it picks, in the order of R288 and with the classes of log 16 (DEDUCED), and one that is placed and
has not started gives its region back at once (log 16); a draining unit takes no new firing and is saved when nothing of it is under way; an
overrun is recorded once. -/
def Obligations.UnitsArePreempted : Prop :=
  (∀ (s : State), (s.unit s.ev.u).isRunning = true → (s.job (s.unit s.ev.u).job).cls ≠ 0 → quantumLen ≤ (s.unit s.ev.u).quantum →
    exec .quantumExpiry s = .next (if s.displaced (s.unit s.ev.u) true then s.requestPreempt s.ev.u true
      else s.modUnit s.ev.u (fun x => { x with quantum := x.quantum - quantumLen }))) ∧
  (∀ (s : State) (r : Ready) (die b : Nat) (us : List UnitSt) (t : State),
    s.firstServed s.ev.die (s.ready.filter (fun r => (s.job r.job).cls == 0 && r.waitsOn s.ev.die && (s.bestRegion s.ready r).isNone &&
      !s.reserved.any (fun p => p.2 == (r.inst, r.node, r.idx)) && (s.pickVictims r s.ready).isSome)) = some r →
    s.pickVictims r s.ready = some (die, b, us) → t = (us.map UnitSt.id).foldl (fun s u => s.requestPreempt u true) s →
    exec .preemptRequest s = .next { t with reserved := t.reserved ++ (regionClusters r.d.rshape die b).map (fun c => (c, (r.inst, r.node, r.idx))) }) ∧
  (∀ (s : State) (uid : Nat) (u : UnitSt), aget s.units uid = some u → u.status = .running →
    ((s.requestPreempt uid true).unit uid).status = .draining s.hub.toNat none ∧ ((s.requestPreempt uid true).unit uid).isRunning = false) ∧
  (∀ (s : State) (uid : Nat) (u : UnitSt), aget s.units uid = some u → u.status = .placed none → ((s.requestPreempt uid true).unit uid).status = .ready) ∧
  (∀ (s : State) (u : UnitSt) (since : Nat) (stop : Option Nat), aget s.units s.ev.u = some u → u.status = .draining since stop →
    (s.drained s.ev.u u stop.isSome = false → exec .drainComplete s = .next s) ∧
    (∀ ls, s.drained s.ev.u u stop.isSome = true → ls = s.areaHeld (if u.saveArea = 0 then s.saveNext else u.saveArea) u.saveLen →
      exec .drainComplete s = .next (if ls = [] then s.saveUnit s.ev.u stop else ls.foldl (fun s l => s.sendSnoops (l * 128) 128 true) s))) ∧
  (∀ (s : State) (uid : Nat) (u : UnitSt) (stop : Bool), s.drained uid u stop = true → (∀ p ∈ u.pes, p.2.stub = none) ∧
    (∀ e ∈ u.sb, e.outstanding = true → s.heldEntry uid e = true) ∧
    (stop = false → ∀ p ∈ u.pes, s.wouldFire uid p.1 = false ∧ s.headMoves uid p.1 = false)) ∧
  (∀ (s : State) (u : UnitSt) (since : Nat) (stop : Option Nat), aget s.units s.ev.u = some u → u.status = .draining since stop →
    exec .drainOverrun s = .next (if u.overrun || decide ((s.hub - wd since).toNat < 200000) then s
      else (s.unitRecord s.ev.u (unitRec u 0x101 2)).modUnit s.ev.u (fun u => { u with overrun := true }))) ∧
  (∀ (s : State) (j : Job), aget s.jobs s.ev.job = some j → j.cls = 0 → j.ended = false → j.missed = false →
    exec .deadlineMissed s = .next (if s.hub.toNat ≤ j.deadline then s
      else (s.modJob s.ev.job (fun x => { x with missed := true })).jobRecord s.ev.job 0x110 2 0 0 0))

/-- A saved unit returns (R363): the image is streamed again, every saved item is written, and the sequencer starts at CCNT; the CIM slots and
codebook tables of the region are emptied first; a line of the save area that fails its check ends it with 0x161 and marks its lead cluster
(log 31). The order in which entries return to the matching store is log 14. The watchdog (R368) raises 0x111, of class S; WFE ends on a
write to its line or after 2^16 clocks (R279); an error in a unit's state ends it faulted (R370). -/
def Obligations.UnitsAreRestoredAndWatched : Prop :=
  ((∀ (s s0 s2 s3 : State) (u : UnitSt), aget s.units s.ev.u = some u → u.status = .placed (some none) → s.startOk u.die = true →
    s.placedBefore u = false → s.readyBefore u = false →
    (upFrom (u.saveArea / 128) (u.saveLen / 128)).any (fun l => s.bad.contains l) = false → u.active = none → s0 = u.clusterList.foldl State.emptyCim s →
    s2 = (if u.claim then u.clusterList.foldl (fun t c => t.restoreCluster s.ev.u c (agetD u.savedEng (c - u.lead) {})) s0 else s0) →
    s3 = (s2.returnWork u).startSequencer s.ev.u (fun x => { x with pes := u.pes, ms := [], sb := x.sb.map s2.relocateL, savedEng := [], savedMsgs := [], savedRuns := [], savedMq := [], haltRanks := [], overrun := false }) →
    exec .unitRestore s = .next ((((((s3.returnHalts u).returnMs s.ev.u u.ms).returnReplies s.ev.u).releaseGates s.ev.u).takePending s.ev.u).endStranded s.ev.u)) ∧
  (∀ (s s1 s0 s2 s3 : State) (u : UnitSt) (a img : Image), aget s.units s.ev.u = some u → u.status = .placed (some none) → s.startOk u.die = true →
    s.placedBefore u = false → s.readyBefore u = false →
    (upFrom (u.saveArea / 128) (u.saveLen / 128)).any (fun l => s.bad.contains l) = false → u.active = some a →
    s.loadImage u a.addr.toNat = (s1, .ok img) → s0 = u.clusterList.foldl State.emptyCim s1 →
    s2 = (if u.claim then u.clusterList.foldl (fun t c => t.restoreCluster s.ev.u c (agetD u.savedEng (c - u.lead) {})) s0 else s0) →
    s3 = (s2.returnWork u).startSequencer s.ev.u (fun x => { x with pes := u.restoredPes img, ms := [], sb := x.sb.map s2.relocateL, savedEng := [], savedMsgs := [], savedRuns := [], savedMq := [], haltRanks := [], overrun := false }) →
    exec .unitRestore s = .next ((((((s3.returnHalts u).returnMs s.ev.u u.ms).returnReplies s.ev.u).releaseGates s.ev.u).takePending s.ev.u).endStranded s.ev.u)) ∧
  (∀ (s : State) (u : UnitSt) (l : Nat), aget s.units s.ev.u = some u → u.status = .placed (some none) → s.startOk u.die = true →
    s.placedBefore u = false → s.readyBefore u = false → (upFrom (u.saveArea / 128) (u.saveLen / 128)).find? (fun l => s.bad.contains l) = some l →
    exec .unitRestore s = .next ((s.endFaulted s.ev.u 0x161 0 0#64 (wd (l * 128))).modCluster u.lead (fun c => { c with pending := true }))) ∧
  (∀ (s : State) (cl : Nat), ((s.emptyCim cl).cluster cl).cim = [] ∧ ((s.emptyCim cl).cluster cl).tables = []) ∧
  (∀ (u : UnitSt) (img : Image) (k : Nat) (o n : PeCtx), aget u.pes k = some o → aget img.pes k = some n →
    ∃ p, aget (u.restoredPes img) k = some p ∧ p.op = n.op ∧ p.imm = n.imm ∧ p.sw = n.sw ∧ p.ereg = o.ereg ∧ p.q = o.q ∧ p.node = o.node ∧ p.held = o.held)) ∧
  ((∀ (s : State), (s.unit s.ev.u).isRunning = true → (s.job (s.unit s.ev.u).job).debugHold = false →
    exec .watchdogExpiry s = .next (if 2 ^ 28 ≤ (s.unit s.ev.u).watchdog then s.takeFault s.ev.u none { cause := 0x111, tepc := (s.unit s.ev.u).ccnt } else s)) ∧
  (∀ (s : State) (line : Option Nat) (tag since : Nat), (s.unit s.ev.u).wait = .wfe line tag since → (s.unit s.ev.u).isRunning = true →
    ((∃ l, line = some l ∧ (s.dirOf l).tag.toNat ≠ tag) ∨ 2 ^ 16 ≤ ((s.die (dieOf (s.unit s.ev.u).lead)).cyc - wd since).toNat ∨ s.ev.flag = true →
      exec .wfeWake s = .next (s.nextWord s.ev.u)) ∧
    ((∀ l, line = some l → (s.dirOf l).tag.toNat = tag) → ((s.die (dieOf (s.unit s.ev.u).lead)).cyc - wd since).toNat < 2 ^ 16 → s.ev.flag = false →
      exec .wfeWake s = .next s)) ∧
  (∀ (s : State) (uid : Nat), s.unitAt s.ev.site.cl s.ev.site.ctx = some uid →
    exec .unitStateError s = .next (((s.endFaulted uid (if s.ev.flag then 0x162 else 0x161) 0 6#64).count 18 1).modCluster s.ev.site.cl
      (fun c => { c with pending := true }))))

/-! ### Graphs, phases and queues -/

/-- Jasper evaluates a node (R289, R290): it waits for its graph and its dependences; a failed dependence ends its body without running;
otherwise it is evaluated, and a while whose pass has ended reads its word again. A launch takes an entry of the pool or waits for one
(R292). A node whose object a host holds waits for it (log 9). A phase becomes current when its dies are free, enters RUN when its fill has
ended, and ends with its counter at zero (R293); when a phase without instances ends is log 10 (DEDUCED). -/
def Obligations.NodesAndPhasesProceed : Prop :=
  ((∀ (s s1 : State) (inst : Instance), s.inst? s.ev.inst = some inst → inst.status = none → s.ev.node < inst.nodes.length →
    s.anyObjectWaits = some s1 → exec .nodeEvaluate s = .next s1) ∧
  (∀ (s : State) (inst : Instance) (n : Nat) (d : NodeDesc), s.inst? s.ev.inst = some inst → n = s.ev.node → d = nodeDesc s inst.job inst.base.toNat n →
    inst.status = none → n < inst.nodes.length → s.anyObjectWaits = none → (lget inst.nodes n {}).st = .waiting →
    ((s.graphRuns inst n = false ∨ ∃ k ∈ nodeDeps s inst.job inst.base.toNat n, (lget inst.nodes k {}).ended? = none) → exec .nodeEvaluate s = .next s) ∧
    (s.graphRuns inst n = true → (∀ k ∈ nodeDeps s inst.job inst.base.toNat n, (lget inst.nodes k {}).ended? = some 1) →
      exec .nodeEvaluate s = .next ((s.journal .nodeEligible).eligibleNode inst n d)) ∧
    (s.graphRuns inst n = true → (∀ k ∈ nodeDeps s inst.job inst.base.toNat n, (lget inst.nodes k {}).ended? ≠ none) →
      (∃ k ∈ nodeDeps s inst.job inst.base.toNat n, (lget inst.nodes k {}).ended? ≠ some 1) → exec .nodeEvaluate s = .next (s.endUnrun inst n 2 2))) ∧
  (∀ (s : State) (inst : Instance) (n : Nat) (d : NodeDesc), s.inst? s.ev.inst = some inst → n = s.ev.node → d = nodeDesc s inst.job inst.base.toNat n →
    inst.status = none → n < inst.nodes.length → s.anyObjectWaits = none →
    ((lget inst.nodes n {}).st = .eligible → (lget inst.nodes n {}).held = true →
      exec .nodeEvaluate s = .next (if (lget inst.nodes n {}).due || s.nudged inst (lget inst.nodes n {}) d then s.eligibleNode inst n d
        else s.setNodes inst.id [n] (fun r => { r with nudges := [] }))) ∧
    ((lget inst.nodes n {}).st = .running → d.kind = 2 → (∀ b ∈ bodyOf d, (lget inst.nodes b {}).ended?.isSome = true) →
      exec .nodeEvaluate s = .next (s.nextPass inst n d))) ∧
  (∀ (s : State) (inst : Instance) (n : Nat) (d : NodeDesc),
    (s.w2.poolD ≤ d.depth → s.eligibleNode inst n d = (s.nodeRecord inst d 0x0E9 0 0 0).endUnrun inst n 3 2) ∧
    (d.depth < s.w2.poolD → d.hold = false → s.eligibleNode inst n d = s.evaluate inst n d) ∧
    (d.kind = 0 → s.evaluate inst n d = s.admitNode inst n d.depth)) ∧
  (∀ (s : State) (inst : Instance) (d : NodeDesc), s.inst? s.ev.inst = some inst → d = nodeDesc s inst.job inst.base.toNat s.ev.node → inst.status = none →
    s.anyObjectWaits = none → d.kind = 0 → (lget inst.nodes s.ev.node {}).st = .eligible → (lget inst.nodes s.ev.node {}).held = false →
    exec .launchPoolAdmit s = .next (if s.mayEnter inst d.depth then (s.journal .launchInPool).setNodes inst.id [s.ev.node] (fun r => { r with st := .running, inPool := true, held := false })
      else s.setNodes inst.id [s.ev.node] (fun r => { r with st := .eligible, held := false })))) ∧
  ((∀ (s t : State) (p : Phase), s.phase? s.ev.ph = some p → p.st = .waiting → (∀ d ∈ diesOf p.dies, (s.die d).freeFor p.job = true) →
    t = (diesOf p.dies).foldl (fun s d => s.modDie d (fun x => { x with wsJob := some p.job, wsPhase := some p.id, run := false }))
      { s.journal .phaseChanged with dies := s.dies.map (fun d => if d.wsJob == some p.job && d.wsPhase.isNone then { d with wsJob := none } else d) } →
    (diesOf p.dies ≠ [] → exec .phaseCurrent s = .next (t.modPhase p.id (fun x => { x with st := .fill }))) ∧
    (diesOf p.dies = [] → s.groupsWait p.job p.groupTable.toNat = none → exec .phaseCurrent s = .next ((s.releaseDies p.job).enterRun p))) ∧
  (∀ (s : State) (p : Phase) (d j : Nat), s.phase? s.ev.ph = some p → d ∈ diesOf p.dies → (s.die d).wsJob = some j → j ≠ p.job → exec .phaseCurrent s = .next s) ∧
  (∀ (s : State) (p : Phase), s.phase? s.ev.ph = some p → p.st = .fill →
    (s.fillPending p = true ∨ s.fillRunning p.job = true → exec .phaseRun s = .next s) ∧
    (s.fillPending p = false → s.fillRunning p.job = false → s.groupsWait p.job p.groupTable.toNat = none → exec .phaseRun s = .next (s.enterRun p))) ∧
  (∀ (s : State) (p : Phase), s.phase? s.ev.ph = some p → p.st ≠ .ended → (p.closed = true ∨ s.begun p = true) →
    (∀ i ∈ s.insts, i.phase = some p.id → i.status.isSome = true) → exec .phaseEnd s = .next ((s.endPhase p.id).endJob p.job)) ∧
  (∀ (s : State) (p : Phase) (i : Instance), s.phase? s.ev.ph = some p → i ∈ s.insts → i.phase = some p.id → i.status = none → exec .phaseEnd s = .next s))

/-- A host's write to a kick register (R325): only 64 bytes at offset 0 by the owner of the queue, and only with room, are an entry; everything
else sets its status bit. The status bits clear by writing one. -/
def Obligations.KickRegistersTakeEntries : Prop :=
  (∀ (s : State), s.ev.q < 32 → (s.queue s.ev.q).host = s.ev.host + 1 →
    (s.ev.off = 0 → s.ev.bytes.length = 64 → (s.queue s.ev.q).entries.length < 16 →
      exec .kickRegisterWrite s = .next (s.modQueue s.ev.q (fun x => { x with entries := x.entries ++ [s.ev.bytes] }))) ∧
    (s.ev.off = 0 → s.ev.bytes.length = 64 → 16 ≤ (s.queue s.ev.q).entries.length →
      exec .kickRegisterWrite s = .next (s.modQueue s.ev.q (fun x => { x with ovf := true }))) ∧
    ((s.ev.off ≠ 0 ∨ s.ev.bytes.length ≠ 64 ∧ s.ev.bytes.length ≠ 8) →
      exec .kickRegisterWrite s = .next (s.modQueue s.ev.q (fun x => { x with short := true }))) ∧
    exec .kickStatusClear s = .next (s.modQueue s.ev.q (fun x => { x with
      ovf := x.ovf && !s.ev.v.getLsbD 30, foreign := x.foreign && !s.ev.v.getLsbD 29, short := x.short && !s.ev.v.getLsbD 28 }))) ∧
  (∀ (s : State), s.ev.q < 32 → (s.queue s.ev.q).host ≠ s.ev.host + 1 →
    (¬ (s.ev.off = 0 ∧ s.ev.bytes.length = 8) → exec .kickRegisterWrite s = .next
      ((s.modQueue s.ev.q (fun x => { x with short := x.short || (s.ev.off != 0 || s.ev.bytes.length != 64) })).foreignW1 s.ev.q)) ∧
    exec .kickStatusClear s = .next (s.foreignW1 s.ev.q)) ∧
  (∀ (s : State) (q : Nat), s.foreignW1 q = (s.modQueue q (fun x => { x with foreign := true })).writeRecord 32 { cause := 0x11D, src := 3 })

/-- The thread of a queue takes its entries in order (R333 to R336): a malformed one is refused with 0x11C, one out of sequence with 0x118, a
repeated one is dropped; a kick creates its instance, after its patches; a wait reads its word; a phase entry closes the phase before it; a
registration is checked. What a barrier waits for, a slot given twice and a patch table that cannot be read are log 11 (DEDUCED). -/
def Obligations.QueueThreadsTakeEntries : Prop :=
  (∀ (x : Instr) (kind job : Nat) (s : State) (e : List Byte) (l : List (List Byte)),
    (x, kind) ∈ [(Instr.kick, 0), (Instr.waitEntry, 1), (Instr.registerEntry, 3), (Instr.phaseEntry, 5)] →
    ThreadRuns s → (s.queue s.ev.q).job = some job → (s.queue s.ev.q).entries = e :: l → (s.queue s.ev.q).idle = true → entryKind e = kind →
    (malformed e = true → exec x s = .next ((s.refuseEntry s.ev.q job 0x11C e).modQueue s.ev.q (fun q => { q with entries := q.entries.drop 1 }))) ∧
    (malformed e = false → entrySeq e ≠ (s.queue s.ev.q).eseq.toNat → entrySeq e = ((s.queue s.ev.q).eseq - 1#16).toNat →
      exec x s = .next (s.modQueue s.ev.q (fun q => { q with entries := q.entries.drop 1 }))) ∧
    (malformed e = false → entrySeq e ≠ (s.queue s.ev.q).eseq.toNat → entrySeq e ≠ ((s.queue s.ev.q).eseq - 1#16).toNat →
      exec x s = .next ((s.refuseEntry s.ev.q job 0x118 e).modQueue s.ev.q (fun q => { q with entries := q.entries.drop 1 })))) ∧
  (∀ (s s1 s2 : State) (job : Nat) (e : List Byte) (l : List (List Byte)) (o : GObject) (ps : List (Nat × Nat)) (vs : List (Nat × Nat × Nat)),
    Taking s 0 job e l → (entryBarrier e = false ∨ entryCanprev e = true ∨ s.queueLive s.ev.q = false) → s.object? job (entryHandle e) = some o →
    s.objectWaits job o.base.toNat = none → s.kickPatches job e = (s1, .ok ps) → s2 = (if entryCanprev e then s1.cancelPrevious s.ev.q job else s1) →
    vs = useValues o.base.toNat (patchUses s1 job o.base.toNat) ps →
    (badPatches o.base.toNat (patchUses s1 job o.base.toNat) ps = true → exec .kick s = .next (entryDone s.ev.q (s1.refuseEntry s.ev.q job 0x11B e))) ∧
    (badPatches o.base.toNat (patchUses s1 job o.base.toNat) ps = false → vs.all (fun v => peekG s2 job v.1 v.2.1 == v.2.2) = true →
      exec .kick s = .next (entryDone s.ev.q (s2.createInstance s.ev.q job o e s.hub.toNat))) ∧
    (badPatches o.base.toNat (patchUses s1 job o.base.toNat) ps = false → vs.all (fun v => peekG s2 job v.1 v.2.1 == v.2.2) = false →
      s2.objectLive job o.handle = true → exec .kick s = .next (entryDone s.ev.q (s2.modQueue s.ev.q (fun x => { x with holding := some (e, ps, s.hub.toNat) })))) ∧
    (∀ s3, badPatches o.base.toNat (patchUses s1 job o.base.toNat) ps = false → vs.all (fun v => peekG s2 job v.1 v.2.1 == v.2.2) = false →
      s2.objectLive job o.handle = false → s2.writePatches job vs = (s3, true) →
      exec .kick s = .next (entryDone s.ev.q (s3.createInstance s.ev.q job o e s.hub.toNat)))) ∧
  (∀ (s : State) (job : Nat) (e : List Byte) (l : List (List Byte)), Taking s 0 job e l → entryBarrier e = true → entryCanprev e = false →
    s.queueLive s.ev.q = true → exec .kick s = .next s) ∧
  (∀ (s : State) (job : Nat) (e : List Byte) (l : List (List Byte)), Taking s 0 job e l → (entryBarrier e = false ∨ s.queueLive s.ev.q = false) →
    s.object? job (entryHandle e) = none → exec .kick s = .next (entryDone s.ev.q (s.refuseEntry s.ev.q job 0x119 e))) ∧
  (∀ (s : State) (job : Nat) (e : List Byte) (l : List (List Byte)), Taking s 1 job e l →
    exec .waitEntry s = .next (entryDone s.ev.q ((s.modQueue s.ev.q (fun x => { x with waiting := some (e, false), blocked := true })).pollWait s.ev.q job))) ∧
  (∀ (s : State) (job : Nat) (e : List Byte) (l : List (List Byte)), Taking s 3 job e l → s.resultWaits job e = none → s.objectWaits job (efield e 8 8) = none →
    s.targetsWait job (efield e 8 8) = none →
    exec .registerEntry s = .next (entryDone s.ev.q (
      if (s.object? job (entryHandle e)).isSome then (s.refuseEntry s.ev.q job 0x119 e).resultWord s.ev.q job e 0x119
      else if s.objectOk job (efield e 8 8) then
        (({ s with objects := s.objects ++ [⟨job, entryHandle e, wd (efield e 8 8)⟩] } : State).journal .objectRegistered).resultWord s.ev.q job e 1
      else (s.refuseEntry s.ev.q job 0x11A e).resultWord s.ev.q job e 0x11A))) ∧
  (∀ (s : State) (job : Nat) (e : List Byte) (l : List (List Byte)), Taking s 4 job e l →
    exec .unregisterEntry s = .next (entryDone s.ev.q (s.unregister s.ev.q job e))) ∧
  (∀ (s : State) (job : Nat) (e : List Byte) (l : List (List Byte)), Taking s 5 job e l →
    ∃ (t : State) (p : Phase), exec .phaseEntry s = .next (entryDone s.ev.q t) ∧ p.id = s.nextPhase ∧ p.job = job ∧ p.dies = efield e 8 2 ∧ p ∈ t.phases ∧
      (aget s.jobs job ≠ none → (t.job job).curPhase = some s.nextPhase))

/-- What a queue's thread does beside its entries (R333 to R337): a held kick is applied when its object's instances have ended; a wait is read
again; a cancel is taken ahead; an unregistration is carried out; a queue is bound to a job. A thread that does not run (R338, R339) does
nothing. What a cancel does to a thread that holds or waits, and the result 0x119 of an unknown handle, are log 11 (DEDUCED). -/
def Obligations.QueueThreadsGoOn : Prop :=
  (∀ (s : State) (job taken : Nat) (e : List Byte) (ps : List (Nat × Nat)) (o : GObject), ThreadRuns s → (s.queue s.ev.q).job = some job →
    (s.queue s.ev.q).holding = some (e, ps, taken) → s.object? job (entryHandle e) = some o →
    (s.objectLive job o.handle = true → exec .kickPatchApply s = .next s) ∧
    (∀ s1, s.objectLive job o.handle = false → s.objectWaits job o.base.toNat = none →
      s.writePatches job (useValues o.base.toNat (patchUses s job o.base.toNat) ps) = (s1, true) →
      exec .kickPatchApply s = .next ((s1.modQueue s.ev.q (fun x => { x with holding := none })).createInstance s.ev.q job o e taken))) ∧
  (∀ (s s1 : State) (job : Nat) (e : List Byte) (told : Bool) (b : List Byte), ThreadRuns s → (s.queue s.ev.q).job = some job → (s.queue s.ev.q).waiting = some (e, told) →
    efield e 33 1 ≠ 1 → efield e 8 8 % 8 = 0 → readG s 0 job (efield e 8 8 % 2 ^ 56) 8 .load 0 = (s1, .ok b) →
    exec .waitReread s = .next (if waitMet e (leNat b) then s1.modQueue s.ev.q (fun x => { x with waiting := none, blocked := false }) else s1)) ∧
  (∀ (s : State) (job : Nat) (e : List Byte), ThreadRuns s → (s.queue s.ev.q).job = some job → (s.queue s.ev.q).waiting = some (e, false) →
    efield e 33 1 ≠ 1 → efield e 8 8 % 8 ≠ 0 →
    exec .waitReread s = .next ((s.writeRecord s.ev.q { cause := 0x060, src := 3, job := job, kseq := entrySeq e, addr := efield e 8 8 }).modQueue s.ev.q
      (fun x => { x with waiting := some (e, true) }))) ∧
  (∀ (s : State) (job : Nat) (e : List Byte) (told : Bool), ThreadRuns s → (s.queue s.ev.q).job = some job → (s.queue s.ev.q).waiting = some (e, told) → efield e 33 1 = 1 →
    exec .waitReread s = .next (if s.insts.any (fun i => i.queue == s.ev.q && i.kseq == efield e 48 2 && i.status.isNone) then s
      else s.modQueue s.ev.q (fun x => { x with waiting := none, blocked := false }))) ∧
  (∀ (s s1 : State) (job k : Nat) (e : List Byte), ThreadRuns s → (s.queue s.ev.q).job = some job → lfind (fun e => entryKind e == 2) (s.queue s.ev.q).entries = some k →
    e = lget (s.queue s.ev.q).entries k [] → s1 = s.modQueue s.ev.q (fun x => { x with entries := ldel x.entries k }) →
    (malformed e = true → exec .cancelEntry s = .next (s1.refuseEntry s.ev.q job 0x11C e)) ∧
    (∀ i, malformed e = false → efield e 8 1 = 2 → s1.insts.find? (fun i => i.queue == s.ev.q && i.kseq == entrySeq e && i.status.isNone) = some i →
      exec .cancelEntry s = .next (((s1.journal .entryAccepted).cancelRecord job 2 { cause := 0, kseq := i.kseq }).cancelInst i.id)) ∧
    (malformed e = false → efield e 8 1 ≠ 2 → (s.job job).ended = false →
      exec .cancelEntry s = .next ((((s1.modQueue s.ev.q (fun x => { x with entries := [], blocked := false, waiting := none, holding := none })).journal .entryAccepted).cancelRecord
        job 4 { cause := 0, kseq := entrySeq e }).cancelJob job))) ∧
  (∀ (s : State) (job : Nat) (e : List Byte), ThreadRuns s → (s.queue s.ev.q).job = some job → (s.queue s.ev.q).unreg = some e →
    exec .unregisterEntry s = .next (s.unregister s.ev.q job e)) ∧
  (∀ (x : Instr) (s : State), x ∈ [Instr.kick, .waitEntry, .registerEntry, .unregisterEntry, .phaseEntry, .kickPatchApply, .waitReread, .cancelEntry] →
    ¬ ThreadRuns s → exec x s = .next s) ∧
  (∀ (s : State) (jid : Nat), s.ev.q < 32 → s.ev.bytes.length = 64 → (s.queue s.ev.q).entries = [] → s.queueLive s.ev.q = false → (s.queue s.ev.q).idle = true →
    jid = efield s.ev.bytes 0 4 → (∀ j, aget s.jobs jid = some j → j.queue = s.ev.q) → (s.queue s.ev.q).job = none →
    exec .queueBind s = .next (State.modQueue { s with jobs := aset s.jobs jid (jobOf s.ev.q (s.ev.host + 1) s.ev.bytes) } s.ev.q
      (fun x => { x with job := some jid, eseq := 1#16, host := s.ev.host + 1 }))) ∧
  (∀ (s : State) (jid old : Nat), s.ev.q < 32 → s.ev.bytes.length = 64 → (s.queue s.ev.q).entries = [] → s.queueLive s.ev.q = false → (s.queue s.ev.q).idle = true →
    jid = efield s.ev.bytes 0 4 → (∀ j, aget s.jobs jid = some j → j.queue = s.ev.q) → (s.queue s.ev.q).job = some old →
    exec .queueBind s = .next (State.modQueue { s.dropJob old with jobs := aset (s.dropJob old).jobs jid (jobOf s.ev.q (s.ev.host + 1) s.ev.bytes) } s.ev.q
      (fun x => { x with job := some jid, eseq := 1#16, host := s.ev.host + 1 })))

/-! ### Windows, firmware, hosts and the fleet -/

/-- UCMD and OVFT (R354), TLBICTL (R360) and DBGCTL (R366, R367): a host that does not own the job's queue is refused with 0x11D; the action
named acts on the unit, the translations or the PEs named. While starts are withheld or the module is too hot a resume waits (R385). A GO of
TLBICTL while BUSY is discarded alone, and it leaves DONE as it is (R2, R360; log 52). A job keeps its halts for units that start there
later (R367); a step of a whole cluster acts on no PE (log 54). -/
def Obligations.HostCommandsAct : Prop :=
  (∀ (x : Instr) (act : Nat) (s s1 : State) (uid job : Nat), (x, act) ∈ [(Instr.ucmdResume, 0), (Instr.ucmdEndFaulted, 1), (Instr.ucmdCancelLaunch, 2), (Instr.ucmdMoveOvft, 3)] →
    s.ev.v.getLsbD 31 = true → wbits s.ev.v 17 16 = act → job = wbits s.ev.v 63 32 →
    (s.ownsJob s.ev.host job = false → exec x s = .next (s.writeRecord 32 { cause := 0x11D, src := 3 })) ∧
    (s.ownsJob s.ev.host job = true → s.findStopped job (wbits s.ev.v 15 0) = none → ∃ t : State, exec x s = .next t ∧ t.w2.ucmdErr = true ∧ t.units = s.units) ∧
    (s.ownsJob s.ev.host job = true → (s.modW2 (fun w => { w with ucmdJob := job, ucmdAct := act, ucmdHandle := wbits s.ev.v 15 0 })).findStopped job (wbits s.ev.v 15 0) = some uid →
      s1 = (s.modW2 (fun w => { w with ucmdJob := job, ucmdAct := act, ucmdHandle := wbits s.ev.v 15 0 })).modW2 (fun w => { w with ucmdErr := false }) →
      exec x s = .next (if act = 0 then s1.resumeUnit uid else if act = 1 then s1.endUnit uid 3 else if act = 2 then s1.cancelFrom uid 1
        else (s1.modUnit uid (fun u => { u with ovft := if s.ev.host = 0 then s1.w2.uargA else s1.w2.uargB })).resumeUnit uid))) ∧
  (∀ (s : State) (uid : Nat) (u : UnitSt) (h : Nat), aget s.units uid = some u → u.status = .stopped h →
    ((s.pow.hold = true ∨ s.pow.crit = true) → s.resumeUnit uid = s.modUnit uid (fun u => { u with resumeDue := true })) ∧
    (s.pow.hold = false → s.pow.crit = false → u.handler = false → nextPending u.pend = none → u.curFault = none →
      s.resumeUnit uid = s.modUnit uid (fun u => { u with ccnt := u.tepc, curFault := none, resumeDue := false, status := .running, watchdog := 0 }))) ∧
  (∀ (s : State) (job first n : Nat), s.ev.v.getLsbD 0 = true → job = wbits s.ev.v 63 32 → s.ownsJob s.ev.host job = true →
    (s.w2.tlbBusy = true → exec .tlbShootdown s = .next { s with w2 := { s.w2 with tlbJob := job, tlbDone := s.w2.tlbDone && !s.ev.v.getLsbD 2 } }) ∧
    (s.w2.tlbBusy = false →
      first = wbits (if s.ev.host = 0 then s.w2.tlbVaA else s.w2.tlbVaB) 55 16 → n = (if s.ev.host = 0 then s.w2.tlbNpA else s.w2.tlbNpB).toNat →
      exec .tlbShootdown s = .next { s with tlb := s.tlb.filter (fun t => !(t.job == job && t.touches first n)),
                                            w2 := { s.w2 with tlbJob := job, tlbBusy := true, tlbDone := s.w2.tlbDone && !s.ev.v.getLsbD 2, tlbPend := s.translated job first n } })) ∧
  (∀ (s : State), s.w2.tlbBusy = true → exec .tlbShootdownDone s = .next (if s.w2.tlbPend.any (fun p =>
      if p.1 = 0 then s.fyWait.any (fun w => w.1 == p.2) else match (s.unit p.1).entry? p.2 with
      | some e => e.inFlight
      | none => false) then s else s.modW2 (fun w => { w with tlbBusy := false, tlbDone := true, tlbPend := [] }))) ∧
  (∀ (x : Instr) (act : Nat) (s : State) (job : Nat), (x, act) ∈ [(Instr.debugHalt, 1), (Instr.debugResume, 2), (Instr.debugStep, 3)] →
    s.ev.v.getLsbD 31 = true → wbits s.ev.v 29 27 = act → job = wbits s.ev.v 63 32 →
    (s.ownsJob s.ev.host job = false → exec x s = .next (s.writeRecord 32 { cause := 0x11D, src := 3 })) ∧
    (s.ownsJob s.ev.host job = true → s.ev.v.getLsbD 26 = false → ∃ t : State, exec x s = .next t ∧ t.mem = s.mem ∧ t.w2.dbgJob = job ∧
      t.units = (s.modJobPe job (wbits s.ev.v 25 17) (wbits s.ev.v 12 9) (wbits s.ev.v 16 13) (fun p => if act = 3 then (if p.halted then { p with stepOnce := true } else p)
        else { p with halted := act == 1, stepOnce := false })).units ∧
      (act = 1 → aget s.jobs job ≠ none → (t.job job).dbgReason = 1) ∧ (act ≠ 3 → aget s.jobs job ≠ none → (t.job job).debugHold = t.anyHalt job) ∧
      (act ≠ 3 → ((t.job job).haltPe.contains (wbits s.ev.v 25 17, wbits s.ev.v 12 9, wbits s.ev.v 16 13) = true ↔ act = 1))) ∧
    (s.ownsJob s.ev.host job = true → s.ev.v.getLsbD 26 = true → act ≠ 3 → ∃ t : State, exec x s = .next t ∧
      t.units = (s.modJobCluster job (wbits s.ev.v 25 17) (fun p => { p with halted := act == 1, stepOnce := false })).units ∧
      ((t.job job).haltCl.contains (wbits s.ev.v 25 17) = true ↔ act = 1 ∧ aget s.jobs job ≠ none) ∧
      (act = 2 → ∀ y z, (t.job job).haltPe.contains (wbits s.ev.v 25 17, y, z) = false)) ∧
    (s.ownsJob s.ev.host job = true → s.ev.v.getLsbD 26 = true → act = 3 → ∃ t : State, exec x s = .next t ∧ t.w2.dbgJob = job ∧ t.w2.dbgWhole = true ∧
      { t with w2 := s.w2 } = s))

/-- The registers that act without a job (R291, R385, R388): POOLCFG is clamped and discarded while an instance exists; PWRCTL is clamped;
ATTCTL starts a quote, unless one is in progress, and a GO leaves DONE as it is (log 52). The result is sampled at one hub clock (R389) and
written where the host's regions allow it, once nothing holds its place. Writes without an action change fields by their Kind (R2); a write
of FQHEAD, which is read only, changes nothing. A host that owns no mapped queue is refused with 0x11D (log 53). -/
def Obligations.RegistersTakeWrites : Prop :=
  (∀ (s : State), s.ownsAny s.ev.host = true →
    (s.insts.any (fun i => i.status.isNone) = true → exec .poolcfgWrite s = .next s) ∧
    (s.insts.any (fun i => i.status.isNone) = false → exec .poolcfgWrite s = .next (s.modW2 (fun w => { w with poolD := clamp 1 8 (wbits s.ev.v 3 0) }))) ∧
    (∃ t : State, exec .pwrctlWrite s = .next t ∧ t.pow.spacing = clamp 8 4096 (wbits s.ev.v 31 16) ∧ t.pow.limit = clamp 1200 2400 (wbits s.ev.v 15 0) ∧
      t.pow.alarm = s.pow.alarm ∧ t.pow.hold = s.pow.hold ∧ t.pow.crit = s.pow.crit ∧ { t with pow := s.pow } = s)) ∧
  (∀ (s : State) (x : Instr), x ∈ [Instr.poolcfgWrite, Instr.pwrctlWrite] → s.ownsAny s.ev.host = false →
    exec x s = .next (s.writeRecord 32 { cause := 0x11D, src := 3 })) ∧
  (∀ lo hi v, lo ≤ hi → lo ≤ clamp lo hi v ∧ clamp lo hi v ≤ hi ∧ (lo ≤ v → v ≤ hi → clamp lo hi v = v)) ∧
  (∀ (x : Instr) (k : Nat) (s : State), (x, k) ∈ [(Instr.attestationQuote, 0), (Instr.attestationKeys, 1)] → s.ev.v.getLsbD 0 = true → wbits s.ev.v 5 4 = k →
    (s.ownsAny s.ev.host = false → exec x s = .next (s.writeRecord 32 { cause := 0x11D, src := 3 })) ∧
    (s.ownsAny s.ev.host = true → s.fw.attBusy = true →
      exec x s = .next (s.modFw (fun f => { f with attDone := f.attDone && !s.ev.v.getLsbD 2, attKind := k }))) ∧
    (s.ownsAny s.ev.host = true → s.fw.attBusy = false → exec x s = .next (s.modFw (fun f =>
      { f with attDone := f.attDone && !s.ev.v.getLsbD 2, attKind := k, attBusy := true, attErr := false, attWork := k, attHost := s.ev.host })))) ∧
  (∀ (s : State) (n : Nat), s.fw.attBusy = true → n = (if s.fw.attWork = 0 then 3760 else 1984) →
    ((1 < s.fw.attWork ∨ s.assigned s.fw.attHost s.fw.attDst n = false) →
      exec .attestationResult s = .next (s.modFw (fun f => { f with attBusy := false, attErr := true, attSample := none }))) ∧
    (∀ (bs : List Byte) (t : State), s.fw.attWork ≤ 1 → s.assigned s.fw.attHost s.fw.attDst n = true →
      (s.fw.attSample = some bs ∧ t = s ∨
        s.fw.attSample = none ∧ s.fw.attWork = 0 ∧ bs = s.quote ∧
          t = State.modFw { s with freeCtr := s.freeCtr + (64 + 3309) } (fun f => { f with attSample := some bs, sampledAt := some s.hub.toNat }) ∨
        s.fw.attSample = none ∧ s.fw.attWork = 1 ∧ bs = (upFrom 0 1984).map Config.publicKey ∧ t = s.modFw (fun f => { f with attSample := some bs })) →
      (t.attReady bs.length = true →
        exec .attestationResult s = .next ((t.devWrite t.fw.attDst bs).modFw (fun f => { f with attBusy := false, attDone := true, attSample := none }))) ∧
      (t.attReady bs.length = false → ∃ r : State, exec .attestationResult s = .next r ∧ r.fw = t.fw ∧ r.mem = t.mem ∧ r.units = t.units))) ∧
  (∀ (s : State) (q : Nat), q < 32 → (s.queue q).host = s.ev.host + 1 →
    (s.ev.off = q * 32 → exec .registerWrite s = .next { s with rings := lmod s.rings q (fun r => { r with base := wbits s.ev.v 51 12 * 4096, size := wbits s.ev.v 4 0 }) }) ∧
    (s.ev.off = q * 32 + 8 → ∃ t : State, exec .registerWrite s = .next t ∧ (∀ k, lget t.rings k {} = lget s.rings k {}) ∧ { t with rings := s.rings } = s) ∧
    (s.ev.off = q * 32 + 16 → exec .registerWrite s = .next { s with rings := lmod s.rings q (fun r => { r with tail := s.ev.v.setWidth 32 }) }) ∧
    (s.ev.off = q * 32 + 24 → exec .registerWrite s = .next { s with rings := lmod s.rings q (fun r => { r with lost := r.lost &&& ~~~ (s.ev.v.setWidth 32) }) }))

/-- Garnet and Spinel (R322, R338 to R340, R389): the heartbeat, commit points, takeover, and the stages of a handover from GO to its commit or
abort. A commit point is recorded in no clock that has one, and while a thread is part-way through an entry only in a handover whose last
one is 10,000 hub clocks old (R338). The standby follows the journal record by record; after a takeover the new core acts once it has
replayed the records that it found; the former core acts no more (R339; log 21). -/
def Obligations.FirmwareProceeds : Prop :=
  (∀ (s : State), s.fw.mstate = 1 → ∃ t : State, exec .firmwareReady s = .next t ∧ t.fw.mstate = 2 ∧ t.fw.heartbeat = s.hub.toNat ∧ t.devNum = s.ev.v.setWidth 10 ∧ t.mem = s.mem) ∧
  (∀ (s : State), s.fw.owner = false → s.ev.former = false → exec .garnetHeartbeat s = .next (if s.hubSince s.fw.heartbeat < 1024 then s
    else s.modFw (fun f => { f with heartbeat := s.hub.toNat }))) ∧
  (∀ (s : State), s.ev.former = true → exec .garnetHeartbeat s = .next s ∧ exec .handoverCommit s = .next s) ∧
  (∀ (s : State), s.ev.former = false → (s.fw.nostby = true ∨ s.fw.jserial < s.fw.replayed + 8192) →
    (s.mayCommit = true → ∃ t : State, exec .commitPointRecord s = .next t ∧ t.fw.jserial = s.fw.jserial + 1 ∧ t.fw.jcommit = s.fw.jserial + 1 ∧
      t.fw.committedAt = some s.hub.toNat ∧ t.fw.ring.getLast? = some ⟨s.fw.jserial + 1, .commitPoint⟩ ∧ { t with fw := s.fw } = s) ∧
    (s.mayCommit = false → exec .commitPointRecord s = .next s)) ∧
  (∀ (s : State) (body : State → State),
    ((s.ev.former = true ∨ s.fw.nostby = false ∧ s.fw.replayed + 8192 ≤ s.fw.jserial) → s.garnet body = s ∧ s.thread body = s ∧ exec .commitPointRecord s = .next s) ∧
    (s.fw.replayed < s.fw.resumeAt → s.thread body = s) ∧
    (s.ev.former = false → (s.fw.nostby = true ∨ s.fw.jserial < s.fw.replayed + 8192) → s.garnet body = body s ∧ (s.fw.resumeAt ≤ s.fw.replayed → s.thread body = body s))) ∧
  (∀ (s : State), s.mayCommit = true ↔ s.fw.committedAt ≠ some s.hub.toNat ∧
    ((∀ q ∈ s.queues, q.waiting = none ∧ q.holding = none ∧ q.unreg = none) ∨ s.fw.handing = true ∧ 10000 ≤ s.hubSince (s.fw.committedAt.getD s.fw.hgo))) ∧
  (∀ (s : State), s.replay = if s.fw.replayed < s.fw.jserial ∧ (s.fw.nostby = false ∨ s.fw.replayed < s.fw.resumeAt) then
    s.modFw (fun f => { f with replayed := f.replayed + 1 }) else s) ∧
  (∀ (s : State), s.fw.owner = false → s.fw.nostby = false → 4096 ≤ s.hubSince s.fw.heartbeat →
    exec .spinelTakeover s = .next (((if s.fw.handing then s.abortHandover else s).devRecord 0x168 2).modFw
      (fun f => { f with owner := true, nostby := true, resumeAt := f.jserial, verActive := f.verStandby, verStandby := f.verActive }))) ∧
  (∀ (s : State), s.ownsAny s.ev.host = false → exec .handoverGo s = .next (s.writeRecord 32 { cause := 0x11D, src := 3 })) ∧
  (∀ (s : State), s.ownsAny s.ev.host = true → s.ev.v.getLsbD 0 = true → s.fw.handing = false →
    exec .handoverGo s = .next (s.modFw (fun f => { f with hstate := 1, hgo := s.hub.toNat, hovr := true }))) ∧
  (∀ (s : State), (s.fw.hstate = 1 → exec .handoverMeasured s = .next (s.modFw (fun f => { f with hstate := 2, verStaged := s.ev.v &&& 0xFFFFFFFF#64 }))) ∧
    (s.fw.hstate = 2 → exec .handoverImageLoaded s = .next (s.modFw (fun f => { f with hstate := 3 }))) ∧
    (s.fw.hstate = 3 → s.hubSince s.fw.hgo < 1000000 → s.ev.former = false → s.fw.jserial ≤ s.fw.replayed → s.mayCommit = true → s.fw.sampledAt ≠ some s.hub.toNat →
      ∃ t : State, exec .handoverCommit s = .next t ∧ t.fw.jserial = s.fw.jserial + 1 ∧ t.fw.jcommit = s.fw.jserial + 1 ∧ t.fw.committedAt = some s.hub.toNat ∧
        t.fw.hstate = 4 ∧ t.fw.hovr = false ∧ t.fw.owner = (!s.fw.owner) ∧ t.fw.nostby = true ∧ t.fw.replayed = s.fw.jserial + 1 ∧
        t.fw.verActive = s.fw.verStaged ∧ t.fw.verStandby = s.fw.verActive ∧ { t with fw := s.fw } = s) ∧
    (s.fw.jserial > s.fw.replayed ∨ s.fw.sampledAt = some s.hub.toNat ∨ s.mayCommit = false → exec .handoverCommit s = .next s) ∧
    (s.fw.handing = true → 1000000 ≤ s.hubSince s.fw.hgo → exec .handoverAbort s = .next
      (State.writeRecord (s.modFw (fun f => { f with hstate := 5, hovr := false })) 32 { cause := 0x169, src := 2 })) ∧
    (s.fw.nostby = true → exec .standbyReload s = .next (s.modFw (fun f => { f with
      nostby := false, replayed := f.jserial, resumeAt := 0, verStandby := f.verActive, verStaged := if f.hstate = 4 then 0#64 else f.verStaged }))))

/-- A host's requests for a half-line (R117, R318 to R321), its answers to the device's snoops, and the links (R316, R358, R384): a half that
the other host holds is snooped first, and copies of other devices go before a host owns (R85); a read shares or owns; a writeback's bytes
reach the home; an unassigned region answers all ones and a record. A host's grants of its own half-lines, its decoders and the assignment
of regions (R318, R319, R324). A Fyron packet (R343) is dropped when malformed, outside the partitions, or out of hops; accepted when it is
for this device; forwarded otherwise. A failing lane takes the spare, then the port's traffic another port (R379); training brings a port
up, or leaves it failed when it yields no lane (R384; log 74). -/
def Obligations.HostsAndPeersExchange : Prop :=
  ((∀ (s : State) (pa line h y : Nat), s.ev.host < 2 → pa = s.ev.pa / 64 * 64 → line = pa / 128 → h = pa / 64 % 2 → y = 1 - s.ev.host → s.assigned s.ev.host pa 64 = true →
    (s.dirOf line).snooped h = false → (s.dirOf line).lock = none →
    ((s.dirOf line).host y h = .Hx → exec .hostReadShared s = .next (s.sendBisnp line y h false)) ∧
    ((s.dirOf line).host y h ≠ .Hx → exec .hostReadShared s =
      .next (((s.recall line true).modDir line (fun d => d.setHost s.ev.host h .Hs)).answerHost s.ev.host pa)) ∧
    ((s.dirOf line).host y h ≠ .Hi → exec .hostReadOwnership s = .next (s.sendBisnp line y h true)) ∧
    ((s.dirOf line).host y h = .Hi → ((s.dirOf line).remote ≠ [] ∨ s.remotePending line = true) → exec .hostReadOwnership s = .next (s.invRemote line)) ∧
    ((s.dirOf line).host y h = .Hi → (s.dirOf line).remote = [] → s.remotePending line = false → exec .hostReadOwnership s =
      .next (((s.recall line false).modDir line (fun d => d.setHost s.ev.host h .Hx)).answerHost s.ev.host pa)) ∧
    ((s.dirOf line).host s.ev.host h = .Hx → s.ev.bytes.length = 64 →
      exec .hostWriteback s = .next ((s.hostWrite pa s.ev.bytes).modDir line (fun d => d.setHost s.ev.host h .Hi))) ∧
    ((s.dirOf line).host s.ev.host h ≠ .Hx → exec .hostWriteback s = .next s) ∧
    exec .hostEvictClean s = .next (s.modDir line (fun d => d.setHost s.ev.host h .Hi))) ∧
  (∀ (s : State) (host pa : Nat), (s.bad.contains (pa / 128) = false → s.answerHost host pa = s.toHost host pa (s.cohBytes pa 64)) ∧
    (s.bad.contains (pa / 128) = true → s.answerHost host pa =
      (s.writeRecord 32 { cause := 0x160, src := 3, addr := pa, d1 := pa / 128 * 128 }).toHost host pa (List.replicate 64 0xFF#8))) ∧
  (∀ (s : State) (x : Instr), x ∈ [Instr.hostReadShared, Instr.hostReadOwnership] → s.ev.host < 2 → s.assigned s.ev.host (s.ev.pa / 64 * 64) 64 = false →
    exec x s = .next ((s.writeRecord 32 { cause := 0x11D, src := 3, addr := s.ev.pa / 64 * 64 }).toHost s.ev.host s.ev.pa (List.replicate 64 0xFF#8))) ∧
  (∀ (s : State), exec .biconflict s = .next (if (s.dirOf (s.ev.pa / 128)).snoops.any (fun p => p.1 == s.ev.host && p.2 % 2 == halfOf s.ev.pa) then s
    else s.toHost s.ev.host s.ev.pa [])) ∧
  (∀ (s : State) (pa line h : Nat) (p : Nat × Nat), pa = s.ev.pa / 64 * 64 → line = pa / 128 → h = halfOf pa →
    (s.dirOf line).snoops.find? (fun p => p.1 == s.ev.host && decide (p.1 < 2) && p.2 % 2 == h) = some p →
    exec .bisnpResponse s = .next ((if s.ev.bytes.length = 64 ∧ (s.dirOf line).host s.ev.host h = .Hx then s.hostWrite pa s.ev.bytes else s).modDir line
      (fun d => { (d.setHost s.ev.host h (if p.2 < 2 then .Hs else .Hi)) with snoops := d.snoops.erase p }))) ∧
  (∀ (s s1 : State) (xa : Nat), xa = hostBase + (s.ev.host % 2) * 2 ^ 51 + s.ev.pa % 2 ^ 51 / 64 * 64 → s1 = s.recall (xa / 128) (!s.ev.flag) →
    ((s.dirOf (xa / 128)).lock ≠ none → exec .hostSnoop s = .next s) ∧
    ((s.dirOf (xa / 128)).lock = none → ∃ t : State, exec .hostSnoop s = .next t ∧ t.hostRx = s1.hostRx ++ [(s.ev.host, s.ev.pa, s1.cohBytes xa 64)] ∧
      (s.ev.flag = true → t.hostHalf = adel s1.hostHalf ((xa - hostBase) / 64)) ∧
      (s.ev.flag = false → t.hostHalf = amod s1.hostHalf ((xa - hostBase) / 64) (fun _ => .S)) ∧
      { t with hostHalf := s1.hostHalf, hostRx := s1.hostRx } = s1)) ∧
  (∀ (s : State) (half : Nat) (st : Mesi), s.hostPortUp (hostBase + half * 64) = true → s.hostAsk.any (fun a => a.1 == half && decide (needRank a.2 ≤ st.rank)) = true →
    s.hostGrant half st = { s with hostHalf := aset s.hostHalf half st, hostAsk := s.hostAsk.filter (fun a => !(a.1 == half && decide (needRank a.2 ≤ st.rank))) }) ∧
  (∀ (s : State) (host region base code : Nat), region < 2304 →
    (host < 2 → bit (agetD s.regions region 0) host = true → s.programDecoder host region (some base) = { s with decoders := aset s.decoders (host, region) base }) ∧
    (bit (agetD s.regions region 0) host = false → s.programDecoder host region (some base) = s) ∧
    (s.decoded region = true → s.assignRegion region code = s) ∧
    (s.decoded region = false → s.assignRegion region code = { s with regions := aset s.regions region (code % 4) })) ∧
  (∀ (s : State) (host addr pa : Nat), s.hdmMap host addr = some pa → ∃ d ∈ s.decoders, d.1.1 = host ∧ d.2 ≤ addr ∧ addr < d.2 + 2 ^ 28 ∧
    pa = d.1.2 * 2 ^ 28 + (addr - d.2)) ∧
  (∀ (s : State), s.ev.host < 2 →
    (s.ev.flag = true → s.ev.width ∈ [1, 2, 4, 8] → s.ev.rate ∈ [16, 32, 64] →
      exec .hostLinkTraining s = .next { s with ports := lmod s.ports (16 + s.ev.host) (fun x => { x with state := 2, width := s.ev.width, rate := s.ev.rate }) }) ∧
    (s.ev.flag = false → exec .hostLinkTraining s = .next { s with ports := lmod s.ports (16 + s.ev.host) (fun x => { x with state := 5, width := 0, rate := 0 }) }) ∧
    (s.ev.flag = true → s.ev.width = 0 →
      exec .hostLinkTraining s = .next { s with ports := lmod s.ports (16 + s.ev.host) (fun x => { x with state := 4, width := 0, rate := 0 }) }) ∧
    ((lget s.ports (16 + s.ev.host) {}).state = 2 →
      exec .hostPortDown s = .next { s with ports := lmod s.ports (16 + s.ev.host) (fun x => { x with state := 0, width := 0, rate := 0 }) }))) ∧
  ((∀ (s s1 : State), s1 = s.count 20 (fyFlits s.ev.pkt.len.toNat) →
    ((6 < s.ev.pkt.kind.toNat ∨ s.ev.pkt.zero1 ≠ 0#5 ∨ s.ev.pkt.zero2 ≠ 0#2 ∨ s.fyParts.contains s.ev.pkt.pkey = false) →
      exec .fyronPacketReceive s = .next (s1.dropPacket s.ev.port)) ∧
    (badPacket s.ev.pkt = false → s.fyParts.contains s.ev.pkt.pkey = true →
      (s.ev.pkt.ddev = s.devNum → exec .fyronPacketReceive s = .next (s1.acceptPacket s.ev.pkt)) ∧
      (s.ev.pkt.ddev ≠ s.devNum → s.ev.pkt.hops.toNat ≤ 1 → exec .fyronPacketReceive s = .next (s1.dropPacket s.ev.port)) ∧
      (s.ev.pkt.ddev ≠ s.devNum → 1 < s.ev.pkt.hops.toNat → exec .fyronPacketReceive s = .next
        { s1.count 19 (fyFlits s.ev.pkt.len.toNat) with fyOut := s.fyOut ++ [(agetD s.fyRoute s.ev.pkt.ddev.toNat 0, { s.ev.pkt with hops := s.ev.pkt.hops - 1#6 })] }))) ∧
  (∀ (s : State), s.ev.port < 16 → (lget s.ports s.ev.port {}).state ≠ 0 →
    exec .laneFailure s = .next (if (lget s.ports s.ev.port {}).spareUsed then
        { s with ports := lmod s.ports s.ev.port (fun x => { x with state := 0, width := 0, rate := 0 }),
                 fyRoute := s.fyRoute.map (fun r => if r.2 = s.ev.port then (r.1, s.ev.i) else r) }
      else { s with ports := lmod s.ports s.ev.port (fun x => { x with state := 1, width := 0, rate := 0, spareUsed := true }) })) ∧
  (∀ (s : State), s.ev.port < 16 → (lget s.ports s.ev.port {}).state ≤ 1 →
    exec .fyronPortTraining s = .next { s with ports := lmod s.ports s.ev.port (fun x =>
      { x with state := if s.ev.width % 32 = 0 then 4 else if x.spareUsed then 3 else 2, width := s.ev.width % 32,
               rate := if s.ev.width % 32 = 0 then 0 else s.ev.rate % 256 }) }))

/-- Power, errors, spares and reset (R3, R9, R379 to R385). That the memories keep their bytes over module reset is the model's reading (log
13); what an error or an event names as its element is given with it (logs 30, 31). An element is repaired when it has logged 8 corrected
errors within 2^40 hub clocks (R381). -/
def Obligations.FleetEventsAct : Prop :=
  (∀ (s : State), ∃ t : State, exec .moduleReset s = .next t ∧ t.mem = s.mem ∧ t.wst = s.wst ∧ t.lsm = s.lsm ∧ t.units = [] ∧ t.jobs = [] ∧ t.hub = 0#64 ∧
    t.fw = State.reset.fw ∧ t.queues = State.reset.queues ∧ t.w2 = State.reset.w2 ∧ t.dies = State.reset.dies ∧ t.clusters = State.reset.clusters) ∧
  (∀ (s : State) (m : Power), m = (s.measured).pow →
    (m.draw = s.ev.draw ∧ m.inlet = s.ev.inlet ∧ m.limit = s.pow.limit ∧ m.alarm = s.pow.alarm ∧ m.hold = s.pow.hold ∧ m.crit = s.pow.crit ∧
      m.calm = (if s.ev.draw + 120 ≤ s.pow.limit ∧ s.ev.inlet ≤ 4300 then s.pow.calm.or (some s.hub.toNat) else none) ∧
      m.cool = (if s.ev.inlet ≤ 4300 then s.pow.cool.or (some s.hub.toNat) else none)) ∧
    ((s.pow.limit < s.ev.draw ∨ 4500 < s.ev.inlet) → s.pow.alarm = false →
      exec .powerAlarm s = .next { s with pow := { m with alarm := true, alarms := m.alarms + 1, since := s.hub.toNat } }) ∧
    (s.ev.draw ≤ s.pow.limit → s.ev.inlet ≤ 4500 → exec .powerAlarm s = .next { s with pow := m }) ∧
    (s.pow.alarm = true → 2000000 ≤ s.hubSince s.pow.since → s.pow.limit < s.ev.draw → exec .startHold s = .next { s with pow := { m with hold := true } }) ∧
    (s.ev.draw ≤ s.pow.limit → exec .startHoldEnd s = .next { s with pow := { m with hold := false } }) ∧
    (∀ c, s.pow.alarm = true → m.calm = some c → 10000000 ≤ s.hubSince c → s.pow.crit = false →
      exec .powerAlarmEnd s = .next { s with pow := { m with alarm := false } }) ∧
    (∀ c, s.pow.crit = true → m.cool = some c → 1000000000 ≤ s.hubSince c →
      exec .overtempEnd s = .next { s with pow := { m with crit := false }, fw := { s.fw with mstate := 2 } }) ∧
    (5500 < s.ev.inlet → s.pow.crit = false → ∃ t : State, t.pow.crit = true ∧ t.fw.mstate = 3 ∧ t.units = s.units ∧
      exec .overtempPreempt s = .next (((t.units.filter (fun p => p.2.isRunning)).map Prod.fst).foldl (fun s u => s.requestPreempt u true) t))) ∧
  (∀ (s s1 : State), s1 = s.modFleet (fun f => { f with corrected := adel f.corrected s.ev.elem }) → isChannel s.ev.elem = false →
    ((s.recentErrors s.ev.elem).length < 8 → exec .correctedErrorThreshold s = .next s) ∧
    (8 ≤ (s.recentErrors s.ev.elem).length →
      (∀ pa, s.ev.elem = .hbmRow pa → exec .correctedErrorThreshold s =
        .next ((s1.writeRecord 32 { cause := 0x164, src := 2, addr := pa }).modFleet (fun f => { f with rowRep := f.rowRep + 1 }))) ∧
      (∀ cl k, (s.ev.elem = .lsBank cl k ∨ s.ev.elem = .cimMacro cl k) → exec .correctedErrorThreshold s =
        .next ((s1.writeRecord 32 { cause := 0x164, src := 2, addr := 0 }).modCluster cl (fun c => { c with pending := true }))) ∧
      (∀ cl x y, s.ev.elem = .peConfig cl x y → exec .correctedErrorThreshold s = .next ((s1.writeRecord 32 { cause := 0x164, src := 2, addr := 0 }).failPe cl x y)) ∧
      (∀ k g, (s.ev.elem = .l2Bank k ∨ s.ev.elem = .wsGroup k g) → exec .correctedErrorThreshold s =
        .next (s1.writeRecord 32 { cause := 0x164, src := 2, addr := 0 })))) ∧
  (∀ (s : State) (e : Element), (s.logCorrected e).recentErrors e = if isChannel e = true then s.recentErrors e
    else (s.recentErrors e ++ [s.hub.toNat]).filter (fun t => decide (s.hubSince t < 2 ^ 40))) ∧
  (∀ (s : State) (cl : Nat), cl = s.ev.cl → (s.cluster cl).pending = true → s.units.any (fun p => p.2.inRegion && p.2.covers cl) = false →
    (s.units.any (fun p => p.2.inRegion && p.2.die == dieOf cl) = false ∨ (s.die (dieOf cl)).remap = true) →
    exec .clusterRemap s = .next (if lget s.fleet.clSpare (dieOf cl) 0 = 0 then s.modCluster cl (fun c => { c with pending := false, unavail := true })
      else ((s.flushL1 cl).modCluster cl (fun _ => {})).modFleet (fun f =>
        { f with clSpare := lmod f.clSpare (dieOf cl) (· - 1), retired := lmod f.retired (dieOf cl) (· + 1), peFailed := f.peFailed.filter (fun p => p.1 != cl),
                 corrected := f.corrected.filter (fun p => !elemInCluster cl p.1) })))

/-- A record sent to a ring (R341, R346): 64 bytes at FQBASE + 64 (FQHEAD mod 2^FQSIZE), FQHEAD one up and the ring's MSI-X vector sent; a ring
that is full, or whose FQSIZE is below 4, takes nothing and counts the record in FQLOST. No other ring changes. A record whose place a host
holds, or that must wait for what the device wrote before it, is kept with what it waits for, and written later (R108, R117, R341; log 9). -/
def Obligations.RecordsEnterTheirRing : Prop :=
  (∀ (s : State) (k : Nat) (r : FaultRec) (lines : List Nat), lines = (s.dir.map Prod.fst).filter s.remotePending →
    (s.devPend.any DevOp.isOwn = true ∨ s.recordWaits k s.fyTag lines = true) →
    ∃ t : State, s.writeRecord k r = t ∧ t.rings = s.rings ∧ t.mem = s.mem ∧ t.msix = s.msix ∧ t.devPend = s.devPend ++ [.record k r.bytes t.fyTag lines]) ∧
  (∀ (s : State) (k tag : Nat) (lines : List Nat), s.recordWaits k tag lines = false ↔
    (∀ w ∈ s.fyWait ++ s.fyOpen, w.1 < tag → w.2.1 = 0 ∧ w.2.2 ≠ 0) ∧ (∀ l ∈ lines, s.remotePending l = false) ∧ s.hostReady (lget s.rings k {}).slot 64 true = true) ∧
  ∀ (s : State) (k : Nat) (r : FaultRec), k < s.rings.length → s.devPend.any DevOp.isOwn = false →
    s.recordWaits k s.fyTag ((s.dir.map Prod.fst).filter s.remotePending) = false → r.bytes.length = 64 ∧
    (((lget s.rings k {}).size < 4 ∨ ((lget s.rings k {}).head - (lget s.rings k {}).tail).toNat = 2 ^ (lget s.rings k {}).size) →
      ∃ t : State, s.writeRecord k r = t ∧ lget t.rings k {} = { lget s.rings k {} with lost := (lget s.rings k {}).lost + 1#32 } ∧
        (∀ j, j ≠ k → lget t.rings j {} = lget s.rings j {}) ∧ t.mem = s.mem ∧ t.hmem = s.hmem ∧ t.wst = s.wst ∧ t.msix = s.msix ∧ t.units = s.units) ∧
    (4 ≤ (lget s.rings k {}).size → ((lget s.rings k {}).head - (lget s.rings k {}).tail).toNat ≠ 2 ^ (lget s.rings k {}).size →
      ∃ t : State, s.writeRecord k r = t ∧ lget t.rings k {} = { lget s.rings k {} with head := (lget s.rings k {}).head + 1#32 } ∧
        (∀ j, j ≠ k → lget t.rings j {} = lget s.rings j {}) ∧ t.msix = s.msix ++ [k] ∧ t.units = s.units ∧
        t.mem = (s.devWrite ((lget s.rings k {}).base + 64 * ((lget s.rings k {}).head.toNat % 2 ^ (lget s.rings k {}).size)) r.bytes).mem)
end

