-- ==== Sys2Proof/Laws/Lists.lean ====
section
/-! SUPPORT. Laws of the finite maps, lists and byte memories. -/

namespace Sys2Proof.Laws

open Sys2Proof Sys2Proof.Machine

/-! ### Finite maps -/

theorem aget_aset {κ α : Type} [DecidableEq κ] (l : List (κ × α)) (k k' : κ) (v : α) :
    aget (aset l k v) k' = if k = k' then some v else aget l k' := by
  induction l with
  | nil => simp [aset, aget]
  | cons p r ih =>
    obtain ⟨a, b⟩ := p
    by_cases ha : a = k
    · subst ha; by_cases h : a = k' <;> simp [aset, aget, h]
    · simp only [aset, if_neg ha, aget, ih]
      by_cases h : a = k'
      · subst h; simp [Ne.symm ha]
      · simp [h]

@[simp] theorem aget_aset_self {κ α : Type} [DecidableEq κ] (l : List (κ × α)) (k : κ) (v : α) : aget (aset l k v) k = some v := by
  simp [aget_aset]

theorem aget_aset_other {κ α : Type} [DecidableEq κ] (l : List (κ × α)) {k k' : κ} (v : α) (h : k ≠ k') :
    aget (aset l k v) k' = aget l k' := by
  simp [aget_aset, h]

@[simp] theorem aset_aset {κ α : Type} [DecidableEq κ] (l : List (κ × α)) (k : κ) (v w : α) : aset (aset l k v) k w = aset l k w := by
  induction l with
  | nil => simp [aset]
  | cons p r ih =>
    obtain ⟨a, b⟩ := p
    by_cases ha : a = k <;> simp [aset, ha, ih]

theorem agetD_aset {κ α : Type} [DecidableEq κ] (l : List (κ × α)) (k k' : κ) (v d : α) :
    agetD (aset l k v) k' d = if k = k' then v else agetD l k' d := by
  by_cases h : k = k' <;> simp [agetD, aget_aset, h]

/-! ### Lists by index -/

theorem lget_lput {α : Type} (d : α) (l : List α) (i j : Nat) (v : α) : lget (lput d l i v) j d = if j = i then v else lget l j d := by
  induction i generalizing l j with
  | zero => cases l <;> cases j <;> simp [lput, lget]
  | succ i ih => cases l <;> cases j <;> simp [lput, lget, ih]

theorem lget_lmod {α : Type} (d : α) (f : α → α) (l : List α) (i j : Nat) :
    lget (lmod l i f) j d = if j = i ∧ i < l.length then f (lget l j d) else lget l j d := by
  induction l generalizing i j with
  | nil => simp [lmod, lget]
  | cons x r ih => cases i <;> cases j <;> simp [lmod, lget, ih]

@[simp] theorem length_lmod {α : Type} (f : α → α) (l : List α) (i : Nat) : (lmod l i f).length = l.length := by
  induction l generalizing i with
  | nil => rfl
  | cons x r ih => cases i <;> simp [lmod, ih]

@[simp] theorem length_upFrom (a n : Nat) : (upFrom a n).length = n := by
  induction n generalizing a with
  | zero => rfl
  | succ n ih => simp [upFrom, ih]

theorem mem_upFrom (a n k : Nat) : k ∈ upFrom a n ↔ a ≤ k ∧ k < a + n := by
  induction n generalizing a with
  | zero => simp only [upFrom, List.not_mem_nil, false_iff]; omega
  | succ n ih => simp only [upFrom, List.mem_cons, ih]; omega

/-! ### Bytes -/

@[simp] theorem length_leBytes (n v : Nat) : (leBytes n v).length = n := by
  induction n generalizing v with
  | zero => rfl
  | succ n ih => simp [leBytes, ih]

/-- Writing the bytes of a number and reading them back gives its low bytes (R1). -/
theorem leNat_leBytes (n v : Nat) : leNat (leBytes n v) = v % 256 ^ n := by
  induction n generalizing v with
  | zero => simp [leBytes, leNat, Nat.mod_one]
  | succ n ih =>
    have h8 : (2 : Nat) ^ 8 = 256 := rfl
    rw [leBytes, leNat, ih, BitVec.toNat_ofNat, h8, Nat.pow_succ, Nat.mul_comm (256 ^ n) 256, Nat.mod_mul]

theorem leNat_lt (l : List Byte) : leNat l < 256 ^ l.length := by
  induction l with
  | nil => simp [leNat]
  | cons b r ih =>
    have hb : b.toNat < 256 := b.isLt
    simp only [leNat, List.length_cons, Nat.pow_succ]
    omega

/-! ### Memories -/

/-- Every address of `m` is above `k`; for a canonical memory its head decides. -/
def Above (k : Nat) (m : Memory) : Prop := ∀ p ∈ m, k < p.1

theorem wf_cons {a : Nat} {b : Byte} {r : Memory} : Memory.wf ((a, b) :: r) ↔ b ≠ Config.unlistedByte ∧ r.wf ∧ Above a r := by
  have key : ∀ (r : Memory) (a : Nat), r.wf →
      ((match r with | [] => true | (a', _) :: _ => decide (a < a')) = true ↔ Above a r) := by
    intro r
    induction r with
    | nil => intro a _; simp [Above]
    | cons p r ih =>
      obtain ⟨x, y⟩ := p
      intro a h
      simp only [Memory.wf, Memory.canon, Bool.and_eq_true, bne_iff_ne, ne_eq] at h
      have hr := (ih x h.1.2).1 h.2
      simp only [decide_eq_true_eq, Above, List.mem_cons, forall_eq_or_imp]
      exact ⟨fun hx => ⟨hx, fun q hq => Nat.lt_trans hx (hr q hq)⟩, fun hx => hx.1⟩
  simp only [Memory.wf, Memory.canon, Bool.and_eq_true, bne_iff_ne, ne_eq, and_assoc]
  constructor
  · rintro ⟨h1, h2, h3⟩; exact ⟨h1, h2, (key r a h2).1 h3⟩
  · rintro ⟨h1, h2, h3⟩; exact ⟨h1, h2, (key r a h2).2 h3⟩

theorem Above.wr {k a : Nat} {b : Byte} {m : Memory} (h : Above k m) (hk : k < a) : Above k (m.wr a b) := by
  induction m with
  | nil =>
    simp only [Memory.wr]
    split
    · exact h
    · intro p hp; simp at hp; subst hp; exact hk
  | cons q r ih =>
    obtain ⟨x, y⟩ := q
    have hr : Above k r := fun p hp => h p (List.mem_cons_of_mem _ hp)
    have hx : k < x := h (x, y) (by simp)
    have put : ∀ {l : Memory} {x : Nat} {y : Byte}, Above k l → k < x → Above k ((x, y) :: l) := by
      intro l x y hl hx p hp
      rcases List.mem_cons.1 hp with rfl | hp
      · exact hx
      · exact hl p hp
    simp only [Memory.wr]
    split
    · split
      · exact h
      · exact put h hk
    · split
      · split
        · exact hr
        · exact put hr hk
      · exact put (ih hr) hx

/-- A byte written keeps the canonical form. -/
theorem wf_wr {m : Memory} (h : m.wf) (a : Nat) (b : Byte) : (m.wr a b).wf := by
  induction m with
  | nil =>
    simp only [Memory.wr]
    split
    · exact h
    · next hb => exact wf_cons.2 ⟨hb, h, by simp [Above]⟩
  | cons q r ih =>
    obtain ⟨x, y⟩ := q
    obtain ⟨h1, h2, h3⟩ := wf_cons.1 h
    simp only [Memory.wr]
    split
    · next hax =>
      split
      · exact h
      · next hb =>
        refine wf_cons.2 ⟨hb, h, fun p hp => ?_⟩
        rcases List.mem_cons.1 hp with rfl | hp
        · exact hax
        · exact Nat.lt_trans hax (h3 p hp)
    · split
      · next hxa =>
        split
        · exact h2
        · next hb => subst hxa; exact wf_cons.2 ⟨hb, h2, h3⟩
      · exact wf_cons.2 ⟨h1, ih h2, h3.wr (by omega)⟩

/-- Bytes written keep the canonical form. -/
theorem wf_wrBytes {m : Memory} (h : m.wf) (a : Nat) (bs : List Byte) : (m.wrBytes a bs).wf := by
  induction bs generalizing m a with
  | nil => exact h
  | cons b r ih => exact ih (wf_wr h a b) (a + 1)

theorem wf_nil : Memory.wf [] := rfl

theorem rd_of_above {m : Memory} {a : Nat} (h : Above a m) : m.rd a = Config.unlistedByte := by
  cases m with
  | nil => rfl
  | cons q r =>
    obtain ⟨x, y⟩ := q
    have hx : a < x := h (x, y) (by simp)
    simp [Memory.rd, hx, Nat.ne_of_gt hx]

/-- What a write of one byte leaves to be read at any address. -/
theorem rd_wr {m : Memory} (h : m.wf) (a c : Nat) (b : Byte) : (m.wr a b).rd c = if c = a then b else m.rd c := by
  induction m with
  | nil =>
    simp only [Memory.wr]
    split
    · next hb => simp only [Memory.rd]; split <;> simp [hb]
    · simp only [Memory.rd]
      by_cases hc : c = a
      · simp [hc]
      · simp [hc, Ne.symm hc]
  | cons q r ih =>
    obtain ⟨x, y⟩ := q
    obtain ⟨h1, h2, h3⟩ := wf_cons.1 h
    simp only [Memory.wr]
    split
    · next hax =>
      split
      · next hb =>
        split
        · next hc => subst hc; simp [Memory.rd, hax, Nat.ne_of_gt hax, hb]
        · rfl
      · simp only [Memory.rd]
        split
        · next hc => simp [hc.symm]
        · next hc =>
          simp only [if_neg (fun e => hc e.symm : ¬ c = a)]
          split
          · next hca =>
            have h5 : x ≠ c := by omega
            have h6 : c < x := by omega
            simp [h5, h6]
          · rfl
    · next hax =>
      split
      · next hxa =>
        subst hxa
        split
        · next hb =>
          split
          · next hc => subst hc; rw [rd_of_above h3, hb]
          · next hc =>
            simp only [Memory.rd, if_neg (fun e => hc e.symm : ¬ x = c)]
            split
            · next hcx => exact rd_of_above (fun p hp => Nat.lt_trans hcx (h3 p hp))
            · rfl
        · by_cases hc : c = x
          · simp [Memory.rd, hc]
          · simp [Memory.rd, hc, Ne.symm hc]
      · next hxa =>
        simp only [Memory.rd, ih h2]
        by_cases hc : c = a
        · subst hc; simp [hax, hxa]
        · simp [hc]

theorem rd_wr_self {m : Memory} (h : m.wf) (a : Nat) (b : Byte) : (m.wr a b).rd a = b := by simp [rd_wr h]
theorem rd_wr_other {m : Memory} (h : m.wf) {a c : Nat} (b : Byte) (hc : c ≠ a) : (m.wr a b).rd c = m.rd c := by simp [rd_wr h, hc]

/-- What a write of bytes leaves to be read outside them. -/
theorem rd_wrBytes_other {m : Memory} (h : m.wf) (a c : Nat) (bs : List Byte) (hc : c < a ∨ a + bs.length ≤ c) :
    (m.wrBytes a bs).rd c = m.rd c := by
  induction bs generalizing m a with
  | nil => rfl
  | cons b r ih =>
    simp only [List.length_cons] at hc
    rw [Memory.wrBytes, ih (wf_wr h a b) (a + 1) (by omega), rd_wr_other h b (by omega)]

/-- What a write of bytes leaves to be read in them. -/
theorem rd_wrBytes_in {m : Memory} (h : m.wf) (a i : Nat) (bs : List Byte) (hi : i < bs.length) :
    (m.wrBytes a bs).rd (a + i) = lget bs i 0#8 := by
  induction bs generalizing m a i with
  | nil => simp at hi
  | cons b r ih =>
    cases i with
    | zero =>
      rw [Memory.wrBytes, rd_wrBytes_other (wf_wr h a b) (a + 1) _ r (by omega)]
      simpa [lget] using rd_wr_self h a b
    | succ i =>
      have := ih (wf_wr h a b) (a + 1) i (by simpa using hi)
      rw [Memory.wrBytes, lget, ← this]; congr 1; omega

end Sys2Proof.Laws
end

