-- ==== Sys2Proof/Laws/PerInstr.lean ====
section
/-! SUPPORT. Laws stated of every instruction as syntax, one lemma for each constructor. -/

namespace Sys2Proof.Laws

/-- Every instruction stands in exactly one place (R140, R147, R153): it is a PE word, a control word, an engine command or an event;
the encoders answer for exactly those that have words. -/
def OneKind.Statement (i : Instr) : Prop :=
  (encode i).isSome = (i.isPe || i.isCtl) ∧ (encodeCmd i).isSome = i.isCmd ∧
    ([i.isPe, i.isCtl, i.isCmd, i.isEvent].filter id).length = 1

theorem OneKind.ill (w : PeWord) : OneKind.Statement (.ill w) := ⟨rfl, rfl, rfl⟩
theorem OneKind.add (w : PeWord) : OneKind.Statement (.add w) := ⟨rfl, rfl, rfl⟩
theorem OneKind.sub (w : PeWord) : OneKind.Statement (.sub w) := ⟨rfl, rfl, rfl⟩
theorem OneKind.neg (w : PeWord) : OneKind.Statement (.neg w) := ⟨rfl, rfl, rfl⟩
theorem OneKind.mul (w : PeWord) : OneKind.Statement (.mul w) := ⟨rfl, rfl, rfl⟩
theorem OneKind.mulh (w : PeWord) : OneKind.Statement (.mulh w) := ⟨rfl, rfl, rfl⟩
theorem OneKind.madd (w : PeWord) : OneKind.Statement (.madd w) := ⟨rfl, rfl, rfl⟩
theorem OneKind.div (w : PeWord) : OneKind.Statement (.div w) := ⟨rfl, rfl, rfl⟩
theorem OneKind.rem (w : PeWord) : OneKind.Statement (.rem w) := ⟨rfl, rfl, rfl⟩
theorem OneKind.min (w : PeWord) : OneKind.Statement (.min w) := ⟨rfl, rfl, rfl⟩
theorem OneKind.max (w : PeWord) : OneKind.Statement (.max w) := ⟨rfl, rfl, rfl⟩
theorem OneKind.abs (w : PeWord) : OneKind.Statement (.abs w) := ⟨rfl, rfl, rfl⟩
theorem OneKind.absd (w : PeWord) : OneKind.Statement (.absd w) := ⟨rfl, rfl, rfl⟩
theorem OneKind.adds (w : PeWord) : OneKind.Statement (.adds w) := ⟨rfl, rfl, rfl⟩
theorem OneKind.subs (w : PeWord) : OneKind.Statement (.subs w) := ⟨rfl, rfl, rfl⟩
theorem OneKind.cmp (w : PeWord) : OneKind.Statement (.cmp w) := ⟨rfl, rfl, rfl⟩
theorem OneKind.and (w : PeWord) : OneKind.Statement (.and w) := ⟨rfl, rfl, rfl⟩
theorem OneKind.or (w : PeWord) : OneKind.Statement (.or w) := ⟨rfl, rfl, rfl⟩
theorem OneKind.xor (w : PeWord) : OneKind.Statement (.xor w) := ⟨rfl, rfl, rfl⟩
theorem OneKind.andn (w : PeWord) : OneKind.Statement (.andn w) := ⟨rfl, rfl, rfl⟩
theorem OneKind.not (w : PeWord) : OneKind.Statement (.not w) := ⟨rfl, rfl, rfl⟩
theorem OneKind.shl (w : PeWord) : OneKind.Statement (.shl w) := ⟨rfl, rfl, rfl⟩
theorem OneKind.shr (w : PeWord) : OneKind.Statement (.shr w) := ⟨rfl, rfl, rfl⟩
theorem OneKind.sra (w : PeWord) : OneKind.Statement (.sra w) := ⟨rfl, rfl, rfl⟩
theorem OneKind.rot (w : PeWord) : OneKind.Statement (.rot w) := ⟨rfl, rfl, rfl⟩
theorem OneKind.clz (w : PeWord) : OneKind.Statement (.clz w) := ⟨rfl, rfl, rfl⟩
theorem OneKind.ctz (w : PeWord) : OneKind.Statement (.ctz w) := ⟨rfl, rfl, rfl⟩
theorem OneKind.popc (w : PeWord) : OneKind.Statement (.popc w) := ⟨rfl, rfl, rfl⟩
theorem OneKind.bext (w : PeWord) : OneKind.Statement (.bext w) := ⟨rfl, rfl, rfl⟩
theorem OneKind.bins (w : PeWord) : OneKind.Statement (.bins w) := ⟨rfl, rfl, rfl⟩
theorem OneKind.sext (w : PeWord) : OneKind.Statement (.sext w) := ⟨rfl, rfl, rfl⟩
theorem OneKind.zext (w : PeWord) : OneKind.Statement (.zext w) := ⟨rfl, rfl, rfl⟩
theorem OneKind.lea (w : PeWord) : OneKind.Statement (.lea w) := ⟨rfl, rfl, rfl⟩
theorem OneKind.bchk (w : PeWord) : OneKind.Statement (.bchk w) := ⟨rfl, rfl, rfl⟩
theorem OneKind.sel (w : PeWord) : OneKind.Statement (.sel w) := ⟨rfl, rfl, rfl⟩
theorem OneKind.move (w : PeWord) : OneKind.Statement (.move w) := ⟨rfl, rfl, rfl⟩
theorem OneKind.constFree (w : PeWord) : OneKind.Statement (.constFree w) := ⟨rfl, rfl, rfl⟩
theorem OneKind.constTriggered (w : PeWord) : OneKind.Statement (.constTriggered w) := ⟨rfl, rfl, rfl⟩
theorem OneKind.invOp (w : PeWord) : OneKind.Statement (.invOp w) := ⟨rfl, rfl, rfl⟩
theorem OneKind.steer (w : PeWord) : OneKind.Statement (.steer w) := ⟨rfl, rfl, rfl⟩
theorem OneKind.merge (w : PeWord) : OneKind.Statement (.merge w) := ⟨rfl, rfl, rfl⟩
theorem OneKind.wadv (w : PeWord) : OneKind.Statement (.wadv w) := ⟨rfl, rfl, rfl⟩
theorem OneKind.tagnew (w : PeWord) : OneKind.Statement (.tagnew w) := ⟨rfl, rfl, rfl⟩
theorem OneKind.tagxl (w : PeWord) : OneKind.Statement (.tagxl w) := ⟨rfl, rfl, rfl⟩
theorem OneKind.tagend (w : PeWord) : OneKind.Statement (.tagend w) := ⟨rfl, rfl, rfl⟩
theorem OneKind.cntrSource (w : PeWord) : OneKind.Statement (.cntrSource w) := ⟨rfl, rfl, rfl⟩
theorem OneKind.cntrTriggered (w : PeWord) : OneKind.Statement (.cntrTriggered w) := ⟨rfl, rfl, rfl⟩
theorem OneKind.color (w : PeWord) : OneKind.Statement (.color w) := ⟨rfl, rfl, rfl⟩
theorem OneKind.commit (w : PeWord) : OneKind.Statement (.commit w) := ⟨rfl, rfl, rfl⟩
theorem OneKind.kill (w : PeWord) : OneKind.Statement (.kill w) := ⟨rfl, rfl, rfl⟩
theorem OneKind.gate (w : PeWord) : OneKind.Statement (.gate w) := ⟨rfl, rfl, rfl⟩
theorem OneKind.sink (w : PeWord) : OneKind.Statement (.sink w) := ⟨rfl, rfl, rfl⟩
theorem OneKind.scaletok (w : PeWord) : OneKind.Statement (.scaletok w) := ⟨rfl, rfl, rfl⟩
theorem OneKind.waitf (w : PeWord) : OneKind.Statement (.waitf w) := ⟨rfl, rfl, rfl⟩
theorem OneKind.sete (w : PeWord) : OneKind.Statement (.sete w) := ⟨rfl, rfl, rfl⟩
theorem OneKind.fadd (w : PeWord) : OneKind.Statement (.fadd w) := ⟨rfl, rfl, rfl⟩
theorem OneKind.fsub (w : PeWord) : OneKind.Statement (.fsub w) := ⟨rfl, rfl, rfl⟩
theorem OneKind.fmul (w : PeWord) : OneKind.Statement (.fmul w) := ⟨rfl, rfl, rfl⟩
theorem OneKind.fma (w : PeWord) : OneKind.Statement (.fma w) := ⟨rfl, rfl, rfl⟩
theorem OneKind.fms (w : PeWord) : OneKind.Statement (.fms w) := ⟨rfl, rfl, rfl⟩
theorem OneKind.fnma (w : PeWord) : OneKind.Statement (.fnma w) := ⟨rfl, rfl, rfl⟩
theorem OneKind.fmin (w : PeWord) : OneKind.Statement (.fmin w) := ⟨rfl, rfl, rfl⟩
theorem OneKind.fmax (w : PeWord) : OneKind.Statement (.fmax w) := ⟨rfl, rfl, rfl⟩
theorem OneKind.fabs (w : PeWord) : OneKind.Statement (.fabs w) := ⟨rfl, rfl, rfl⟩
theorem OneKind.fneg (w : PeWord) : OneKind.Statement (.fneg w) := ⟨rfl, rfl, rfl⟩
theorem OneKind.fcmp (w : PeWord) : OneKind.Statement (.fcmp w) := ⟨rfl, rfl, rfl⟩
theorem OneKind.fdiv (w : PeWord) : OneKind.Statement (.fdiv w) := ⟨rfl, rfl, rfl⟩
theorem OneKind.fsqrt (w : PeWord) : OneKind.Statement (.fsqrt w) := ⟨rfl, rfl, rfl⟩
theorem OneKind.frcpe (w : PeWord) : OneKind.Statement (.frcpe w) := ⟨rfl, rfl, rfl⟩
theorem OneKind.frsqe (w : PeWord) : OneKind.Statement (.frsqe w) := ⟨rfl, rfl, rfl⟩
theorem OneKind.fclass (w : PeWord) : OneKind.Statement (.fclass w) := ⟨rfl, rfl, rfl⟩
theorem OneKind.fcvt (w : PeWord) : OneKind.Statement (.fcvt w) := ⟨rfl, rfl, rfl⟩
theorem OneKind.fcvtTile (w : PeWord) : OneKind.Statement (.fcvtTile w) := ⟨rfl, rfl, rfl⟩
theorem OneKind.ftoi (w : PeWord) : OneKind.Statement (.ftoi w) := ⟨rfl, rfl, rfl⟩
theorem OneKind.itof (w : PeWord) : OneKind.Statement (.itof w) := ⟨rfl, rfl, rfl⟩
theorem OneKind.frnd (w : PeWord) : OneKind.Statement (.frnd w) := ⟨rfl, rfl, rfl⟩
theorem OneKind.cbd (w : PeWord) : OneKind.Statement (.cbd w) := ⟨rfl, rfl, rfl⟩
theorem OneKind.cbe (w : PeWord) : OneKind.Statement (.cbe w) := ⟨rfl, rfl, rfl⟩
theorem OneKind.lsum (w : PeWord) : OneKind.Statement (.lsum w) := ⟨rfl, rfl, rfl⟩
theorem OneKind.ldot (w : PeWord) : OneKind.Statement (.ldot w) := ⟨rfl, rfl, rfl⟩
theorem OneKind.lbc (w : PeWord) : OneKind.Statement (.lbc w) := ⟨rfl, rfl, rfl⟩
theorem OneKind.lshuf (w : PeWord) : OneKind.Statement (.lshuf w) := ⟨rfl, rfl, rfl⟩
theorem OneKind.lpack (w : PeWord) : OneKind.Statement (.lpack w) := ⟨rfl, rfl, rfl⟩
theorem OneKind.lunpk (w : PeWord) : OneKind.Statement (.lunpk w) := ⟨rfl, rfl, rfl⟩
theorem OneKind.lext (w : PeWord) : OneKind.Statement (.lext w) := ⟨rfl, rfl, rfl⟩
theorem OneKind.lins (w : PeWord) : OneKind.Statement (.lins w) := ⟨rfl, rfl, rfl⟩
theorem OneKind.lred (w : PeWord) : OneKind.Statement (.lred w) := ⟨rfl, rfl, rfl⟩
theorem OneKind.fscale (w : PeWord) : OneKind.Statement (.fscale w) := ⟨rfl, rfl, rfl⟩
theorem OneKind.ld (w : PeWord) : OneKind.Statement (.ld w) := ⟨rfl, rfl, rfl⟩
theorem OneKind.st (w : PeWord) : OneKind.Statement (.st w) := ⟨rfl, rfl, rfl⟩
theorem OneKind.ldlk (w : PeWord) : OneKind.Statement (.ldlk w) := ⟨rfl, rfl, rfl⟩
theorem OneKind.pref (w : PeWord) : OneKind.Statement (.pref w) := ⟨rfl, rfl, rfl⟩
theorem OneKind.span (w : PeWord) : OneKind.Statement (.span w) := ⟨rfl, rfl, rfl⟩
theorem OneKind.ldsp (w : PeWord) : OneKind.Statement (.ldsp w) := ⟨rfl, rfl, rfl⟩
theorem OneKind.stsp (w : PeWord) : OneKind.Statement (.stsp w) := ⟨rfl, rfl, rfl⟩
theorem OneKind.ldws (w : PeWord) : OneKind.Statement (.ldws w) := ⟨rfl, rfl, rfl⟩
theorem OneKind.amo (w : PeWord) : OneKind.Statement (.amo w) := ⟨rfl, rfl, rfl⟩
theorem OneKind.amx (w : PeWord) : OneKind.Statement (.amx w) := ⟨rfl, rfl, rfl⟩
theorem OneKind.red (w : PeWord) : OneKind.Statement (.red w) := ⟨rfl, rfl, rfl⟩
theorem OneKind.fence (w : PeWord) : OneKind.Statement (.fence w) := ⟨rfl, rfl, rfl⟩
theorem OneKind.flushr (w : PeWord) : OneKind.Statement (.flushr w) := ⟨rfl, rfl, rfl⟩
theorem OneKind.memnop (w : PeWord) : OneKind.Statement (.memnop w) := ⟨rfl, rfl, rfl⟩
theorem OneKind.lda (w : PeWord) : OneKind.Statement (.lda w) := ⟨rfl, rfl, rfl⟩
theorem OneKind.stl (w : PeWord) : OneKind.Statement (.stl w) := ⟨rfl, rfl, rfl⟩
theorem OneKind.ldxs (w : PeWord) : OneKind.Statement (.ldxs w) := ⟨rfl, rfl, rfl⟩
theorem OneKind.stxs (w : PeWord) : OneKind.Statement (.stxs w) := ⟨rfl, rfl, rfl⟩
theorem OneKind.mmul (w : PeWord) : OneKind.Statement (.mmul w) := ⟨rfl, rfl, rfl⟩
theorem OneKind.mdrn (w : PeWord) : OneKind.Statement (.mdrn w) := ⟨rfl, rfl, rfl⟩
theorem OneKind.mdrnZero (w : PeWord) : OneKind.Statement (.mdrnZero w) := ⟨rfl, rfl, rfl⟩
theorem OneKind.mdrnMem (w : PeWord) : OneKind.Statement (.mdrnMem w) := ⟨rfl, rfl, rfl⟩
theorem OneKind.mbld (w : PeWord) : OneKind.Statement (.mbld w) := ⟨rfl, rfl, rfl⟩
theorem OneKind.send (w : PeWord) : OneKind.Statement (.send w) := ⟨rfl, rfl, rfl⟩
theorem OneKind.ttq (w : PeWord) : OneKind.Statement (.ttq w) := ⟨rfl, rfl, rfl⟩
theorem OneKind.hoff (w : PeWord) : OneKind.Statement (.hoff w) := ⟨rfl, rfl, rfl⟩
theorem OneKind.hwait (w : PeWord) : OneKind.Statement (.hwait w) := ⟨rfl, rfl, rfl⟩
theorem OneKind.trap (w : PeWord) : OneKind.Statement (.trap w) := ⟨rfl, rfl, rfl⟩
theorem OneKind.brk (w : PeWord) : OneKind.Statement (.brk w) := ⟨rfl, rfl, rfl⟩
theorem OneKind.rdctr (w : PeWord) : OneKind.Statement (.rdctr w) := ⟨rfl, rfl, rfl⟩
theorem OneKind.rdst (w : PeWord) : OneKind.Statement (.rdst w) := ⟨rfl, rfl, rfl⟩
theorem OneKind.wrst (w : PeWord) : OneKind.Statement (.wrst w) := ⟨rfl, rfl, rfl⟩
theorem OneKind.unassignedOpc (opc : BitVec 7) (w : PeWord) : OneKind.Statement (.unassignedOpc opc w) := ⟨rfl, rfl, rfl⟩
theorem OneKind.seqAdd (c : CWord) : OneKind.Statement (.seqAdd c) := ⟨rfl, rfl, rfl⟩
theorem OneKind.seqSub (c : CWord) : OneKind.Statement (.seqSub c) := ⟨rfl, rfl, rfl⟩
theorem OneKind.seqAnd (c : CWord) : OneKind.Statement (.seqAnd c) := ⟨rfl, rfl, rfl⟩
theorem OneKind.seqOr (c : CWord) : OneKind.Statement (.seqOr c) := ⟨rfl, rfl, rfl⟩
theorem OneKind.seqXor (c : CWord) : OneKind.Statement (.seqXor c) := ⟨rfl, rfl, rfl⟩
theorem OneKind.seqShl (c : CWord) : OneKind.Statement (.seqShl c) := ⟨rfl, rfl, rfl⟩
theorem OneKind.seqShr (c : CWord) : OneKind.Statement (.seqShr c) := ⟨rfl, rfl, rfl⟩
theorem OneKind.seqSra (c : CWord) : OneKind.Statement (.seqSra c) := ⟨rfl, rfl, rfl⟩
theorem OneKind.seqMul (c : CWord) : OneKind.Statement (.seqMul c) := ⟨rfl, rfl, rfl⟩
theorem OneKind.seqMulh (c : CWord) : OneKind.Statement (.seqMulh c) := ⟨rfl, rfl, rfl⟩
theorem OneKind.seqDiv (c : CWord) : OneKind.Statement (.seqDiv c) := ⟨rfl, rfl, rfl⟩
theorem OneKind.seqRem (c : CWord) : OneKind.Statement (.seqRem c) := ⟨rfl, rfl, rfl⟩
theorem OneKind.slt (c : CWord) : OneKind.Statement (.slt c) := ⟨rfl, rfl, rfl⟩
theorem OneKind.sltu (c : CWord) : OneKind.Statement (.sltu c) := ⟨rfl, rfl, rfl⟩
theorem OneKind.seqMin (c : CWord) : OneKind.Statement (.seqMin c) := ⟨rfl, rfl, rfl⟩
theorem OneKind.seqMax (c : CWord) : OneKind.Statement (.seqMax c) := ⟨rfl, rfl, rfl⟩
theorem OneKind.addi (c : CWord) : OneKind.Statement (.addi c) := ⟨rfl, rfl, rfl⟩
theorem OneKind.andi (c : CWord) : OneKind.Statement (.andi c) := ⟨rfl, rfl, rfl⟩
theorem OneKind.ori (c : CWord) : OneKind.Statement (.ori c) := ⟨rfl, rfl, rfl⟩
theorem OneKind.xori (c : CWord) : OneKind.Statement (.xori c) := ⟨rfl, rfl, rfl⟩
theorem OneKind.shli (c : CWord) : OneKind.Statement (.shli c) := ⟨rfl, rfl, rfl⟩
theorem OneKind.shri (c : CWord) : OneKind.Statement (.shri c) := ⟨rfl, rfl, rfl⟩
theorem OneKind.srai (c : CWord) : OneKind.Statement (.srai c) := ⟨rfl, rfl, rfl⟩
theorem OneKind.ldhi (c : CWord) : OneKind.Statement (.ldhi c) := ⟨rfl, rfl, rfl⟩
theorem OneKind.slti (c : CWord) : OneKind.Statement (.slti c) := ⟨rfl, rfl, rfl⟩
theorem OneKind.ldg (c : CWord) : OneKind.Statement (.ldg c) := ⟨rfl, rfl, rfl⟩
theorem OneKind.stg (c : CWord) : OneKind.Statement (.stg c) := ⟨rfl, rfl, rfl⟩
theorem OneKind.amog (c : CWord) : OneKind.Statement (.amog c) := ⟨rfl, rfl, rfl⟩
theorem OneKind.beq (c : CWord) : OneKind.Statement (.beq c) := ⟨rfl, rfl, rfl⟩
theorem OneKind.bne (c : CWord) : OneKind.Statement (.bne c) := ⟨rfl, rfl, rfl⟩
theorem OneKind.blt (c : CWord) : OneKind.Statement (.blt c) := ⟨rfl, rfl, rfl⟩
theorem OneKind.bge (c : CWord) : OneKind.Statement (.bge c) := ⟨rfl, rfl, rfl⟩
theorem OneKind.bltu (c : CWord) : OneKind.Statement (.bltu c) := ⟨rfl, rfl, rfl⟩
theorem OneKind.bgeu (c : CWord) : OneKind.Statement (.bgeu c) := ⟨rfl, rfl, rfl⟩
theorem OneKind.jal (c : CWord) : OneKind.Statement (.jal c) := ⟨rfl, rfl, rfl⟩
theorem OneKind.jr (c : CWord) : OneKind.Statement (.jr c) := ⟨rfl, rfl, rfl⟩
theorem OneKind.cfgl (c : CWord) : OneKind.Statement (.cfgl c) := ⟨rfl, rfl, rfl⟩
theorem OneKind.cfgs (c : CWord) : OneKind.Statement (.cfgs c) := ⟨rfl, rfl, rfl⟩
theorem OneKind.qwait (c : CWord) : OneKind.Statement (.qwait c) := ⟨rfl, rfl, rfl⟩
theorem OneKind.gateo (c : CWord) : OneKind.Statement (.gateo c) := ⟨rfl, rfl, rfl⟩
theorem OneKind.gatec (c : CWord) : OneKind.Statement (.gatec c) := ⟨rfl, rfl, rfl⟩
theorem OneKind.iset (c : CWord) : OneKind.Statement (.iset c) := ⟨rfl, rfl, rfl⟩
theorem OneKind.inj (c : CWord) : OneKind.Statement (.inj c) := ⟨rfl, rfl, rfl⟩
theorem OneKind.extr (c : CWord) : OneKind.Statement (.extr c) := ⟨rfl, rfl, rfl⟩
theorem OneKind.bankr (c : CWord) : OneKind.Statement (.bankr c) := ⟨rfl, rfl, rfl⟩
theorem OneKind.resz (c : CWord) : OneKind.Statement (.resz c) := ⟨rfl, rfl, rfl⟩
theorem OneKind.hoffs (c : CWord) : OneKind.Statement (.hoffs c) := ⟨rfl, rfl, rfl⟩
theorem OneKind.hwaits (c : CWord) : OneKind.Statement (.hwaits c) := ⟨rfl, rfl, rfl⟩
theorem OneKind.post (c : CWord) : OneKind.Statement (.post c) := ⟨rfl, rfl, rfl⟩
theorem OneKind.cancl (c : CWord) : OneKind.Statement (.cancl c) := ⟨rfl, rfl, rfl⟩
theorem OneKind.yield (c : CWord) : OneKind.Statement (.yield c) := ⟨rfl, rfl, rfl⟩
theorem OneKind.wfe (c : CWord) : OneKind.Statement (.wfe c) := ⟨rfl, rfl, rfl⟩
theorem OneKind.trapc (c : CWord) : OneKind.Statement (.trapc c) := ⟨rfl, rfl, rfl⟩
theorem OneKind.eret (c : CWord) : OneKind.Statement (.eret c) := ⟨rfl, rfl, rfl⟩
theorem OneKind.mfs (c : CWord) : OneKind.Statement (.mfs c) := ⟨rfl, rfl, rfl⟩
theorem OneKind.mts (c : CWord) : OneKind.Statement (.mts c) := ⟨rfl, rfl, rfl⟩
theorem OneKind.fenceg (c : CWord) : OneKind.Statement (.fenceg c) := ⟨rfl, rfl, rfl⟩
theorem OneKind.sendc (c : CWord) : OneKind.Statement (.sendc c) := ⟨rfl, rfl, rfl⟩
theorem OneKind.ttqc (c : CWord) : OneKind.Statement (.ttqc c) := ⟨rfl, rfl, rfl⟩
theorem OneKind.gnudge (c : CWord) : OneKind.Statement (.gnudge c) := ⟨rfl, rfl, rfl⟩
theorem OneKind.done (c : CWord) : OneKind.Statement (.done c) := ⟨rfl, rfl, rfl⟩
theorem OneKind.nopc (c : CWord) : OneKind.Statement (.nopc c) := ⟨rfl, rfl, rfl⟩
theorem OneKind.reservedControlOpcode (op : BitVec 6) (c : CWord) : OneKind.Statement (.reservedControlOpcode op c) := ⟨rfl, rfl, rfl⟩
theorem OneKind.cmdMbld (m : Message) : OneKind.Statement (.cmdMbld m) := ⟨rfl, rfl, rfl⟩
theorem OneKind.cmdMmul (m : Message) : OneKind.Statement (.cmdMmul m) := ⟨rfl, rfl, rfl⟩
theorem OneKind.macc (m : Message) : OneKind.Statement (.macc m) := ⟨rfl, rfl, rfl⟩
theorem OneKind.cmdMdrn (m : Message) : OneKind.Statement (.cmdMdrn m) := ⟨rfl, rfl, rfl⟩
theorem OneKind.mqnt (m : Message) : OneKind.Statement (.mqnt m) := ⟨rfl, rfl, rfl⟩
theorem OneKind.mzer (m : Message) : OneKind.Statement (.mzer m) := ⟨rfl, rfl, rfl⟩
theorem OneKind.mcbt (m : Message) : OneKind.Statement (.mcbt m) := ⟨rfl, rfl, rfl⟩
theorem OneKind.mgrp (m : Message) : OneKind.Statement (.mgrp m) := ⟨rfl, rfl, rfl⟩
theorem OneKind.cpy (m : Message) : OneKind.Statement (.cpy m) := ⟨rfl, rfl, rfl⟩
theorem OneKind.cpy2d (m : Message) : OneKind.Statement (.cpy2d m) := ⟨rfl, rfl, rfl⟩
theorem OneKind.fill (m : Message) : OneKind.Statement (.fill m) := ⟨rfl, rfl, rfl⟩
theorem OneKind.wsfl (m : Message) : OneKind.Statement (.wsfl m) := ⟨rfl, rfl, rfl⟩
theorem OneKind.cpyxs (m : Message) : OneKind.Statement (.cpyxs m) := ⟨rfl, rfl, rfl⟩
theorem OneKind.gth (m : Message) : OneKind.Statement (.gth m) := ⟨rfl, rfl, rfl⟩
theorem OneKind.sct (m : Message) : OneKind.Statement (.sct m) := ⟨rfl, rfl, rfl⟩
theorem OneKind.scta (m : Message) : OneKind.Statement (.scta m) := ⟨rfl, rfl, rfl⟩
theorem OneKind.gthxs (m : Message) : OneKind.Statement (.gthxs m) := ⟨rfl, rfl, rfl⟩
theorem OneKind.cred (m : Message) : OneKind.Statement (.cred m) := ⟨rfl, rfl, rfl⟩
theorem OneKind.cagt (m : Message) : OneKind.Statement (.cagt m) := ⟨rfl, rfl, rfl⟩
theorem OneKind.crsc (m : Message) : OneKind.Statement (.crsc m) := ⟨rfl, rfl, rfl⟩
theorem OneKind.cbcs (m : Message) : OneKind.Statement (.cbcs m) := ⟨rfl, rfl, rfl⟩
theorem OneKind.cbar (m : Message) : OneKind.Statement (.cbar m) := ⟨rfl, rfl, rfl⟩
theorem OneKind.moduleReset : OneKind.Statement .moduleReset := ⟨rfl, rfl, rfl⟩
theorem OneKind.hostLinkTraining : OneKind.Statement .hostLinkTraining := ⟨rfl, rfl, rfl⟩
theorem OneKind.tokenArrival : OneKind.Statement .tokenArrival := ⟨rfl, rfl, rfl⟩
theorem OneKind.headTokenToMatchingStore : OneKind.Statement .headTokenToMatchingStore := ⟨rfl, rfl, rfl⟩
theorem OneKind.matchingStoreRefill : OneKind.Statement .matchingStoreRefill := ⟨rfl, rfl, rfl⟩
theorem OneKind.waveHoldRelease : OneKind.Statement .waveHoldRelease := ⟨rfl, rfl, rfl⟩
theorem OneKind.tagnewWaitEnd : OneKind.Statement .tagnewWaitEnd := ⟨rfl, rfl, rfl⟩
theorem OneKind.colourRelease : OneKind.Statement .colourRelease := ⟨rfl, rfl, rfl⟩
theorem OneKind.commitTokenPass : OneKind.Statement .commitTokenPass := ⟨rfl, rfl, rfl⟩
theorem OneKind.quiescenceReport : OneKind.Statement .quiescenceReport := ⟨rfl, rfl, rfl⟩
theorem OneKind.storeBufferIssue : OneKind.Statement .storeBufferIssue := ⟨rfl, rfl, rfl⟩
theorem OneKind.gets : OneKind.Statement .gets := ⟨rfl, rfl, rfl⟩
theorem OneKind.getm : OneKind.Statement .getm := ⟨rfl, rfl, rfl⟩
theorem OneKind.upg : OneKind.Statement .upg := ⟨rfl, rfl, rfl⟩
theorem OneKind.putm : OneKind.Statement .putm := ⟨rfl, rfl, rfl⟩
theorem OneKind.pute : OneKind.Statement .pute := ⟨rfl, rfl, rfl⟩
theorem OneKind.puts : OneKind.Statement .puts := ⟨rfl, rfl, rfl⟩
theorem OneKind.inv : OneKind.Statement .inv := ⟨rfl, rfl, rfl⟩
theorem OneKind.fwds : OneKind.Statement .fwds := ⟨rfl, rfl, rfl⟩
theorem OneKind.fwdm : OneKind.Statement .fwdm := ⟨rfl, rfl, rfl⟩
theorem OneKind.data : OneKind.Statement .data := ⟨rfl, rfl, rfl⟩
theorem OneKind.ack : OneKind.Statement .ack := ⟨rfl, rfl, rfl⟩
theorem OneKind.wack : OneKind.Statement .wack := ⟨rfl, rfl, rfl⟩
theorem OneKind.homeStore : OneKind.Statement .homeStore := ⟨rfl, rfl, rfl⟩
theorem OneKind.syncAccessAtHome : OneKind.Statement .syncAccessAtHome := ⟨rfl, rfl, rfl⟩
theorem OneKind.amoMerge : OneKind.Statement .amoMerge := ⟨rfl, rfl, rfl⟩
theorem OneKind.redRoundComplete : OneKind.Statement .redRoundComplete := ⟨rfl, rfl, rfl⟩
theorem OneKind.collectiveRoundComplete : OneKind.Statement .collectiveRoundComplete := ⟨rfl, rfl, rfl⟩
theorem OneKind.hostReadShared : OneKind.Statement .hostReadShared := ⟨rfl, rfl, rfl⟩
theorem OneKind.hostReadOwnership : OneKind.Statement .hostReadOwnership := ⟨rfl, rfl, rfl⟩
theorem OneKind.hostWriteback : OneKind.Statement .hostWriteback := ⟨rfl, rfl, rfl⟩
theorem OneKind.hostEvictClean : OneKind.Statement .hostEvictClean := ⟨rfl, rfl, rfl⟩
theorem OneKind.biconflict : OneKind.Statement .biconflict := ⟨rfl, rfl, rfl⟩
theorem OneKind.fyronPacketReceive : OneKind.Statement .fyronPacketReceive := ⟨rfl, rfl, rfl⟩
theorem OneKind.laneFailure : OneKind.Statement .laneFailure := ⟨rfl, rfl, rfl⟩
theorem OneKind.refreshWindowEnd : OneKind.Statement .refreshWindowEnd := ⟨rfl, rfl, rfl⟩
theorem OneKind.handoffPush : OneKind.Statement .handoffPush := ⟨rfl, rfl, rfl⟩
theorem OneKind.matrixIssue : OneKind.Statement .matrixIssue := ⟨rfl, rfl, rfl⟩
theorem OneKind.matrixRetire : OneKind.Statement .matrixRetire := ⟨rfl, rfl, rfl⟩
theorem OneKind.engineReply : OneKind.Statement .engineReply := ⟨rfl, rfl, rfl⟩
theorem OneKind.handlerBusyTimeout : OneKind.Statement .handlerBusyTimeout := ⟨rfl, rfl, rfl⟩
theorem OneKind.tileTaskStart : OneKind.Statement .tileTaskStart := ⟨rfl, rfl, rfl⟩
theorem OneKind.tileTaskBlockDone : OneKind.Statement .tileTaskBlockDone := ⟨rfl, rfl, rfl⟩
theorem OneKind.unitStart : OneKind.Statement .unitStart := ⟨rfl, rfl, rfl⟩
theorem OneKind.unitPlacement : OneKind.Statement .unitPlacement := ⟨rfl, rfl, rfl⟩
theorem OneKind.quantumExpiry : OneKind.Statement .quantumExpiry := ⟨rfl, rfl, rfl⟩
theorem OneKind.preemptRequest : OneKind.Statement .preemptRequest := ⟨rfl, rfl, rfl⟩
theorem OneKind.drainComplete : OneKind.Statement .drainComplete := ⟨rfl, rfl, rfl⟩
theorem OneKind.drainOverrun : OneKind.Statement .drainOverrun := ⟨rfl, rfl, rfl⟩
theorem OneKind.unitRestore : OneKind.Statement .unitRestore := ⟨rfl, rfl, rfl⟩
theorem OneKind.deadlineMissed : OneKind.Statement .deadlineMissed := ⟨rfl, rfl, rfl⟩
theorem OneKind.watchdogExpiry : OneKind.Statement .watchdogExpiry := ⟨rfl, rfl, rfl⟩
theorem OneKind.migration : OneKind.Statement .migration := ⟨rfl, rfl, rfl⟩
theorem OneKind.nodeEvaluate : OneKind.Statement .nodeEvaluate := ⟨rfl, rfl, rfl⟩
theorem OneKind.launchPoolAdmit : OneKind.Statement .launchPoolAdmit := ⟨rfl, rfl, rfl⟩
theorem OneKind.phaseCurrent : OneKind.Statement .phaseCurrent := ⟨rfl, rfl, rfl⟩
theorem OneKind.phaseRun : OneKind.Statement .phaseRun := ⟨rfl, rfl, rfl⟩
theorem OneKind.phaseEnd : OneKind.Statement .phaseEnd := ⟨rfl, rfl, rfl⟩
theorem OneKind.kickRegisterWrite : OneKind.Statement .kickRegisterWrite := ⟨rfl, rfl, rfl⟩
theorem OneKind.kickStatusClear : OneKind.Statement .kickStatusClear := ⟨rfl, rfl, rfl⟩
theorem OneKind.kick : OneKind.Statement .kick := ⟨rfl, rfl, rfl⟩
theorem OneKind.kickPatchApply : OneKind.Statement .kickPatchApply := ⟨rfl, rfl, rfl⟩
theorem OneKind.waitEntry : OneKind.Statement .waitEntry := ⟨rfl, rfl, rfl⟩
theorem OneKind.waitReread : OneKind.Statement .waitReread := ⟨rfl, rfl, rfl⟩
theorem OneKind.cancelEntry : OneKind.Statement .cancelEntry := ⟨rfl, rfl, rfl⟩
theorem OneKind.registerEntry : OneKind.Statement .registerEntry := ⟨rfl, rfl, rfl⟩
theorem OneKind.unregisterEntry : OneKind.Statement .unregisterEntry := ⟨rfl, rfl, rfl⟩
theorem OneKind.phaseEntry : OneKind.Statement .phaseEntry := ⟨rfl, rfl, rfl⟩
theorem OneKind.queueBind : OneKind.Statement .queueBind := ⟨rfl, rfl, rfl⟩
theorem OneKind.garnetHeartbeat : OneKind.Statement .garnetHeartbeat := ⟨rfl, rfl, rfl⟩
theorem OneKind.commitPointRecord : OneKind.Statement .commitPointRecord := ⟨rfl, rfl, rfl⟩
theorem OneKind.spinelTakeover : OneKind.Statement .spinelTakeover := ⟨rfl, rfl, rfl⟩
theorem OneKind.handoverGo : OneKind.Statement .handoverGo := ⟨rfl, rfl, rfl⟩
theorem OneKind.handoverCommit : OneKind.Statement .handoverCommit := ⟨rfl, rfl, rfl⟩
theorem OneKind.handoverAbort : OneKind.Statement .handoverAbort := ⟨rfl, rfl, rfl⟩
theorem OneKind.standbyReload : OneKind.Statement .standbyReload := ⟨rfl, rfl, rfl⟩
theorem OneKind.ucmdResume : OneKind.Statement .ucmdResume := ⟨rfl, rfl, rfl⟩
theorem OneKind.ucmdEndFaulted : OneKind.Statement .ucmdEndFaulted := ⟨rfl, rfl, rfl⟩
theorem OneKind.ucmdCancelLaunch : OneKind.Statement .ucmdCancelLaunch := ⟨rfl, rfl, rfl⟩
theorem OneKind.ucmdMoveOvft : OneKind.Statement .ucmdMoveOvft := ⟨rfl, rfl, rfl⟩
theorem OneKind.tlbShootdown : OneKind.Statement .tlbShootdown := ⟨rfl, rfl, rfl⟩
theorem OneKind.tlbShootdownDone : OneKind.Statement .tlbShootdownDone := ⟨rfl, rfl, rfl⟩
theorem OneKind.debugHalt : OneKind.Statement .debugHalt := ⟨rfl, rfl, rfl⟩
theorem OneKind.debugResume : OneKind.Statement .debugResume := ⟨rfl, rfl, rfl⟩
theorem OneKind.debugStep : OneKind.Statement .debugStep := ⟨rfl, rfl, rfl⟩
theorem OneKind.poolcfgWrite : OneKind.Statement .poolcfgWrite := ⟨rfl, rfl, rfl⟩
theorem OneKind.pwrctlWrite : OneKind.Statement .pwrctlWrite := ⟨rfl, rfl, rfl⟩
theorem OneKind.attestationQuote : OneKind.Statement .attestationQuote := ⟨rfl, rfl, rfl⟩
theorem OneKind.attestationKeys : OneKind.Statement .attestationKeys := ⟨rfl, rfl, rfl⟩
theorem OneKind.attestationResult : OneKind.Statement .attestationResult := ⟨rfl, rfl, rfl⟩
theorem OneKind.registerWrite : OneKind.Statement .registerWrite := ⟨rfl, rfl, rfl⟩
theorem OneKind.powerAlarm : OneKind.Statement .powerAlarm := ⟨rfl, rfl, rfl⟩
theorem OneKind.startHold : OneKind.Statement .startHold := ⟨rfl, rfl, rfl⟩
theorem OneKind.overtempPreempt : OneKind.Statement .overtempPreempt := ⟨rfl, rfl, rfl⟩
theorem OneKind.powerAlarmEnd : OneKind.Statement .powerAlarmEnd := ⟨rfl, rfl, rfl⟩
theorem OneKind.startHoldEnd : OneKind.Statement .startHoldEnd := ⟨rfl, rfl, rfl⟩
theorem OneKind.overtempEnd : OneKind.Statement .overtempEnd := ⟨rfl, rfl, rfl⟩
theorem OneKind.correctedErrorThreshold : OneKind.Statement .correctedErrorThreshold := ⟨rfl, rfl, rfl⟩
theorem OneKind.clusterRemap : OneKind.Statement .clusterRemap := ⟨rfl, rfl, rfl⟩
theorem OneKind.unitStateError : OneKind.Statement .unitStateError := ⟨rfl, rfl, rfl⟩
theorem OneKind.invRepeat : OneKind.Statement .invRepeat := ⟨rfl, rfl, rfl⟩
theorem OneKind.cntrSourceEmit : OneKind.Statement .cntrSourceEmit := ⟨rfl, rfl, rfl⟩
theorem OneKind.cntrTriggeredEmit : OneKind.Statement .cntrTriggeredEmit := ⟨rfl, rfl, rfl⟩
theorem OneKind.ldlkLoad : OneKind.Statement .ldlkLoad := ⟨rfl, rfl, rfl⟩
theorem OneKind.constFreeFire : OneKind.Statement .constFreeFire := ⟨rfl, rfl, rfl⟩
theorem OneKind.wfeWake : OneKind.Statement .wfeWake := ⟨rfl, rfl, rfl⟩
theorem OneKind.bisnpResponse : OneKind.Statement .bisnpResponse := ⟨rfl, rfl, rfl⟩
theorem OneKind.hostSnoop : OneKind.Statement .hostSnoop := ⟨rfl, rfl, rfl⟩
theorem OneKind.firmwareReady : OneKind.Statement .firmwareReady := ⟨rfl, rfl, rfl⟩
theorem OneKind.fyronPortTraining : OneKind.Statement .fyronPortTraining := ⟨rfl, rfl, rfl⟩
theorem OneKind.hostPortDown : OneKind.Statement .hostPortDown := ⟨rfl, rfl, rfl⟩
theorem OneKind.handoverMeasured : OneKind.Statement .handoverMeasured := ⟨rfl, rfl, rfl⟩
theorem OneKind.handoverImageLoaded : OneKind.Statement .handoverImageLoaded := ⟨rfl, rfl, rfl⟩

end Sys2Proof.Laws
end

