-- ==== Sys2Proof/Laws/State.lean ====
section
/-! SUPPORT. What the updates of the state and of a unit leave: one lemma per field per update, true by `rfl`, and what the readers
see after them. -/

namespace Sys2Proof.Machine

open Sys2Proof.Laws

/-! ### `State.modUnit` -/

@[simp] theorem State.modUnit_mem (s : State) (u : Nat) (f : UnitSt → UnitSt) : (s.modUnit u f).mem = s.mem := rfl
@[simp] theorem State.modUnit_wst (s : State) (u : Nat) (f : UnitSt → UnitSt) : (s.modUnit u f).wst = s.wst := rfl
@[simp] theorem State.modUnit_lsm (s : State) (u : Nat) (f : UnitSt → UnitSt) : (s.modUnit u f).lsm = s.lsm := rfl
@[simp] theorem State.modUnit_hmem (s : State) (u : Nat) (f : UnitSt → UnitSt) : (s.modUnit u f).hmem = s.hmem := rfl
@[simp] theorem State.modUnit_bad (s : State) (u : Nat) (f : UnitSt → UnitSt) : (s.modUnit u f).bad = s.bad := rfl
@[simp] theorem State.modUnit_dir (s : State) (u : Nat) (f : UnitSt → UnitSt) : (s.modUnit u f).dir = s.dir := rfl
@[simp] theorem State.modUnit_net (s : State) (u : Nat) (f : UnitSt → UnitSt) : (s.modUnit u f).net = s.net := rfl
@[simp] theorem State.modUnit_fyOut (s : State) (u : Nat) (f : UnitSt → UnitSt) : (s.modUnit u f).fyOut = s.fyOut := rfl
@[simp] theorem State.modUnit_fyWait (s : State) (u : Nat) (f : UnitSt → UnitSt) : (s.modUnit u f).fyWait = s.fyWait := rfl
@[simp] theorem State.modUnit_fyDone (s : State) (u : Nat) (f : UnitSt → UnitSt) : (s.modUnit u f).fyDone = s.fyDone := rfl
@[simp] theorem State.modUnit_fyFail (s : State) (u : Nat) (f : UnitSt → UnitSt) : (s.modUnit u f).fyFail = s.fyFail := rfl
@[simp] theorem State.modUnit_fyOpen (s : State) (u : Nat) (f : UnitSt → UnitSt) : (s.modUnit u f).fyOpen = s.fyOpen := rfl
@[simp] theorem State.modUnit_fyOwe (s : State) (u : Nat) (f : UnitSt → UnitSt) : (s.modUnit u f).fyOwe = s.fyOwe := rfl
@[simp] theorem State.modUnit_fyFrag (s : State) (u : Nat) (f : UnitSt → UnitSt) : (s.modUnit u f).fyFrag = s.fyFrag := rfl
@[simp] theorem State.modUnit_devPend (s : State) (u : Nat) (f : UnitSt → UnitSt) : (s.modUnit u f).devPend = s.devPend := rfl
@[simp] theorem State.modUnit_fyL2 (s : State) (u : Nat) (f : UnitSt → UnitSt) : (s.modUnit u f).fyL2 = s.fyL2 := rfl
@[simp] theorem State.modUnit_fyTag (s : State) (u : Nat) (f : UnitSt → UnitSt) : (s.modUnit u f).fyTag = s.fyTag := rfl
@[simp] theorem State.modUnit_fyRoute (s : State) (u : Nat) (f : UnitSt → UnitSt) : (s.modUnit u f).fyRoute = s.fyRoute := rfl
@[simp] theorem State.modUnit_fyParts (s : State) (u : Nat) (f : UnitSt → UnitSt) : (s.modUnit u f).fyParts = s.fyParts := rfl
@[simp] theorem State.modUnit_tlb (s : State) (u : Nat) (f : UnitSt → UnitSt) : (s.modUnit u f).tlb = s.tlb := rfl
@[simp] theorem State.modUnit_clusters (s : State) (u : Nat) (f : UnitSt → UnitSt) : (s.modUnit u f).clusters = s.clusters := rfl
@[simp] theorem State.modUnit_dies (s : State) (u : Nat) (f : UnitSt → UnitSt) : (s.modUnit u f).dies = s.dies := rfl
@[simp] theorem State.modUnit_nextUnit (s : State) (u : Nat) (f : UnitSt → UnitSt) : (s.modUnit u f).nextUnit = s.nextUnit := rfl
@[simp] theorem State.modUnit_startCtr (s : State) (u : Nat) (f : UnitSt → UnitSt) : (s.modUnit u f).startCtr = s.startCtr := rfl
@[simp] theorem State.modUnit_flights (s : State) (u : Nat) (f : UnitSt → UnitSt) : (s.modUnit u f).flights = s.flights := rfl
@[simp] theorem State.modUnit_runs (s : State) (u : Nat) (f : UnitSt → UnitSt) : (s.modUnit u f).runs = s.runs := rfl
@[simp] theorem State.modUnit_jobs (s : State) (u : Nat) (f : UnitSt → UnitSt) : (s.modUnit u f).jobs = s.jobs := rfl
@[simp] theorem State.modUnit_queues (s : State) (u : Nat) (f : UnitSt → UnitSt) : (s.modUnit u f).queues = s.queues := rfl
@[simp] theorem State.modUnit_rings (s : State) (u : Nat) (f : UnitSt → UnitSt) : (s.modUnit u f).rings = s.rings := rfl
@[simp] theorem State.modUnit_objects (s : State) (u : Nat) (f : UnitSt → UnitSt) : (s.modUnit u f).objects = s.objects := rfl
@[simp] theorem State.modUnit_insts (s : State) (u : Nat) (f : UnitSt → UnitSt) : (s.modUnit u f).insts = s.insts := rfl
@[simp] theorem State.modUnit_nextInst (s : State) (u : Nat) (f : UnitSt → UnitSt) : (s.modUnit u f).nextInst = s.nextInst := rfl
@[simp] theorem State.modUnit_phases (s : State) (u : Nat) (f : UnitSt → UnitSt) : (s.modUnit u f).phases = s.phases := rfl
@[simp] theorem State.modUnit_nextPhase (s : State) (u : Nat) (f : UnitSt → UnitSt) : (s.modUnit u f).nextPhase = s.nextPhase := rfl
@[simp] theorem State.modUnit_reds (s : State) (u : Nat) (f : UnitSt → UnitSt) : (s.modUnit u f).reds = s.reds := rfl
@[simp] theorem State.modUnit_colls (s : State) (u : Nat) (f : UnitSt → UnitSt) : (s.modUnit u f).colls = s.colls := rfl
@[simp] theorem State.modUnit_handlerBase (s : State) (u : Nat) (f : UnitSt → UnitSt) : (s.modUnit u f).handlerBase = s.handlerBase := rfl
@[simp] theorem State.modUnit_hub (s : State) (u : Nat) (f : UnitSt → UnitSt) : (s.modUnit u f).hub = s.hub := rfl
@[simp] theorem State.modUnit_devNum (s : State) (u : Nat) (f : UnitSt → UnitSt) : (s.modUnit u f).devNum = s.devNum := rfl
@[simp] theorem State.modUnit_regions (s : State) (u : Nat) (f : UnitSt → UnitSt) : (s.modUnit u f).regions = s.regions := rfl
@[simp] theorem State.modUnit_decoders (s : State) (u : Nat) (f : UnitSt → UnitSt) : (s.modUnit u f).decoders = s.decoders := rfl
@[simp] theorem State.modUnit_hostHalf (s : State) (u : Nat) (f : UnitSt → UnitSt) : (s.modUnit u f).hostHalf = s.hostHalf := rfl
@[simp] theorem State.modUnit_hostAsk (s : State) (u : Nat) (f : UnitSt → UnitSt) : (s.modUnit u f).hostAsk = s.hostAsk := rfl
@[simp] theorem State.modUnit_reserved (s : State) (u : Nat) (f : UnitSt → UnitSt) : (s.modUnit u f).reserved = s.reserved := rfl
@[simp] theorem State.modUnit_fw (s : State) (u : Nat) (f : UnitSt → UnitSt) : (s.modUnit u f).fw = s.fw := rfl
@[simp] theorem State.modUnit_w2 (s : State) (u : Nat) (f : UnitSt → UnitSt) : (s.modUnit u f).w2 = s.w2 := rfl
@[simp] theorem State.modUnit_pow (s : State) (u : Nat) (f : UnitSt → UnitSt) : (s.modUnit u f).pow = s.pow := rfl
@[simp] theorem State.modUnit_ports (s : State) (u : Nat) (f : UnitSt → UnitSt) : (s.modUnit u f).ports = s.ports := rfl
@[simp] theorem State.modUnit_bars (s : State) (u : Nat) (f : UnitSt → UnitSt) : (s.modUnit u f).bars = s.bars := rfl
@[simp] theorem State.modUnit_fleet (s : State) (u : Nat) (f : UnitSt → UnitSt) : (s.modUnit u f).fleet = s.fleet := rfl
@[simp] theorem State.modUnit_nextHandle (s : State) (u : Nat) (f : UnitSt → UnitSt) : (s.modUnit u f).nextHandle = s.nextHandle := rfl
@[simp] theorem State.modUnit_saveNext (s : State) (u : Nat) (f : UnitSt → UnitSt) : (s.modUnit u f).saveNext = s.saveNext := rfl
@[simp] theorem State.modUnit_hostRx (s : State) (u : Nat) (f : UnitSt → UnitSt) : (s.modUnit u f).hostRx = s.hostRx := rfl
@[simp] theorem State.modUnit_msix (s : State) (u : Nat) (f : UnitSt → UnitSt) : (s.modUnit u f).msix = s.msix := rfl
@[simp] theorem State.modUnit_freeCtr (s : State) (u : Nat) (f : UnitSt → UnitSt) : (s.modUnit u f).freeCtr = s.freeCtr := rfl
@[simp] theorem State.modUnit_agenda (s : State) (u : Nat) (f : UnitSt → UnitSt) : (s.modUnit u f).agenda = s.agenda := rfl
@[simp] theorem State.modUnit_focus (s : State) (u : Nat) (f : UnitSt → UnitSt) : (s.modUnit u f).focus = s.focus := rfl
@[simp] theorem State.modUnit_curUnit (s : State) (u : Nat) (f : UnitSt → UnitSt) : (s.modUnit u f).curUnit = s.curUnit := rfl
@[simp] theorem State.modUnit_curEng (s : State) (u : Nat) (f : UnitSt → UnitSt) : (s.modUnit u f).curEng = s.curEng := rfl
@[simp] theorem State.modUnit_ev (s : State) (u : Nat) (f : UnitSt → UnitSt) : (s.modUnit u f).ev = s.ev := rfl

/-! ### `State.setUnit` -/

@[simp] theorem State.setUnit_mem (s : State) (u : Nat) (v : UnitSt) : (s.setUnit u v).mem = s.mem := rfl
@[simp] theorem State.setUnit_wst (s : State) (u : Nat) (v : UnitSt) : (s.setUnit u v).wst = s.wst := rfl
@[simp] theorem State.setUnit_lsm (s : State) (u : Nat) (v : UnitSt) : (s.setUnit u v).lsm = s.lsm := rfl
@[simp] theorem State.setUnit_hmem (s : State) (u : Nat) (v : UnitSt) : (s.setUnit u v).hmem = s.hmem := rfl
@[simp] theorem State.setUnit_bad (s : State) (u : Nat) (v : UnitSt) : (s.setUnit u v).bad = s.bad := rfl
@[simp] theorem State.setUnit_dir (s : State) (u : Nat) (v : UnitSt) : (s.setUnit u v).dir = s.dir := rfl
@[simp] theorem State.setUnit_net (s : State) (u : Nat) (v : UnitSt) : (s.setUnit u v).net = s.net := rfl
@[simp] theorem State.setUnit_fyOut (s : State) (u : Nat) (v : UnitSt) : (s.setUnit u v).fyOut = s.fyOut := rfl
@[simp] theorem State.setUnit_fyWait (s : State) (u : Nat) (v : UnitSt) : (s.setUnit u v).fyWait = s.fyWait := rfl
@[simp] theorem State.setUnit_fyDone (s : State) (u : Nat) (v : UnitSt) : (s.setUnit u v).fyDone = s.fyDone := rfl
@[simp] theorem State.setUnit_fyFail (s : State) (u : Nat) (v : UnitSt) : (s.setUnit u v).fyFail = s.fyFail := rfl
@[simp] theorem State.setUnit_fyOpen (s : State) (u : Nat) (v : UnitSt) : (s.setUnit u v).fyOpen = s.fyOpen := rfl
@[simp] theorem State.setUnit_fyOwe (s : State) (u : Nat) (v : UnitSt) : (s.setUnit u v).fyOwe = s.fyOwe := rfl
@[simp] theorem State.setUnit_fyFrag (s : State) (u : Nat) (v : UnitSt) : (s.setUnit u v).fyFrag = s.fyFrag := rfl
@[simp] theorem State.setUnit_devPend (s : State) (u : Nat) (v : UnitSt) : (s.setUnit u v).devPend = s.devPend := rfl
@[simp] theorem State.setUnit_fyL2 (s : State) (u : Nat) (v : UnitSt) : (s.setUnit u v).fyL2 = s.fyL2 := rfl
@[simp] theorem State.setUnit_fyTag (s : State) (u : Nat) (v : UnitSt) : (s.setUnit u v).fyTag = s.fyTag := rfl
@[simp] theorem State.setUnit_fyRoute (s : State) (u : Nat) (v : UnitSt) : (s.setUnit u v).fyRoute = s.fyRoute := rfl
@[simp] theorem State.setUnit_fyParts (s : State) (u : Nat) (v : UnitSt) : (s.setUnit u v).fyParts = s.fyParts := rfl
@[simp] theorem State.setUnit_tlb (s : State) (u : Nat) (v : UnitSt) : (s.setUnit u v).tlb = s.tlb := rfl
@[simp] theorem State.setUnit_clusters (s : State) (u : Nat) (v : UnitSt) : (s.setUnit u v).clusters = s.clusters := rfl
@[simp] theorem State.setUnit_dies (s : State) (u : Nat) (v : UnitSt) : (s.setUnit u v).dies = s.dies := rfl
@[simp] theorem State.setUnit_nextUnit (s : State) (u : Nat) (v : UnitSt) : (s.setUnit u v).nextUnit = s.nextUnit := rfl
@[simp] theorem State.setUnit_startCtr (s : State) (u : Nat) (v : UnitSt) : (s.setUnit u v).startCtr = s.startCtr := rfl
@[simp] theorem State.setUnit_flights (s : State) (u : Nat) (v : UnitSt) : (s.setUnit u v).flights = s.flights := rfl
@[simp] theorem State.setUnit_runs (s : State) (u : Nat) (v : UnitSt) : (s.setUnit u v).runs = s.runs := rfl
@[simp] theorem State.setUnit_jobs (s : State) (u : Nat) (v : UnitSt) : (s.setUnit u v).jobs = s.jobs := rfl
@[simp] theorem State.setUnit_queues (s : State) (u : Nat) (v : UnitSt) : (s.setUnit u v).queues = s.queues := rfl
@[simp] theorem State.setUnit_rings (s : State) (u : Nat) (v : UnitSt) : (s.setUnit u v).rings = s.rings := rfl
@[simp] theorem State.setUnit_objects (s : State) (u : Nat) (v : UnitSt) : (s.setUnit u v).objects = s.objects := rfl
@[simp] theorem State.setUnit_insts (s : State) (u : Nat) (v : UnitSt) : (s.setUnit u v).insts = s.insts := rfl
@[simp] theorem State.setUnit_nextInst (s : State) (u : Nat) (v : UnitSt) : (s.setUnit u v).nextInst = s.nextInst := rfl
@[simp] theorem State.setUnit_phases (s : State) (u : Nat) (v : UnitSt) : (s.setUnit u v).phases = s.phases := rfl
@[simp] theorem State.setUnit_nextPhase (s : State) (u : Nat) (v : UnitSt) : (s.setUnit u v).nextPhase = s.nextPhase := rfl
@[simp] theorem State.setUnit_reds (s : State) (u : Nat) (v : UnitSt) : (s.setUnit u v).reds = s.reds := rfl
@[simp] theorem State.setUnit_colls (s : State) (u : Nat) (v : UnitSt) : (s.setUnit u v).colls = s.colls := rfl
@[simp] theorem State.setUnit_handlerBase (s : State) (u : Nat) (v : UnitSt) : (s.setUnit u v).handlerBase = s.handlerBase := rfl
@[simp] theorem State.setUnit_hub (s : State) (u : Nat) (v : UnitSt) : (s.setUnit u v).hub = s.hub := rfl
@[simp] theorem State.setUnit_devNum (s : State) (u : Nat) (v : UnitSt) : (s.setUnit u v).devNum = s.devNum := rfl
@[simp] theorem State.setUnit_regions (s : State) (u : Nat) (v : UnitSt) : (s.setUnit u v).regions = s.regions := rfl
@[simp] theorem State.setUnit_decoders (s : State) (u : Nat) (v : UnitSt) : (s.setUnit u v).decoders = s.decoders := rfl
@[simp] theorem State.setUnit_hostHalf (s : State) (u : Nat) (v : UnitSt) : (s.setUnit u v).hostHalf = s.hostHalf := rfl
@[simp] theorem State.setUnit_hostAsk (s : State) (u : Nat) (v : UnitSt) : (s.setUnit u v).hostAsk = s.hostAsk := rfl
@[simp] theorem State.setUnit_reserved (s : State) (u : Nat) (v : UnitSt) : (s.setUnit u v).reserved = s.reserved := rfl
@[simp] theorem State.setUnit_fw (s : State) (u : Nat) (v : UnitSt) : (s.setUnit u v).fw = s.fw := rfl
@[simp] theorem State.setUnit_w2 (s : State) (u : Nat) (v : UnitSt) : (s.setUnit u v).w2 = s.w2 := rfl
@[simp] theorem State.setUnit_pow (s : State) (u : Nat) (v : UnitSt) : (s.setUnit u v).pow = s.pow := rfl
@[simp] theorem State.setUnit_ports (s : State) (u : Nat) (v : UnitSt) : (s.setUnit u v).ports = s.ports := rfl
@[simp] theorem State.setUnit_bars (s : State) (u : Nat) (v : UnitSt) : (s.setUnit u v).bars = s.bars := rfl
@[simp] theorem State.setUnit_fleet (s : State) (u : Nat) (v : UnitSt) : (s.setUnit u v).fleet = s.fleet := rfl
@[simp] theorem State.setUnit_nextHandle (s : State) (u : Nat) (v : UnitSt) : (s.setUnit u v).nextHandle = s.nextHandle := rfl
@[simp] theorem State.setUnit_saveNext (s : State) (u : Nat) (v : UnitSt) : (s.setUnit u v).saveNext = s.saveNext := rfl
@[simp] theorem State.setUnit_hostRx (s : State) (u : Nat) (v : UnitSt) : (s.setUnit u v).hostRx = s.hostRx := rfl
@[simp] theorem State.setUnit_msix (s : State) (u : Nat) (v : UnitSt) : (s.setUnit u v).msix = s.msix := rfl
@[simp] theorem State.setUnit_freeCtr (s : State) (u : Nat) (v : UnitSt) : (s.setUnit u v).freeCtr = s.freeCtr := rfl
@[simp] theorem State.setUnit_agenda (s : State) (u : Nat) (v : UnitSt) : (s.setUnit u v).agenda = s.agenda := rfl
@[simp] theorem State.setUnit_focus (s : State) (u : Nat) (v : UnitSt) : (s.setUnit u v).focus = s.focus := rfl
@[simp] theorem State.setUnit_curUnit (s : State) (u : Nat) (v : UnitSt) : (s.setUnit u v).curUnit = s.curUnit := rfl
@[simp] theorem State.setUnit_curEng (s : State) (u : Nat) (v : UnitSt) : (s.setUnit u v).curEng = s.curEng := rfl
@[simp] theorem State.setUnit_ev (s : State) (u : Nat) (v : UnitSt) : (s.setUnit u v).ev = s.ev := rfl

/-! ### `State.modCluster` -/

@[simp] theorem State.modCluster_mem (s : State) (c : Nat) (f : Cluster → Cluster) : (s.modCluster c f).mem = s.mem := rfl
@[simp] theorem State.modCluster_wst (s : State) (c : Nat) (f : Cluster → Cluster) : (s.modCluster c f).wst = s.wst := rfl
@[simp] theorem State.modCluster_lsm (s : State) (c : Nat) (f : Cluster → Cluster) : (s.modCluster c f).lsm = s.lsm := rfl
@[simp] theorem State.modCluster_hmem (s : State) (c : Nat) (f : Cluster → Cluster) : (s.modCluster c f).hmem = s.hmem := rfl
@[simp] theorem State.modCluster_bad (s : State) (c : Nat) (f : Cluster → Cluster) : (s.modCluster c f).bad = s.bad := rfl
@[simp] theorem State.modCluster_dir (s : State) (c : Nat) (f : Cluster → Cluster) : (s.modCluster c f).dir = s.dir := rfl
@[simp] theorem State.modCluster_net (s : State) (c : Nat) (f : Cluster → Cluster) : (s.modCluster c f).net = s.net := rfl
@[simp] theorem State.modCluster_fyOut (s : State) (c : Nat) (f : Cluster → Cluster) : (s.modCluster c f).fyOut = s.fyOut := rfl
@[simp] theorem State.modCluster_fyWait (s : State) (c : Nat) (f : Cluster → Cluster) : (s.modCluster c f).fyWait = s.fyWait := rfl
@[simp] theorem State.modCluster_fyDone (s : State) (c : Nat) (f : Cluster → Cluster) : (s.modCluster c f).fyDone = s.fyDone := rfl
@[simp] theorem State.modCluster_fyFail (s : State) (c : Nat) (f : Cluster → Cluster) : (s.modCluster c f).fyFail = s.fyFail := rfl
@[simp] theorem State.modCluster_fyOpen (s : State) (c : Nat) (f : Cluster → Cluster) : (s.modCluster c f).fyOpen = s.fyOpen := rfl
@[simp] theorem State.modCluster_fyOwe (s : State) (c : Nat) (f : Cluster → Cluster) : (s.modCluster c f).fyOwe = s.fyOwe := rfl
@[simp] theorem State.modCluster_fyFrag (s : State) (c : Nat) (f : Cluster → Cluster) : (s.modCluster c f).fyFrag = s.fyFrag := rfl
@[simp] theorem State.modCluster_devPend (s : State) (c : Nat) (f : Cluster → Cluster) : (s.modCluster c f).devPend = s.devPend := rfl
@[simp] theorem State.modCluster_fyL2 (s : State) (c : Nat) (f : Cluster → Cluster) : (s.modCluster c f).fyL2 = s.fyL2 := rfl
@[simp] theorem State.modCluster_fyTag (s : State) (c : Nat) (f : Cluster → Cluster) : (s.modCluster c f).fyTag = s.fyTag := rfl
@[simp] theorem State.modCluster_fyRoute (s : State) (c : Nat) (f : Cluster → Cluster) : (s.modCluster c f).fyRoute = s.fyRoute := rfl
@[simp] theorem State.modCluster_fyParts (s : State) (c : Nat) (f : Cluster → Cluster) : (s.modCluster c f).fyParts = s.fyParts := rfl
@[simp] theorem State.modCluster_tlb (s : State) (c : Nat) (f : Cluster → Cluster) : (s.modCluster c f).tlb = s.tlb := rfl
@[simp] theorem State.modCluster_dies (s : State) (c : Nat) (f : Cluster → Cluster) : (s.modCluster c f).dies = s.dies := rfl
@[simp] theorem State.modCluster_units (s : State) (c : Nat) (f : Cluster → Cluster) : (s.modCluster c f).units = s.units := rfl
@[simp] theorem State.modCluster_nextUnit (s : State) (c : Nat) (f : Cluster → Cluster) : (s.modCluster c f).nextUnit = s.nextUnit := rfl
@[simp] theorem State.modCluster_startCtr (s : State) (c : Nat) (f : Cluster → Cluster) : (s.modCluster c f).startCtr = s.startCtr := rfl
@[simp] theorem State.modCluster_flights (s : State) (c : Nat) (f : Cluster → Cluster) : (s.modCluster c f).flights = s.flights := rfl
@[simp] theorem State.modCluster_runs (s : State) (c : Nat) (f : Cluster → Cluster) : (s.modCluster c f).runs = s.runs := rfl
@[simp] theorem State.modCluster_jobs (s : State) (c : Nat) (f : Cluster → Cluster) : (s.modCluster c f).jobs = s.jobs := rfl
@[simp] theorem State.modCluster_queues (s : State) (c : Nat) (f : Cluster → Cluster) : (s.modCluster c f).queues = s.queues := rfl
@[simp] theorem State.modCluster_rings (s : State) (c : Nat) (f : Cluster → Cluster) : (s.modCluster c f).rings = s.rings := rfl
@[simp] theorem State.modCluster_objects (s : State) (c : Nat) (f : Cluster → Cluster) : (s.modCluster c f).objects = s.objects := rfl
@[simp] theorem State.modCluster_insts (s : State) (c : Nat) (f : Cluster → Cluster) : (s.modCluster c f).insts = s.insts := rfl
@[simp] theorem State.modCluster_nextInst (s : State) (c : Nat) (f : Cluster → Cluster) : (s.modCluster c f).nextInst = s.nextInst := rfl
@[simp] theorem State.modCluster_phases (s : State) (c : Nat) (f : Cluster → Cluster) : (s.modCluster c f).phases = s.phases := rfl
@[simp] theorem State.modCluster_nextPhase (s : State) (c : Nat) (f : Cluster → Cluster) : (s.modCluster c f).nextPhase = s.nextPhase := rfl
@[simp] theorem State.modCluster_reds (s : State) (c : Nat) (f : Cluster → Cluster) : (s.modCluster c f).reds = s.reds := rfl
@[simp] theorem State.modCluster_colls (s : State) (c : Nat) (f : Cluster → Cluster) : (s.modCluster c f).colls = s.colls := rfl
@[simp] theorem State.modCluster_handlerBase (s : State) (c : Nat) (f : Cluster → Cluster) : (s.modCluster c f).handlerBase = s.handlerBase := rfl
@[simp] theorem State.modCluster_hub (s : State) (c : Nat) (f : Cluster → Cluster) : (s.modCluster c f).hub = s.hub := rfl
@[simp] theorem State.modCluster_devNum (s : State) (c : Nat) (f : Cluster → Cluster) : (s.modCluster c f).devNum = s.devNum := rfl
@[simp] theorem State.modCluster_regions (s : State) (c : Nat) (f : Cluster → Cluster) : (s.modCluster c f).regions = s.regions := rfl
@[simp] theorem State.modCluster_decoders (s : State) (c : Nat) (f : Cluster → Cluster) : (s.modCluster c f).decoders = s.decoders := rfl
@[simp] theorem State.modCluster_hostHalf (s : State) (c : Nat) (f : Cluster → Cluster) : (s.modCluster c f).hostHalf = s.hostHalf := rfl
@[simp] theorem State.modCluster_hostAsk (s : State) (c : Nat) (f : Cluster → Cluster) : (s.modCluster c f).hostAsk = s.hostAsk := rfl
@[simp] theorem State.modCluster_reserved (s : State) (c : Nat) (f : Cluster → Cluster) : (s.modCluster c f).reserved = s.reserved := rfl
@[simp] theorem State.modCluster_fw (s : State) (c : Nat) (f : Cluster → Cluster) : (s.modCluster c f).fw = s.fw := rfl
@[simp] theorem State.modCluster_w2 (s : State) (c : Nat) (f : Cluster → Cluster) : (s.modCluster c f).w2 = s.w2 := rfl
@[simp] theorem State.modCluster_pow (s : State) (c : Nat) (f : Cluster → Cluster) : (s.modCluster c f).pow = s.pow := rfl
@[simp] theorem State.modCluster_ports (s : State) (c : Nat) (f : Cluster → Cluster) : (s.modCluster c f).ports = s.ports := rfl
@[simp] theorem State.modCluster_bars (s : State) (c : Nat) (f : Cluster → Cluster) : (s.modCluster c f).bars = s.bars := rfl
@[simp] theorem State.modCluster_fleet (s : State) (c : Nat) (f : Cluster → Cluster) : (s.modCluster c f).fleet = s.fleet := rfl
@[simp] theorem State.modCluster_nextHandle (s : State) (c : Nat) (f : Cluster → Cluster) : (s.modCluster c f).nextHandle = s.nextHandle := rfl
@[simp] theorem State.modCluster_saveNext (s : State) (c : Nat) (f : Cluster → Cluster) : (s.modCluster c f).saveNext = s.saveNext := rfl
@[simp] theorem State.modCluster_hostRx (s : State) (c : Nat) (f : Cluster → Cluster) : (s.modCluster c f).hostRx = s.hostRx := rfl
@[simp] theorem State.modCluster_msix (s : State) (c : Nat) (f : Cluster → Cluster) : (s.modCluster c f).msix = s.msix := rfl
@[simp] theorem State.modCluster_freeCtr (s : State) (c : Nat) (f : Cluster → Cluster) : (s.modCluster c f).freeCtr = s.freeCtr := rfl
@[simp] theorem State.modCluster_agenda (s : State) (c : Nat) (f : Cluster → Cluster) : (s.modCluster c f).agenda = s.agenda := rfl
@[simp] theorem State.modCluster_focus (s : State) (c : Nat) (f : Cluster → Cluster) : (s.modCluster c f).focus = s.focus := rfl
@[simp] theorem State.modCluster_curUnit (s : State) (c : Nat) (f : Cluster → Cluster) : (s.modCluster c f).curUnit = s.curUnit := rfl
@[simp] theorem State.modCluster_curEng (s : State) (c : Nat) (f : Cluster → Cluster) : (s.modCluster c f).curEng = s.curEng := rfl
@[simp] theorem State.modCluster_ev (s : State) (c : Nat) (f : Cluster → Cluster) : (s.modCluster c f).ev = s.ev := rfl

/-! ### `State.modDie` -/

@[simp] theorem State.modDie_mem (s : State) (d : Nat) (f : Die → Die) : (s.modDie d f).mem = s.mem := rfl
@[simp] theorem State.modDie_wst (s : State) (d : Nat) (f : Die → Die) : (s.modDie d f).wst = s.wst := rfl
@[simp] theorem State.modDie_lsm (s : State) (d : Nat) (f : Die → Die) : (s.modDie d f).lsm = s.lsm := rfl
@[simp] theorem State.modDie_hmem (s : State) (d : Nat) (f : Die → Die) : (s.modDie d f).hmem = s.hmem := rfl
@[simp] theorem State.modDie_bad (s : State) (d : Nat) (f : Die → Die) : (s.modDie d f).bad = s.bad := rfl
@[simp] theorem State.modDie_dir (s : State) (d : Nat) (f : Die → Die) : (s.modDie d f).dir = s.dir := rfl
@[simp] theorem State.modDie_net (s : State) (d : Nat) (f : Die → Die) : (s.modDie d f).net = s.net := rfl
@[simp] theorem State.modDie_fyOut (s : State) (d : Nat) (f : Die → Die) : (s.modDie d f).fyOut = s.fyOut := rfl
@[simp] theorem State.modDie_fyWait (s : State) (d : Nat) (f : Die → Die) : (s.modDie d f).fyWait = s.fyWait := rfl
@[simp] theorem State.modDie_fyDone (s : State) (d : Nat) (f : Die → Die) : (s.modDie d f).fyDone = s.fyDone := rfl
@[simp] theorem State.modDie_fyFail (s : State) (d : Nat) (f : Die → Die) : (s.modDie d f).fyFail = s.fyFail := rfl
@[simp] theorem State.modDie_fyOpen (s : State) (d : Nat) (f : Die → Die) : (s.modDie d f).fyOpen = s.fyOpen := rfl
@[simp] theorem State.modDie_fyOwe (s : State) (d : Nat) (f : Die → Die) : (s.modDie d f).fyOwe = s.fyOwe := rfl
@[simp] theorem State.modDie_fyFrag (s : State) (d : Nat) (f : Die → Die) : (s.modDie d f).fyFrag = s.fyFrag := rfl
@[simp] theorem State.modDie_devPend (s : State) (d : Nat) (f : Die → Die) : (s.modDie d f).devPend = s.devPend := rfl
@[simp] theorem State.modDie_fyL2 (s : State) (d : Nat) (f : Die → Die) : (s.modDie d f).fyL2 = s.fyL2 := rfl
@[simp] theorem State.modDie_fyTag (s : State) (d : Nat) (f : Die → Die) : (s.modDie d f).fyTag = s.fyTag := rfl
@[simp] theorem State.modDie_fyRoute (s : State) (d : Nat) (f : Die → Die) : (s.modDie d f).fyRoute = s.fyRoute := rfl
@[simp] theorem State.modDie_fyParts (s : State) (d : Nat) (f : Die → Die) : (s.modDie d f).fyParts = s.fyParts := rfl
@[simp] theorem State.modDie_tlb (s : State) (d : Nat) (f : Die → Die) : (s.modDie d f).tlb = s.tlb := rfl
@[simp] theorem State.modDie_clusters (s : State) (d : Nat) (f : Die → Die) : (s.modDie d f).clusters = s.clusters := rfl
@[simp] theorem State.modDie_units (s : State) (d : Nat) (f : Die → Die) : (s.modDie d f).units = s.units := rfl
@[simp] theorem State.modDie_nextUnit (s : State) (d : Nat) (f : Die → Die) : (s.modDie d f).nextUnit = s.nextUnit := rfl
@[simp] theorem State.modDie_startCtr (s : State) (d : Nat) (f : Die → Die) : (s.modDie d f).startCtr = s.startCtr := rfl
@[simp] theorem State.modDie_flights (s : State) (d : Nat) (f : Die → Die) : (s.modDie d f).flights = s.flights := rfl
@[simp] theorem State.modDie_runs (s : State) (d : Nat) (f : Die → Die) : (s.modDie d f).runs = s.runs := rfl
@[simp] theorem State.modDie_jobs (s : State) (d : Nat) (f : Die → Die) : (s.modDie d f).jobs = s.jobs := rfl
@[simp] theorem State.modDie_queues (s : State) (d : Nat) (f : Die → Die) : (s.modDie d f).queues = s.queues := rfl
@[simp] theorem State.modDie_rings (s : State) (d : Nat) (f : Die → Die) : (s.modDie d f).rings = s.rings := rfl
@[simp] theorem State.modDie_objects (s : State) (d : Nat) (f : Die → Die) : (s.modDie d f).objects = s.objects := rfl
@[simp] theorem State.modDie_insts (s : State) (d : Nat) (f : Die → Die) : (s.modDie d f).insts = s.insts := rfl
@[simp] theorem State.modDie_nextInst (s : State) (d : Nat) (f : Die → Die) : (s.modDie d f).nextInst = s.nextInst := rfl
@[simp] theorem State.modDie_phases (s : State) (d : Nat) (f : Die → Die) : (s.modDie d f).phases = s.phases := rfl
@[simp] theorem State.modDie_nextPhase (s : State) (d : Nat) (f : Die → Die) : (s.modDie d f).nextPhase = s.nextPhase := rfl
@[simp] theorem State.modDie_reds (s : State) (d : Nat) (f : Die → Die) : (s.modDie d f).reds = s.reds := rfl
@[simp] theorem State.modDie_colls (s : State) (d : Nat) (f : Die → Die) : (s.modDie d f).colls = s.colls := rfl
@[simp] theorem State.modDie_handlerBase (s : State) (d : Nat) (f : Die → Die) : (s.modDie d f).handlerBase = s.handlerBase := rfl
@[simp] theorem State.modDie_hub (s : State) (d : Nat) (f : Die → Die) : (s.modDie d f).hub = s.hub := rfl
@[simp] theorem State.modDie_devNum (s : State) (d : Nat) (f : Die → Die) : (s.modDie d f).devNum = s.devNum := rfl
@[simp] theorem State.modDie_regions (s : State) (d : Nat) (f : Die → Die) : (s.modDie d f).regions = s.regions := rfl
@[simp] theorem State.modDie_decoders (s : State) (d : Nat) (f : Die → Die) : (s.modDie d f).decoders = s.decoders := rfl
@[simp] theorem State.modDie_hostHalf (s : State) (d : Nat) (f : Die → Die) : (s.modDie d f).hostHalf = s.hostHalf := rfl
@[simp] theorem State.modDie_hostAsk (s : State) (d : Nat) (f : Die → Die) : (s.modDie d f).hostAsk = s.hostAsk := rfl
@[simp] theorem State.modDie_reserved (s : State) (d : Nat) (f : Die → Die) : (s.modDie d f).reserved = s.reserved := rfl
@[simp] theorem State.modDie_fw (s : State) (d : Nat) (f : Die → Die) : (s.modDie d f).fw = s.fw := rfl
@[simp] theorem State.modDie_w2 (s : State) (d : Nat) (f : Die → Die) : (s.modDie d f).w2 = s.w2 := rfl
@[simp] theorem State.modDie_pow (s : State) (d : Nat) (f : Die → Die) : (s.modDie d f).pow = s.pow := rfl
@[simp] theorem State.modDie_ports (s : State) (d : Nat) (f : Die → Die) : (s.modDie d f).ports = s.ports := rfl
@[simp] theorem State.modDie_bars (s : State) (d : Nat) (f : Die → Die) : (s.modDie d f).bars = s.bars := rfl
@[simp] theorem State.modDie_fleet (s : State) (d : Nat) (f : Die → Die) : (s.modDie d f).fleet = s.fleet := rfl
@[simp] theorem State.modDie_nextHandle (s : State) (d : Nat) (f : Die → Die) : (s.modDie d f).nextHandle = s.nextHandle := rfl
@[simp] theorem State.modDie_saveNext (s : State) (d : Nat) (f : Die → Die) : (s.modDie d f).saveNext = s.saveNext := rfl
@[simp] theorem State.modDie_hostRx (s : State) (d : Nat) (f : Die → Die) : (s.modDie d f).hostRx = s.hostRx := rfl
@[simp] theorem State.modDie_msix (s : State) (d : Nat) (f : Die → Die) : (s.modDie d f).msix = s.msix := rfl
@[simp] theorem State.modDie_freeCtr (s : State) (d : Nat) (f : Die → Die) : (s.modDie d f).freeCtr = s.freeCtr := rfl
@[simp] theorem State.modDie_agenda (s : State) (d : Nat) (f : Die → Die) : (s.modDie d f).agenda = s.agenda := rfl
@[simp] theorem State.modDie_focus (s : State) (d : Nat) (f : Die → Die) : (s.modDie d f).focus = s.focus := rfl
@[simp] theorem State.modDie_curUnit (s : State) (d : Nat) (f : Die → Die) : (s.modDie d f).curUnit = s.curUnit := rfl
@[simp] theorem State.modDie_curEng (s : State) (d : Nat) (f : Die → Die) : (s.modDie d f).curEng = s.curEng := rfl
@[simp] theorem State.modDie_ev (s : State) (d : Nat) (f : Die → Die) : (s.modDie d f).ev = s.ev := rfl

/-! ### `State.modDir` -/

@[simp] theorem State.modDir_mem (s : State) (l : Nat) (f : DirEntry → DirEntry) : (s.modDir l f).mem = s.mem := rfl
@[simp] theorem State.modDir_wst (s : State) (l : Nat) (f : DirEntry → DirEntry) : (s.modDir l f).wst = s.wst := rfl
@[simp] theorem State.modDir_lsm (s : State) (l : Nat) (f : DirEntry → DirEntry) : (s.modDir l f).lsm = s.lsm := rfl
@[simp] theorem State.modDir_hmem (s : State) (l : Nat) (f : DirEntry → DirEntry) : (s.modDir l f).hmem = s.hmem := rfl
@[simp] theorem State.modDir_bad (s : State) (l : Nat) (f : DirEntry → DirEntry) : (s.modDir l f).bad = s.bad := rfl
@[simp] theorem State.modDir_net (s : State) (l : Nat) (f : DirEntry → DirEntry) : (s.modDir l f).net = s.net := rfl
@[simp] theorem State.modDir_fyOut (s : State) (l : Nat) (f : DirEntry → DirEntry) : (s.modDir l f).fyOut = s.fyOut := rfl
@[simp] theorem State.modDir_fyWait (s : State) (l : Nat) (f : DirEntry → DirEntry) : (s.modDir l f).fyWait = s.fyWait := rfl
@[simp] theorem State.modDir_fyDone (s : State) (l : Nat) (f : DirEntry → DirEntry) : (s.modDir l f).fyDone = s.fyDone := rfl
@[simp] theorem State.modDir_fyFail (s : State) (l : Nat) (f : DirEntry → DirEntry) : (s.modDir l f).fyFail = s.fyFail := rfl
@[simp] theorem State.modDir_fyOpen (s : State) (l : Nat) (f : DirEntry → DirEntry) : (s.modDir l f).fyOpen = s.fyOpen := rfl
@[simp] theorem State.modDir_fyOwe (s : State) (l : Nat) (f : DirEntry → DirEntry) : (s.modDir l f).fyOwe = s.fyOwe := rfl
@[simp] theorem State.modDir_fyFrag (s : State) (l : Nat) (f : DirEntry → DirEntry) : (s.modDir l f).fyFrag = s.fyFrag := rfl
@[simp] theorem State.modDir_devPend (s : State) (l : Nat) (f : DirEntry → DirEntry) : (s.modDir l f).devPend = s.devPend := rfl
@[simp] theorem State.modDir_fyL2 (s : State) (l : Nat) (f : DirEntry → DirEntry) : (s.modDir l f).fyL2 = s.fyL2 := rfl
@[simp] theorem State.modDir_fyTag (s : State) (l : Nat) (f : DirEntry → DirEntry) : (s.modDir l f).fyTag = s.fyTag := rfl
@[simp] theorem State.modDir_fyRoute (s : State) (l : Nat) (f : DirEntry → DirEntry) : (s.modDir l f).fyRoute = s.fyRoute := rfl
@[simp] theorem State.modDir_fyParts (s : State) (l : Nat) (f : DirEntry → DirEntry) : (s.modDir l f).fyParts = s.fyParts := rfl
@[simp] theorem State.modDir_tlb (s : State) (l : Nat) (f : DirEntry → DirEntry) : (s.modDir l f).tlb = s.tlb := rfl
@[simp] theorem State.modDir_clusters (s : State) (l : Nat) (f : DirEntry → DirEntry) : (s.modDir l f).clusters = s.clusters := rfl
@[simp] theorem State.modDir_dies (s : State) (l : Nat) (f : DirEntry → DirEntry) : (s.modDir l f).dies = s.dies := rfl
@[simp] theorem State.modDir_units (s : State) (l : Nat) (f : DirEntry → DirEntry) : (s.modDir l f).units = s.units := rfl
@[simp] theorem State.modDir_nextUnit (s : State) (l : Nat) (f : DirEntry → DirEntry) : (s.modDir l f).nextUnit = s.nextUnit := rfl
@[simp] theorem State.modDir_startCtr (s : State) (l : Nat) (f : DirEntry → DirEntry) : (s.modDir l f).startCtr = s.startCtr := rfl
@[simp] theorem State.modDir_flights (s : State) (l : Nat) (f : DirEntry → DirEntry) : (s.modDir l f).flights = s.flights := rfl
@[simp] theorem State.modDir_runs (s : State) (l : Nat) (f : DirEntry → DirEntry) : (s.modDir l f).runs = s.runs := rfl
@[simp] theorem State.modDir_jobs (s : State) (l : Nat) (f : DirEntry → DirEntry) : (s.modDir l f).jobs = s.jobs := rfl
@[simp] theorem State.modDir_queues (s : State) (l : Nat) (f : DirEntry → DirEntry) : (s.modDir l f).queues = s.queues := rfl
@[simp] theorem State.modDir_rings (s : State) (l : Nat) (f : DirEntry → DirEntry) : (s.modDir l f).rings = s.rings := rfl
@[simp] theorem State.modDir_objects (s : State) (l : Nat) (f : DirEntry → DirEntry) : (s.modDir l f).objects = s.objects := rfl
@[simp] theorem State.modDir_insts (s : State) (l : Nat) (f : DirEntry → DirEntry) : (s.modDir l f).insts = s.insts := rfl
@[simp] theorem State.modDir_nextInst (s : State) (l : Nat) (f : DirEntry → DirEntry) : (s.modDir l f).nextInst = s.nextInst := rfl
@[simp] theorem State.modDir_phases (s : State) (l : Nat) (f : DirEntry → DirEntry) : (s.modDir l f).phases = s.phases := rfl
@[simp] theorem State.modDir_nextPhase (s : State) (l : Nat) (f : DirEntry → DirEntry) : (s.modDir l f).nextPhase = s.nextPhase := rfl
@[simp] theorem State.modDir_reds (s : State) (l : Nat) (f : DirEntry → DirEntry) : (s.modDir l f).reds = s.reds := rfl
@[simp] theorem State.modDir_colls (s : State) (l : Nat) (f : DirEntry → DirEntry) : (s.modDir l f).colls = s.colls := rfl
@[simp] theorem State.modDir_handlerBase (s : State) (l : Nat) (f : DirEntry → DirEntry) : (s.modDir l f).handlerBase = s.handlerBase := rfl
@[simp] theorem State.modDir_hub (s : State) (l : Nat) (f : DirEntry → DirEntry) : (s.modDir l f).hub = s.hub := rfl
@[simp] theorem State.modDir_devNum (s : State) (l : Nat) (f : DirEntry → DirEntry) : (s.modDir l f).devNum = s.devNum := rfl
@[simp] theorem State.modDir_regions (s : State) (l : Nat) (f : DirEntry → DirEntry) : (s.modDir l f).regions = s.regions := rfl
@[simp] theorem State.modDir_decoders (s : State) (l : Nat) (f : DirEntry → DirEntry) : (s.modDir l f).decoders = s.decoders := rfl
@[simp] theorem State.modDir_hostHalf (s : State) (l : Nat) (f : DirEntry → DirEntry) : (s.modDir l f).hostHalf = s.hostHalf := rfl
@[simp] theorem State.modDir_hostAsk (s : State) (l : Nat) (f : DirEntry → DirEntry) : (s.modDir l f).hostAsk = s.hostAsk := rfl
@[simp] theorem State.modDir_reserved (s : State) (l : Nat) (f : DirEntry → DirEntry) : (s.modDir l f).reserved = s.reserved := rfl
@[simp] theorem State.modDir_fw (s : State) (l : Nat) (f : DirEntry → DirEntry) : (s.modDir l f).fw = s.fw := rfl
@[simp] theorem State.modDir_w2 (s : State) (l : Nat) (f : DirEntry → DirEntry) : (s.modDir l f).w2 = s.w2 := rfl
@[simp] theorem State.modDir_pow (s : State) (l : Nat) (f : DirEntry → DirEntry) : (s.modDir l f).pow = s.pow := rfl
@[simp] theorem State.modDir_ports (s : State) (l : Nat) (f : DirEntry → DirEntry) : (s.modDir l f).ports = s.ports := rfl
@[simp] theorem State.modDir_bars (s : State) (l : Nat) (f : DirEntry → DirEntry) : (s.modDir l f).bars = s.bars := rfl
@[simp] theorem State.modDir_fleet (s : State) (l : Nat) (f : DirEntry → DirEntry) : (s.modDir l f).fleet = s.fleet := rfl
@[simp] theorem State.modDir_nextHandle (s : State) (l : Nat) (f : DirEntry → DirEntry) : (s.modDir l f).nextHandle = s.nextHandle := rfl
@[simp] theorem State.modDir_saveNext (s : State) (l : Nat) (f : DirEntry → DirEntry) : (s.modDir l f).saveNext = s.saveNext := rfl
@[simp] theorem State.modDir_hostRx (s : State) (l : Nat) (f : DirEntry → DirEntry) : (s.modDir l f).hostRx = s.hostRx := rfl
@[simp] theorem State.modDir_msix (s : State) (l : Nat) (f : DirEntry → DirEntry) : (s.modDir l f).msix = s.msix := rfl
@[simp] theorem State.modDir_freeCtr (s : State) (l : Nat) (f : DirEntry → DirEntry) : (s.modDir l f).freeCtr = s.freeCtr := rfl
@[simp] theorem State.modDir_agenda (s : State) (l : Nat) (f : DirEntry → DirEntry) : (s.modDir l f).agenda = s.agenda := rfl
@[simp] theorem State.modDir_focus (s : State) (l : Nat) (f : DirEntry → DirEntry) : (s.modDir l f).focus = s.focus := rfl
@[simp] theorem State.modDir_curUnit (s : State) (l : Nat) (f : DirEntry → DirEntry) : (s.modDir l f).curUnit = s.curUnit := rfl
@[simp] theorem State.modDir_curEng (s : State) (l : Nat) (f : DirEntry → DirEntry) : (s.modDir l f).curEng = s.curEng := rfl
@[simp] theorem State.modDir_ev (s : State) (l : Nat) (f : DirEntry → DirEntry) : (s.modDir l f).ev = s.ev := rfl

/-! ### `State.modJob` -/

@[simp] theorem State.modJob_mem (s : State) (j : Nat) (f : Job → Job) : (s.modJob j f).mem = s.mem := rfl
@[simp] theorem State.modJob_wst (s : State) (j : Nat) (f : Job → Job) : (s.modJob j f).wst = s.wst := rfl
@[simp] theorem State.modJob_lsm (s : State) (j : Nat) (f : Job → Job) : (s.modJob j f).lsm = s.lsm := rfl
@[simp] theorem State.modJob_hmem (s : State) (j : Nat) (f : Job → Job) : (s.modJob j f).hmem = s.hmem := rfl
@[simp] theorem State.modJob_bad (s : State) (j : Nat) (f : Job → Job) : (s.modJob j f).bad = s.bad := rfl
@[simp] theorem State.modJob_dir (s : State) (j : Nat) (f : Job → Job) : (s.modJob j f).dir = s.dir := rfl
@[simp] theorem State.modJob_net (s : State) (j : Nat) (f : Job → Job) : (s.modJob j f).net = s.net := rfl
@[simp] theorem State.modJob_fyOut (s : State) (j : Nat) (f : Job → Job) : (s.modJob j f).fyOut = s.fyOut := rfl
@[simp] theorem State.modJob_fyWait (s : State) (j : Nat) (f : Job → Job) : (s.modJob j f).fyWait = s.fyWait := rfl
@[simp] theorem State.modJob_fyDone (s : State) (j : Nat) (f : Job → Job) : (s.modJob j f).fyDone = s.fyDone := rfl
@[simp] theorem State.modJob_fyFail (s : State) (j : Nat) (f : Job → Job) : (s.modJob j f).fyFail = s.fyFail := rfl
@[simp] theorem State.modJob_fyOpen (s : State) (j : Nat) (f : Job → Job) : (s.modJob j f).fyOpen = s.fyOpen := rfl
@[simp] theorem State.modJob_fyOwe (s : State) (j : Nat) (f : Job → Job) : (s.modJob j f).fyOwe = s.fyOwe := rfl
@[simp] theorem State.modJob_fyFrag (s : State) (j : Nat) (f : Job → Job) : (s.modJob j f).fyFrag = s.fyFrag := rfl
@[simp] theorem State.modJob_devPend (s : State) (j : Nat) (f : Job → Job) : (s.modJob j f).devPend = s.devPend := rfl
@[simp] theorem State.modJob_fyL2 (s : State) (j : Nat) (f : Job → Job) : (s.modJob j f).fyL2 = s.fyL2 := rfl
@[simp] theorem State.modJob_fyTag (s : State) (j : Nat) (f : Job → Job) : (s.modJob j f).fyTag = s.fyTag := rfl
@[simp] theorem State.modJob_fyRoute (s : State) (j : Nat) (f : Job → Job) : (s.modJob j f).fyRoute = s.fyRoute := rfl
@[simp] theorem State.modJob_fyParts (s : State) (j : Nat) (f : Job → Job) : (s.modJob j f).fyParts = s.fyParts := rfl
@[simp] theorem State.modJob_tlb (s : State) (j : Nat) (f : Job → Job) : (s.modJob j f).tlb = s.tlb := rfl
@[simp] theorem State.modJob_clusters (s : State) (j : Nat) (f : Job → Job) : (s.modJob j f).clusters = s.clusters := rfl
@[simp] theorem State.modJob_dies (s : State) (j : Nat) (f : Job → Job) : (s.modJob j f).dies = s.dies := rfl
@[simp] theorem State.modJob_units (s : State) (j : Nat) (f : Job → Job) : (s.modJob j f).units = s.units := rfl
@[simp] theorem State.modJob_nextUnit (s : State) (j : Nat) (f : Job → Job) : (s.modJob j f).nextUnit = s.nextUnit := rfl
@[simp] theorem State.modJob_startCtr (s : State) (j : Nat) (f : Job → Job) : (s.modJob j f).startCtr = s.startCtr := rfl
@[simp] theorem State.modJob_flights (s : State) (j : Nat) (f : Job → Job) : (s.modJob j f).flights = s.flights := rfl
@[simp] theorem State.modJob_runs (s : State) (j : Nat) (f : Job → Job) : (s.modJob j f).runs = s.runs := rfl
@[simp] theorem State.modJob_queues (s : State) (j : Nat) (f : Job → Job) : (s.modJob j f).queues = s.queues := rfl
@[simp] theorem State.modJob_rings (s : State) (j : Nat) (f : Job → Job) : (s.modJob j f).rings = s.rings := rfl
@[simp] theorem State.modJob_objects (s : State) (j : Nat) (f : Job → Job) : (s.modJob j f).objects = s.objects := rfl
@[simp] theorem State.modJob_insts (s : State) (j : Nat) (f : Job → Job) : (s.modJob j f).insts = s.insts := rfl
@[simp] theorem State.modJob_nextInst (s : State) (j : Nat) (f : Job → Job) : (s.modJob j f).nextInst = s.nextInst := rfl
@[simp] theorem State.modJob_phases (s : State) (j : Nat) (f : Job → Job) : (s.modJob j f).phases = s.phases := rfl
@[simp] theorem State.modJob_nextPhase (s : State) (j : Nat) (f : Job → Job) : (s.modJob j f).nextPhase = s.nextPhase := rfl
@[simp] theorem State.modJob_reds (s : State) (j : Nat) (f : Job → Job) : (s.modJob j f).reds = s.reds := rfl
@[simp] theorem State.modJob_colls (s : State) (j : Nat) (f : Job → Job) : (s.modJob j f).colls = s.colls := rfl
@[simp] theorem State.modJob_handlerBase (s : State) (j : Nat) (f : Job → Job) : (s.modJob j f).handlerBase = s.handlerBase := rfl
@[simp] theorem State.modJob_hub (s : State) (j : Nat) (f : Job → Job) : (s.modJob j f).hub = s.hub := rfl
@[simp] theorem State.modJob_devNum (s : State) (j : Nat) (f : Job → Job) : (s.modJob j f).devNum = s.devNum := rfl
@[simp] theorem State.modJob_regions (s : State) (j : Nat) (f : Job → Job) : (s.modJob j f).regions = s.regions := rfl
@[simp] theorem State.modJob_decoders (s : State) (j : Nat) (f : Job → Job) : (s.modJob j f).decoders = s.decoders := rfl
@[simp] theorem State.modJob_hostHalf (s : State) (j : Nat) (f : Job → Job) : (s.modJob j f).hostHalf = s.hostHalf := rfl
@[simp] theorem State.modJob_hostAsk (s : State) (j : Nat) (f : Job → Job) : (s.modJob j f).hostAsk = s.hostAsk := rfl
@[simp] theorem State.modJob_reserved (s : State) (j : Nat) (f : Job → Job) : (s.modJob j f).reserved = s.reserved := rfl
@[simp] theorem State.modJob_fw (s : State) (j : Nat) (f : Job → Job) : (s.modJob j f).fw = s.fw := rfl
@[simp] theorem State.modJob_w2 (s : State) (j : Nat) (f : Job → Job) : (s.modJob j f).w2 = s.w2 := rfl
@[simp] theorem State.modJob_pow (s : State) (j : Nat) (f : Job → Job) : (s.modJob j f).pow = s.pow := rfl
@[simp] theorem State.modJob_ports (s : State) (j : Nat) (f : Job → Job) : (s.modJob j f).ports = s.ports := rfl
@[simp] theorem State.modJob_bars (s : State) (j : Nat) (f : Job → Job) : (s.modJob j f).bars = s.bars := rfl
@[simp] theorem State.modJob_fleet (s : State) (j : Nat) (f : Job → Job) : (s.modJob j f).fleet = s.fleet := rfl
@[simp] theorem State.modJob_nextHandle (s : State) (j : Nat) (f : Job → Job) : (s.modJob j f).nextHandle = s.nextHandle := rfl
@[simp] theorem State.modJob_saveNext (s : State) (j : Nat) (f : Job → Job) : (s.modJob j f).saveNext = s.saveNext := rfl
@[simp] theorem State.modJob_hostRx (s : State) (j : Nat) (f : Job → Job) : (s.modJob j f).hostRx = s.hostRx := rfl
@[simp] theorem State.modJob_msix (s : State) (j : Nat) (f : Job → Job) : (s.modJob j f).msix = s.msix := rfl
@[simp] theorem State.modJob_freeCtr (s : State) (j : Nat) (f : Job → Job) : (s.modJob j f).freeCtr = s.freeCtr := rfl
@[simp] theorem State.modJob_agenda (s : State) (j : Nat) (f : Job → Job) : (s.modJob j f).agenda = s.agenda := rfl
@[simp] theorem State.modJob_focus (s : State) (j : Nat) (f : Job → Job) : (s.modJob j f).focus = s.focus := rfl
@[simp] theorem State.modJob_curUnit (s : State) (j : Nat) (f : Job → Job) : (s.modJob j f).curUnit = s.curUnit := rfl
@[simp] theorem State.modJob_curEng (s : State) (j : Nat) (f : Job → Job) : (s.modJob j f).curEng = s.curEng := rfl
@[simp] theorem State.modJob_ev (s : State) (j : Nat) (f : Job → Job) : (s.modJob j f).ev = s.ev := rfl

/-! ### `State.modQueue` -/

@[simp] theorem State.modQueue_mem (s : State) (q : Nat) (f : Queue → Queue) : (s.modQueue q f).mem = s.mem := rfl
@[simp] theorem State.modQueue_wst (s : State) (q : Nat) (f : Queue → Queue) : (s.modQueue q f).wst = s.wst := rfl
@[simp] theorem State.modQueue_lsm (s : State) (q : Nat) (f : Queue → Queue) : (s.modQueue q f).lsm = s.lsm := rfl
@[simp] theorem State.modQueue_hmem (s : State) (q : Nat) (f : Queue → Queue) : (s.modQueue q f).hmem = s.hmem := rfl
@[simp] theorem State.modQueue_bad (s : State) (q : Nat) (f : Queue → Queue) : (s.modQueue q f).bad = s.bad := rfl
@[simp] theorem State.modQueue_dir (s : State) (q : Nat) (f : Queue → Queue) : (s.modQueue q f).dir = s.dir := rfl
@[simp] theorem State.modQueue_net (s : State) (q : Nat) (f : Queue → Queue) : (s.modQueue q f).net = s.net := rfl
@[simp] theorem State.modQueue_fyOut (s : State) (q : Nat) (f : Queue → Queue) : (s.modQueue q f).fyOut = s.fyOut := rfl
@[simp] theorem State.modQueue_fyWait (s : State) (q : Nat) (f : Queue → Queue) : (s.modQueue q f).fyWait = s.fyWait := rfl
@[simp] theorem State.modQueue_fyDone (s : State) (q : Nat) (f : Queue → Queue) : (s.modQueue q f).fyDone = s.fyDone := rfl
@[simp] theorem State.modQueue_fyFail (s : State) (q : Nat) (f : Queue → Queue) : (s.modQueue q f).fyFail = s.fyFail := rfl
@[simp] theorem State.modQueue_fyOpen (s : State) (q : Nat) (f : Queue → Queue) : (s.modQueue q f).fyOpen = s.fyOpen := rfl
@[simp] theorem State.modQueue_fyOwe (s : State) (q : Nat) (f : Queue → Queue) : (s.modQueue q f).fyOwe = s.fyOwe := rfl
@[simp] theorem State.modQueue_fyFrag (s : State) (q : Nat) (f : Queue → Queue) : (s.modQueue q f).fyFrag = s.fyFrag := rfl
@[simp] theorem State.modQueue_devPend (s : State) (q : Nat) (f : Queue → Queue) : (s.modQueue q f).devPend = s.devPend := rfl
@[simp] theorem State.modQueue_fyL2 (s : State) (q : Nat) (f : Queue → Queue) : (s.modQueue q f).fyL2 = s.fyL2 := rfl
@[simp] theorem State.modQueue_fyTag (s : State) (q : Nat) (f : Queue → Queue) : (s.modQueue q f).fyTag = s.fyTag := rfl
@[simp] theorem State.modQueue_fyRoute (s : State) (q : Nat) (f : Queue → Queue) : (s.modQueue q f).fyRoute = s.fyRoute := rfl
@[simp] theorem State.modQueue_fyParts (s : State) (q : Nat) (f : Queue → Queue) : (s.modQueue q f).fyParts = s.fyParts := rfl
@[simp] theorem State.modQueue_tlb (s : State) (q : Nat) (f : Queue → Queue) : (s.modQueue q f).tlb = s.tlb := rfl
@[simp] theorem State.modQueue_clusters (s : State) (q : Nat) (f : Queue → Queue) : (s.modQueue q f).clusters = s.clusters := rfl
@[simp] theorem State.modQueue_dies (s : State) (q : Nat) (f : Queue → Queue) : (s.modQueue q f).dies = s.dies := rfl
@[simp] theorem State.modQueue_units (s : State) (q : Nat) (f : Queue → Queue) : (s.modQueue q f).units = s.units := rfl
@[simp] theorem State.modQueue_nextUnit (s : State) (q : Nat) (f : Queue → Queue) : (s.modQueue q f).nextUnit = s.nextUnit := rfl
@[simp] theorem State.modQueue_startCtr (s : State) (q : Nat) (f : Queue → Queue) : (s.modQueue q f).startCtr = s.startCtr := rfl
@[simp] theorem State.modQueue_flights (s : State) (q : Nat) (f : Queue → Queue) : (s.modQueue q f).flights = s.flights := rfl
@[simp] theorem State.modQueue_runs (s : State) (q : Nat) (f : Queue → Queue) : (s.modQueue q f).runs = s.runs := rfl
@[simp] theorem State.modQueue_jobs (s : State) (q : Nat) (f : Queue → Queue) : (s.modQueue q f).jobs = s.jobs := rfl
@[simp] theorem State.modQueue_rings (s : State) (q : Nat) (f : Queue → Queue) : (s.modQueue q f).rings = s.rings := rfl
@[simp] theorem State.modQueue_objects (s : State) (q : Nat) (f : Queue → Queue) : (s.modQueue q f).objects = s.objects := rfl
@[simp] theorem State.modQueue_insts (s : State) (q : Nat) (f : Queue → Queue) : (s.modQueue q f).insts = s.insts := rfl
@[simp] theorem State.modQueue_nextInst (s : State) (q : Nat) (f : Queue → Queue) : (s.modQueue q f).nextInst = s.nextInst := rfl
@[simp] theorem State.modQueue_phases (s : State) (q : Nat) (f : Queue → Queue) : (s.modQueue q f).phases = s.phases := rfl
@[simp] theorem State.modQueue_nextPhase (s : State) (q : Nat) (f : Queue → Queue) : (s.modQueue q f).nextPhase = s.nextPhase := rfl
@[simp] theorem State.modQueue_reds (s : State) (q : Nat) (f : Queue → Queue) : (s.modQueue q f).reds = s.reds := rfl
@[simp] theorem State.modQueue_colls (s : State) (q : Nat) (f : Queue → Queue) : (s.modQueue q f).colls = s.colls := rfl
@[simp] theorem State.modQueue_handlerBase (s : State) (q : Nat) (f : Queue → Queue) : (s.modQueue q f).handlerBase = s.handlerBase := rfl
@[simp] theorem State.modQueue_hub (s : State) (q : Nat) (f : Queue → Queue) : (s.modQueue q f).hub = s.hub := rfl
@[simp] theorem State.modQueue_devNum (s : State) (q : Nat) (f : Queue → Queue) : (s.modQueue q f).devNum = s.devNum := rfl
@[simp] theorem State.modQueue_regions (s : State) (q : Nat) (f : Queue → Queue) : (s.modQueue q f).regions = s.regions := rfl
@[simp] theorem State.modQueue_decoders (s : State) (q : Nat) (f : Queue → Queue) : (s.modQueue q f).decoders = s.decoders := rfl
@[simp] theorem State.modQueue_hostHalf (s : State) (q : Nat) (f : Queue → Queue) : (s.modQueue q f).hostHalf = s.hostHalf := rfl
@[simp] theorem State.modQueue_hostAsk (s : State) (q : Nat) (f : Queue → Queue) : (s.modQueue q f).hostAsk = s.hostAsk := rfl
@[simp] theorem State.modQueue_reserved (s : State) (q : Nat) (f : Queue → Queue) : (s.modQueue q f).reserved = s.reserved := rfl
@[simp] theorem State.modQueue_fw (s : State) (q : Nat) (f : Queue → Queue) : (s.modQueue q f).fw = s.fw := rfl
@[simp] theorem State.modQueue_w2 (s : State) (q : Nat) (f : Queue → Queue) : (s.modQueue q f).w2 = s.w2 := rfl
@[simp] theorem State.modQueue_pow (s : State) (q : Nat) (f : Queue → Queue) : (s.modQueue q f).pow = s.pow := rfl
@[simp] theorem State.modQueue_ports (s : State) (q : Nat) (f : Queue → Queue) : (s.modQueue q f).ports = s.ports := rfl
@[simp] theorem State.modQueue_bars (s : State) (q : Nat) (f : Queue → Queue) : (s.modQueue q f).bars = s.bars := rfl
@[simp] theorem State.modQueue_fleet (s : State) (q : Nat) (f : Queue → Queue) : (s.modQueue q f).fleet = s.fleet := rfl
@[simp] theorem State.modQueue_nextHandle (s : State) (q : Nat) (f : Queue → Queue) : (s.modQueue q f).nextHandle = s.nextHandle := rfl
@[simp] theorem State.modQueue_saveNext (s : State) (q : Nat) (f : Queue → Queue) : (s.modQueue q f).saveNext = s.saveNext := rfl
@[simp] theorem State.modQueue_hostRx (s : State) (q : Nat) (f : Queue → Queue) : (s.modQueue q f).hostRx = s.hostRx := rfl
@[simp] theorem State.modQueue_msix (s : State) (q : Nat) (f : Queue → Queue) : (s.modQueue q f).msix = s.msix := rfl
@[simp] theorem State.modQueue_freeCtr (s : State) (q : Nat) (f : Queue → Queue) : (s.modQueue q f).freeCtr = s.freeCtr := rfl
@[simp] theorem State.modQueue_agenda (s : State) (q : Nat) (f : Queue → Queue) : (s.modQueue q f).agenda = s.agenda := rfl
@[simp] theorem State.modQueue_focus (s : State) (q : Nat) (f : Queue → Queue) : (s.modQueue q f).focus = s.focus := rfl
@[simp] theorem State.modQueue_curUnit (s : State) (q : Nat) (f : Queue → Queue) : (s.modQueue q f).curUnit = s.curUnit := rfl
@[simp] theorem State.modQueue_curEng (s : State) (q : Nat) (f : Queue → Queue) : (s.modQueue q f).curEng = s.curEng := rfl
@[simp] theorem State.modQueue_ev (s : State) (q : Nat) (f : Queue → Queue) : (s.modQueue q f).ev = s.ev := rfl

/-! ### `State.modFw` -/

@[simp] theorem State.modFw_mem (s : State) (f : Firmware → Firmware) : (s.modFw f).mem = s.mem := rfl
@[simp] theorem State.modFw_wst (s : State) (f : Firmware → Firmware) : (s.modFw f).wst = s.wst := rfl
@[simp] theorem State.modFw_lsm (s : State) (f : Firmware → Firmware) : (s.modFw f).lsm = s.lsm := rfl
@[simp] theorem State.modFw_hmem (s : State) (f : Firmware → Firmware) : (s.modFw f).hmem = s.hmem := rfl
@[simp] theorem State.modFw_bad (s : State) (f : Firmware → Firmware) : (s.modFw f).bad = s.bad := rfl
@[simp] theorem State.modFw_dir (s : State) (f : Firmware → Firmware) : (s.modFw f).dir = s.dir := rfl
@[simp] theorem State.modFw_net (s : State) (f : Firmware → Firmware) : (s.modFw f).net = s.net := rfl
@[simp] theorem State.modFw_fyOut (s : State) (f : Firmware → Firmware) : (s.modFw f).fyOut = s.fyOut := rfl
@[simp] theorem State.modFw_fyWait (s : State) (f : Firmware → Firmware) : (s.modFw f).fyWait = s.fyWait := rfl
@[simp] theorem State.modFw_fyDone (s : State) (f : Firmware → Firmware) : (s.modFw f).fyDone = s.fyDone := rfl
@[simp] theorem State.modFw_fyFail (s : State) (f : Firmware → Firmware) : (s.modFw f).fyFail = s.fyFail := rfl
@[simp] theorem State.modFw_fyOpen (s : State) (f : Firmware → Firmware) : (s.modFw f).fyOpen = s.fyOpen := rfl
@[simp] theorem State.modFw_fyOwe (s : State) (f : Firmware → Firmware) : (s.modFw f).fyOwe = s.fyOwe := rfl
@[simp] theorem State.modFw_fyFrag (s : State) (f : Firmware → Firmware) : (s.modFw f).fyFrag = s.fyFrag := rfl
@[simp] theorem State.modFw_devPend (s : State) (f : Firmware → Firmware) : (s.modFw f).devPend = s.devPend := rfl
@[simp] theorem State.modFw_fyL2 (s : State) (f : Firmware → Firmware) : (s.modFw f).fyL2 = s.fyL2 := rfl
@[simp] theorem State.modFw_fyTag (s : State) (f : Firmware → Firmware) : (s.modFw f).fyTag = s.fyTag := rfl
@[simp] theorem State.modFw_fyRoute (s : State) (f : Firmware → Firmware) : (s.modFw f).fyRoute = s.fyRoute := rfl
@[simp] theorem State.modFw_fyParts (s : State) (f : Firmware → Firmware) : (s.modFw f).fyParts = s.fyParts := rfl
@[simp] theorem State.modFw_tlb (s : State) (f : Firmware → Firmware) : (s.modFw f).tlb = s.tlb := rfl
@[simp] theorem State.modFw_clusters (s : State) (f : Firmware → Firmware) : (s.modFw f).clusters = s.clusters := rfl
@[simp] theorem State.modFw_dies (s : State) (f : Firmware → Firmware) : (s.modFw f).dies = s.dies := rfl
@[simp] theorem State.modFw_units (s : State) (f : Firmware → Firmware) : (s.modFw f).units = s.units := rfl
@[simp] theorem State.modFw_nextUnit (s : State) (f : Firmware → Firmware) : (s.modFw f).nextUnit = s.nextUnit := rfl
@[simp] theorem State.modFw_startCtr (s : State) (f : Firmware → Firmware) : (s.modFw f).startCtr = s.startCtr := rfl
@[simp] theorem State.modFw_flights (s : State) (f : Firmware → Firmware) : (s.modFw f).flights = s.flights := rfl
@[simp] theorem State.modFw_runs (s : State) (f : Firmware → Firmware) : (s.modFw f).runs = s.runs := rfl
@[simp] theorem State.modFw_jobs (s : State) (f : Firmware → Firmware) : (s.modFw f).jobs = s.jobs := rfl
@[simp] theorem State.modFw_queues (s : State) (f : Firmware → Firmware) : (s.modFw f).queues = s.queues := rfl
@[simp] theorem State.modFw_rings (s : State) (f : Firmware → Firmware) : (s.modFw f).rings = s.rings := rfl
@[simp] theorem State.modFw_objects (s : State) (f : Firmware → Firmware) : (s.modFw f).objects = s.objects := rfl
@[simp] theorem State.modFw_insts (s : State) (f : Firmware → Firmware) : (s.modFw f).insts = s.insts := rfl
@[simp] theorem State.modFw_nextInst (s : State) (f : Firmware → Firmware) : (s.modFw f).nextInst = s.nextInst := rfl
@[simp] theorem State.modFw_phases (s : State) (f : Firmware → Firmware) : (s.modFw f).phases = s.phases := rfl
@[simp] theorem State.modFw_nextPhase (s : State) (f : Firmware → Firmware) : (s.modFw f).nextPhase = s.nextPhase := rfl
@[simp] theorem State.modFw_reds (s : State) (f : Firmware → Firmware) : (s.modFw f).reds = s.reds := rfl
@[simp] theorem State.modFw_colls (s : State) (f : Firmware → Firmware) : (s.modFw f).colls = s.colls := rfl
@[simp] theorem State.modFw_handlerBase (s : State) (f : Firmware → Firmware) : (s.modFw f).handlerBase = s.handlerBase := rfl
@[simp] theorem State.modFw_hub (s : State) (f : Firmware → Firmware) : (s.modFw f).hub = s.hub := rfl
@[simp] theorem State.modFw_devNum (s : State) (f : Firmware → Firmware) : (s.modFw f).devNum = s.devNum := rfl
@[simp] theorem State.modFw_regions (s : State) (f : Firmware → Firmware) : (s.modFw f).regions = s.regions := rfl
@[simp] theorem State.modFw_decoders (s : State) (f : Firmware → Firmware) : (s.modFw f).decoders = s.decoders := rfl
@[simp] theorem State.modFw_hostHalf (s : State) (f : Firmware → Firmware) : (s.modFw f).hostHalf = s.hostHalf := rfl
@[simp] theorem State.modFw_hostAsk (s : State) (f : Firmware → Firmware) : (s.modFw f).hostAsk = s.hostAsk := rfl
@[simp] theorem State.modFw_reserved (s : State) (f : Firmware → Firmware) : (s.modFw f).reserved = s.reserved := rfl
@[simp] theorem State.modFw_w2 (s : State) (f : Firmware → Firmware) : (s.modFw f).w2 = s.w2 := rfl
@[simp] theorem State.modFw_pow (s : State) (f : Firmware → Firmware) : (s.modFw f).pow = s.pow := rfl
@[simp] theorem State.modFw_ports (s : State) (f : Firmware → Firmware) : (s.modFw f).ports = s.ports := rfl
@[simp] theorem State.modFw_bars (s : State) (f : Firmware → Firmware) : (s.modFw f).bars = s.bars := rfl
@[simp] theorem State.modFw_fleet (s : State) (f : Firmware → Firmware) : (s.modFw f).fleet = s.fleet := rfl
@[simp] theorem State.modFw_nextHandle (s : State) (f : Firmware → Firmware) : (s.modFw f).nextHandle = s.nextHandle := rfl
@[simp] theorem State.modFw_saveNext (s : State) (f : Firmware → Firmware) : (s.modFw f).saveNext = s.saveNext := rfl
@[simp] theorem State.modFw_hostRx (s : State) (f : Firmware → Firmware) : (s.modFw f).hostRx = s.hostRx := rfl
@[simp] theorem State.modFw_msix (s : State) (f : Firmware → Firmware) : (s.modFw f).msix = s.msix := rfl
@[simp] theorem State.modFw_freeCtr (s : State) (f : Firmware → Firmware) : (s.modFw f).freeCtr = s.freeCtr := rfl
@[simp] theorem State.modFw_agenda (s : State) (f : Firmware → Firmware) : (s.modFw f).agenda = s.agenda := rfl
@[simp] theorem State.modFw_focus (s : State) (f : Firmware → Firmware) : (s.modFw f).focus = s.focus := rfl
@[simp] theorem State.modFw_curUnit (s : State) (f : Firmware → Firmware) : (s.modFw f).curUnit = s.curUnit := rfl
@[simp] theorem State.modFw_curEng (s : State) (f : Firmware → Firmware) : (s.modFw f).curEng = s.curEng := rfl
@[simp] theorem State.modFw_ev (s : State) (f : Firmware → Firmware) : (s.modFw f).ev = s.ev := rfl

/-! ### `State.modW2` -/

@[simp] theorem State.modW2_mem (s : State) (f : Window2 → Window2) : (s.modW2 f).mem = s.mem := rfl
@[simp] theorem State.modW2_wst (s : State) (f : Window2 → Window2) : (s.modW2 f).wst = s.wst := rfl
@[simp] theorem State.modW2_lsm (s : State) (f : Window2 → Window2) : (s.modW2 f).lsm = s.lsm := rfl
@[simp] theorem State.modW2_hmem (s : State) (f : Window2 → Window2) : (s.modW2 f).hmem = s.hmem := rfl
@[simp] theorem State.modW2_bad (s : State) (f : Window2 → Window2) : (s.modW2 f).bad = s.bad := rfl
@[simp] theorem State.modW2_dir (s : State) (f : Window2 → Window2) : (s.modW2 f).dir = s.dir := rfl
@[simp] theorem State.modW2_net (s : State) (f : Window2 → Window2) : (s.modW2 f).net = s.net := rfl
@[simp] theorem State.modW2_fyOut (s : State) (f : Window2 → Window2) : (s.modW2 f).fyOut = s.fyOut := rfl
@[simp] theorem State.modW2_fyWait (s : State) (f : Window2 → Window2) : (s.modW2 f).fyWait = s.fyWait := rfl
@[simp] theorem State.modW2_fyDone (s : State) (f : Window2 → Window2) : (s.modW2 f).fyDone = s.fyDone := rfl
@[simp] theorem State.modW2_fyFail (s : State) (f : Window2 → Window2) : (s.modW2 f).fyFail = s.fyFail := rfl
@[simp] theorem State.modW2_fyOpen (s : State) (f : Window2 → Window2) : (s.modW2 f).fyOpen = s.fyOpen := rfl
@[simp] theorem State.modW2_fyOwe (s : State) (f : Window2 → Window2) : (s.modW2 f).fyOwe = s.fyOwe := rfl
@[simp] theorem State.modW2_fyFrag (s : State) (f : Window2 → Window2) : (s.modW2 f).fyFrag = s.fyFrag := rfl
@[simp] theorem State.modW2_devPend (s : State) (f : Window2 → Window2) : (s.modW2 f).devPend = s.devPend := rfl
@[simp] theorem State.modW2_fyL2 (s : State) (f : Window2 → Window2) : (s.modW2 f).fyL2 = s.fyL2 := rfl
@[simp] theorem State.modW2_fyTag (s : State) (f : Window2 → Window2) : (s.modW2 f).fyTag = s.fyTag := rfl
@[simp] theorem State.modW2_fyRoute (s : State) (f : Window2 → Window2) : (s.modW2 f).fyRoute = s.fyRoute := rfl
@[simp] theorem State.modW2_fyParts (s : State) (f : Window2 → Window2) : (s.modW2 f).fyParts = s.fyParts := rfl
@[simp] theorem State.modW2_tlb (s : State) (f : Window2 → Window2) : (s.modW2 f).tlb = s.tlb := rfl
@[simp] theorem State.modW2_clusters (s : State) (f : Window2 → Window2) : (s.modW2 f).clusters = s.clusters := rfl
@[simp] theorem State.modW2_dies (s : State) (f : Window2 → Window2) : (s.modW2 f).dies = s.dies := rfl
@[simp] theorem State.modW2_units (s : State) (f : Window2 → Window2) : (s.modW2 f).units = s.units := rfl
@[simp] theorem State.modW2_nextUnit (s : State) (f : Window2 → Window2) : (s.modW2 f).nextUnit = s.nextUnit := rfl
@[simp] theorem State.modW2_startCtr (s : State) (f : Window2 → Window2) : (s.modW2 f).startCtr = s.startCtr := rfl
@[simp] theorem State.modW2_flights (s : State) (f : Window2 → Window2) : (s.modW2 f).flights = s.flights := rfl
@[simp] theorem State.modW2_runs (s : State) (f : Window2 → Window2) : (s.modW2 f).runs = s.runs := rfl
@[simp] theorem State.modW2_jobs (s : State) (f : Window2 → Window2) : (s.modW2 f).jobs = s.jobs := rfl
@[simp] theorem State.modW2_queues (s : State) (f : Window2 → Window2) : (s.modW2 f).queues = s.queues := rfl
@[simp] theorem State.modW2_rings (s : State) (f : Window2 → Window2) : (s.modW2 f).rings = s.rings := rfl
@[simp] theorem State.modW2_objects (s : State) (f : Window2 → Window2) : (s.modW2 f).objects = s.objects := rfl
@[simp] theorem State.modW2_insts (s : State) (f : Window2 → Window2) : (s.modW2 f).insts = s.insts := rfl
@[simp] theorem State.modW2_nextInst (s : State) (f : Window2 → Window2) : (s.modW2 f).nextInst = s.nextInst := rfl
@[simp] theorem State.modW2_phases (s : State) (f : Window2 → Window2) : (s.modW2 f).phases = s.phases := rfl
@[simp] theorem State.modW2_nextPhase (s : State) (f : Window2 → Window2) : (s.modW2 f).nextPhase = s.nextPhase := rfl
@[simp] theorem State.modW2_reds (s : State) (f : Window2 → Window2) : (s.modW2 f).reds = s.reds := rfl
@[simp] theorem State.modW2_colls (s : State) (f : Window2 → Window2) : (s.modW2 f).colls = s.colls := rfl
@[simp] theorem State.modW2_handlerBase (s : State) (f : Window2 → Window2) : (s.modW2 f).handlerBase = s.handlerBase := rfl
@[simp] theorem State.modW2_hub (s : State) (f : Window2 → Window2) : (s.modW2 f).hub = s.hub := rfl
@[simp] theorem State.modW2_devNum (s : State) (f : Window2 → Window2) : (s.modW2 f).devNum = s.devNum := rfl
@[simp] theorem State.modW2_regions (s : State) (f : Window2 → Window2) : (s.modW2 f).regions = s.regions := rfl
@[simp] theorem State.modW2_decoders (s : State) (f : Window2 → Window2) : (s.modW2 f).decoders = s.decoders := rfl
@[simp] theorem State.modW2_hostHalf (s : State) (f : Window2 → Window2) : (s.modW2 f).hostHalf = s.hostHalf := rfl
@[simp] theorem State.modW2_hostAsk (s : State) (f : Window2 → Window2) : (s.modW2 f).hostAsk = s.hostAsk := rfl
@[simp] theorem State.modW2_reserved (s : State) (f : Window2 → Window2) : (s.modW2 f).reserved = s.reserved := rfl
@[simp] theorem State.modW2_fw (s : State) (f : Window2 → Window2) : (s.modW2 f).fw = s.fw := rfl
@[simp] theorem State.modW2_pow (s : State) (f : Window2 → Window2) : (s.modW2 f).pow = s.pow := rfl
@[simp] theorem State.modW2_ports (s : State) (f : Window2 → Window2) : (s.modW2 f).ports = s.ports := rfl
@[simp] theorem State.modW2_bars (s : State) (f : Window2 → Window2) : (s.modW2 f).bars = s.bars := rfl
@[simp] theorem State.modW2_fleet (s : State) (f : Window2 → Window2) : (s.modW2 f).fleet = s.fleet := rfl
@[simp] theorem State.modW2_nextHandle (s : State) (f : Window2 → Window2) : (s.modW2 f).nextHandle = s.nextHandle := rfl
@[simp] theorem State.modW2_saveNext (s : State) (f : Window2 → Window2) : (s.modW2 f).saveNext = s.saveNext := rfl
@[simp] theorem State.modW2_hostRx (s : State) (f : Window2 → Window2) : (s.modW2 f).hostRx = s.hostRx := rfl
@[simp] theorem State.modW2_msix (s : State) (f : Window2 → Window2) : (s.modW2 f).msix = s.msix := rfl
@[simp] theorem State.modW2_freeCtr (s : State) (f : Window2 → Window2) : (s.modW2 f).freeCtr = s.freeCtr := rfl
@[simp] theorem State.modW2_agenda (s : State) (f : Window2 → Window2) : (s.modW2 f).agenda = s.agenda := rfl
@[simp] theorem State.modW2_focus (s : State) (f : Window2 → Window2) : (s.modW2 f).focus = s.focus := rfl
@[simp] theorem State.modW2_curUnit (s : State) (f : Window2 → Window2) : (s.modW2 f).curUnit = s.curUnit := rfl
@[simp] theorem State.modW2_curEng (s : State) (f : Window2 → Window2) : (s.modW2 f).curEng = s.curEng := rfl
@[simp] theorem State.modW2_ev (s : State) (f : Window2 → Window2) : (s.modW2 f).ev = s.ev := rfl

/-! ### Units -/

@[simp] theorem UnitSt.next_id (u : UnitSt) : u.next.id = u.id := rfl
@[simp] theorem UnitSt.next_job (u : UnitSt) : u.next.job = u.job := rfl
@[simp] theorem UnitSt.next_inst (u : UnitSt) : u.next.inst = u.inst := rfl
@[simp] theorem UnitSt.next_launch (u : UnitSt) : u.next.launch = u.launch := rfl
@[simp] theorem UnitSt.next_node (u : UnitSt) : u.next.node = u.node := rfl
@[simp] theorem UnitSt.next_queue (u : UnitSt) : u.next.queue = u.queue := rfl
@[simp] theorem UnitSt.next_unitid (u : UnitSt) : u.next.unitid = u.unitid := rfl
@[simp] theorem UnitSt.next_kseq (u : UnitSt) : u.next.kseq = u.kseq := rfl
@[simp] theorem UnitSt.next_die (u : UnitSt) : u.next.die = u.die := rfl
@[simp] theorem UnitSt.next_lead (u : UnitSt) : u.next.lead = u.lead := rfl
@[simp] theorem UnitSt.next_rshape (u : UnitSt) : u.next.rshape = u.rshape := rfl
@[simp] theorem UnitSt.next_ctx (u : UnitSt) : u.next.ctx = u.ctx := rfl
@[simp] theorem UnitSt.next_started (u : UnitSt) : u.next.started = u.started := rfl
@[simp] theorem UnitSt.next_status (u : UnitSt) : u.next.status = u.status := rfl
@[simp] theorem UnitSt.next_handler (u : UnitSt) : u.next.handler = u.handler := rfl
@[simp] theorem UnitSt.next_claim (u : UnitSt) : u.next.claim = u.claim := rfl
@[simp] theorem UnitSt.next_g (u : UnitSt) : u.next.g = u.g := rfl
@[simp] theorem UnitSt.next_tvec (u : UnitSt) : u.next.tvec = u.tvec := rfl
@[simp] theorem UnitSt.next_tepc (u : UnitSt) : u.next.tepc = u.tepc := rfl
@[simp] theorem UnitSt.next_tcause (u : UnitSt) : u.next.tcause = u.tcause := rfl
@[simp] theorem UnitSt.next_taddr (u : UnitSt) : u.next.taddr = u.taddr := rfl
@[simp] theorem UnitSt.next_ttag (u : UnitSt) : u.next.ttag = u.ttag := rfl
@[simp] theorem UnitSt.next_rm (u : UnitSt) : u.next.rm = u.rm := rfl
@[simp] theorem UnitSt.next_flags (u : UnitSt) : u.next.flags = u.flags := rfl
@[simp] theorem UnitSt.next_flagsNow (u : UnitSt) : u.next.flagsNow = u.flagsNow := rfl
@[simp] theorem UnitSt.next_col1 (u : UnitSt) : u.next.col1 = u.col1 := rfl
@[simp] theorem UnitSt.next_col2 (u : UnitSt) : u.next.col2 = u.col2 := rfl
@[simp] theorem UnitSt.next_col3 (u : UnitSt) : u.next.col3 = u.col3 := rfl
@[simp] theorem UnitSt.next_uctl (u : UnitSt) : u.next.uctl = u.uctl := rfl
@[simp] theorem UnitSt.next_ixb (u : UnitSt) : u.next.ixb = u.ixb := rfl
@[simp] theorem UnitSt.next_ixs (u : UnitSt) : u.next.ixs = u.ixs := rfl
@[simp] theorem UnitSt.next_ixn (u : UnitSt) : u.next.ixn = u.ixn := rfl
@[simp] theorem UnitSt.next_lvl (u : UnitSt) : u.next.lvl = u.lvl := rfl
@[simp] theorem UnitSt.next_ovft (u : UnitSt) : u.next.ovft = u.ovft := rfl
@[simp] theorem UnitSt.next_swz (u : UnitSt) : u.next.swz = u.swz := rfl
@[simp] theorem UnitSt.next_fired (u : UnitSt) : u.next.fired = u.fired := rfl
@[simp] theorem UnitSt.next_gates (u : UnitSt) : u.next.gates = u.gates := rfl
@[simp] theorem UnitSt.next_sinks (u : UnitSt) : u.next.sinks = u.sinks := rfl
@[simp] theorem UnitSt.next_active (u : UnitSt) : u.next.active = u.active := rfl
@[simp] theorem UnitSt.next_staged (u : UnitSt) : u.next.staged = u.staged := rfl
@[simp] theorem UnitSt.next_tags (u : UnitSt) : u.next.tags = u.tags := rfl
@[simp] theorem UnitSt.next_tagOrder (u : UnitSt) : u.next.tagOrder = u.tagOrder := rfl
@[simp] theorem UnitSt.next_freed (u : UnitSt) : u.next.freed = u.freed := rfl
@[simp] theorem UnitSt.next_decided (u : UnitSt) : u.next.decided = u.decided := rfl
@[simp] theorem UnitSt.next_openWave (u : UnitSt) : u.next.openWave = u.openWave := rfl
@[simp] theorem UnitSt.next_spanHints (u : UnitSt) : u.next.spanHints = u.spanHints := rfl
@[simp] theorem UnitSt.next_pes (u : UnitSt) : u.next.pes = u.pes := rfl
@[simp] theorem UnitSt.next_ms (u : UnitSt) : u.next.ms = u.ms := rfl
@[simp] theorem UnitSt.next_ovf (u : UnitSt) : u.next.ovf = u.ovf := rfl
@[simp] theorem UnitSt.next_sb (u : UnitSt) : u.next.sb = u.sb := rfl
@[simp] theorem UnitSt.next_nextId (u : UnitSt) : u.next.nextId = u.nextId := rfl
@[simp] theorem UnitSt.next_curFault (u : UnitSt) : u.next.curFault = u.curFault := rfl
@[simp] theorem UnitSt.next_pend (u : UnitSt) : u.next.pend = u.pend := rfl
@[simp] theorem UnitSt.next_quiet (u : UnitSt) : u.next.quiet = u.quiet := rfl
@[simp] theorem UnitSt.next_cameFrom (u : UnitSt) : u.next.cameFrom = u.cameFrom := rfl
@[simp] theorem UnitSt.next_ldgLine (u : UnitSt) : u.next.ldgLine = u.ldgLine := rfl
@[simp] theorem UnitSt.next_ctlAsked (u : UnitSt) : u.next.ctlAsked = u.ctlAsked := rfl
@[simp] theorem UnitSt.next_ctlHeld (u : UnitSt) : u.next.ctlHeld = u.ctlHeld := rfl
@[simp] theorem UnitSt.next_replies (u : UnitSt) : u.next.replies = u.replies := rfl
@[simp] theorem UnitSt.next_quantum (u : UnitSt) : u.next.quantum = u.quantum := rfl
@[simp] theorem UnitSt.next_ordCtr (u : UnitSt) : u.next.ordCtr = u.ordCtr := rfl
@[simp] theorem UnitSt.next_saveArea (u : UnitSt) : u.next.saveArea = u.saveArea := rfl
@[simp] theorem UnitSt.next_overrun (u : UnitSt) : u.next.overrun = u.overrun := rfl
@[simp] theorem UnitSt.next_savedEng (u : UnitSt) : u.next.savedEng = u.savedEng := rfl
@[simp] theorem UnitSt.next_savedMsgs (u : UnitSt) : u.next.savedMsgs = u.savedMsgs := rfl
@[simp] theorem UnitSt.next_savedRuns (u : UnitSt) : u.next.savedRuns = u.savedRuns := rfl
@[simp] theorem UnitSt.next_savedMq (u : UnitSt) : u.next.savedMq = u.savedMq := rfl
@[simp] theorem UnitSt.next_savedFlights (u : UnitSt) : u.next.savedFlights = u.savedFlights := rfl
@[simp] theorem UnitSt.next_haltRanks (u : UnitSt) : u.next.haltRanks = u.haltRanks := rfl
@[simp] theorem UnitSt.next_resumeDue (u : UnitSt) : u.next.resumeDue = u.resumeDue := rfl

@[simp] theorem UnitSt.jump_id (u : UnitSt) (t : Word) : (u.jump t).id = u.id := rfl
@[simp] theorem UnitSt.jump_job (u : UnitSt) (t : Word) : (u.jump t).job = u.job := rfl
@[simp] theorem UnitSt.jump_inst (u : UnitSt) (t : Word) : (u.jump t).inst = u.inst := rfl
@[simp] theorem UnitSt.jump_launch (u : UnitSt) (t : Word) : (u.jump t).launch = u.launch := rfl
@[simp] theorem UnitSt.jump_node (u : UnitSt) (t : Word) : (u.jump t).node = u.node := rfl
@[simp] theorem UnitSt.jump_queue (u : UnitSt) (t : Word) : (u.jump t).queue = u.queue := rfl
@[simp] theorem UnitSt.jump_unitid (u : UnitSt) (t : Word) : (u.jump t).unitid = u.unitid := rfl
@[simp] theorem UnitSt.jump_kseq (u : UnitSt) (t : Word) : (u.jump t).kseq = u.kseq := rfl
@[simp] theorem UnitSt.jump_die (u : UnitSt) (t : Word) : (u.jump t).die = u.die := rfl
@[simp] theorem UnitSt.jump_lead (u : UnitSt) (t : Word) : (u.jump t).lead = u.lead := rfl
@[simp] theorem UnitSt.jump_rshape (u : UnitSt) (t : Word) : (u.jump t).rshape = u.rshape := rfl
@[simp] theorem UnitSt.jump_ctx (u : UnitSt) (t : Word) : (u.jump t).ctx = u.ctx := rfl
@[simp] theorem UnitSt.jump_started (u : UnitSt) (t : Word) : (u.jump t).started = u.started := rfl
@[simp] theorem UnitSt.jump_status (u : UnitSt) (t : Word) : (u.jump t).status = u.status := rfl
@[simp] theorem UnitSt.jump_handler (u : UnitSt) (t : Word) : (u.jump t).handler = u.handler := rfl
@[simp] theorem UnitSt.jump_claim (u : UnitSt) (t : Word) : (u.jump t).claim = u.claim := rfl
@[simp] theorem UnitSt.jump_g (u : UnitSt) (t : Word) : (u.jump t).g = u.g := rfl
@[simp] theorem UnitSt.jump_tvec (u : UnitSt) (t : Word) : (u.jump t).tvec = u.tvec := rfl
@[simp] theorem UnitSt.jump_tepc (u : UnitSt) (t : Word) : (u.jump t).tepc = u.tepc := rfl
@[simp] theorem UnitSt.jump_tcause (u : UnitSt) (t : Word) : (u.jump t).tcause = u.tcause := rfl
@[simp] theorem UnitSt.jump_taddr (u : UnitSt) (t : Word) : (u.jump t).taddr = u.taddr := rfl
@[simp] theorem UnitSt.jump_ttag (u : UnitSt) (t : Word) : (u.jump t).ttag = u.ttag := rfl
@[simp] theorem UnitSt.jump_rm (u : UnitSt) (t : Word) : (u.jump t).rm = u.rm := rfl
@[simp] theorem UnitSt.jump_flags (u : UnitSt) (t : Word) : (u.jump t).flags = u.flags := rfl
@[simp] theorem UnitSt.jump_flagsNow (u : UnitSt) (t : Word) : (u.jump t).flagsNow = u.flagsNow := rfl
@[simp] theorem UnitSt.jump_col1 (u : UnitSt) (t : Word) : (u.jump t).col1 = u.col1 := rfl
@[simp] theorem UnitSt.jump_col2 (u : UnitSt) (t : Word) : (u.jump t).col2 = u.col2 := rfl
@[simp] theorem UnitSt.jump_col3 (u : UnitSt) (t : Word) : (u.jump t).col3 = u.col3 := rfl
@[simp] theorem UnitSt.jump_uctl (u : UnitSt) (t : Word) : (u.jump t).uctl = u.uctl := rfl
@[simp] theorem UnitSt.jump_ixb (u : UnitSt) (t : Word) : (u.jump t).ixb = u.ixb := rfl
@[simp] theorem UnitSt.jump_ixs (u : UnitSt) (t : Word) : (u.jump t).ixs = u.ixs := rfl
@[simp] theorem UnitSt.jump_ixn (u : UnitSt) (t : Word) : (u.jump t).ixn = u.ixn := rfl
@[simp] theorem UnitSt.jump_lvl (u : UnitSt) (t : Word) : (u.jump t).lvl = u.lvl := rfl
@[simp] theorem UnitSt.jump_ovft (u : UnitSt) (t : Word) : (u.jump t).ovft = u.ovft := rfl
@[simp] theorem UnitSt.jump_swz (u : UnitSt) (t : Word) : (u.jump t).swz = u.swz := rfl
@[simp] theorem UnitSt.jump_fired (u : UnitSt) (t : Word) : (u.jump t).fired = u.fired := rfl
@[simp] theorem UnitSt.jump_gates (u : UnitSt) (t : Word) : (u.jump t).gates = u.gates := rfl
@[simp] theorem UnitSt.jump_sinks (u : UnitSt) (t : Word) : (u.jump t).sinks = u.sinks := rfl
@[simp] theorem UnitSt.jump_active (u : UnitSt) (t : Word) : (u.jump t).active = u.active := rfl
@[simp] theorem UnitSt.jump_staged (u : UnitSt) (t : Word) : (u.jump t).staged = u.staged := rfl
@[simp] theorem UnitSt.jump_tags (u : UnitSt) (t : Word) : (u.jump t).tags = u.tags := rfl
@[simp] theorem UnitSt.jump_tagOrder (u : UnitSt) (t : Word) : (u.jump t).tagOrder = u.tagOrder := rfl
@[simp] theorem UnitSt.jump_freed (u : UnitSt) (t : Word) : (u.jump t).freed = u.freed := rfl
@[simp] theorem UnitSt.jump_decided (u : UnitSt) (t : Word) : (u.jump t).decided = u.decided := rfl
@[simp] theorem UnitSt.jump_openWave (u : UnitSt) (t : Word) : (u.jump t).openWave = u.openWave := rfl
@[simp] theorem UnitSt.jump_spanHints (u : UnitSt) (t : Word) : (u.jump t).spanHints = u.spanHints := rfl
@[simp] theorem UnitSt.jump_pes (u : UnitSt) (t : Word) : (u.jump t).pes = u.pes := rfl
@[simp] theorem UnitSt.jump_ms (u : UnitSt) (t : Word) : (u.jump t).ms = u.ms := rfl
@[simp] theorem UnitSt.jump_ovf (u : UnitSt) (t : Word) : (u.jump t).ovf = u.ovf := rfl
@[simp] theorem UnitSt.jump_sb (u : UnitSt) (t : Word) : (u.jump t).sb = u.sb := rfl
@[simp] theorem UnitSt.jump_nextId (u : UnitSt) (t : Word) : (u.jump t).nextId = u.nextId := rfl
@[simp] theorem UnitSt.jump_curFault (u : UnitSt) (t : Word) : (u.jump t).curFault = u.curFault := rfl
@[simp] theorem UnitSt.jump_pend (u : UnitSt) (t : Word) : (u.jump t).pend = u.pend := rfl
@[simp] theorem UnitSt.jump_quiet (u : UnitSt) (t : Word) : (u.jump t).quiet = u.quiet := rfl
@[simp] theorem UnitSt.jump_ldgLine (u : UnitSt) (t : Word) : (u.jump t).ldgLine = u.ldgLine := rfl
@[simp] theorem UnitSt.jump_ctlAsked (u : UnitSt) (t : Word) : (u.jump t).ctlAsked = u.ctlAsked := rfl
@[simp] theorem UnitSt.jump_ctlHeld (u : UnitSt) (t : Word) : (u.jump t).ctlHeld = u.ctlHeld := rfl
@[simp] theorem UnitSt.jump_replies (u : UnitSt) (t : Word) : (u.jump t).replies = u.replies := rfl
@[simp] theorem UnitSt.jump_quantum (u : UnitSt) (t : Word) : (u.jump t).quantum = u.quantum := rfl
@[simp] theorem UnitSt.jump_ordCtr (u : UnitSt) (t : Word) : (u.jump t).ordCtr = u.ordCtr := rfl
@[simp] theorem UnitSt.jump_saveArea (u : UnitSt) (t : Word) : (u.jump t).saveArea = u.saveArea := rfl
@[simp] theorem UnitSt.jump_overrun (u : UnitSt) (t : Word) : (u.jump t).overrun = u.overrun := rfl
@[simp] theorem UnitSt.jump_savedEng (u : UnitSt) (t : Word) : (u.jump t).savedEng = u.savedEng := rfl
@[simp] theorem UnitSt.jump_savedMsgs (u : UnitSt) (t : Word) : (u.jump t).savedMsgs = u.savedMsgs := rfl
@[simp] theorem UnitSt.jump_savedRuns (u : UnitSt) (t : Word) : (u.jump t).savedRuns = u.savedRuns := rfl
@[simp] theorem UnitSt.jump_savedMq (u : UnitSt) (t : Word) : (u.jump t).savedMq = u.savedMq := rfl
@[simp] theorem UnitSt.jump_savedFlights (u : UnitSt) (t : Word) : (u.jump t).savedFlights = u.savedFlights := rfl
@[simp] theorem UnitSt.jump_haltRanks (u : UnitSt) (t : Word) : (u.jump t).haltRanks = u.haltRanks := rfl
@[simp] theorem UnitSt.jump_resumeDue (u : UnitSt) (t : Word) : (u.jump t).resumeDue = u.resumeDue := rfl

@[simp] theorem UnitSt.modPe_id (u : UnitSt) (k : Nat) (f : PeCtx → PeCtx) : (u.modPe k f).id = u.id := rfl
@[simp] theorem UnitSt.modPe_job (u : UnitSt) (k : Nat) (f : PeCtx → PeCtx) : (u.modPe k f).job = u.job := rfl
@[simp] theorem UnitSt.modPe_inst (u : UnitSt) (k : Nat) (f : PeCtx → PeCtx) : (u.modPe k f).inst = u.inst := rfl
@[simp] theorem UnitSt.modPe_launch (u : UnitSt) (k : Nat) (f : PeCtx → PeCtx) : (u.modPe k f).launch = u.launch := rfl
@[simp] theorem UnitSt.modPe_node (u : UnitSt) (k : Nat) (f : PeCtx → PeCtx) : (u.modPe k f).node = u.node := rfl
@[simp] theorem UnitSt.modPe_queue (u : UnitSt) (k : Nat) (f : PeCtx → PeCtx) : (u.modPe k f).queue = u.queue := rfl
@[simp] theorem UnitSt.modPe_unitid (u : UnitSt) (k : Nat) (f : PeCtx → PeCtx) : (u.modPe k f).unitid = u.unitid := rfl
@[simp] theorem UnitSt.modPe_kseq (u : UnitSt) (k : Nat) (f : PeCtx → PeCtx) : (u.modPe k f).kseq = u.kseq := rfl
@[simp] theorem UnitSt.modPe_die (u : UnitSt) (k : Nat) (f : PeCtx → PeCtx) : (u.modPe k f).die = u.die := rfl
@[simp] theorem UnitSt.modPe_lead (u : UnitSt) (k : Nat) (f : PeCtx → PeCtx) : (u.modPe k f).lead = u.lead := rfl
@[simp] theorem UnitSt.modPe_rshape (u : UnitSt) (k : Nat) (f : PeCtx → PeCtx) : (u.modPe k f).rshape = u.rshape := rfl
@[simp] theorem UnitSt.modPe_ctx (u : UnitSt) (k : Nat) (f : PeCtx → PeCtx) : (u.modPe k f).ctx = u.ctx := rfl
@[simp] theorem UnitSt.modPe_started (u : UnitSt) (k : Nat) (f : PeCtx → PeCtx) : (u.modPe k f).started = u.started := rfl
@[simp] theorem UnitSt.modPe_status (u : UnitSt) (k : Nat) (f : PeCtx → PeCtx) : (u.modPe k f).status = u.status := rfl
@[simp] theorem UnitSt.modPe_handler (u : UnitSt) (k : Nat) (f : PeCtx → PeCtx) : (u.modPe k f).handler = u.handler := rfl
@[simp] theorem UnitSt.modPe_claim (u : UnitSt) (k : Nat) (f : PeCtx → PeCtx) : (u.modPe k f).claim = u.claim := rfl
@[simp] theorem UnitSt.modPe_ccnt (u : UnitSt) (k : Nat) (f : PeCtx → PeCtx) : (u.modPe k f).ccnt = u.ccnt := rfl
@[simp] theorem UnitSt.modPe_g (u : UnitSt) (k : Nat) (f : PeCtx → PeCtx) : (u.modPe k f).g = u.g := rfl
@[simp] theorem UnitSt.modPe_tvec (u : UnitSt) (k : Nat) (f : PeCtx → PeCtx) : (u.modPe k f).tvec = u.tvec := rfl
@[simp] theorem UnitSt.modPe_tepc (u : UnitSt) (k : Nat) (f : PeCtx → PeCtx) : (u.modPe k f).tepc = u.tepc := rfl
@[simp] theorem UnitSt.modPe_tcause (u : UnitSt) (k : Nat) (f : PeCtx → PeCtx) : (u.modPe k f).tcause = u.tcause := rfl
@[simp] theorem UnitSt.modPe_taddr (u : UnitSt) (k : Nat) (f : PeCtx → PeCtx) : (u.modPe k f).taddr = u.taddr := rfl
@[simp] theorem UnitSt.modPe_ttag (u : UnitSt) (k : Nat) (f : PeCtx → PeCtx) : (u.modPe k f).ttag = u.ttag := rfl
@[simp] theorem UnitSt.modPe_rm (u : UnitSt) (k : Nat) (f : PeCtx → PeCtx) : (u.modPe k f).rm = u.rm := rfl
@[simp] theorem UnitSt.modPe_flags (u : UnitSt) (k : Nat) (f : PeCtx → PeCtx) : (u.modPe k f).flags = u.flags := rfl
@[simp] theorem UnitSt.modPe_flagsNow (u : UnitSt) (k : Nat) (f : PeCtx → PeCtx) : (u.modPe k f).flagsNow = u.flagsNow := rfl
@[simp] theorem UnitSt.modPe_col1 (u : UnitSt) (k : Nat) (f : PeCtx → PeCtx) : (u.modPe k f).col1 = u.col1 := rfl
@[simp] theorem UnitSt.modPe_col2 (u : UnitSt) (k : Nat) (f : PeCtx → PeCtx) : (u.modPe k f).col2 = u.col2 := rfl
@[simp] theorem UnitSt.modPe_col3 (u : UnitSt) (k : Nat) (f : PeCtx → PeCtx) : (u.modPe k f).col3 = u.col3 := rfl
@[simp] theorem UnitSt.modPe_uctl (u : UnitSt) (k : Nat) (f : PeCtx → PeCtx) : (u.modPe k f).uctl = u.uctl := rfl
@[simp] theorem UnitSt.modPe_ixb (u : UnitSt) (k : Nat) (f : PeCtx → PeCtx) : (u.modPe k f).ixb = u.ixb := rfl
@[simp] theorem UnitSt.modPe_ixs (u : UnitSt) (k : Nat) (f : PeCtx → PeCtx) : (u.modPe k f).ixs = u.ixs := rfl
@[simp] theorem UnitSt.modPe_ixn (u : UnitSt) (k : Nat) (f : PeCtx → PeCtx) : (u.modPe k f).ixn = u.ixn := rfl
@[simp] theorem UnitSt.modPe_lvl (u : UnitSt) (k : Nat) (f : PeCtx → PeCtx) : (u.modPe k f).lvl = u.lvl := rfl
@[simp] theorem UnitSt.modPe_ovft (u : UnitSt) (k : Nat) (f : PeCtx → PeCtx) : (u.modPe k f).ovft = u.ovft := rfl
@[simp] theorem UnitSt.modPe_swz (u : UnitSt) (k : Nat) (f : PeCtx → PeCtx) : (u.modPe k f).swz = u.swz := rfl
@[simp] theorem UnitSt.modPe_fired (u : UnitSt) (k : Nat) (f : PeCtx → PeCtx) : (u.modPe k f).fired = u.fired := rfl
@[simp] theorem UnitSt.modPe_gates (u : UnitSt) (k : Nat) (f : PeCtx → PeCtx) : (u.modPe k f).gates = u.gates := rfl
@[simp] theorem UnitSt.modPe_sinks (u : UnitSt) (k : Nat) (f : PeCtx → PeCtx) : (u.modPe k f).sinks = u.sinks := rfl
@[simp] theorem UnitSt.modPe_active (u : UnitSt) (k : Nat) (f : PeCtx → PeCtx) : (u.modPe k f).active = u.active := rfl
@[simp] theorem UnitSt.modPe_staged (u : UnitSt) (k : Nat) (f : PeCtx → PeCtx) : (u.modPe k f).staged = u.staged := rfl
@[simp] theorem UnitSt.modPe_tags (u : UnitSt) (k : Nat) (f : PeCtx → PeCtx) : (u.modPe k f).tags = u.tags := rfl
@[simp] theorem UnitSt.modPe_tagOrder (u : UnitSt) (k : Nat) (f : PeCtx → PeCtx) : (u.modPe k f).tagOrder = u.tagOrder := rfl
@[simp] theorem UnitSt.modPe_freed (u : UnitSt) (k : Nat) (f : PeCtx → PeCtx) : (u.modPe k f).freed = u.freed := rfl
@[simp] theorem UnitSt.modPe_decided (u : UnitSt) (k : Nat) (f : PeCtx → PeCtx) : (u.modPe k f).decided = u.decided := rfl
@[simp] theorem UnitSt.modPe_openWave (u : UnitSt) (k : Nat) (f : PeCtx → PeCtx) : (u.modPe k f).openWave = u.openWave := rfl
@[simp] theorem UnitSt.modPe_spanHints (u : UnitSt) (k : Nat) (f : PeCtx → PeCtx) : (u.modPe k f).spanHints = u.spanHints := rfl
@[simp] theorem UnitSt.modPe_ms (u : UnitSt) (k : Nat) (f : PeCtx → PeCtx) : (u.modPe k f).ms = u.ms := rfl
@[simp] theorem UnitSt.modPe_ovf (u : UnitSt) (k : Nat) (f : PeCtx → PeCtx) : (u.modPe k f).ovf = u.ovf := rfl
@[simp] theorem UnitSt.modPe_sb (u : UnitSt) (k : Nat) (f : PeCtx → PeCtx) : (u.modPe k f).sb = u.sb := rfl
@[simp] theorem UnitSt.modPe_nextId (u : UnitSt) (k : Nat) (f : PeCtx → PeCtx) : (u.modPe k f).nextId = u.nextId := rfl
@[simp] theorem UnitSt.modPe_curFault (u : UnitSt) (k : Nat) (f : PeCtx → PeCtx) : (u.modPe k f).curFault = u.curFault := rfl
@[simp] theorem UnitSt.modPe_pend (u : UnitSt) (k : Nat) (f : PeCtx → PeCtx) : (u.modPe k f).pend = u.pend := rfl
@[simp] theorem UnitSt.modPe_quiet (u : UnitSt) (k : Nat) (f : PeCtx → PeCtx) : (u.modPe k f).quiet = u.quiet := rfl
@[simp] theorem UnitSt.modPe_wait (u : UnitSt) (k : Nat) (f : PeCtx → PeCtx) : (u.modPe k f).wait = u.wait := rfl
@[simp] theorem UnitSt.modPe_cameFrom (u : UnitSt) (k : Nat) (f : PeCtx → PeCtx) : (u.modPe k f).cameFrom = u.cameFrom := rfl
@[simp] theorem UnitSt.modPe_ldgLine (u : UnitSt) (k : Nat) (f : PeCtx → PeCtx) : (u.modPe k f).ldgLine = u.ldgLine := rfl
@[simp] theorem UnitSt.modPe_ctlAsked (u : UnitSt) (k : Nat) (f : PeCtx → PeCtx) : (u.modPe k f).ctlAsked = u.ctlAsked := rfl
@[simp] theorem UnitSt.modPe_ctlHeld (u : UnitSt) (k : Nat) (f : PeCtx → PeCtx) : (u.modPe k f).ctlHeld = u.ctlHeld := rfl
@[simp] theorem UnitSt.modPe_replies (u : UnitSt) (k : Nat) (f : PeCtx → PeCtx) : (u.modPe k f).replies = u.replies := rfl
@[simp] theorem UnitSt.modPe_watchdog (u : UnitSt) (k : Nat) (f : PeCtx → PeCtx) : (u.modPe k f).watchdog = u.watchdog := rfl
@[simp] theorem UnitSt.modPe_quantum (u : UnitSt) (k : Nat) (f : PeCtx → PeCtx) : (u.modPe k f).quantum = u.quantum := rfl
@[simp] theorem UnitSt.modPe_ordCtr (u : UnitSt) (k : Nat) (f : PeCtx → PeCtx) : (u.modPe k f).ordCtr = u.ordCtr := rfl
@[simp] theorem UnitSt.modPe_saveArea (u : UnitSt) (k : Nat) (f : PeCtx → PeCtx) : (u.modPe k f).saveArea = u.saveArea := rfl
@[simp] theorem UnitSt.modPe_overrun (u : UnitSt) (k : Nat) (f : PeCtx → PeCtx) : (u.modPe k f).overrun = u.overrun := rfl
@[simp] theorem UnitSt.modPe_savedEng (u : UnitSt) (k : Nat) (f : PeCtx → PeCtx) : (u.modPe k f).savedEng = u.savedEng := rfl
@[simp] theorem UnitSt.modPe_savedMsgs (u : UnitSt) (k : Nat) (f : PeCtx → PeCtx) : (u.modPe k f).savedMsgs = u.savedMsgs := rfl
@[simp] theorem UnitSt.modPe_savedRuns (u : UnitSt) (k : Nat) (f : PeCtx → PeCtx) : (u.modPe k f).savedRuns = u.savedRuns := rfl
@[simp] theorem UnitSt.modPe_savedMq (u : UnitSt) (k : Nat) (f : PeCtx → PeCtx) : (u.modPe k f).savedMq = u.savedMq := rfl
@[simp] theorem UnitSt.modPe_savedFlights (u : UnitSt) (k : Nat) (f : PeCtx → PeCtx) : (u.modPe k f).savedFlights = u.savedFlights := rfl
@[simp] theorem UnitSt.modPe_haltRanks (u : UnitSt) (k : Nat) (f : PeCtx → PeCtx) : (u.modPe k f).haltRanks = u.haltRanks := rfl
@[simp] theorem UnitSt.modPe_resumeDue (u : UnitSt) (k : Nat) (f : PeCtx → PeCtx) : (u.modPe k f).resumeDue = u.resumeDue := rfl

@[simp] theorem UnitSt.setG_id (u : UnitSt) (d : BitVec 5) (v : Word) : (u.setG d v).id = u.id := by unfold UnitSt.setG; split <;> rfl
@[simp] theorem UnitSt.setG_job (u : UnitSt) (d : BitVec 5) (v : Word) : (u.setG d v).job = u.job := by unfold UnitSt.setG; split <;> rfl
@[simp] theorem UnitSt.setG_inst (u : UnitSt) (d : BitVec 5) (v : Word) : (u.setG d v).inst = u.inst := by unfold UnitSt.setG; split <;> rfl
@[simp] theorem UnitSt.setG_launch (u : UnitSt) (d : BitVec 5) (v : Word) : (u.setG d v).launch = u.launch := by unfold UnitSt.setG; split <;> rfl
@[simp] theorem UnitSt.setG_node (u : UnitSt) (d : BitVec 5) (v : Word) : (u.setG d v).node = u.node := by unfold UnitSt.setG; split <;> rfl
@[simp] theorem UnitSt.setG_queue (u : UnitSt) (d : BitVec 5) (v : Word) : (u.setG d v).queue = u.queue := by unfold UnitSt.setG; split <;> rfl
@[simp] theorem UnitSt.setG_unitid (u : UnitSt) (d : BitVec 5) (v : Word) : (u.setG d v).unitid = u.unitid := by unfold UnitSt.setG; split <;> rfl
@[simp] theorem UnitSt.setG_kseq (u : UnitSt) (d : BitVec 5) (v : Word) : (u.setG d v).kseq = u.kseq := by unfold UnitSt.setG; split <;> rfl
@[simp] theorem UnitSt.setG_die (u : UnitSt) (d : BitVec 5) (v : Word) : (u.setG d v).die = u.die := by unfold UnitSt.setG; split <;> rfl
@[simp] theorem UnitSt.setG_lead (u : UnitSt) (d : BitVec 5) (v : Word) : (u.setG d v).lead = u.lead := by unfold UnitSt.setG; split <;> rfl
@[simp] theorem UnitSt.setG_rshape (u : UnitSt) (d : BitVec 5) (v : Word) : (u.setG d v).rshape = u.rshape := by unfold UnitSt.setG; split <;> rfl
@[simp] theorem UnitSt.setG_ctx (u : UnitSt) (d : BitVec 5) (v : Word) : (u.setG d v).ctx = u.ctx := by unfold UnitSt.setG; split <;> rfl
@[simp] theorem UnitSt.setG_started (u : UnitSt) (d : BitVec 5) (v : Word) : (u.setG d v).started = u.started := by unfold UnitSt.setG; split <;> rfl
@[simp] theorem UnitSt.setG_status (u : UnitSt) (d : BitVec 5) (v : Word) : (u.setG d v).status = u.status := by unfold UnitSt.setG; split <;> rfl
@[simp] theorem UnitSt.setG_handler (u : UnitSt) (d : BitVec 5) (v : Word) : (u.setG d v).handler = u.handler := by unfold UnitSt.setG; split <;> rfl
@[simp] theorem UnitSt.setG_claim (u : UnitSt) (d : BitVec 5) (v : Word) : (u.setG d v).claim = u.claim := by unfold UnitSt.setG; split <;> rfl
@[simp] theorem UnitSt.setG_ccnt (u : UnitSt) (d : BitVec 5) (v : Word) : (u.setG d v).ccnt = u.ccnt := by unfold UnitSt.setG; split <;> rfl
@[simp] theorem UnitSt.setG_tvec (u : UnitSt) (d : BitVec 5) (v : Word) : (u.setG d v).tvec = u.tvec := by unfold UnitSt.setG; split <;> rfl
@[simp] theorem UnitSt.setG_tepc (u : UnitSt) (d : BitVec 5) (v : Word) : (u.setG d v).tepc = u.tepc := by unfold UnitSt.setG; split <;> rfl
@[simp] theorem UnitSt.setG_tcause (u : UnitSt) (d : BitVec 5) (v : Word) : (u.setG d v).tcause = u.tcause := by unfold UnitSt.setG; split <;> rfl
@[simp] theorem UnitSt.setG_taddr (u : UnitSt) (d : BitVec 5) (v : Word) : (u.setG d v).taddr = u.taddr := by unfold UnitSt.setG; split <;> rfl
@[simp] theorem UnitSt.setG_ttag (u : UnitSt) (d : BitVec 5) (v : Word) : (u.setG d v).ttag = u.ttag := by unfold UnitSt.setG; split <;> rfl
@[simp] theorem UnitSt.setG_rm (u : UnitSt) (d : BitVec 5) (v : Word) : (u.setG d v).rm = u.rm := by unfold UnitSt.setG; split <;> rfl
@[simp] theorem UnitSt.setG_flags (u : UnitSt) (d : BitVec 5) (v : Word) : (u.setG d v).flags = u.flags := by unfold UnitSt.setG; split <;> rfl
@[simp] theorem UnitSt.setG_flagsNow (u : UnitSt) (d : BitVec 5) (v : Word) : (u.setG d v).flagsNow = u.flagsNow := by unfold UnitSt.setG; split <;> rfl
@[simp] theorem UnitSt.setG_col1 (u : UnitSt) (d : BitVec 5) (v : Word) : (u.setG d v).col1 = u.col1 := by unfold UnitSt.setG; split <;> rfl
@[simp] theorem UnitSt.setG_col2 (u : UnitSt) (d : BitVec 5) (v : Word) : (u.setG d v).col2 = u.col2 := by unfold UnitSt.setG; split <;> rfl
@[simp] theorem UnitSt.setG_col3 (u : UnitSt) (d : BitVec 5) (v : Word) : (u.setG d v).col3 = u.col3 := by unfold UnitSt.setG; split <;> rfl
@[simp] theorem UnitSt.setG_uctl (u : UnitSt) (d : BitVec 5) (v : Word) : (u.setG d v).uctl = u.uctl := by unfold UnitSt.setG; split <;> rfl
@[simp] theorem UnitSt.setG_ixb (u : UnitSt) (d : BitVec 5) (v : Word) : (u.setG d v).ixb = u.ixb := by unfold UnitSt.setG; split <;> rfl
@[simp] theorem UnitSt.setG_ixs (u : UnitSt) (d : BitVec 5) (v : Word) : (u.setG d v).ixs = u.ixs := by unfold UnitSt.setG; split <;> rfl
@[simp] theorem UnitSt.setG_ixn (u : UnitSt) (d : BitVec 5) (v : Word) : (u.setG d v).ixn = u.ixn := by unfold UnitSt.setG; split <;> rfl
@[simp] theorem UnitSt.setG_lvl (u : UnitSt) (d : BitVec 5) (v : Word) : (u.setG d v).lvl = u.lvl := by unfold UnitSt.setG; split <;> rfl
@[simp] theorem UnitSt.setG_ovft (u : UnitSt) (d : BitVec 5) (v : Word) : (u.setG d v).ovft = u.ovft := by unfold UnitSt.setG; split <;> rfl
@[simp] theorem UnitSt.setG_swz (u : UnitSt) (d : BitVec 5) (v : Word) : (u.setG d v).swz = u.swz := by unfold UnitSt.setG; split <;> rfl
@[simp] theorem UnitSt.setG_fired (u : UnitSt) (d : BitVec 5) (v : Word) : (u.setG d v).fired = u.fired := by unfold UnitSt.setG; split <;> rfl
@[simp] theorem UnitSt.setG_gates (u : UnitSt) (d : BitVec 5) (v : Word) : (u.setG d v).gates = u.gates := by unfold UnitSt.setG; split <;> rfl
@[simp] theorem UnitSt.setG_sinks (u : UnitSt) (d : BitVec 5) (v : Word) : (u.setG d v).sinks = u.sinks := by unfold UnitSt.setG; split <;> rfl
@[simp] theorem UnitSt.setG_active (u : UnitSt) (d : BitVec 5) (v : Word) : (u.setG d v).active = u.active := by unfold UnitSt.setG; split <;> rfl
@[simp] theorem UnitSt.setG_staged (u : UnitSt) (d : BitVec 5) (v : Word) : (u.setG d v).staged = u.staged := by unfold UnitSt.setG; split <;> rfl
@[simp] theorem UnitSt.setG_tags (u : UnitSt) (d : BitVec 5) (v : Word) : (u.setG d v).tags = u.tags := by unfold UnitSt.setG; split <;> rfl
@[simp] theorem UnitSt.setG_tagOrder (u : UnitSt) (d : BitVec 5) (v : Word) : (u.setG d v).tagOrder = u.tagOrder := by unfold UnitSt.setG; split <;> rfl
@[simp] theorem UnitSt.setG_freed (u : UnitSt) (d : BitVec 5) (v : Word) : (u.setG d v).freed = u.freed := by unfold UnitSt.setG; split <;> rfl
@[simp] theorem UnitSt.setG_decided (u : UnitSt) (d : BitVec 5) (v : Word) : (u.setG d v).decided = u.decided := by unfold UnitSt.setG; split <;> rfl
@[simp] theorem UnitSt.setG_openWave (u : UnitSt) (d : BitVec 5) (v : Word) : (u.setG d v).openWave = u.openWave := by unfold UnitSt.setG; split <;> rfl
@[simp] theorem UnitSt.setG_spanHints (u : UnitSt) (d : BitVec 5) (v : Word) : (u.setG d v).spanHints = u.spanHints := by unfold UnitSt.setG; split <;> rfl
@[simp] theorem UnitSt.setG_pes (u : UnitSt) (d : BitVec 5) (v : Word) : (u.setG d v).pes = u.pes := by unfold UnitSt.setG; split <;> rfl
@[simp] theorem UnitSt.setG_ms (u : UnitSt) (d : BitVec 5) (v : Word) : (u.setG d v).ms = u.ms := by unfold UnitSt.setG; split <;> rfl
@[simp] theorem UnitSt.setG_ovf (u : UnitSt) (d : BitVec 5) (v : Word) : (u.setG d v).ovf = u.ovf := by unfold UnitSt.setG; split <;> rfl
@[simp] theorem UnitSt.setG_sb (u : UnitSt) (d : BitVec 5) (v : Word) : (u.setG d v).sb = u.sb := by unfold UnitSt.setG; split <;> rfl
@[simp] theorem UnitSt.setG_nextId (u : UnitSt) (d : BitVec 5) (v : Word) : (u.setG d v).nextId = u.nextId := by unfold UnitSt.setG; split <;> rfl
@[simp] theorem UnitSt.setG_curFault (u : UnitSt) (d : BitVec 5) (v : Word) : (u.setG d v).curFault = u.curFault := by unfold UnitSt.setG; split <;> rfl
@[simp] theorem UnitSt.setG_pend (u : UnitSt) (d : BitVec 5) (v : Word) : (u.setG d v).pend = u.pend := by unfold UnitSt.setG; split <;> rfl
@[simp] theorem UnitSt.setG_quiet (u : UnitSt) (d : BitVec 5) (v : Word) : (u.setG d v).quiet = u.quiet := by unfold UnitSt.setG; split <;> rfl
@[simp] theorem UnitSt.setG_wait (u : UnitSt) (d : BitVec 5) (v : Word) : (u.setG d v).wait = u.wait := by unfold UnitSt.setG; split <;> rfl
@[simp] theorem UnitSt.setG_cameFrom (u : UnitSt) (d : BitVec 5) (v : Word) : (u.setG d v).cameFrom = u.cameFrom := by unfold UnitSt.setG; split <;> rfl
@[simp] theorem UnitSt.setG_ldgLine (u : UnitSt) (d : BitVec 5) (v : Word) : (u.setG d v).ldgLine = u.ldgLine := by unfold UnitSt.setG; split <;> rfl
@[simp] theorem UnitSt.setG_ctlAsked (u : UnitSt) (d : BitVec 5) (v : Word) : (u.setG d v).ctlAsked = u.ctlAsked := by unfold UnitSt.setG; split <;> rfl
@[simp] theorem UnitSt.setG_ctlHeld (u : UnitSt) (d : BitVec 5) (v : Word) : (u.setG d v).ctlHeld = u.ctlHeld := by unfold UnitSt.setG; split <;> rfl
@[simp] theorem UnitSt.setG_replies (u : UnitSt) (d : BitVec 5) (v : Word) : (u.setG d v).replies = u.replies := by unfold UnitSt.setG; split <;> rfl
@[simp] theorem UnitSt.setG_watchdog (u : UnitSt) (d : BitVec 5) (v : Word) : (u.setG d v).watchdog = u.watchdog := by unfold UnitSt.setG; split <;> rfl
@[simp] theorem UnitSt.setG_quantum (u : UnitSt) (d : BitVec 5) (v : Word) : (u.setG d v).quantum = u.quantum := by unfold UnitSt.setG; split <;> rfl
@[simp] theorem UnitSt.setG_ordCtr (u : UnitSt) (d : BitVec 5) (v : Word) : (u.setG d v).ordCtr = u.ordCtr := by unfold UnitSt.setG; split <;> rfl
@[simp] theorem UnitSt.setG_saveArea (u : UnitSt) (d : BitVec 5) (v : Word) : (u.setG d v).saveArea = u.saveArea := by unfold UnitSt.setG; split <;> rfl
@[simp] theorem UnitSt.setG_overrun (u : UnitSt) (d : BitVec 5) (v : Word) : (u.setG d v).overrun = u.overrun := by unfold UnitSt.setG; split <;> rfl
@[simp] theorem UnitSt.setG_savedEng (u : UnitSt) (d : BitVec 5) (v : Word) : (u.setG d v).savedEng = u.savedEng := by unfold UnitSt.setG; split <;> rfl
@[simp] theorem UnitSt.setG_savedMsgs (u : UnitSt) (d : BitVec 5) (v : Word) : (u.setG d v).savedMsgs = u.savedMsgs := by unfold UnitSt.setG; split <;> rfl
@[simp] theorem UnitSt.setG_savedRuns (u : UnitSt) (d : BitVec 5) (v : Word) : (u.setG d v).savedRuns = u.savedRuns := by unfold UnitSt.setG; split <;> rfl
@[simp] theorem UnitSt.setG_savedMq (u : UnitSt) (d : BitVec 5) (v : Word) : (u.setG d v).savedMq = u.savedMq := by unfold UnitSt.setG; split <;> rfl
@[simp] theorem UnitSt.setG_savedFlights (u : UnitSt) (d : BitVec 5) (v : Word) : (u.setG d v).savedFlights = u.savedFlights := by unfold UnitSt.setG; split <;> rfl
@[simp] theorem UnitSt.setG_haltRanks (u : UnitSt) (d : BitVec 5) (v : Word) : (u.setG d v).haltRanks = u.haltRanks := by unfold UnitSt.setG; split <;> rfl
@[simp] theorem UnitSt.setG_resumeDue (u : UnitSt) (d : BitVec 5) (v : Word) : (u.setG d v).resumeDue = u.resumeDue := by unfold UnitSt.setG; split <;> rfl

/-! ### Readers after updates -/

theorem amod_of_some {κ α : Type} [DecidableEq κ] {l : List (κ × α)} {k : κ} {x : α} (h : aget l k = some x) (f : α → α) :
    amod l k f = aset l k (f x) := by simp [amod, h]

theorem aget_amod {κ α : Type} [DecidableEq κ] (l : List (κ × α)) (k k' : κ) (f : α → α) :
    aget (amod l k f) k' = if k = k' then (aget l k).map f else aget l k' := by
  unfold amod
  cases h : aget l k with
  | none => by_cases hk : k = k' <;> simp [hk]; rw [← hk, h]
  | some v => by_cases hk : k = k' <;> simp [aget_aset, hk]

/-- A present unit after an update of one unit. -/
theorem State.aget_modUnit (s : State) (u v : Nat) (f : UnitSt → UnitSt) :
    aget (s.modUnit u f).units v = if u = v then (aget s.units u).map f else aget s.units v := aget_amod ..

@[simp] theorem State.unit_setUnit_self (s : State) (u : Nat) (v : UnitSt) : (s.setUnit u v).unit u = v := by
  simp [State.unit, State.setUnit, agetD]
theorem State.unit_setUnit_other (s : State) {u w : Nat} (v : UnitSt) (h : u ≠ w) : (s.setUnit u v).unit w = s.unit w := by
  simp [State.unit, State.setUnit, agetD, aget_aset, h]
theorem State.unit_of_aget {s : State} {u : Nat} {x : UnitSt} (h : aget s.units u = some x) : s.unit u = x := by
  simp [State.unit, agetD, h]
theorem State.unit_modUnit_self {s : State} {u : Nat} {x : UnitSt} (h : aget s.units u = some x) (f : UnitSt → UnitSt) :
    (s.modUnit u f).unit u = f x := by simp [State.unit, agetD, State.aget_modUnit, h]
theorem State.unit_modUnit_other (s : State) {u w : Nat} (f : UnitSt → UnitSt) (h : u ≠ w) : (s.modUnit u f).unit w = s.unit w := by
  simp [State.unit, agetD, State.aget_modUnit, h]
/-- The update of a present unit, as a record. -/
theorem State.modUnit_of_aget {s : State} {u : Nat} {x : UnitSt} (h : aget s.units u = some x) (f : UnitSt → UnitSt) :
    s.modUnit u f = { s with units := aset s.units u (f x) } := by simp [State.modUnit, amod_of_some h]
/-- Two updates of one unit are one. -/
@[simp] theorem State.modUnit_modUnit (s : State) (u : Nat) (f g : UnitSt → UnitSt) :
    (s.modUnit u f).modUnit u g = s.modUnit u (fun x => g (f x)) := by
  cases h : aget s.units u <;> simp [State.modUnit, amod, h]
@[simp] theorem State.cluster_modCluster_self (s : State) (c : Nat) (f : Cluster → Cluster) : (s.modCluster c f).cluster c = f (s.cluster c) := by
  simp [State.cluster, State.modCluster, agetD]
theorem State.cluster_modCluster_other (s : State) {c d : Nat} (f : Cluster → Cluster) (h : c ≠ d) : (s.modCluster c f).cluster d = s.cluster d := by
  simp [State.cluster, State.modCluster, agetD, aget_aset, h]
@[simp] theorem State.dirOf_modDir_self (s : State) (l : Nat) (f : DirEntry → DirEntry) : (s.modDir l f).dirOf l = f (s.dirOf l) := by
  simp [State.dirOf, State.modDir, agetD]
theorem State.dirOf_modDir_other (s : State) {l k : Nat} (f : DirEntry → DirEntry) (h : l ≠ k) : (s.modDir l f).dirOf k = s.dirOf k := by
  simp [State.dirOf, State.modDir, agetD, aget_aset, h]
@[simp] theorem UnitSt.pe_modPe_self (u : UnitSt) (k : Nat) (f : PeCtx → PeCtx) : (u.modPe k f).pe k = f (u.pe k) := by
  simp [UnitSt.pe, UnitSt.modPe, UnitSt.setPe, agetD]
theorem UnitSt.pe_modPe_other (u : UnitSt) {k j : Nat} (f : PeCtx → PeCtx) (h : k ≠ j) : (u.modPe k f).pe j = u.pe j := by
  simp [UnitSt.pe, UnitSt.modPe, UnitSt.setPe, agetD, aget_aset, h]
@[simp] theorem PeCtx.queue_setQueue (p : PeCtx) (q r : Nat) (l : List Token) : (p.setQueue q l).queue r = if r = q then l else p.queue r := by
  simp [PeCtx.queue, PeCtx.setQueue, lget_lput]
@[simp] theorem PeCtx.reg_setReg (p : PeCtx) (e k : Nat) (r : EReg) : (p.setReg e r).reg k = if k = e then r else p.reg k := by
  simp [PeCtx.reg, PeCtx.setReg, lget_lput]
theorem UnitSt.setG_zero (u : UnitSt) (v : Word) : u.setG 0#5 v = u := by simp [UnitSt.setG]

end Sys2Proof.Machine
end

