-- ==== Sys2Proof/Laws/Shared.lean ====
section
/-! SUPPORT. What the shared operations can do, one law each: readiness of a firing, the end of a computing firing, taking a
fault, the frame of a control word, the acceptance of an engine command, lanes of a joined word. -/

namespace Sys2Proof.Laws

open Sys2Proof Sys2Proof.Machine Sys2Proof.Claims

/-! ### Lanes -/

theorem joinLanes_lt (w : Nat) (l : List Nat) : joinLanes w l < 2 ^ (w * l.length) := by
  induction l with
  | nil => simp [joinLanes]
  | cons x r ih =>
    simp only [joinLanes, List.length_cons, Nat.mul_succ, Nat.add_comm (w * r.length) w, Nat.pow_add]
    have hx : x % 2 ^ w < 2 ^ w := Nat.mod_lt _ (Nat.two_pow_pos w)
    calc x % 2 ^ w + 2 ^ w * joinLanes w r < 2 ^ w + 2 ^ w * joinLanes w r := by omega
      _ = 2 ^ w * (joinLanes w r + 1) := by rw [Nat.mul_succ, Nat.add_comm]
      _ ≤ 2 ^ w * 2 ^ (w * r.length) := Nat.mul_le_mul_left _ ih

theorem joinLanes_div (w : Nat) (l : List Nat) (k : Nat) : joinLanes w l / 2 ^ (w * k) % 2 ^ w = lget l k 0 % 2 ^ w := by
  induction l generalizing k with
  | nil => simp [joinLanes, lget]
  | cons x r ih =>
    cases k with
    | zero => simp [joinLanes, lget]
    | succ k =>
      rw [lget, ← ih k, joinLanes, Nat.mul_succ, Nat.add_comm (w * k) w, Nat.pow_add, ← Nat.div_div_eq_div_mul,
        Nat.add_mul_div_left _ _ (Nat.two_pow_pos w), Nat.div_eq_of_lt (Nat.mod_lt _ (Nat.two_pow_pos w)), Nat.zero_add]

/-- Lane `k` of lanes joined into a payload (R56). -/
theorem lane_joinW (w : Nat) (l : List Nat) (k : Nat) (h : w * l.length ≤ 64) : lane (joinW w l) w k = lget l k 0 % 2 ^ w := by
  have hlt : joinLanes w l < 2 ^ 64 := Nat.lt_of_lt_of_le (joinLanes_lt w l) (Nat.pow_le_pow_right (by omega) h)
  rw [lane, joinW, wd, BitVec.toNat_ofNat, Nat.mod_eq_of_lt hlt, joinLanes_div]

theorem lane_lt (v : Word) (w l : Nat) : lane v w l < 2 ^ w := Nat.mod_lt _ (Nat.two_pow_pos w)

/-! ### Firings -/

/-- What a firing that goes has: its PE, its tokens, its operands and its tag. -/
theorem prepFire_go {opc : Nat} {w : PeWord} {s s1 : State} {ok : UnitSt → Token → Bool} {more : PeCtx → Bool} {uid key : Nat} {g : Gathered}
    (h : prepFire opc w s ok more = .go s1 uid key g) :
    s.focusPe = some (uid, key) ∧ s1 = s.setUnit uid ((s.unit uid).purge key) ∧
      ((s.unit uid).purge key).matchSet key (selQueues w) (ok ((s.unit uid).purge key)) = some g.toks ∧
      wordFault opc ((s.unit uid).purge key).rm w = none ∧ (g.a, g.b, g.c) = operandsOf opc w (((s.unit uid).purge key).pe key) g.toks := by
  unfold prepFire at h
  split at h
  · cases h
  · next u k hf =>
    simp only at h
    split at h
    · cases h
    · split at h
      · cases h
      · next toks hm =>
        unfold checkFiring at h
        simp only [State.unit_setUnit_self] at h
        split at h
        · cases h
        · next hw =>
          split at h
          · cases h
          · split at h
            · cases h
            · split at h
              · cases h
              · cases h
                exact ⟨hf, rfl, hm, hw, rfl⟩

/-- A computing firing that raises no enabled flag is committed and delivered. -/
theorem finishCalc_ok {w : PeWord} {s : State} {uid key : Nat} {g : Gathered} {v : Word} {t : Nat} {fl : List (Nat × Nat)}
    (h : trapFlag (s.unit uid).uctl.toNat (flagUnion fl) = none) :
    finishCalc w s uid key g (.ok v t fl) = afterCalc s uid key w g v t (flagUnion fl) := by
  simp [finishCalc, h, afterCalc]

/-- What a memory-class firing does: it waits, takes a cause, or enters the buffer (R227). -/
theorem fireMem_go {opc : Nat} {op : MemOp} {ok : UnitSt → Token → Bool} {req : State → Nat → PeWord → Gathered → MemReq} {w : PeWord}
    {s s1 : State} {uid key : Nat} {g : Gathered} (h : prepFire opc w s ok = .go s1 uid key g) :
    fireMem opc op ok req w s = s1 ∨ (∃ r, fireMem opc op ok req w s = s1.faultAt uid key r) ∨
      ∃ e, fireMem opc op ok req w s = s1.enterBuffer uid key g.toks e ∧ e.op = op := by
  simp only [fireMem, h]
  split
  · exact .inl rfl
  · split
    · exact .inr (.inl ⟨_, rfl⟩)
    · split
      · exact .inr (.inl ⟨_, rfl⟩)
      · exact .inr (.inr ⟨_, rfl, rfl⟩)

/-! ### Faults -/

/-- Taking a fault: nothing (an ended, saved or placed unit), a fault that waits, the handler, or an escalation. -/
theorem takeFault_cases (s : State) (uid : Nat) (key : Option Nat) (r : Raised) :
    s.takeFault uid key r = s ∨ s.takeFault uid key r = s.modUnit uid (fun u => { u with pend := u.pend ++ [(key, r)] }) ∨
      s.takeFault uid key r = s.modUnit uid (fun u => u.enterHandler key r) ∨ s.takeFault uid key r = s.escalate uid key r := by
  unfold State.takeFault
  simp only
  split
  · split
    · exact .inr (.inr (.inr rfl))
    · split
      · split
        · exact .inr (.inr (.inr rfl))
        · exact .inr (.inl rfl)
      · split
        · exact .inr (.inr (.inr rfl))
        · exact .inr (.inr (.inl rfl))
  · exact .inr (.inr (.inr rfl))
  · exact .inr (.inl rfl)
  · exact .inl rfl

/-! ### Control words -/

/-- A control word of a running unit whose fields keep the table acts. -/
theorem seqWord_acts {op : Nat} {c : CWord} {s : State} {u : UnitSt} (h : Sequencing s u) (hc : ctlFieldsOk op c = true) (body : Nat → UnitSt → State) :
    seqWord op c s body = body s.curUnit u := by
  obtain ⟨h1, h2⟩ := h
  simp [seqWord, h1, hc, UnitSt.isRunning, h2]
/-- One whose fields break the table raises 0x0E1. -/
theorem seqWord_bad {op : Nat} {c : CWord} {s : State} {u : UnitSt} (h : Sequencing s u) (hc : ctlFieldsOk op c = false) (body : Nat → UnitSt → State) :
    seqWord op c s body = s.ctlFault s.curUnit 0x0E1 := by
  obtain ⟨h1, h2⟩ := h
  simp [seqWord, h1, hc, UnitSt.isRunning, h2]
/-- A word changes the state only by its body or by the fault of its fields. -/
theorem seqWord_cases (op : Nat) (c : CWord) (s : State) (body : Nat → UnitSt → State) :
    seqWord op c s body = s ∨ seqWord op c s body = s.ctlFault s.curUnit 0x0E1 ∨
      ∃ u, aget s.units s.curUnit = some u ∧ seqWord op c s body = body s.curUnit u := by
  unfold seqWord
  split
  · exact .inl rfl
  · next u hu =>
    split
    · exact .inl rfl
    · split
      · exact .inr (.inl rfl)
      · exact .inr (.inr ⟨u, hu, rfl⟩)

/-! ### Engine commands -/

/-- A message that meets no obstacle at steps 10 and 11 does what its own body answers. -/
theorem acceptMessage_ok {s : State} {e : EngineId} {m : InMsg} {rest : List InMsg} {ea : Nat} {hw : Word}
    (h7 : s.runsOf e < 8 ∨ e.kind = .matrix ∨ e.kind = .collective)
    (h8 : m.msg.hpop = 0#4 ∨ m.popped = true ∨ s.canPop m.cl m.msg.hpop.toNat (engineCode e.kind) = true)
    {im : InMsg} (him : im = { m with popped := true, checked := true, busySince := none }) {s1 : State}
    (hs1 : s1 = (if m.msg.hpop != 0#4 && !m.popped then s.popHandoff m.cl m.msg.hpop.toNat (engineCode e.kind) else s).setInbox e (im :: rest))
    (body : State → InMsg → (Nat → Word) → CmdRes) :
    s.acceptMessage e m rest ea hw body =
      match body s1 im (s1.operand im ea) with
      | .wait s2 => s2
      | .nack s2 c => commandRefused e s2 im c hw
      | .fail s2 f a => (s2.setInbox e ((s2.inbox e).drop 1)).nackF e im f a
      | .done s2 => commandRuns e s2 im []
      | .run s2 p => commandRuns e s2 im p
      | .taken s2 => commandTaken e s2 := by
  subst him hs1
  have c7 : (decide (8 ≤ s.runsOf e) && e.kind != .matrix && e.kind != .collective) = false := by
    rcases h7 with h | h | h
    · have : ¬ 8 ≤ s.runsOf e := by omega
      simp [this]
    · simp [h]
    · simp [h]
  have c8 : (m.msg.hpop != 0#4 && !m.popped && !s.canPop m.cl m.msg.hpop.toNat (engineCode e.kind)) = false := by
    rcases h8 with h | h | h <;> simp [h]
  unfold State.acceptMessage
  simp only [c7, c8, if_false, Bool.false_eq_true, commandRefused, commandRuns, commandTaken]
/-- A command that passes R261 does what its own body answers. -/
theorem runCommand_accepts {i : Instr} {opc h : Nat} {s s1 : State} {im : InMsg} {w : Nat → Word} (H : Accepts i opc s s1 im h w) :
    ∃ N, cmdOf i = some (opc, N, im.msg) ∧ ∀ body, runCommand opc N im.msg s body =
      match body s1 im w with
      | .wait s2 => s2
      | .nack s2 c => commandRefused s.curEng s2 im c (wd h)
      | .fail s2 f a => (s2.setInbox s.curEng ((s2.inbox s.curEng).drop 1)).nackF s.curEng im f a
      | .done s2 => commandRuns s.curEng s2 im []
      | .run s2 p => commandRuns s.curEng s2 im p
      | .taken s2 => commandTaken s.curEng s2 := by
  obtain ⟨N, m, rest, ea, ⟨a1, a2, a3, a4, a5, a6⟩, ⟨h2, h3, h4, h5, h6⟩, hc, h7, h8, h9, h10, h11⟩ := H
  refine ⟨N, by rw [h9]; exact a1, fun body => ?_⟩
  have hm : im.msg = m.msg := by rw [h9]
  have c1 : (m.opc.toNat != opc || m.msg != m.msg || engineOf opc m.cl != some s.curEng) = false := by simp [a3, a4]
  have c2 : messageCause s.curEng m.msg = none := by
    have : ¬ 6 < m.msg.nptr.toNat := by omega
    simp [messageCause, this, h3, h4]
  have key := acceptMessage_ok (ea := ea) (hw := wd h) h7 h8 h9 h10 body
  rw [← h11] at key
  rw [← key, hm]
  unfold runCommand
  simp only [a2, c1, a5, a6, if_false, Bool.false_eq_true, c2, ite_self, h5, h6, Bool.not_true]
  rcases hc with hc | hc
  · simp [hc]
  · simp only [commandChecks, List.all_cons, List.all_nil, Bool.and_true, Bool.and_eq_true, Bool.not_eq_true', bne_eq_false_iff_eq] at hc
    obtain ⟨b1, b2, b3, b4, b5, b6, b7⟩ := hc
    have c6 : ¬ N < m.msg.nptr.toNat := by simpa using b6
    have c5 : (bits h 55 48 != opc || opc == 0x17) = false := by simpa using b5
    have ce : s.entryCause s.curEng opc N m h = none := by
      unfold State.entryCause
      simp only [b2, b3, b4, c5, c6, b7, if_false, Bool.false_eq_true]
      simp
    simp only [b1, ce, b3, if_false, Bool.false_eq_true, ite_self]

/-! ### Memories -/

theorem memsOk_putHome {s : State} (h : s.memsOk) (xa : Nat) (b : Byte) : (s.putHome xa b).memsOk := by
  obtain ⟨h1, h2, h3, h4⟩ := h
  unfold State.putHome
  split
  · exact ⟨h1, h2, h3, h4⟩
  · split
    · exact ⟨h1, h2, h3, wf_wr h4 _ _⟩
    · exact ⟨wf_wr h1 _ _, h2, h3, h4⟩
theorem memsOk_putHomeBytes {s : State} (h : s.memsOk) (xa : Nat) (bs : List Byte) : (s.putHomeBytes xa bs).memsOk := by
  induction bs generalizing s xa with
  | nil => exact h
  | cons b r ih => exact ih (memsOk_putHome h xa b) (xa + 1)
theorem memsOk_writeWords {s : State} (h : s.memsOk) (region : Nat) (l : List (Nat × Word32)) : (s.writeWords region l).memsOk := by
  induction l generalizing s with
  | nil => exact h
  | cons p r ih => exact ih (memsOk_putHomeBytes h _ _)
/-- A fold of operations that keep the form keeps it. -/
theorem memsOk_foldl {α : Type} (f : State → α → State) (hf : ∀ s a, s.memsOk → (f s a).memsOk) (l : List α) {s : State} (h : s.memsOk) :
    (l.foldl f s).memsOk := by
  induction l generalizing s with
  | nil => exact h
  | cons a r ih => exact ih (hf s a h)
theorem memsOk_modDir {s : State} (h : s.memsOk) (l : Nat) (f : DirEntry → DirEntry) : (s.modDir l f).memsOk := h
theorem memsOk_modUnit {s : State} (h : s.memsOk) (u : Nat) (f : UnitSt → UnitSt) : (s.modUnit u f).memsOk := h
theorem memsOk_modCluster {s : State} (h : s.memsOk) (c : Nat) (f : Cluster → Cluster) : (s.modCluster c f).memsOk := h
theorem memsOk_writeBack {s : State} (h : s.memsOk) (line : Nat) (l : List Span) : (s.writeBack line l).memsOk := by
  unfold State.writeBack
  simp only
  split
  · exact h
  · exact memsOk_modDir (s := s.writeWords _ _) (memsOk_writeWords h _ _) _ _
theorem memsOk_splitLine {s : State} (h : s.memsOk) (cl line : Nat) (back : Bool) : (s.splitLine cl line back).1.memsOk := by
  unfold State.splitLine
  simp only
  split <;> split <;> exact h
theorem memsOk_shareLineOf {s : State} (h : s.memsOk) (cl line : Nat) : (s.shareLineOf cl line).memsOk := by
  unfold State.shareLineOf
  simp only
  split <;> exact h
theorem memsOk_takeLine {s : State} (h : s.memsOk) (cl line : Nat) (keep : Bool) : (s.takeLine cl line keep).memsOk := by
  unfold State.takeLine
  simp only
  split
  · exact h
  · split
    · split
      · exact memsOk_writeBack (memsOk_shareLineOf h _ _) _ _
      · exact h
    · exact memsOk_writeBack (memsOk_splitLine h _ _ _) _ _
theorem memsOk_flushPuts {s : State} (h : s.memsOk) (line : Nat) : (s.flushPuts line).memsOk := by
  unfold State.flushPuts
  refine memsOk_foldl _ (fun t m ht => ?_) _ ?_
  · exact memsOk_modDir (s := (t.writeWords _ _).bumpTag line) (memsOk_writeWords ht _ _) _ _
  · exact h
theorem memsOk_recallBut {s : State} (h : s.memsOk) (line : Nat) (keep : Nat → Bool) : (s.recallBut line keep).memsOk := by
  have h1 := memsOk_foldl (fun s cl => s.takeLine cl line (keep cl)) (fun _ _ h => memsOk_takeLine h _ _ _) (s.clusters.map Prod.fst) (memsOk_flushPuts h line)
  unfold State.recallBut
  simp only
  split
  · exact h1
  · exact h1
theorem memsOk_recall {s : State} (h : s.memsOk) (line : Nat) (keep : Bool) : (s.recall line keep).memsOk := memsOk_recallBut h _ _
theorem memsOk_invRemote {s : State} (h : s.memsOk) (line : Nat) : (s.invRemote line).memsOk := by
  unfold State.invRemote
  split
  · exact h
  · exact memsOk_foldl (fun s d => s.fySend d 2 (.invalidate (line * 128))) (fun _ _ h => h) _ h
theorem memsOk_dirtyHalves {s : State} (h : s.memsOk) (xa n : Nat) : (s.dirtyHalves xa n).memsOk := by
  obtain ⟨h1, h2, h3, h4⟩ := h
  unfold State.dirtyHalves
  split <;> exact ⟨h1, h2, h3, h4⟩
theorem memsOk_bumpTag {s : State} (h : s.memsOk) (l : Nat) : (s.bumpTag l).memsOk := h
/-- A write performed at the home keeps the memories canonical. -/
theorem memsOk_homeWrite {s : State} (h : s.memsOk) (xa : Nat) (bs : List Byte) : (s.homeWrite xa bs).memsOk := by
  unfold State.homeWrite
  refine memsOk_dirtyHalves (memsOk_foldl _ (fun _ _ h => memsOk_bumpTag h _) _ (memsOk_putHomeBytes ?_ _ _)) _ _
  exact memsOk_foldl _ (fun _ _ h => memsOk_invRemote (memsOk_recall h _ _) _) _ h
/-- So does a write of parts of a line as one event. -/
theorem memsOk_homeParts {s : State} (h : s.memsOk) (xa : Nat) (add : Bool) (ps : List (Nat × List Byte)) : (s.homeParts xa add ps).memsOk := by
  unfold State.homeParts
  refine memsOk_bumpTag (memsOk_foldl _ (fun _ _ h => memsOk_dirtyHalves (memsOk_putHomeBytes h _ _) _ _) _ ?_) _
  exact memsOk_invRemote (memsOk_recall h _ _) _
theorem memsOk_devWrite {s : State} (h : s.memsOk) (pa : Nat) (bs : List Byte) : (s.devWrite pa bs).memsOk := memsOk_homeWrite h _ _

end Sys2Proof.Laws
end

