-- ==== Sys2Proof/Tests/Slice0.lean ====
section
/-! SUPPORT. Tests on small states, with expected results from the manual: what WellFormed refuses, words of the manual decoded, worked
examples, and for each obligation with hypotheses a theorem `witness_<Obligation>` that meets them. -/

namespace Sys2Proof.Tests

set_option Elab.async false

open Sys2Proof Sys2Proof.Machine Sys2Proof.Claims

/-! ### Small states -/

/-- A word of opcode `opc` with the least field values that its entry accepts; operands a, b, c from queues 0, 1, 2. -/
def goodWord (opc : Nat) : PeWord :=
  let r := opRule opc 0
  let r := opRule opc (lowBit r.subMask)
  { sub := BitVec.ofNat 3 (lowBit r.subMask), fmt := BitVec.ofNat 4 (lowBit r.fmtMask), sa := if r.rdA then 0#3 else 6#3, sb := if r.rdB then 1#3 else 6#3
    sc := if r.rdC then 2#3 else 6#3, ei := 0#3, dst := BitVec.ofNat 2 (lowBit r.dstMask), mod := 0#3
    x := (match r.xUse with
      | .param => true
      | _ => false), seq := 0#32, imm := 0#32 }
/-- A word with every field zero but SB and SC, which name no operand. -/
def plainWord : PeWord := ⟨0, 1, 0, 6, 6, 0, 0, 0, false, 0, 0⟩
/-- Tokens for the operands of a word: tags that its entry accepts, payloads `a`, `b`, `c`. -/
def goodTokens (opc : Nat) (w : PeWord) (a b c : Word) : List (List Token) :=
  let m := tagMasks opc w.fmt.toNat w.sub.toNat
  let t := fun (k : Nat) (v : Word) => ([{ payload := v, fmt := BitVec.ofNat 4 (if k.testBit w.fmt.toNat then w.fmt.toNat else lowBit k) }] : List Token)
  [t m.1 a, t m.2.1 b, t m.2.2 c, []]
/-- A PE context with a word and tokens in its queues, all its element registers full. -/
def pe (opc : Nat) (w : PeWord) (q : List (List Token)) : PeCtx :=
  { hasOp := true, op := peWordBits (BitVec.ofNat 7 opc) w, seq := w.seq, imm := w.imm, q := q
    ereg := List.replicate 8 { full := true, tag := 1#4, val := 5#64 } }
/-- Job 0, whose page 0 is mapped to physical 0x50000. -/
def base : State :=
  { (placeBytes 0).foldl (fun s p => s.devWrite p.1 p.2) State.reset with jobs := [(0, { ptroot := placeRoot })] }
/-- Unit 1 on cluster 0, context 0, with the PEs given; its PE(0,0) has key 0. -/
def withUnit (u : UnitSt) : State := { base with units := [(1, { u with id := 1 })], nextUnit := 2, curUnit := 1, ev := { u := 1 } }
/-- PE(0,0) of the unit holds the word and the tokens, and is at the focus. -/
def fabric (opc : Nat) (w : PeWord) (q : List (List Token)) : State := withUnit { pes := [(0, pe opc w q)] }
/-- The fabric with the good word of an opcode and operands a, b, c. -/
def ready (opc : Nat) (w : PeWord) (a b c : Word) : State := fabric opc w (goodTokens opc w a b c)

/-- A firing goes, and what it gathers satisfies `P`. -/
def goThen (p : FirePrep) (P : State → Nat → Nat → Gathered → Bool) : Bool :=
  match p with
  | .go s u k g => P s u k g
  | _ => false
theorem goThen_iff (p : FirePrep) (P : State → Nat → Nat → Gathered → Bool) :
    goThen p P = true ↔ ∃ s u k g, p = .go s u k g ∧ P s u k g = true := by
  cases p with
  | go s u k g => exact ⟨fun h => ⟨s, u, k, g, rfl, h⟩, fun ⟨_, _, _, _, e, h⟩ => by cases e; exact h⟩
  | _ => simp [goThen]
/-- A result is an outcome with `P`. -/
def okThen {ε α : Type} (r : Except ε α) (P : α → Bool) : Bool :=
  match r with
  | .ok a => P a
  | .error _ => false
theorem okThen_iff {ε α : Type} (r : Except ε α) (P : α → Bool) : okThen r P = true ↔ ∃ a, r = .ok a ∧ P a = true := by
  cases r <;> simp [okThen]
/-- The next state satisfies `P`. -/
def nextIs (o : Host.Outcome State Fault Refusal) (P : State → Bool) : Bool :=
  match o with
  | .next s => P s
  | _ => false

/-- Bytes written at virtual addresses of page 0. -/
def poke (s : State) (l : List (Nat × List Byte)) : State := l.foldl (fun s p => s.devWrite (placeCode + p.1) p.2) s
/-- A graph object at 0x1000 (R327 to R330): two launch nodes, the second after the first; one launch descriptor with code at 0x2000 and
arguments at 0x3000; one reduction group of i32 or i64 sums at 0x800 whose contributor is unit 0 of node 0. -/
def objectBytes (launch : Nat := 0) : List (Nat × List Byte) :=
  [(0x1008, leBytes 8 (2 + 2 ^ 16 + 2 ^ 48)), (0x1010, leBytes 16 (0x40 + 0x80 * 2 ^ 32 + 0x100 * 2 ^ 64 + 0x140 * 2 ^ 96)),
   (0x1060, leBytes 8 (2 ^ 48)), (0x1078, leBytes 8 0x1C0), (0x1080, leBytes 16 (0x2000 + 0x3000 * 2 ^ 64)), (0x1090, leBytes 48 launch),
   (0x1140, leBytes 12 (0x800 + 2 ^ 72 + 2 ^ 80)), (0x1150, leBytes 8 0x180)]
/-- An instance of that object. -/
def inst1 : Instance := { id := 1, job := 0, queue := 0, handle := 7, base := 0x1000#64, kseq := 1, phase := none, cdone := 0#64, hubTaken := 0, nodes := [{}, {}] }
def withObject (s : State) (launch : Nat := 0) : State := { poke s (objectBytes launch) with insts := [inst1], nextInst := 2 }

/-- The word is ready at the focus of the state, and what it gathers satisfies `P`. -/
def goes (opc : Nat) (w : PeWord) (s : State) (P : Gathered → Bool := fun _ => true) : Bool := goThen (prepFire opc w s) (fun _ _ _ g => P g)
def goesColourless (opc : Nat) (w : PeWord) (s : State) (P : State → Gathered → Bool := fun _ _ => true) : Bool :=
  goThen (prepFire opc w s (fun u t => u.effCol t.col == 0#2)) (fun s1 _ _ g => P s1 g)
/-- PE(0,0) with a busy node. -/
def busy (opc : Nat) (w : PeWord) (n : NodeState) : State := withUnit { pes := [(0, { pe opc w [] with node := n })] }
def tok1 : Token := { payload := 1#64, fmt := 1#4 }
/-- Unit 1 holds the claim of cluster 0, whose banks 0 to 3 hold tile slots (R123, R129). -/
def claimed (s : State) : State := s.modCluster 0 (fun c => { c with claim := some 1, roles := 0xAA#64 })
/-- A message at 0x200: CPY with its three operands, to the copy engine. -/
def withMessage (s : State) : State := poke s [(0x200, leBytes 8 0x2030000000000000), (0x208, leBytes 24 0)]
/-- A unit with values in g1 to g3, CCNT 0x100 and LVL0 to LVL7 valid. -/
def seqUnit : UnitSt :=
  { id := 1, ccnt := 0x100#64, g := [0#64, 0x40#64, 0x50#64, 7#64], lvl := List.replicate 8 8#9, ixb := [0#64, 0#64, 0#64, 0#64] }
/-- A word of format T with selector fields zero: TD, TA and TB are 0. -/
def tileWord (sub : BitVec 3) (fmt : BitVec 4) : PeWord := ⟨sub, fmt, 0, 0, 0, 0, 0, 0, false, 0, 0⟩
/-- The image at 0x400: one cluster whose columns are empty (R139, R140). -/
def withImage (s : State) : State := poke s [(0x400, leBytes 8 (0xC0F16E00 + 96 * 2 ^ 32)), (0x420, (List.replicate 16 (leBytes 4 0x10F20002)).flatten)]
/-- Page 2 of job 0 is cached by cluster 0 as a page of device 1: readable, writable, of fabric scope (R82, R355). -/
def withFar (s : State) : State := { s with tlb := [⟨0, 0, 2, 1, 3, wd (2 ^ 50 + 2 ^ 40 + 0x303F)⟩] }
/-! ### Well-formedness -/

/-- Each check refuses an ill-formed term: the form of a shared opcode, the words present, the fields of format P, of format T and of the
tile FCVT, the fields of a control word, and the pointers of a message. -/
theorem test_wf_refuses :
    (Instr.constFree (goodWord 0x24)).wf = false ∧ (Instr.constTriggered { goodWord 0x24 with sb := 6#3 }).wf = false ∧
    (Instr.cntrSource (goodWord 0x36)).wf = false ∧ (Instr.cntrTriggered { goodWord 0x36 with sa := 6#3, sb := 6#3, sc := 6#3 }).wf = false ∧
    (Instr.fcvtTile { plainWord with fmt := 6#4 }).wf = false ∧ (Instr.fcvt { plainWord with fmt := 0#4 }).wf = false ∧
    (Instr.mdrnMem plainWord).wf = false ∧ (Instr.mdrnZero plainWord).wf = false ∧ (Instr.mdrn { plainWord with sub := 1#3 }).wf = false ∧
    (Instr.unassignedOpc 0x01#7 plainWord).wf = false ∧ (Instr.reservedControlOpcode 0x02#6 ⟨0, 0, 0, 0⟩).wf = false ∧
    (Instr.neg { plainWord with seq := 1#32 }).wf = false ∧ (Instr.neg { plainWord with imm := 1#32 }).wf = false ∧
    (Instr.neg { plainWord with sb := 0#3 }).wf = false ∧ (Instr.neg { plainWord with sub := 1#3 }).wf = false ∧
    (Instr.neg { plainWord with mod := 1#3 }).wf = false ∧ (Instr.steer { goodWord 0x30 with dst := 0#2, sub := 4#3 }).wf = false ∧
    (Instr.mmul { plainWord with sub := 3#3 }).wf = false ∧ (Instr.fcvtTile { plainWord with fmt := 0#4, sb := 0#3 }).wf = false ∧
    (Instr.seqAdd ⟨1, 2, 3, 16⟩).wf = false ∧ (Instr.nopc ⟨1, 0, 0, 0⟩).wf = false ∧ (Instr.shli ⟨1, 1, 0, 64⟩).wf = false ∧
    (Instr.cpy ⟨1, 0, 0, 0, 0, []⟩).wf = false ∧ (Instr.cpy ⟨7, 0, 0, 0, 0, List.replicate 7 0#64⟩).wf = false := by
  decide +kernel
theorem test_wf_accepts :
    (Instr.neg plainWord).wf = true ∧ (Instr.seqAdd ⟨1, 2, 3, 0⟩).wf = true ∧ (Instr.cpy ⟨6, 0, 0, 0, 0, List.replicate 6 0#64⟩).wf = true ∧
    (Instr.constFree { goodWord 0x24 with sa := 6#3, sb := 6#3 }).wf = true ∧ (Instr.unassignedOpc 0x7E#7 plainWord).wf = true := by
  decide +kernel

/-! ### Words of the manual -/

/-- OPC 31:25, SUB 24:22, FMT 21:18, SA 17:15, SB 14:12, SC 11:9, EI 8:6, DST 5:4, MOD 3:1, X 0, written out from R142. FMA with FMT 5 and
MOD 0, and STORE (R230), MMUL and LDXS (R256), DIV (R166). -/
theorem test_decode_pe_words :
    decodePe 0b1000011_000_0101_000_001_010_000_00_000_0#32 0#32 0#32 = some (.fma ⟨0, 5, 0, 1, 2, 0, 0, 0, false, 0, 0⟩) ∧
    decodePe 0b1100001_000_0000_100_000_110_000_11_000_0#32 5#32 0#32 = some (.st ⟨0, 0, 4, 0, 6, 0, 3, 0, false, 5, 0⟩) ∧
    decodePe 0b1110010_001_0010_000_100_100_000_01_110_1#32 0#32 7#32 = some (.mmul ⟨1, 2, 0, 4, 4, 0, 1, 6, true, 0, 7⟩) ∧
    decodePe 0xE0488000#32 5#32 0#32 = some (.ldxs ⟨1, 2, 1, 0, 0, 0, 0, 0, false, 5, 0⟩) ∧
    decodePe 0b0000111_001_0010_000_001_110_000_00_000_0#32 0#32 0#32 = some (.div ⟨1, 2, 0, 1, 6, 0, 0, 0, false, 0, 0⟩) := by
  decide +kernel
/-- Which form of a shared opcode a word names (R175, R180, R209, R254). -/
theorem test_decode_forms :
    decodePe 0b0100100_000_0001_110_110_110_000_00_000_1#32 0#32 9#32 = some (.constFree ⟨0, 1, 6, 6, 6, 0, 0, 0, true, 0, 9⟩) ∧
    decodePe 0b0100100_000_0001_000_000_110_000_00_000_1#32 0#32 9#32 = some (.constTriggered ⟨0, 1, 0, 0, 6, 0, 0, 0, true, 0, 9⟩) ∧
    decodePe 0b0110110_000_0001_110_110_110_000_00_000_0#32 0#32 0#32 = some (.cntrSource ⟨0, 1, 6, 6, 6, 0, 0, 0, false, 0, 0⟩) ∧
    decodePe 0b1010000_000_0000_000_110_110_000_00_000_0#32 0#32 0#32 = some (.fcvtTile ⟨0, 0, 0, 6, 6, 0, 0, 0, false, 0, 0⟩) ∧
    decodePe 0b1110011_011_0000_000_000_000_000_00_000_0#32 0#32 0#32 = some (.mdrnZero ⟨3, 0, 0, 0, 0, 0, 0, 0, false, 0, 0⟩) ∧
    decodePe 0b1111110_000_0000_000_000_000_000_00_000_0#32 0#32 0#32 = some (.unassignedOpc 0x7E#7 ⟨0, 0, 0, 0, 0, 0, 0, 0, false, 0, 0⟩) := by
  decide +kernel
/-- OP 31:26 and the fields of R147; the words of R277 and R279; FN names the operation of OP 0x01. -/
theorem test_decode_control_words :
    decodeCtl 0b000001_00001_00010_00011_00000001010#32 = .seqDiv ⟨1, 2, 3, 10⟩ ∧ decodeCtl 0b000010_00011_00000_0000000000000001#32 = .addi ⟨3, 0, 0, 1⟩ ∧
    decodeCtl 0x4060FFFB#32 = .beq ⟨3, 0, 31, 0x7FB⟩ ∧ decodeCtl 0x581FFFFD#32 = .jal ⟨0, 31, 31, 0x7FD⟩ ∧ decodeCtl 0x2CA10000#32 = .ldg ⟨5, 1, 0, 0⟩ ∧
    decodeCtl 0x30C10008#32 = .stg ⟨6, 1, 0, 8⟩ ∧ decodeCtl 0xC0000000#32 = .done ⟨0, 0, 0, 0⟩ ∧
    decodeCtl 0b110010_00000_00000_00000_00000000000#32 = .reservedControlOpcode 0x32#6 ⟨0, 0, 0, 0⟩ := by
  decide +kernel
/-- The header of a CPY2D as the manual writes it (R153): OPC 63:56, NPTR, HPOP, HPUSH, HANDLER 43:32, REPLY. -/
theorem test_decode_commands :
    ((decodeMessage [0x212000050611A000#64, 1#64, 2#64]).toOption.map Prod.fst = some (.cpy2d ⟨2, 0, 0, 5, 0x0611A000, [1#64, 2#64]⟩)) ∧
    ((decodeMessage [0x4010000100000000#64, 1#64]).toOption.map Prod.fst = some (.cred ⟨1, 0, 0, 1, 0, [1#64]⟩)) ∧
    ((decodeMessage [0x3120000000000000#64, 1#64, 2#64]).toOption.map Prod.fst = some (.sct ⟨2, 0, 0, 0, 0, [1#64, 2#64]⟩)) ∧
    ((decodeMessage [0x1110000000000000#64, 1#64]).toOption.map Prod.fst = some (.cmdMmul ⟨1, 0, 0, 0, 0, [1#64]⟩)) ∧
    (decodeMessage [0x5010000000000000#64, 1#64]).toOption.isNone = true ∧ (decodeMessage [0x2120000000000000#64, 1#64]).toOption.isNone = true := by
  decide +kernel

/-! ### Computing rows -/

/-- The rows that compute (R165 to R174, R200 to R223). -/
def calcRows : List (PeWord → Instr) :=
  [.add, .sub, .neg, .mul, .mulh, .madd, .div, .rem, .min, .max, .abs, .absd, .adds, .subs, .cmp, .and, .or, .xor, .andn, .not, .shl, .shr, .sra, .rot,
   .clz, .ctz, .popc, .bext, .bins, .sext, .zext, .lea, .bchk, .sel, .move, .fadd, .fsub, .fmul, .fma, .fms, .fnma, .fmin, .fmax, .fabs, .fneg, .fcmp,
   .fdiv, .fsqrt, .frcpe, .frsqe, .fclass, .fcvt, .ftoi, .itof, .frnd, .cbd, .cbe, .lsum, .ldot, .lbc, .lshuf, .lpack, .lunpk, .lext, .lins, .lred, .fscale]
/-- The opcode of a row. -/
def rowOpc (i : PeWord → Instr) : Nat := ((calcRow (i plainWord)).map CalcRow.opc).getD 0
/-- The good word of a row and the state in which it is ready with a = 1, b = 2, c = 1. -/
def rowWord (i : PeWord → Instr) : PeWord := goodWord (rowOpc i)
def rowState (i : PeWord → Instr) : State :=
  let s := ready (rowOpc i) (rowWord i) 1#64 2#64 1#64
  s.modUnit 1 (fun u => u.modPe 0 (fun p => if rowOpc i == 0x54 || rowOpc i == 0x55 then { p with ereg := List.replicate 8 { full := true, tag := 8#4, val := 0x38#64 } } else p))
/-- The row fires in that state, computes a result, and raises no flag whose trap is enabled. -/
def rowFires (i : PeWord → Instr) : Bool :=
  match calcRow (i (rowWord i)) with
  | some r => goThen (prepFire r.opc r.w (rowState i) (fun _ _ => true) r.more) (fun s1 uid _ g =>
      match r.f r.w g.env g.a g.b g.c with
      | .ok _ _ fl => trapFlag (s1.unit uid).uctl.toNat (flagUnion fl) == none && (s1.unit uid).uctl.toNat % 32 == 0
      | .trap _ _ => false)
  | none => false
theorem witness_ComputingRowsComplete : calcRows.all rowFires = true := by decide +kernel
/-- The frame has the same hypotheses, and the row answers a next state; a debugger's step of the PE fires too. -/
theorem witness_ComputingRowsFrame : calcRows.all (fun i => rowFires i && nextIs (exec (i (rowWord i)) (rowState i)) (fun t => (t.unit 1).fired == 1#64)) = true ∧
    (let s := (rowState .add).modUnit 1 (fun u => u.modPe 0 (fun p => { p with halted := true, stepOnce := true }))
     ((s.unit 1).pe 0).stepOnce = true ∧ goThen (prepFire 1 (rowWord .add) s) (fun _ _ _ _ => true) = true) := by
  decide +kernel

/-- ADD of two tokens; selector 7 of an element register that is full; a token with a colour. -/
theorem witness_FiringIsReady :
    (let w := rowWord .add; let s := rowState .add; let u := (s.unit 1).purge 0
     let toks : List (Nat × Token) := [(0, { payload := 1#64, fmt := 1#4, ctx := 0#2 }), (1, { payload := 2#64, fmt := 1#4 })]
     s.focusPe = some (1, 0) ∧ eregReady w (u.pe 0) = true ∧ u.matchSet 0 (selQueues w) (fun _ => true) = some toks ∧ wordFault 1 u.rm w = none ∧
     emptySel7 w (u.pe 0) = false ∧
     tagFaults 1 w (operandsOf 1 w (u.pe 0) toks).1 (operandsOf 1 w (u.pe 0) toks).2.1 (operandsOf 1 w (u.pe 0) toks).2.2 = none ∧
     u.joinCol (toks.map Prod.snd) = some 0#2) ∧
    (let w := { rowWord .add with sb := 7#3 }; let s := fabric 1 w [[{ payload := 1#64, fmt := 1#4, col := 2#2, last := true }], [], [], []]; let u := (s.unit 1).purge 0
     let toks : List (Nat × Token) := [(0, { payload := 1#64, fmt := 1#4, col := 2#2, last := true })]
     s.focusPe = some (1, 0) ∧ eregReady w (u.pe 0) = true ∧ u.matchSet 0 (selQueues w) (fun _ => true) = some toks ∧ wordFault 1 u.rm w = none ∧
     emptySel7 w (u.pe 0) = false ∧
     tagFaults 1 w (operandsOf 1 w (u.pe 0) toks).1 (operandsOf 1 w (u.pe 0) toks).2.1 (operandsOf 1 w (u.pe 0) toks).2.2 = none ∧
     u.joinCol (toks.map Prod.snd) = some 2#2) := by
  decide +kernel

/-- DIV by 0 with TDZ enabled: the lowest enabled flag that is raised is DZ. -/
theorem witness_EnabledTrapsHoldTheFiring :
    (let w := rowWord .div; let s := (ready 7 w 1#64 0#64 0#64).modUnit 1 (fun u => { u with uctl := 2#12 })
     match calcRow (.div w) with
     | some r => goThen (prepFire r.opc r.w s (fun _ _ => true) r.more) (fun s1 uid _ g =>
        match r.f r.w g.env g.a g.b g.c with
        | .ok _ _ fl => trapFlag (s1.unit uid).uctl.toNat (flagUnion fl) == some 1
        | .trap _ _ => false)
     | none => false) = true := by
  decide +kernel

/-- The firing of a row has the format of the word; every lane statement is met by it. -/
def lanesFire (l : List (PeWord → Instr)) : Bool := l.all rowFires
theorem witness_IntegerLanes :
    lanesFire [.add, .sub, .neg, .mul, .mulh, .madd, .min, .max, .abs, .absd, .adds, .subs, .div, .rem] = true := by decide +kernel
theorem witness_LogicAndBitLanes :
    lanesFire [.shl, .shr, .sra, .rot, .clz, .ctz, .popc, .bext, .bins, .and, .or, .xor, .andn, .not, .cmp] = true := by decide +kernel
theorem witness_FloatArithmeticLanes :
    lanesFire [.fadd, .fsub, .fmul, .fdiv, .fma, .fms, .fnma, .fsqrt, .fmin, .fmax, .fcmp, .frcpe, .frsqe] = true := by decide +kernel
/-- A row with another format than its first, ready with the same operands; `P` holds of what it gathers. -/
def firesAs (i : PeWord → Instr) (fmt : BitVec 4) (P : Gathered → Bool := fun _ => true) : Bool :=
  let w := { rowWord i with fmt := fmt }
  goThen (prepFire (rowOpc i) w (ready (rowOpc i) w 1#64 2#64 1#64)) (fun s1 uid _ g => P g && (s1.unit uid).uctl.toNat % 32 == 0)
/-- LPACK of two operands with the tags given. -/
def packs (fmt ta tb : BitVec 4) : Bool :=
  let w := { rowWord .lpack with fmt := fmt, mod := 0#3 }
  goThen (prepFire 0x5A w (fabric 0x5A w [[{ payload := 1#64, fmt := ta }], [{ payload := 2#64, fmt := tb }], [], []])) (fun _ _ _ g => g.a.t == ta.toNat && g.b.t == tb.toNat)
theorem witness_FloatConversionAndLaneValues :
    lanesFire [.fclass, .fcvt, .ftoi, .itof, .frnd, .fscale, .cbd, .cbe, .lsum, .ldot, .lred, .lpack, .lunpk] = true ∧
    (([(.cbd, 0x54), (.cbe, 0x55)] : List ((PeWord → Instr) × Nat)).all (fun c =>
      goThen (prepFire c.2 (rowWord c.1) (ready c.2 (rowWord c.1) 1#64 2#64 1#64) (fun _ _ => true) tableFull) (fun _ _ _ g => (tableFault g.env.ereg).isSome)) = true) ∧
    (rowWord .lsum).fmt.toNat ≤ 4 ∧ firesAs .lsum 6#4 = true ∧ firesAs .lsum 5#4 = true ∧ firesAs .ldot 6#4 = true ∧ firesAs .ldot 7#4 = true ∧
    (rowWord .lred).fmt.toNat ≤ 4 ∧ firesAs .lred 6#4 = true ∧ packs 2#4 1#4 1#4 = true ∧ packs 2#4 1#4 2#4 = true ∧ packs 2#4 3#4 3#4 = true ∧
    (1, 2) ∈ packPairs ∧ (3, 2) ∉ packPairs ∧
    goThen (prepFire 0x5B { rowWord .lunpk with fmt := 1#4 } (fabric 0x5B { rowWord .lunpk with fmt := 1#4 } [[{ fmt := 2#4 }], [], [], []])) (fun _ _ _ g => g.a.t == 2) = true ∧
    goThen (prepFire 0x5B { rowWord .lunpk with fmt := 1#4 } (fabric 0x5B { rowWord .lunpk with fmt := 1#4 } [[{ fmt := 4#4 }], [], [], []])) (fun _ _ _ g => g.a.t == 4) = true := by
  decide +kernel
/-- BCHK in lanes and on addresses, SEL on a word and on a predicate. -/
theorem witness_SelectionAndLaneMoves :
    lanesFire [.lea, .bchk, .sel, .move, .sext, .zext, .fabs, .fneg, .lbc, .lext, .lins, .lshuf] = true ∧
    goThen (prepFire 0x21 (rowWord .bchk) (rowState .bchk)) (fun _ _ _ g => (rowWord .bchk).fmt != 14#4 &&
      (upFrom 0 (lanesOf 1)).all (fun l => decide (opLane g.c 1 l ≤ opLane g.a 1 l) && decide (opLane g.a 1 l < opLane g.b 1 l))) = true ∧
    goThen (prepFire 0x21 (rowWord .bchk) (ready 0x21 (rowWord .bchk) 5#64 2#64 1#64)) (fun _ _ _ g =>
      !(decide (opLane g.c 1 0 ≤ opLane g.a 1 0) && decide (opLane g.a 1 0 < opLane g.b 1 0))) = true ∧
    (let w := { rowWord .bchk with fmt := 14#4 }
     goThen (prepFire 0x21 w (ready 0x21 w 0xFF00000000000005#64 6#64 5#64)) (fun _ _ _ g =>
       decide (g.c.v.toNat % 2 ^ 56 ≤ g.a.v.toNat % 2 ^ 56) && decide (g.a.v.toNat % 2 ^ 56 < g.b.v.toNat % 2 ^ 56)) = true) ∧
    goThen (prepFire 0x22 (rowWord .sel) (rowState .sel)) (fun _ _ _ g => g.a.t == 1) = true ∧
    goThen (prepFire 0x22 (rowWord .sel) (fabric 0x22 (rowWord .sel) [[{ payload := 1#64, fmt := 13#4 }], [{ fmt := 1#4 }], [{ fmt := 1#4 }], []]))
      (fun _ _ _ g => g.a.t == 13) = true := by
  decide +kernel

/-! ### Worked values of the manual -/

/-- The operands of a row, what it computes, and its flags. -/
def valueOf (i : PeWord → Instr) (w : PeWord) (a b c : Opnd) : Option (Word × Nat × List (Nat × Nat)) :=
  (calcRow (i w)).bind (fun r => match r.f w {} a b c with
    | .ok v t fl => some (v, t, fl)
    | .trap _ _ => none)
/-- R166: `div.u.i32x2` of 0x00000007FFFFFFFF by 2: lane 0 is 0x7FFFFFFF, and lane 1, divided by 0, is all ones with DZ. -/
theorem test_div_lanes : valueOf .div ⟨1, 2, 0, 1, 6, 0, 0, 0, false, 0, 0⟩ ⟨0x00000007FFFFFFFF#64, 2⟩ ⟨2#64, 2⟩ {} =
    some (0xFFFFFFFF7FFFFFFF#64, 2, [(2, 2)]) := by decide +kernel
/-- R165 and R166: sums wrap in their lane; ADDS clamps. -/
theorem test_add_wraps : valueOf .add ⟨0, 4, 0, 1, 6, 0, 0, 0, false, 0, 0⟩ ⟨0x01FF#64, 4⟩ ⟨0x0101#64, 4⟩ {} = some (0x0200#64, 4, []) := by decide +kernel
theorem test_adds_clamps : (valueOf .adds ⟨0, 4, 0, 1, 6, 0, 0, 0, false, 0, 0⟩ ⟨0x7F80#64, 4⟩ ⟨0x01FF#64, 4⟩ {}).map Prod.fst = some 0x7F80#64 := by decide +kernel
/-! ### Dataflow control -/

/-- The word of a row with selector 6 for every operand. -/
def noOperands (opc : Nat) : PeWord := { goodWord opc with sa := 6#3, sb := 6#3, sc := 6#3 }

theorem witness_ConstantsAndCounters :
    (let s := fabric 0x24 (noOperands 0x24) []
     s.focusPe = some (1, 0) ∧ ((s.unit 1).pe 0).constFired = false ∧ wordFault 0x24 (s.unit 1).rm (noOperands 0x24) = none) ∧
    (let w := { goodWord 0x24 with sa := 6#3, sb := 0#3 }; goes 0x24 w (fabric 0x24 w [[tok1]]) = true) ∧
    goes 0x25 (goodWord 0x25) (ready 0x25 (goodWord 0x25) 1#64 0#64 3#64) (fun g => g.b.v == 0#64) = true ∧
    goes 0x25 (goodWord 0x25) (ready 0x25 (goodWord 0x25) 1#64 1#64 3#64) (fun g => g.b.v == 1#64) = true ∧
    goes 0x25 (goodWord 0x25) (ready 0x25 (goodWord 0x25) 1#64 2#64 3#64) (fun g => decide (1 < g.b.v.toNat)) = true ∧
    goes 0x36 (goodWord 0x36) (ready 0x36 (goodWord 0x36) 0#64 2#64 3#64) (fun g => g.a.v == 0#64) = true ∧
    goes 0x36 (goodWord 0x36) (ready 0x36 (goodWord 0x36) 1#64 2#64 3#64) (fun g => g.a.v == 1#64) = true ∧
    goes 0x36 (goodWord 0x36) (ready 0x36 (goodWord 0x36) 2#64 2#64 3#64) (fun g => decide (1 < g.a.v.toNat)) = true ∧
    (let w := { noOperands 0x36 with x := true }; let s := busy 0x36 w (.cntrSrc 5#64 2#64 1#64 0)
     s.evPe s.focus = some (1, 0) ∧ s.evPe s.ev.site = some (1, 0) ∧ s.turnAt s.ev.site = true ∧ ((s.unit 1).pe 0).opc = 0x36#7 ∧ w.sa = 6#3 ∧ nodeAt s 1 0 = .cntrSrc 5#64 2#64 1#64 0 ∧ wordFault 0x36 (s.unit 1).rm w = none ∧
     0 < (1#64).toNat ∧ (s.unit 1).gates.getLsbD (w.imm.toNat / 16 % 16) = true ∧ w = wordAt s 1 0 ∧
     s.windowOpen 1 { payload := cntrVal w.fmt 5#64 2#64 0, fmt := w.fmt, ctx := BitVec.ofNat 2 (s.unit 1).ctx, wave := 0#10, last := true } = true) ∧
    (let s := busy 0x25 (goodWord 0x25) (.inv tok1 1 2)
     s.evPe s.ev.site = some (1, 0) ∧ nodeAt s 1 0 = .inv tok1 1 2 ∧ (s.unit 1).killed tok1 = false ∧ s.emitsNow s.ev.site = true ∧ s.windowOpen 1 (invToken tok1 1 2) = true) ∧
    (let s := busy 0x36 (goodWord 0x36) (.cntrTrig tok1 5#64 2#64 1 3)
     s.evPe s.ev.site = some (1, 0) ∧ nodeAt s 1 0 = .cntrTrig tok1 5#64 2#64 1 3 ∧ (s.unit 1).killed tok1 = false ∧ s.emitsNow s.ev.site = true ∧
     s.windowOpen 1 (cntrToken (wordAt s 1 0) tok1 5#64 2#64 1 3) = true) ∧
    (let s := fabric 0x24 (noOperands 0x24) []
     s.evPe s.ev.site = some (1, 0) ∧ s.turnAt s.ev.site = true ∧ ((s.unit 1).pe 0).opc = 0x24#7 ∧ (wordAt s 1 0).sb = 6#3 ∧ ((s.unit 1).pe 0).constFired = false ∧
     ((s.unit 1).pe 0).free = true ∧ (s.unit 1).fires = true ∧ wordFault 0x24 (s.unit 1).rm (wordAt s 1 0) = none) := by
  decide +kernel

/-- MERGE by predicate with both arms from queues, and with the first arm from an element register. -/
def mergeWitness (w : PeWord) (s : State) (toks : List (Nat × Token)) : Bool :=
  let u := calm s 1 0
  let a := operandOf 0x31 w (u.pe 0) toks w.sa 0x2002
  let arm := if predTrue a then w.sb else w.sc
  let x := operandOf 0x31 w (u.pe 0) toks arm 0x7FFF
  !w.sub.getLsbD 0 && s.focusPe == some (1, 0) && mergeChoice w u 0 == some toks && wordFault 0x31 u.rm w == none &&
  ((w.sa != 7#3 && arm != 7#3) || ((u.pe 0).reg w.ei.toNat).full) && tagFault 0 a 0x2002 == none &&
  tagFault (if predTrue a then 1 else 2) x 0x7FFF == none && u.joinCol (toks.map Prod.snd) == some 0#2
def mergeWord : PeWord := ⟨0, 0, 0, 1, 2, 0, 0, 0, false, 0, 0⟩
def scaleWord : PeWord := goodWord 0x3C
/-- The state in which element register 0 of PE(0,0) is empty. -/
def emptyReg (s : State) : State := s.modUnit 1 (fun u => u.modPe 0 (fun p => p.setReg 0 {}))
theorem witness_SteeringGatesAndStreams :
    goes 0x30 (goodWord 0x30) (ready 0x30 (goodWord 0x30) 5#64 1#64 0#64) (fun g => predTrue g.b != (goodWord 0x30).sub.getLsbD 0) = true ∧
    goes 0x30 (goodWord 0x30) (ready 0x30 (goodWord 0x30) 5#64 0#64 0#64) (fun g => predTrue g.b == (goodWord 0x30).sub.getLsbD 0) = true ∧
    mergeWitness mergeWord (fabric 0x31 mergeWord [[tok1], [tok1], [], []]) [(0, tok1), (1, tok1)] = true ∧
    mergeWitness mergeWord (fabric 0x31 mergeWord [[{ fmt := 1#4 }], [tok1], [tok1], []]) [(0, { fmt := 1#4 }), (2, tok1)] = true ∧
    mergeWitness { mergeWord with sb := 7#3 } (fabric 0x31 mergeWord [[tok1], [], [], []]) [(0, tok1)] = true ∧
    (let w := { mergeWord with sub := 1#3, sc := 6#3 }; let s := fabric 0x31 w [[], [tok1], [], []]; let u := calm s 1 0
     w.sub.getLsbD 0 = true ∧ s.focusPe = some (1, 0) ∧ [w.sa, w.sb].filterMap (fun x => if x.ult 4#3 then some x.toNat else none) = [0, 1] ∧
     u.oldest ([0, 1].flatMap (fun q => u.avail 0 q)) = some tok1 ∧ [0, 1].find? (fun q => (u.avail 0 q).contains tok1) = some 1 ∧
     wordFault 0x31 u.rm w = none ∧ tok1.fmt ≠ 15#4) ∧
    goes 0x3A (goodWord 0x3A) (ready 0x3A (goodWord 0x3A) 5#64 0#64 0#64) = true ∧
    (let w := { goodWord 0x3B with imm := 0x1F#32 }; w.imm.getLsbD 4 = true ∧ goes 0x3B w (ready 0x3B w 5#64 0#64 0#64) = true) ∧
    (let w := { goodWord 0x3B with imm := 0x0F#32 }
     w.imm.getLsbD 4 = false ∧ goThen (prepFire 0x3B w (ready 0x3B w 5#64 0#64 0#64)) (fun s1 uid _ _ =>
       decide ((agetD (s1.unit uid).sinks (w.imm.toNat % 16) []).length < 4)) = true) ∧
    goes 0x3D (goodWord 0x3D) (ready 0x3D (goodWord 0x3D) 5#64 0#64 0#64) = true ∧
    goThen (prepFire 0x3E { goodWord 0x3E with sb := 6#3 } (ready 0x3E { goodWord 0x3E with sb := 6#3 } 5#64 6#64 0#64)) (fun s1 uid key _ => (((s1.unit uid).pe key).reg 0).full) = true ∧
    (let s := emptyReg (fabric 0x3C scaleWord [[], [tok1], [], []])
     s.focusPe = some (1, 0) ∧ (((calm s 1 0).pe 0).reg scaleWord.ei.toNat).full = false ∧ scaleWord.sb.ult 4#3 = true ∧
     (calm s 1 0).oldest ((calm s 1 0).avail 0 scaleWord.sb.toNat) = some tok1 ∧ wordFault 0x3C (calm s 1 0).rm scaleWord = none ∧ tok1.fmt ≠ 15#4) ∧
    (let s := fabric 0x3C scaleWord [[tok1], [], [], []]
     s.focusPe = some (1, 0) ∧ (((calm s 1 0).pe 0).reg scaleWord.ei.toNat).full = true ∧ scaleWord.sa.ult 4#3 = true ∧
     (calm s 1 0).oldest ((calm s 1 0).avail 0 scaleWord.sa.toNat) = some tok1 ∧ wordFault 0x3C (calm s 1 0).rm scaleWord = none ∧ tok1.fmt ≠ 15#4) := by
  decide +kernel

/-- LVL1 of the unit is 2 tags. -/
def withPool (s : State) : State := s.modUnit 1 (fun u => { u with lvl := [8#9, 2#9] })
/-- Tag 3 of level 1, whose parent is tag 0 of level 0, wave 0. -/
def childTag (exits : Nat) : TagEntry := { lvl := 1, itag := 3, exits := exits, order := 1 }
def childTok : Token := { payload := 9#64, fmt := 1#4, lvl := 1#3, itag := 3#8, last := true }
theorem witness_WavesAndTagsAdvance :
    goes 0x32 (goodWord 0x32) (ready 0x32 (goodWord 0x32) 5#64 0#64 0#64) = true ∧
    (let s := busy 0x32 (goodWord 0x32) (.wadvHold tok1)
     s.evPe s.ev.site = some (1, 0) ∧ nodeAt s 1 0 = .wadvHold tok1 ∧ s.windowOpen 1 tok1 = true) ∧
    goesColourless 0x33 (goodWord 0x33) (fabric 0x33 (goodWord 0x33) [[{ tok1 with lvl := 7#3 }]]) (fun _ g => g.tok.lvl == 7#3) = true ∧
    goesColourless 0x33 (goodWord 0x33) (withPool (fabric 0x33 (goodWord 0x33) [[tok1]]))
      (fun s1 g => g.tok.lvl != 7#3 && (taken s1 1 0 g).freeTag 1 (passed g) == some 0) = true ∧
    goesColourless 0x33 (goodWord 0x33) (fabric 0x33 (goodWord 0x33) [[tok1]])
      (fun s1 g => g.tok.lvl != 7#3 && (taken s1 1 0 g).freeTag 1 (passed g) == none) = true ∧
    (let s := withPool (busy 0x33 (goodWord 0x33) (.tagnewWait tok1 1))
     s.evPe s.ev.site = some (1, 0) ∧ nodeAt s 1 0 = .tagnewWait tok1 1 ∧ s.freeTag 1 tok1 = some 0) ∧
    (let w := goodWord 0x34; let s := (fabric 0x34 w [[tok1], [childTok]]).modUnit 1 (fun u => { u with tags := [childTag 1] }); let u := calm s 1 0
     s.focusPe = some (1, 0) ∧ w.sa.ult 4#3 = true ∧ w.sb.ult 4#3 = true ∧
     (∀ t ∈ u.avail 0 w.sb.toNat, (u.tagEntry t.lvl.toNat t.itag.toNat).isSome = true) ∧
     u.oldest ((u.avail 0 w.sb.toNat).filter (fun b => (u.avail 0 w.sa.toNat).any (parentOf u b))) = some childTok ∧
     (u.avail 0 w.sa.toNat).find? (parentOf u childTok) = some tok1 ∧ wordFault 0x34 u.rm w = none ∧ tok1.fmt ≠ 15#4 ∧ childTok.fmt ≠ 15#4 ∧
     u.joinCol [tok1, childTok] = some 0#2) ∧
    (let w := goodWord 0x34; let s := fabric 0x34 w [[tok1], [childTok]]; let u := calm s 1 0
     s.focusPe = some (1, 0) ∧ w.sa.ult 4#3 = true ∧ w.sb.ult 4#3 = true ∧ wordFault 0x34 u.rm w = none ∧
     u.oldest ((u.avail 0 w.sb.toNat).filter (fun t => (u.tagEntry t.lvl.toNat t.itag.toNat).isNone)) = some childTok) ∧
    goesColourless 0x35 (goodWord 0x35) (fabric 0x35 (goodWord 0x35) [[childTok]]) (fun s1 g => (s1.unit 1).tagEntry g.tok.lvl.toNat g.tok.itag.toNat == none) = true ∧
    (let w := goodWord 0x35
     goesColourless 0x35 w ((fabric 0x35 w [[childTok]]).modUnit 1 (fun u => { u with tags := [childTag 1] }))
       (fun s1 g => (s1.unit 1).tagEntry g.tok.lvl.toNat g.tok.itag.toNat == some (childTag 1) && g.tok.last && decide ((childTag 1).exits ≤ 1)) = true ∧
     goesColourless 0x35 w ((fabric 0x35 w [[childTok]]).modUnit 1 (fun u => { u with tags := [childTag 2] }))
       (fun s1 g => (s1.unit 1).tagEntry g.tok.lvl.toNat g.tok.itag.toNat == some (childTag 2) && g.tok.last && decide (1 < (childTag 2).exits)) = true ∧
     goesColourless 0x35 w ((fabric 0x35 w [[{ childTok with last := false }]]).modUnit 1 (fun u => { u with tags := [childTag 1] }))
       (fun s1 g => (s1.unit 1).tagEntry g.tok.lvl.toNat g.tok.itag.toNat == some (childTag 1) && !g.tok.last) = true) := by
  decide +kernel

/-- A token of colour 1 from PE(0,0) to PE(1,0). -/
def coloured (kind : BitVec 2) : Flight := { src := ⟨0, 0, 0, 0⟩, pos := ⟨0, 1, 0, 0⟩, q := some 0, tok := { tok1 with col := 1#2, kind := kind } }
def colourWord (opc : Nat) : PeWord := { goodWord opc with imm := 1#32 }
theorem witness_ColoursAreDecided :
    goes 0x37 (colourWord 0x37) (fabric 0x37 (colourWord 0x37) [[tok1]]) (fun g => g.tok.col == 0#2) = true ∧
    goThen (prepFire 0x37 (colourWord 0x37) (fabric 0x37 (colourWord 0x37) [[{ tok1 with col := 1#2 }]])) (fun s1 uid key g =>
      g.tok.col.toNat == 1 && ((taken s1 uid key g).unit uid).colState 1 == 0) = true ∧
    goThen (prepFire 0x37 (colourWord 0x37) { (fabric 0x37 (colourWord 0x37) [[tok1]]).modUnit 1 (fun u => u.setCol 1 1) with flights := [coloured 0#2] })
      (fun s1 uid key g => g.tok.col == 0#2 && ((taken s1 uid key g).unit uid).colState 1 != 0 &&
        (taken s1 uid key g).colourCount ((taken s1 uid key g).unit uid) 1 != 0) = true ∧
    goThen (prepFire 0x37 (colourWord 0x37) ((fabric 0x37 (colourWord 0x37) [[tok1]]).modUnit 1 (fun u => u.setCol 1 1)))
      (fun s1 uid key g => g.tok.col == 0#2 && ((taken s1 uid key g).unit uid).colState 1 != 0 &&
        (taken s1 uid key g).colourCount ((taken s1 uid key g).unit uid) 1 == 0 && !((taken s1 uid key g).unit uid).decided.contains 1) = true ∧
    goes 0x37 (colourWord 0x37) (fabric 0x37 (colourWord 0x37) [[{ tok1 with col := 2#2 }]]) (fun g => g.tok.col != 0#2 && g.tok.col.toNat != 1) = true ∧
    goesColourless 0x38 (colourWord 0x38) (fabric 0x38 (colourWord 0x38) [[tok1]]) (fun s1 _ => (colourWord 0x38).imm.toNat % 4 != 0 && (s1.unit 1).colState 1 == 0) = true ∧
    goesColourless 0x39 (colourWord 0x39) (fabric 0x39 (colourWord 0x39) [[tok1]]) (fun s1 _ => (colourWord 0x39).imm.toNat % 4 != 0 && (s1.unit 1).colState 1 == 0) = true ∧
    (let s : State := { base with flights := [coloured 0#2] ++ coloured 3#2 :: [coloured 0#2], ev := { i := 1 } }
     s.ev.i = [coloured 0#2].length ∧ (coloured 3#2).tok.kind = 3#2) ∧
    (let s : State := { base with flights := [coloured 0#2] ++ coloured 2#2 :: [], ev := { i := 1 } }
     s.ev.i = [coloured 0#2].length ∧ (coloured 2#2).tok.kind = 2#2) ∧
    (let s : State := { withUnit { col1 := 1 } with ev := { u := 1, k := 1 } }
     waitingForColour (s.unit s.ev.u) s.ev.k = []) ∧
    (([0x38, 0x39] : List Nat).all (fun o => goesColourless o (goodWord o) (fabric o (goodWord o) [[tok1]]) (fun _ _ => (goodWord o).imm.toNat % 4 == 0) &&
      goesColourless o (colourWord o) ((fabric o (colourWord o) [[tok1]]).modUnit 1 (fun u => u.setCol 1 2)) (fun s1 _ => (s1.unit 1).colState 1 != 0)) = true) ∧
    goThen (prepFire 0x37 (colourWord 0x37) ((fabric 0x37 (colourWord 0x37) [[tok1]]).modUnit 1 (fun u => { u.setCol 1 1 with decided := [1] })))
      (fun s1 uid key g => ((taken s1 uid key g).unit uid).decided.contains 1) = true ∧
    ((withUnit { seqUnit with status := .saved none }).unit 1).fires = false ∧
    (let s : State := { withUnit { col1 := 1, pes := [(0, { pe 0x37 (colourWord 0x37) [] with node := .colorWait tok1 1 })] } with ev := { u := 1, k := 1 } }
     (s.unit s.ev.u).fires = true ∧ (s.unit s.ev.u).colState s.ev.k ≠ 0 ∧ s.colourCount (s.unit s.ev.u) s.ev.k = 0 ∧ (s.unit s.ev.u).decided.contains s.ev.k = false ∧ waitingForColour (s.unit s.ev.u) s.ev.k = [(0, tok1)]) := by
  decide +kernel

/-! ### Memory-class, tile and system rows -/

def memRows : List (PeWord → Instr) :=
  [.ld, .st, .pref, .span, .ldsp, .stsp, .ldws, .amo, .amx, .red, .fence, .flushr, .memnop, .lda, .stl]
def memOpc (i : PeWord → Instr) : Nat := ((memRow (i plainWord)).map MemRow.opc).getD 0
def memWord (i : PeWord → Instr) : PeWord := if memOpc i = 0x64 then { goodWord 0x64 with imm := 1#32 } else goodWord (memOpc i)
/-- A memory row ready with address `a`; the unit belongs to instance 1. -/
def memState (i : PeWord → Instr) (w : PeWord) (a : Word) : State := withObject ((ready (memOpc i) w a 2#64 3#64).modUnit 1 (fun u => { u with inst := 1 }))
/-- The row fires; `P` holds of the unit, what it gathers and what it asks of memory. -/
def memGoes (i : PeWord → Instr) (w : PeWord) (s : State) (P : UnitSt → Gathered → MemOp → MemReq → Bool) : Bool :=
  match memRow (i w) with
  | some r => goThen (prepFire r.opc r.w s r.ok) (fun s1 uid _ g => P (s1.unit uid) g r.op (r.req s1 uid r.w g))
  | none => false
def enters (w : PeWord) (own : Bool) (u : UnitSt) (g : Gathered) (op : MemOp) : MemReq → Bool
  | .entry _ _ => !u.sbFull op g.tok.col && u.badOwn w g.tok == own
  | .bad _ _ _ => false
/-- 64 live entries fill a store buffer (R104). -/
def fullBuffer (s : State) : State := s.modUnit 1 (fun u => { u with sb := List.replicate 64 ({ id := 9, site := ⟨0, 0, 0, 0⟩, op := .ld, w := plainWord, tok := {}, ea := 0x2000 } : SbEntry) })
theorem witness_MemoryRowsFire :
    memRows.all (fun i => memGoes i (memWord i) (memState i (memWord i) 0#64) (enters (memWord i) false)) = true ∧
    memRows.all (fun i => !redWaits (i (memWord i)) (memState i (memWord i) 0#64) 1) = true ∧
    memRows.all (fun i => memGoes i (memWord i) (fullBuffer (memState i (memWord i) 0#64)) (fun u g op _ => u.sbFull op g.tok.col)) = true ∧
    memRows.all (fun i => memGoes i { memWord i with seq := 0x3FF000#32 } (memState i { memWord i with seq := 0x3FF000#32 } 0#64)
      (enters { memWord i with seq := 0x3FF000#32 } true)) = true ∧
    ([.ld, .st, .ldsp, .stsp, .ldws, .amo, .amx, .lda, .stl] : List (PeWord → Instr)).all (fun i =>
      let w := if (memWord i).fmt = 0#4 then { memWord i with fmt := 1#4 } else memWord i
      memGoes i w (memState i w 1#64) (fun u g op r => !u.sbFull op g.tok.col && (match r with
        | .bad c _ _ => c == 0x060
        | .entry _ _ => false))) = true ∧
    (let w := { goodWord 0x6A with imm := 1#32 }; memGoes .red w (memState .red w 0#64) (fun _ _ _ r => match r with
      | .bad c _ _ => c == 0x06D
      | .entry _ _ => false) = true) ∧
    (let w := { goodWord 0x6A with imm := 0x100#32 }; memGoes .red w (memState .red w 0#64) (fun _ _ _ r => match r with
      | .bad c _ _ => c == 0x06E
      | .entry _ _ => false) = true) ∧
    (let w := memWord .red
     let s := (memState .red w 0#64).modUnit 1 (fun u => { u with sb := [{ id := 9, site := ⟨0, 0, 0, 0⟩, op := .red, w := w, tok := {} }] })
     memGoes .red w s (fun _ _ _ _ => true) = true ∧ redWaits (.red w) s 1 = true) := by
  decide +kernel
theorem witness_GSpaceAccessesAreAligned : (4 : Nat) ∈ [4, 8] ∧ (8 : Nat) ∈ [4, 8] := by decide

def tileState (opc : Nat) (w : PeWord) (a : Token) : State := claimed (fabric opc w [[a]])
def addr (v : Word) : Token := { payload := v, fmt := 14#4 }
theorem witness_LinkAndTileRowsEnterTheStoreBuffer :
    (let w := goodWord 0x62
     goesColourless 0x62 w (ready 0x62 w 0#64 0#64 0#64) (fun s1 g => !(s1.unit 1).sbFull .ldlk g.tok.col && !(s1.unit 1).badOwn w g.tok && g.b.v == 0#64) = true ∧
     goesColourless 0x62 w (ready 0x62 w 0#64 2#64 0#64) (fun s1 g => !(s1.unit 1).sbFull .ldlk g.tok.col && !(s1.unit 1).badOwn w g.tok && g.b.v != 0#64) = true) ∧
    (let w := tileWord 1 2
     goThen (prepFireT 0x70 w (tileState 0x70 w (addr 0x80#64))) (fun s1 _ _ g => !(s1.unit 1).sbFull .ldxs g.tok.col && s1.claims 0 1 &&
       (s1.cluster 0).slotBank (tdOf w) && !tileMisplaced (tileEa w g) (imageLen (ldxsFmt w)) && !(s1.unit 1).badOwn w g.tok) = true) ∧
    (let w := tileWord 0 2
     goThen (prepFireT 0x71 w (tileState 0x71 w (addr 0x80#64))) (fun s1 _ _ g => !(s1.unit 1).sbFull .stxs g.tok.col && s1.claims 0 1 &&
       (s1.cluster 0).slotBank (taOf w) && !aeOf w && !tileMisplaced (tileEa w g) (imageLen w.fmt.toNat) && !(s1.unit 1).badOwn w g.tok) = true) ∧
    (let w := tileWord 1 7
     goThen (prepFireT 0x73 w (tileState 0x73 w (addr 0x1000#64))) (fun s1 _ _ g => !(s1.unit 1).sbFull .mdrnMem g.tok.col &&
       matFault s1 1 0 w none none == none && g.a.v.toNat % 4096 == 0 && !(s1.unit 1).badOwn w g.tok) = true) ∧
    (let w := tileWord 0 1
     goThen (prepFireT 0x7D w (tileState 0x7D w (addr 0x80#64))) (fun s1 _ _ g => !(s1.unit 1).sbFull .mbld g.tok.col &&
       matFault s1 1 0 w none (some (tbOf w)) == none && g.a.v.toNat % 128 == 0 && !(s1.unit 1).badOwn w g.tok) = true ∧
     goThen (prepFireT 0x7D w (tileState 0x7D w { payload := 0x80#64, fmt := 1#4 })) (fun _ _ _ g => g.a.t == 1) = true) := by
  decide +kernel

/-- The tile form of FCVT with a raw binary32 tile in slot 1 and the descriptor that converts it into slot 2. -/
def fcvtWord : PeWord := ⟨0, 0, 0, 6, 6, 0, 0, 0, false, 0, 0⟩
def fcvtTok : Token := { payload := 0x312#64, fmt := 1#4 }
def rawTile : Tile := ⟨7#4, List.replicate 4096 0#8⟩
def fcvtState : State := (claimed (fabric 0x50 fcvtWord [[fcvtTok]])).modCluster 0 (fun c => c.setSlot 1 rawTile)
theorem witness_MatrixRowsJoinTheQueue :
    (goThen (prepFireT 0x72 (tileWord 1 2) (tileState 0x72 (tileWord 1 2) tok1)) (fun s1 _ _ _ =>
       matFault s1 1 0 (tileWord 1 2) (some (taOf (tileWord 1 2))) (some (tbOf (tileWord 1 2))) == none) = true) ∧
    (goThen (prepFireT 0x73 (tileWord 0 7) (tileState 0x73 (tileWord 0 7) tok1)) (fun s1 _ _ _ =>
       matFault s1 1 0 (tileWord 0 7) (some (tdOf (tileWord 0 7))) none == none) = true) ∧
    (goThen (prepFireT 0x73 (tileWord 3 0) (tileState 0x73 (tileWord 3 0) tok1)) (fun s1 _ _ _ => matFault s1 1 0 (tileWord 3 0) none none == none) = true) ∧
    (let s := fcvtState; let w := fcvtWord; let u := calm s 1 0
     s.focusPe = some (1, 0) ∧ eregReady w (u.pe 0) = true ∧ u.matchSet 0 (selQueues w) (fun _ => true) = some [(0, fcvtTok)] ∧
     fcvtTileFieldsOk w = true ∧ (roundMode w.mod u.rm).isSome = true ∧ w.sa ≠ 5#3 ∧ w.sa ≠ 7#3 ∧
     tagFault 0 (operandOf 0x50 w (u.pe 0) [(0, fcvtTok)] w.sa 0b10) 0b10 = none) ∧
    (match fcvtTileCheck (calmed fcvtState 1 0) 1 0 0x312#64 with
      | some (.ok t) => t.tag == 7#4
      | _ => false) = true ∧
    (let r := quantise (wbits 0x312#64 11 8) (rawValues 7 false rawTile.img); ((calmed fcvtState 1 0).tileFlags 1 r.2 0#12).2 = none) := by
  decide +kernel

/-- An operand whose codes and micro-exponents are all 0 but its first code. -/
def oneView (c : Int) : XsView := ⟨127, 6, List.replicate 32 0, List.replicate 32 0, (c :: List.replicate 31 0) :: List.replicate 31 (List.replicate 32 0)⟩
def shapedB (V : XsView) : Bool := V.rows.length == 32 && V.rows.all (fun r => r.length == 32) && V.rx.length == 32 && V.cx.length == 32 && (V.rx ++ V.cx).all (fun x => decide (x ≤ 3))
theorem shaped_of (V : XsView) (h : shapedB V = true) : Shaped V := by
  simp only [shapedB, Bool.and_eq_true, beq_iff_eq, List.all_eq_true, decide_eq_true_eq] at h
  exact ⟨h.1.1.1.1, h.1.1.1.2, h.1.1.2, h.1.2, h.2⟩
theorem lget_zeros (m n : Nat) : lget (List.replicate m (0 : Int)) n 0 = 0 := by
  induction m generalizing n with
  | zero => rfl
  | succ m ih => cases n <;> simp [List.replicate_succ, lget, ih]
theorem lget_zeroRows (z : List Int) (hz : ∀ n, lget z n 0 = 0) (m k n : Nat) : lget (lget (List.replicate m z) k []) n 0 = 0 := by
  induction m generalizing k with
  | zero => rfl
  | succ m ih =>
    rw [List.replicate_succ]
    cases k with
    | zero => exact hz n
    | succ k => exact ih k
/-- An operand whose codes are all 0. -/
def zeroView : XsView := ⟨127, 6, List.replicate 32 0, List.replicate 32 0, List.replicate 32 (List.replicate 32 0)⟩
theorem prodAt_zeroView (A : XsView) (n : Nat) : prodAt A zeroView n = 0 := by
  have h : ∀ k j, lget (lget zeroView.rows k []) j 0 = 0 := lget_zeroRows _ (lget_zeros 32) 32
  simp only [prodAt, h, Int.mul_zero, Int.zero_mul]
  decide +kernel
theorem witness_MatrixRowsJoinTheQueue_fits : zeroView.e ≠ 0 ∧ Shaped zeroView ∧ ∀ n, n < 1024 → fits40 (newLane 0 (oneView 3) zeroView {} n) = true :=
  ⟨by decide, shaped_of _ (by decide +kernel), fun n _ => by simp [newLane, prodAt_zeroView, fits40]⟩
theorem witness_MatrixRowsJoinTheQueue_products :
    (Shaped (oneView 3) ∧ Shaped (oneView (2 ^ 40))) ∧
    ((oneView 3).e ≠ 0 ∧ ({} : Acc).lanes = [] ∧ ({} : Acc).es = none ∧ ({} : Acc).kd ≠ 8) ∧
    fits40 (newLane 0 (oneView (2 ^ 40)) (oneView 3) {} 0) = false ∧
    (let acc : Acc := { es := some 0 }; acc.kd ≠ 8 ∧ acc.es ≠ none ∧ acc.rv ≠ (oneView 3).rx.map (BitVec.ofNat 2)) ∧ ({ kd := 8 } : Acc).kd = 8 ∧ (viewTile 1 (List.replicate 1056 0#8) []).e = 0 ∧
    (let c : Cluster := { ({} : Cluster).setSlot 0 ⟨1#4, List.replicate 1056 0#8⟩ with cim := [(0, { tile := ⟨1#4, List.replicate 1056 0#8⟩ })] }
     (match c.pair 0 0 0 false with
      | .ok A B => (mmulAcc 1 A B (c.accOf 0)).toOption.isSome && (mmulAcc 1 A B { kd := 8 }).toOption.isNone
      | _ => false) = true ∧ ((c.setAcc 0 { kd := 8 }).accOf 0).kd = 8) := by
  refine ⟨⟨shaped_of _ (by decide +kernel), shaped_of _ (by decide +kernel)⟩, ?_⟩
  decide +kernel
/-- 1024 elements of the value 2^e. -/
def flat (e : Int) : List FpVal := List.replicate 1024 (.fin false 1 e)
theorem witness_MatrixRowsJoinTheQueue_drains :
    (let acc : Acc := { es := some 0, rv := List.replicate 32 0#2, cv := List.replicate 32 0#2 }; acc.lanes = [] ∧ acc.rv.length = 32 ∧ acc.cv.length = 32 ∧ (accValues acc).length = 1024) ∧
    (([0, 2] : List Nat).all (fun k => let d : Drain := ⟨k, 0, 1, 2, 0, false, false, false⟩; trapFlag 0 (d.image ((base.cluster 0).accOf d.acc)).2.2 == none) = true) ∧
    ((flat 0).length = 1024 ∧ (∀ v ∈ flat 0, v.isNan = false ∧ v.isInf = false) ∧ maxInt ((flat 0).filterMap expOf) = some 0 ∧ (1 : Int) ≤ 0 + 127 ∧ (0 : Int) + 127 ≤ 254) ∧
    ((flat (-200)).length = 1024 ∧ (∀ v ∈ flat (-200), v.isInf = false) ∧ maxInt ((flat (-200)).filterMap expOf) = some (-200) ∧ (-200 : Int) + 127 < 1) ∧
    rawTile.tag.toNat ∈ [5, 6, 7] := by
  decide +kernel

theorem witness_MessagesAndHandoffsFire :
    (let w := goodWord 0x74
     goesColourless 0x74 w (withMessage (ready 0x74 w 0x200#64 0#64 0#64)) (fun s1 g => (s1.unit 1).issuedDone && (match s1.sendMessage 1 0 g.a.v g.tok with
       | (s2, .done) => (s2.inbox ⟨.copy, 0⟩).length == 1
       | _ => false)) = true) ∧
    (let w := goodWord 0x75
     goesColourless 0x75 w (ready 0x75 w 0x200#64 0#64 0#64) (fun s1 g => (s1.unit 1).issuedDone && (match s1.submitRecord 1 0 g.a.v with
       | (_, .done) => true
       | _ => false)) = true) ∧
    (let w := { goodWord 0x76 with fmt := 5#4 }
     goThen (prepFire 0x76 w (claimed (fabric 0x76 w [[tok1]]))) (fun s1 _ _ _ => handoffFault s1 1 0 1 5 == none && s1.canPush 0 1 5) = true ∧
     goThen (prepFire 0x76 w ((claimed (fabric 0x76 w [[tok1]])).modCluster 0 (fun c => { c with handoff := [((1, 5), 15)] })))
       (fun s1 _ _ _ => handoffFault s1 1 0 1 5 == none && !s1.canPush 0 1 5) = true) ∧
    (let w := { goodWord 0x77 with fmt := 2#4 }
     goThen (prepFire 0x77 w ((claimed (fabric 0x77 w [[tok1]])).modCluster 0 (fun c => { c with handoff := [((2, 1), 1)] })))
       (fun s1 _ _ _ => handoffFault s1 1 0 1 2 == none && s1.canPop 0 2 1) = true ∧
     goThen (prepFire 0x77 w (claimed (fabric 0x77 w [[tok1]]))) (fun s1 _ _ _ => handoffFault s1 1 0 1 2 == none && !s1.canPop 0 2 1) = true) := by
  decide +kernel

theorem witness_SpecialRegistersAndTraps :
    goes 0x7A (goodWord 0x7A) (fabric 0x7A (goodWord 0x7A) [[tok1]]) = true ∧
    (let w := goodWord 0x7B
     goThen (prepFire 0x7B w (fabric 0x7B w [[tok1]])) (fun s1 _ _ _ => s1.readSpecial 1 0 0 == some 0#64) = true ∧
     goThen (prepFire 0x7B { w with imm := 0xFF#32 } (fabric 0x7B { w with imm := 0xFF#32 } [[tok1]])) (fun s1 _ _ _ => s1.readSpecial 1 0 255 == none) = true) ∧
    (let w := { goodWord 0x7C with imm := 1#32 }
     goThen (prepFire 0x7C w (fabric 0x7C w [[tok1]])) (fun s1 _ _ _ => (s1.readSpecial 1 0 1).isSome) = true ∧
     goThen (prepFire 0x7C { w with imm := 0xFF#32 } (fabric 0x7C { w with imm := 0xFF#32 } [[tok1]])) (fun s1 _ _ _ => s1.readSpecial 1 0 255 == none) = true) ∧
    (let w : PeWord := ⟨0, 0, 0, 6, 6, 0, 0, 0, false, 0, 0⟩; let s := fabric 0 w [[tok1]]
     s.focusPe = some (1, 0) ∧ eregReady w ((calm s 1 0).pe 0) = true ∧ (calm s 1 0).matchSet 0 (selQueues w) (fun _ => true) = some [(0, tok1)]) ∧
    aget (withUnit seqUnit).units 1 = some seqUnit ∧
    goes 0x78 (goodWord 0x78) (fabric 0x78 (goodWord 0x78) [[tok1]]) = true ∧ goes 0x79 (goodWord 0x79) (fabric 0x79 (goodWord 0x79) [[tok1]]) = true := by
  decide +kernel

/-! ### Exceptions -/

def fault60 (ctl : Bool) : Raised := { cause := 0x060, ctl := ctl, addr := 0x41#64, tepc := 0x100#64 }
theorem witness_HandlerTakesAFault :
    (let s := withUnit { seqUnit with tvec := 0x80#64 }
     aget s.units 1 = some { seqUnit with tvec := 0x80#64 } ∧ seqUnit.status = .running ∧ seqUnit.handler = false ∧ (0x80#64 : Word) ≠ 0#64 ∧
     isStopCause (fault60 true).cause = false ∧ isStopCause (fault60 false).cause = false) ∧
    (aget (withUnit seqUnit).units 1 = some seqUnit ∧ seqUnit.tvec = 0#64 ∧ seqUnit.handler = false ∧ isStopCause 0x111 = true ∧
     aget (withUnit { seqUnit with status := .stopped 3, tvec := 8#64 }).units 1 = some { seqUnit with status := .stopped 3, tvec := 8#64 } ∧
     aget (withUnit { seqUnit with handler := true }).units 1 = some { seqUnit with handler := true } ∧ (fault60 false).ctl = false) ∧
    (ctlFieldsOk 0x28 ⟨0, 0, 0, 31⟩ = true ∧ ctlFieldsOk 0x1A ⟨0, 0, 0, 0⟩ = true ∧ ctlFieldsOk 0x1F ⟨7, 0, 0, 3⟩ = true ∧ seqUnit.quiet = false ∧
     seqUnit.oldest (agetD seqUnit.sinks 3 []) = none) := by
  decide +kernel
theorem witness_OtherFaultsWaitStopOrEnd :
    (aget (withUnit seqUnit).units 1 = some seqUnit ∧ seqUnit.status = .running ∧
      (isStopCause 0x111 = true ∧ isStopCause 0x0A3 = true ∧ seqUnit.handler = false ∧ seqUnit.tvec = 0#64 ∧ (fault60 true).ctl = true)) ∧
    (let u := { seqUnit with handler := true }; aget (withUnit u).units 1 = some u ∧ u.status = .running ∧ u.handler = true ∧ (fault60 false).ctl = false) ∧
    (let u := { seqUnit with status := .draining 5 none }; aget (withUnit u).units 1 = some u ∧ u.status = .draining 5 none) := by
  decide +kernel
/-- A unit in handler mode for a fault of PE(0,0), which is held. -/
def handling : UnitSt := { seqUnit with handler := true, tepc := 0x200#64, curFault := some (some 0, fault60 false), pes := [(0, { hasOp := true, held := some (fault60 false) })] }
/-- A load of unit 1, entry 4. -/
def entryLd : SbEntry := { id := 4, site := ⟨0, 0, 0, 0⟩, op := .ld, w := plainWord, tok := tok1 }
def noFields : CWord := ⟨0, 0, 0, 0⟩
theorem witness_EretReturnsFromTheHandler :
    (let u := { seqUnit with handler := true, tepc := 0x200#64 }; let s := withUnit u
     aget s.units s.curUnit = some u ∧ u.status = .running ∧ ctlFieldsOk 0x29 noFields = true ∧ u.pend = [] ∧ u.curFault = none) ∧
    (let s := withUnit handling
     aget s.units s.curUnit = some handling ∧ handling.status = .running ∧ handling.handler = true ∧ handling.pend = [] ∧
     handling.curFault = some (some 0, fault60 false) ∧ (fault60 false).entry = 0 ∧ (fault60 false).mat = 0 ∧ (handling.pe 0).held = some (fault60 false)) ∧
    (let u := { seqUnit with handler := true, curFault := some (none, { fault60 false with entry := 4 }), sb := [{ entryLd with phase := .faulted }] }
     aget (withUnit u).units 1 = some u ∧ u.pend = [] ∧ (u.entry? 4).isSome = true) ∧
    (let u := { seqUnit with handler := true, tvec := 0x80#64, pend := [(some 3, fault60 false), (some 1, fault60 false), (none, fault60 true)] }
     aget (withUnit u).units 1 = some u ∧ nextPending u.pend = some ((none, fault60 true), [(some 3, fault60 false), (some 1, fault60 false)]) ∧
     nextPending [(some 3, fault60 false), (some 1, fault60 false)] = some ((some 1, fault60 false), [(some 3, fault60 false)]) ∧
     isStopCause (fault60 true).cause = false ∧ u.tvec ≠ 0#64) ∧
    (aget (withUnit seqUnit).units 1 = some seqUnit ∧ seqUnit.handler = false) := by
  decide +kernel

/-! ### Control words -/

/-- Words that only write gd: g4 := g2 op g3, or with the immediate 5. -/
def aluWords : List Instr :=
  let r (f : CWord → Instr) (n : BitVec 11) : Instr := f ⟨4, 2, 3, n⟩
  let i (f : CWord → Instr) : Instr := f ⟨4, 2, 0, 5⟩
  [r .seqAdd 0, r .seqSub 1, r .seqAnd 2, r .seqOr 3, r .seqXor 4, r .seqShl 5, r .seqShr 6, r .seqSra 7, r .seqMul 8, r .seqMulh 9, r .seqDiv 10, r .seqRem 11,
   r .slt 12, r .sltu 13, r .seqMin 14, r .seqMax 15, i .addi, i .andi, i .ori, i .xori, i .shli, i .shri, i .srai, i .ldhi, i .slti]
theorem witness_SequencerArithmetic :
    (aluWords.all (fun i => match aluValue i with
      | some (op, c, _) => ctlFieldsOk op c
      | none => false) = true ∧ aget (withUnit seqUnit).units (withUnit seqUnit).curUnit = some seqUnit ∧ seqUnit.status = .running) ∧ (31#5 ≠ 0#5) := by
  decide +kernel
/-- The worked words of R276 to R279 act on g registers: `addi g3, g0, 1` writes 1 to g3; a write to g0 leaves 0. -/
theorem test_addi : nextIs (exec (decodeCtl 0x08600001#32) (withUnit seqUnit)) (fun t => ((t.unit 1).greg 3#5 == 1#64) && (t.unit 1).ccnt == 0x104#64) = true := by
  decide +kernel
theorem test_div_by_zero : nextIs (exec (.seqDiv ⟨4, 3, 0, 10⟩) (withUnit seqUnit)) (fun t => (t.unit 1).greg 4#5 == BitVec.allOnes 64) = true := by decide +kernel
/-- BEQ g3, g0 of the word 0x4060FFFB: not taken with g3 = 7, taken backwards by 5 words with g3 = 0 (R277). -/
theorem test_beq : nextIs (exec (decodeCtl 0x4060FFFB#32) (withUnit seqUnit)) (fun t => (t.unit 1).ccnt == 0x104#64) = true ∧
    nextIs (exec (decodeCtl 0x4060FFFB#32) (withUnit { seqUnit with g := [] })) (fun t => (t.unit 1).ccnt == 0xEC#64) = true := by
  decide +kernel
theorem witness_BranchesGoWhereTheySay :
    (([.beq, .bne, .blt, .bge, .bltu, .bgeu] : List (CWord → Instr)).all (fun f => match branchCond (f ⟨2, 3, 0x1F, 0x7FB⟩) with
      | some (op, c, _) => ctlFieldsOk op c
      | none => false) = true) ∧
    ctlFieldsOk 0x16 ⟨4, 0x1F, 0x1F, 0x7FD⟩ = true ∧ ctlFieldsOk 0x17 ⟨4, 1, 0, 2⟩ = true ∧
    (seqUnit.greg 1#5 + ((CWord.imm16 ⟨4, 1, 0, 2⟩).signExtend 64 <<< 2)) &&& 3#64 = 0#64 ∧
    (seqUnit.greg 3#5 + ((CWord.imm16 ⟨4, 3, 0, 2⟩).signExtend 64 <<< 2)) &&& 3#64 ≠ 0#64 := by
  decide +kernel

/-- LDG and STG at g1 + 0 = 0x40 and at g3 + 0 = 7. -/
theorem witness_SequencerLoadsAndStores :
    (let s := withUnit seqUnit; let u := seqUnit
     ctlFieldsOk 0x0B ⟨5, 1, 0, 0⟩ = true ∧ ctlFieldsOk 0x0C ⟨6, 1, 0, 0⟩ = true ∧ aget u.ctlHeld u.ccnt = none ∧ aget u.ctlAsked u.ccnt = none ∧
     ctlEa u ⟨5, 1, 0, 0⟩ % 8 = 0 ∧
     (match translateReady (s.modUnit 1 (fun x => { x with ldgLine := none })) u.lead u.job (ctlEa u ⟨5, 1, 0, 0⟩) 8 .load 0 with
      | (s1, .ok xa mt _) => !u.readPends { ctlEntry u .ld 0#3 0#64 (ctlEa u ⟨5, 1, 0, 0⟩) 8 with xa := xa, mt := mt } && okThen (s1.readNearXa u.lead xa 8 mt).2 (fun bs => bs.length == 8)
      | _ => false) = true ∧
     (match (translateReady s u.lead u.job (ctlEa u ⟨6, 1, 0, 0⟩) 8 .store 1).2 with
      | .ok xa _ _ => !isFabXa xa
      | _ => false) = true ∧ ctlEa u ⟨5, 3, 0, 0⟩ % 8 ≠ 0) := by
  decide +kernel
theorem witness_HomeWritesStoreTheirBytesOnly :
    (let s := base; s.mem.wf ∧ s.hmem.wf ∧ 0x50040 + [1#8, 2#8].length ≤ fabBase ∧ 0x50040 + 2 ≤ hostBase ∧
     (touchedLines 0x50040 2).all (fun l => s.clusters.all (fun p => !p.2.spans.any (fun sp => sp.touches l)) && s.net.all (fun m => m.line != l)) = true) ∧
    (let s := base; hostBase ≤ hostBase + 64 ∧ hostBase + 64 + [1#8].length ≤ fabBase ∧
     (touchedLines (hostBase + 64) 1).all (fun l => s.clusters.all (fun p => !p.2.spans.any (fun sp => sp.touches l)) && s.net.all (fun m => m.line != l)) = true) := by
  decide +kernel

/-- A synchronising access that performs. -/
def syncOk (r : CtlMem) : Bool :=
  match r with
  | .ok s1 _ => s1.curUnit == 1
  | _ => false
theorem witness_SequencerSynchronises :
    (([.amog ⟨5, 1, 3, 0⟩, .post ⟨0, 1, 0, 0⟩, .gnudge ⟨0, 1, 3, 0⟩] : List Instr).all (fun i => match syncWord seqUnit i, i.ctlPart with
      | some (_, e, rel), some (op, c) => ctlFieldsOk op.toNat c && syncOk (ctlSync (withUnit seqUnit) 1 seqUnit e rel)
      | _, _ => false) = true) ∧
    (([.amog ⟨5, 3, 3, 0⟩, .post ⟨0, 3, 0, 0⟩, .gnudge ⟨0, 3, 3, 0⟩] : List Instr).all (fun i => match syncWord seqUnit i, i.ctlPart with
      | some (_, e, _), some (op, c) => ctlFieldsOk op.toNat c && e.ea % e.n != 0
      | _, _ => false) = true) ∧
    (upFrom 0 4).all (fun k => let c : CWord := ⟨0, 1, 0, BitVec.ofNat 11 k⟩
      ctlFieldsOk 0x2C c && (match translate (withUnit seqUnit) 0 0 0x40 .fence 0 with
        | (s1, .ok xa _ sc) => let s2 := s1.modUnit 1 (fun x => { x with wait := .fence 1 })
          seqUnit.ordCtr == 1 && s2.fencegDone 1 seqUnit k 1 && (k == 0 || decide ((scopeCheck (s2.dirOf (xa / 128)).scopeRec sc 0).1 < 3)) && !isFabXa xa &&
          (s2.dirOf (xa / 128)).lock.isNone &&
          syncOk (ctlScope (s2.syncEffect { ctlEntry seqUnit .fence 0#3 0#64 0x40 8 with xa := xa, scope := sc } []).1 1 seqUnit { ctlEntry seqUnit .fence 0#3 0#64 0x40 8 with xa := xa, scope := sc } (s2.dirOf (xa / 128)).scopeRec 0#64)
        | _ => false)) = true ∧
    ((match translate (withFar (withUnit seqUnit)) 0 0 0x20000 .fence 0 with
      | (s1, .ok xa _ sc) => let s2 := s1.modUnit 1 (fun x => { x with wait := .fence 1 })
        isFabXa xa && sc == 3 && s2.fencegDone 1 seqUnit 1 1 && s2.fabricReleased 1
      | _ => false) = true) ∧
    (let u := { seqUnit with sb := [{ entryLd with ord := 0 }, { entryLd with op := .st, phase := .issued, ord := 1 }], ordCtr := 2 }; (withUnit u).fencegDone 1 u 1 2 = false) ∧
    Fresh seqUnit ∧ (∀ o, seqUnit.wait ≠ .fence o) := by
  refine ⟨by decide +kernel, by decide +kernel, by decide +kernel, by decide +kernel, by decide +kernel, ⟨by decide, by decide⟩, fun o h => ?_⟩
  cases h

/-- The unit has been reported quiescent and is quiescent. -/
def quietUnit : UnitSt := { seqUnit with quiet := true }
/-- A launch of job 0 needs the 64 clusters that unit 1 of job 1 stands in. -/
def crowded (u : UnitSt) : State :=
  { withObject (withUnit { u with job := 1 }) (2 ^ 112 + 6 * 2 ^ 120) with insts := [{ inst1 with nodes := [{ st := .running, inPool := true }, {}] }] }
theorem witness_WordsThatWaitForQuiescence :
    (let s := withUnit quietUnit
     ctlFieldsOk 0x1A noFields = true ∧ ctlFieldsOk 0x30 noFields = true ∧ ctlFieldsOk 0x19 noFields = true ∧ ctlFieldsOk 0x26 noFields = true ∧
     quietUnit.quiet = true ∧ s.quiescent s.curUnit quietUnit = true ∧ quietUnit.lvlsOk = true ∧ { quietUnit with lvl := [] }.lvlsOk = false ∧ quietUnit.staged = none ∧
     ((rested s).nextWord 1).displaced quietUnit false = false) ∧
    seqUnit.quiet = false ∧ base.fleet.peFailed = [] ∧
    (let p := pe 0x36 { goodWord 0x36 with sa := 6#3, sb := 6#3, sc := 6#3 } []; p.opc = 0x36#7 ∧ p.word.sa = 6#3 ∧ p.word.sb = 6#3 ∧ p.word.sc = 6#3) ∧
    (let u := { quietUnit with staged := some {} }; (withUnit u).quiescent 1 u = true ∧ u.staged = some {}) ∧
    (let s := crowded quietUnit; let u := { quietUnit with job := 1 }
     aget s.units 1 = some u ∧ s.quiescent 1 u = true ∧ ((rested s).nextWord 1).displaced u false = true) := by
  decide +kernel

/-- A unit with an active image, g1 = payload and g2 = the route of INJ. -/
def injUnit (b : Word) : UnitSt := { seqUnit with g := [0#64, 5#64, b], active := some {}, pes := [(0, { hasOp := true })] }
theorem witness_BanksTokensAndImages :
    (let s := withUnit quietUnit
     ctlFieldsOk 0x20 ⟨0, 1, 0, 0⟩ = true ∧ quietUnit.clusterList.any (fun k => (s.cluster k).lsMode) = false ∧
     (quietUnit.clusterList.any (fun k => ((s.modCluster 0 (fun c => { c with lsMode := true })).cluster k).lsMode) = true) ∧
     (s.cluster 0).role 0 ≠ 1 ∧ ({ s.cluster 0 with roles := 1#64 } : Cluster).role 0 = 1 ∧
     s.units.any (fun p => p.1 != s.curUnit && p.2.inRegion && quietUnit.clusterList.any (fun k => p.2.covers k)) = false ∧
     ({ s with units := s.units ++ [(2, { seqUnit with id := 2, ctx := 1 })] } : State).units.any (fun p => p.1 != s.curUnit && p.2.inRegion &&
       quietUnit.clusterList.any (fun k => p.2.covers k)) = true ∧ s.quiescent 1 quietUnit = true) ∧
    (let s := (withUnit seqUnit).modCluster 0 (fun c => { c with lsMode := true, roles := 0xC0#64 })
     ctlFieldsOk 0x21 ⟨0, 0, 0, 32⟩ = true ∧ seqUnit.clusterList.any (fun k => !((withUnit seqUnit).cluster k).lsMode) = true ∧
     seqUnit.clusterList.any (fun k => !(s.cluster k).lsMode) = false ∧ seqUnit.clusterList.any (fun k => (reszRoles (s.cluster k) 32).isNone) = false ∧
     seqUnit.clusterList.any (fun k => (reszRoles ({ roles := 0x40#64 } : Cluster) 32).isNone && k == 0) = true ∧
     (32 : Nat) ≤ 32 ∧ (reszRoles (s.cluster 0) 32).isSome = true ∧ (reszRoles (s.cluster 0) 0).isSome = true) ∧
    (let u := injUnit 0#64; let d := routeSite ((u.greg 2#5).toNat % 2 ^ 32); let pos : Site := u.placeOf ⟨u.lead + d.1.cl, d.1.x, d.1.y, u.ctx⟩
     ctlFieldsOk 0x1E ⟨0, 1, 2, 1⟩ = true ∧ d.1.cl < u.size ∧ (u.greg 2#5).toNat % 2048 = 0 ∧ bits (u.greg 2#5).toNat 39 32 < (lget u.lvl 0 0#9).toNat ∧
     u.active.isSome = true ∧ (u.nodeAt pos).isSome = true ∧ ((u.pe ((u.nodeAt pos).getD 0)).queue d.2).length < 4) ∧
    (let u := injUnit 0x800000#64; u.size ≤ (routeSite ((u.greg 2#5).toNat % 2 ^ 32)).1.cl) ∧ (injUnit 1#64).greg 2#5 = 1#64 ∧
    (let u := injUnit 0x800000000#64; (lget u.lvl 0 0#9).toNat ≤ bits (u.greg 2#5).toNat 39 32) ∧ seqUnit.active = none ∧
    (let u := { quietUnit with sinks := [(3, [tok1])] }
     ctlFieldsOk 0x1F ⟨7, 0, 0, 3⟩ = true ∧ u.oldest (agetD u.sinks 3 []) = some tok1 ∧ quietUnit.oldest (agetD quietUnit.sinks 3 []) = none ∧
     quietUnit.quiet = true ∧ (withUnit quietUnit).quiescent 1 quietUnit = true ∧ seqUnit.oldest (agetD seqUnit.sinks 3 []) = none ∧ seqUnit.quiet = false) ∧
    (let s := withImage (withUnit seqUnit)
     ctlFieldsOk 0x18 ⟨0, 0, 0, 16⟩ = true ∧ (seqUnit.greg 0#5 + (sx16 ⟨0, 0, 0, 16⟩ <<< 6)).toNat % 2 ^ 56 = 0x400 ∧
     okThen (s.loadImage seqUnit 0x400).2 (fun img => img.pes == []) = true ∧
     (match (s.loadImage seqUnit 0x440).2 with
      | .error (.reject k) => k == 0x008
      | _ => false) = true ∧
     (match (s.loadImage seqUnit 0x10000).2 with
      | .error (.fetch k _ _ _) => k != 0x160
      | _ => false) = true ∧ (seqUnit.greg 3#5).toNat % 64 ≠ 0) := by
  decide +kernel

theorem witness_RemainingControlWords :
    (let s := claimed (withUnit seqUnit)
     ctlFieldsOk 0x1B ⟨0, 0, 0, 5⟩ = true ∧ ctlFieldsOk 0x1C ⟨0, 0, 0, 5⟩ = true ∧ ctlFieldsOk 0x1D ⟨3, 3, 4, 3⟩ = true ∧ ctlFieldsOk 0x31 noFields = true ∧
     ctlFieldsOk 0x22 ⟨0, 0, 0, 3⟩ = true ∧ ctlFieldsOk 0x23 ⟨0, 0, 0, 3⟩ = true ∧ handoffFault s s.curUnit 0 2 3 = none ∧ s.canPush 0 2 3 = true ∧
     ctlFieldsOk 0x25 ⟨0, 0, 0, 0⟩ = true ∧ ctlFieldsOk 0x25 ⟨0, 0, 0, 4⟩ = true ∧ ctlFieldsOk 0x27 noFields = true ∧ seqUnit.wait = .none ∧
     ctlFieldsOk 0x28 ⟨0, 0, 0, 31⟩ = true ∧ ctlFieldsOk 0x2A ⟨4, 0, 0, 1⟩ = true ∧ ctlFieldsOk 0x2B ⟨0, 1, 0, 1⟩ = true ∧
     s.readSpecial s.curUnit 0 1 = some 0#64 ∧ s.readSpecial s.curUnit 0 255 = none ∧ ctlFieldsOk 0x2A ⟨4, 0, 0, 255⟩ = true ∧ ctlFieldsOk 0x2B ⟨0, 1, 0, 255⟩ = true) ∧
    (let u := { seqUnit with g := [0#64, 0x200#64] }; let s := withMessage (withUnit u)
     ctlFieldsOk 0x2D ⟨0, 1, 0, 0⟩ = true ∧ ctlFieldsOk 0x2E ⟨0, 1, 0, 0⟩ = true ∧ u.issuedDone = true ∧
     (match (s.sendMessage 1 0 (u.greg 1#5) { ctx := BitVec.ofNat 2 u.ctx }).2 with
      | .done => true
      | _ => false) = true ∧
     (match ((withUnit u).submitRecord 1 0 (u.greg 1#5)).2 with
      | .done => true
      | _ => false) = true) ∧
    (Instr.nopc ⟨1, 0, 0, 0⟩).ctlPart = some (0x31#6, ⟨1, 0, 0, 0⟩) ∧ ctlFieldsOk 0x31 ⟨1, 0, 0, 0⟩ = false := by
  decide +kernel

/-! ### Engines -/

def msgOf (ptrs : List Word) : Message := ⟨BitVec.ofNat 4 ptrs.length, 0, 0, 0, 0, ptrs⟩
/-- The first word of a handler entry: valid, for opcode `opc` and job 0 (R260). -/
def entryWord (opc : Nat) : Nat := 2 ^ 63 + opc * 2 ^ 48
/-- The handler tables of die 0: entry 0 of each engine kind is for `opc`. -/
def withHandlers (opc : Nat) (s : State) (first : Nat := entryWord opc) : State :=
  { [0x60000, 0x61000, 0x62000, 0x63000].foldl (fun s a => s.devWrite a (leBytes 8 first)) s with handlerBase := [(0, 0x60000), (4, 0x61000), (8, 0x62000), (12, 0x63000)] }
def inMsg (opc : Nat) (msg : Message) : InMsg := { opc := BitVec.ofNat 8 opc, msg := msg, unit := 1 }
/-- A command at the head of its engine's inbox; unit 1 holds the claim of cluster 0. -/
def command (opc : Nat) (msg : Message) (s : State := claimed (withUnit seqUnit)) : State :=
  let e := (engineOf opc 0).getD ⟨.matrix, 0⟩
  { ((withHandlers opc s).setInbox e [inMsg opc msg]) with curEng := e }

/-- The message that has passed the steps, and the state in which it stands at the head and has popped its FIFO. -/
def passedMsg (m : InMsg) : InMsg := { m with popped := true, checked := true, busySince := none }
def poppedState (s : State) (m : InMsg) (rest : List InMsg) : State :=
  (if m.msg.hpop != 0#4 && !m.popped then s.popHandoff m.cl m.msg.hpop.toNat (engineCode s.curEng.kind) else s).setInbox s.curEng (passedMsg m :: rest)
/-- The command at the head passes the steps of R261, and what it finds satisfies `P`. -/
def acceptedThen (i : Instr) (s : State) (P : State → InMsg → (Nat → Word) → Bool) : Bool :=
  match cmdOf i, s.inbox s.curEng with
  | some (opc, N, msg), m :: rest =>
    (match s.handlerEntry s.curEng m.msg.handler.toNat with
     | some (ea, h) =>
       decide (m.msg = msg) && decide (m.opc.toNat = opc) && decide (engineOf opc m.cl = some s.curEng) && !((s.unit m.unit).isEnded || (s.unit m.unit).overrun) && decide (m.msg.nptr.toNat ≤ 6) &&
       !badEngineCode s.curEng m.msg.hpop.toNat && !badEngineCode s.curEng m.msg.hpush.toNat && s.hostReady ea 64 false && (commandChecks opc N s m ea h).all (fun p => !p.1) &&
       (decide (s.runsOf s.curEng < 8) || decide (s.curEng.kind = .matrix) || decide (s.curEng.kind = .collective)) &&
       (decide (m.msg.hpop = 0#4) || m.popped || s.canPop m.cl m.msg.hpop.toNat (engineCode s.curEng.kind)) &&
       P (poppedState s m rest) (passedMsg m) ((poppedState s m rest).operand (passedMsg m) ea)
     | none => false)
  | _, _ => false
theorem acceptedThen_meets (i : Instr) (s : State) (P : State → InMsg → (Nat → Word) → Bool) (H : acceptedThen i s P = true) :
    ∃ opc s1 im h w, Accepts i opc s s1 im h w ∧ P s1 im w = true := by
  unfold acceptedThen at H
  split at H
  · next opc N msg m rest h1 h2 =>
    split at H
    · next ea h h3 =>
      simp only [Bool.and_eq_true, decide_eq_true_eq, Bool.or_eq_true, Bool.not_eq_true'] at H
      obtain ⟨⟨⟨⟨⟨⟨⟨⟨⟨⟨⟨e1, e2⟩, e3⟩, e4⟩, e5⟩, e6⟩, e7⟩, e0⟩, e8⟩, e9⟩, e10⟩, e11⟩ := H
      subst e1
      rw [Bool.or_eq_false_iff] at e4
      refine ⟨opc, _, _, h, _, ?_, e11⟩
      exact ⟨N, m, rest, ea, ⟨h1, h2, e2, e3, e4⟩, ⟨e5, e6, e7, h3, e0⟩, Or.inr e8, or_assoc.mp e9, or_assoc.mp e10, rfl, rfl, rfl⟩
    · exact absurd H (by simp)
  · exact absurd H (by simp)

/-- Commands of queue M with operands that pass their checks, and with a reserved bit set in the first word. -/
def matrixCommands : List (Nat × (Message → Instr) × List Word) :=
  [(0x10, .cmdMbld, [0#64, 0#64]), (0x11, .cmdMmul, [0#64]), (0x12, .macc, [0#64]), (0x13, .cmdMdrn, [0#64, 0#64]), (0x14, .mqnt, [0x100#64]), (0x15, .mzer, [0#64]),
   (0x16, .mcbt, [0#64, 0#64])]
/-- The first failing step of R261 for a CPY, with the state and message given. -/
def firstCheck (s : State) : Option Nat :=
  match s.inbox s.curEng with
  | m :: _ => (s.handlerEntry s.curEng m.msg.handler.toNat).bind (fun p => ((commandChecks 0x20 3 s m p.1 p.2).find? (fun c => c.1)).map Prod.snd)
  | [] => none
def cpy3 : Message := msgOf [0#64, 0x40#64, 8#64]
theorem witness_CommandsAreCheckedInOrder :
    (let s := command 0x20 cpy3
     cmdOf (.cpy cpy3) = some (0x20, 3, cpy3) ∧ s.inbox s.curEng = [inMsg 0x20 cpy3] ∧ engineOf 0x20 0 = some s.curEng ∧ (s.unit 1).isEnded = false ∧ (s.unit 1).overrun = false) ∧
    (6 < (msgOf (List.replicate 7 0#64)).nptr.toNat ∧ badEngineCode ⟨.copy, 0⟩ 6 = true ∧ badEngineCode ⟨.collective, 0⟩ 1 = true ∧ badEngineCode ⟨.copy, 0⟩ 1 = false) ∧
    ((command 0x20 cpy3).handlerEntry ⟨.copy, 0⟩ 0).isSome = true ∧ firstCheck (command 0x20 cpy3) = none ∧
    firstCheck { command 0x20 cpy3 with bad := [0x61000 / 128] } = some 0x160 ∧
    firstCheck (withHandlers 0x20 (command 0x20 cpy3) 0) = some 0x0C2 ∧ firstCheck (withHandlers 0x20 (command 0x20 cpy3) (entryWord 0x20 + 2 ^ 62)) = some 0x0C3 ∧
    firstCheck (withHandlers 0x20 (command 0x20 cpy3) (entryWord 0x20 + 1)) = some 0x0C5 ∧ firstCheck (withHandlers 0x20 (command 0x20 cpy3) (entryWord 0x21)) = some 0x0C7 ∧
    firstCheck (command 0x20 (msgOf [0#64, 0#64, 0#64, 0#64])) = some 0x0C4 ∧
    firstCheck (command 0x20 { cpy3 with hpop := 1#4 } (withUnit seqUnit)) = some 0x0C8 ∧
    ({ command 0x20 cpy3 with handlerBase := [] } : State).handlerEntry ⟨.copy, 0⟩ 0 = none ∧
    ({ command 0x20 cpy3 with runs := List.replicate 8 { m := inMsg 0x20 cpy3, eng := ⟨.copy, 0⟩ } } : State).runsOf ⟨.copy, 0⟩ = 8 ∧
    (command 0x20 { cpy3 with hpop := 1#4 }).canPop 0 1 (engineCode .copy) = false ∧
    (let s := command 0x17 (msgOf [0#64, 0#64, 0#64, 0#64]); (s.handlerEntry s.curEng 0).any (fun p => bit p.2 63 && !bit p.2 62 && bits p.2 31 0 == 0) = true) ∧
    (matrixCommands.all (fun c => acceptedThen (c.2.1 (msgOf c.2.2)) (command c.1 (msgOf c.2.2)) (fun s1 im w =>
      isQueueM (c.2.1 (msgOf c.2.2)) && (matrixChecks s1 im w (c.2.1 (msgOf c.2.2))).all (fun p => !p.1))) = true) ∧
    (matrixCommands.all (fun c => let m := msgOf ((c.2.2.headD 0#64 ||| 0x1000000000000000#64) :: c.2.2.drop 1)
      acceptedThen (c.2.1 m) (command c.1 m) (fun s1 im w => (matrixChecks s1 im w (c.2.1 m)).find? (fun p => p.1) == some (true, 0x0CA))) = true) ∧
    (let m := msgOf [0#64]; acceptedThen (.mqnt m) (command 0x14 m) (fun s1 im w => (matrixChecks s1 im w (.mqnt m)).find? (fun p => p.1) == some (true, 0x025)) = true) := by
  decide +kernel

/-- Every access of a list is possible now. -/
def possible (s : State) (im : InMsg) (l : List SAcc) : Bool := (s.checkAll im l).2.isNone
def isRun : CmdRes → Bool
  | .run _ plan => !plan.isEmpty
  | _ => false
/-- CPY of 8 bytes from 0x40 to 0, CPY2D of two rows, FILL, WSFL into die 0 whose store job 0 fills, CPYXS of one image, GTHXS of one image by
index 0, and GTH, SCT, SCTA of two elements by the indices at 0x800. -/
theorem witness_DataCommandsMoveTheirBytes :
    acceptedThen (.cpy cpy3) (command 0x20 cpy3) (fun s1 im w => addrOk 0b11 (w 0) && addrOk 0b11 (w 1) && wbits (w 2) 63 32 == 0 &&
      !overlap (addrOf (w 0)) 8 (addrOf (w 1)) 8 && possible s1 im [⟨0, 0x40, 8, .load⟩, ⟨0, 0, 8, .store⟩]) = true ∧
    acceptedThen (.cpy (msgOf [0#64, 4#64, 8#64])) (command 0x20 (msgOf [0#64, 4#64, 8#64])) (fun _ _ w =>
      spaceOf (w 0) == spaceOf (w 1) && overlap (addrOf (w 0)) 8 (addrOf (w 1)) 8) = true ∧
    (let m := msgOf [0#64, 0x1000#64, 0x200000008#64, 0x10000000010#64]
     acceptedThen (.cpy2d m) (command 0x21 m) (fun s1 im w => wbits (w 2) 31 0 == 8 && wbits (w 2) 47 32 == 2 && wbits (w 2) 63 48 == 0 &&
       possible s1 im [⟨0, 0x1000, 8, .load⟩, ⟨0, 0, 8, .store⟩, ⟨0, 0x1010, 8, .load⟩, ⟨0, 0x100, 8, .store⟩]) = true) ∧
    (let m := msgOf [0#64, 8#64, 5#64]
     acceptedThen (.fill m) (command 0x22 m) (fun s1 im w => addrOk 0b11 (w 0) && wbits (w 1) 31 0 == 8 && wbits (w 1) 63 32 == 0 && possible s1 im [⟨0, 0, 8, .store⟩]) = true) ∧
    (let m := msgOf [0x8000000000000000#64, 0#64, 8#64]
     let s0 := (claimed (withUnit seqUnit)).modDie 0 (fun d => { d with wsJob := some 0, wsPhase := some 1, cyc := 1024#64 })
     let s := command 0x23 m { s0 with phases := [{ id := 1, job := 0, dies := 1, groupTable := 0#64, cdone := 0#64, st := .fill }] }
     acceptedThen (.wsfl m) s (fun s1 im w => addrOk 0b100 (w 0) && addrOk 0b11 (w 1) && wbits (w 2) 63 32 == 0 && s1.phaseDie 0 0 && !(s1.die 0).run &&
       s1.refreshedRange 0 8 && possible s1 im [⟨0, 0, 8, .load⟩]) = true) ∧
    (let m := msgOf [0xC000000000000001#64, 0xC000000000000000#64, 0#64]
     let s := command 0x24 m ((claimed (withUnit seqUnit)).modCluster 0 (fun c => c.setSlot 0 ⟨3#4, List.replicate 544 0#8⟩))
     acceptedThen (.cpyxs m) s (fun s1 im w => addrOk 0b1001 (w 0) && addrOk 0b1001 (w 1) && s1.slotCause im 3 1 1 == none && s1.slotCause im 3 0 1 == none &&
       isRun (s1.moveImages im 3 3 [0] [1] false false)) = true) ∧
    (let m := msgOf [0xC000000000000001#64, 0x1000#64, 0x800#64, 1#64]
     let s := command 0x33 m (poke (claimed (withUnit seqUnit)) [(0x1000, leBytes 4 0x00000003)])
     acceptedThen (.gthxs m) s (fun s1 im w => addrOk 0b1001 (w 0) && addrOk 0b1 (w 1) && addrOk 0b11 (w 2) && wbits (w 3) 33 32 == 0 && wbits (w 3) 63 36 == 0 &&
       s1.slotCause im 3 1 1 == none && possible s1 im [⟨0, 0x800, 4, .load⟩] && isRun (s1.moveImages im 0 3 [0x1000] [1] true false)) = true) ∧
    (([(0x30, .gth), (0x31, .sct), (0x32, .scta)] : List (Nat × (Message → Instr))).all (fun c =>
      let m := msgOf [0x100#64, 0x200#64, 0x800#64, 0x200000002#64]
      acceptedThen (c.2 m) (command c.1 m) (fun s1 im w => !gatherCause w (c.1 == 0x32) && possible s1 im [⟨0, 0x800, 8, .load⟩] &&
        (unaligned 4 (elemPairs 0x100 0x200 2 [0, 0])).isNone && possible s1 im [⟨0, 0x100, 4, .load⟩, ⟨0, 0x200, 4, .store⟩])) = true) := by
  decide +kernel

/-- A run of a CPY, complete. -/
def run1 (hpush : BitVec 4) : Run := { m := inMsg 0x20 { cpy3 with hpush := hpush }, eng := ⟨.copy, 0⟩ }
/-- One part of a CPY from the L space into the L space and into the weight store, before and after its bytes are there. -/
def planned (ss ds : Nat) (got : List Byte) : Run := { run1 0#4 with plan := [{ ss := ss, a := 8, ds := ds, d := 16, n := 8, got := got }] }
theorem witness_DataCommandsParts :
    (let s := { withUnit seqUnit with runs := [planned 1 1 []] }
     s.runs[0]? = some (planned 1 1 []) ∧ (planned 1 1 []).plan = [{ ss := 1, a := 8, ds := 1, d := 16, n := 8 }] ∧ 8 % 8 + 8 ≤ 8 ∧
     (s.unit 1).overrun = false ∧ ((s.modUnit 1 (fun u => { u with overrun := true })).unit 1).overrun = true) ∧
    (let r := planned 1 2 (leBytes 8 5); let s := ({ withUnit seqUnit with runs := [r] } : State).modDie 0 (fun d => { d with cyc := 1024#64 })
     s.runs[0]? = some r ∧ (∀ p ∈ r.plan, p.got.length = p.n ∧ p.tile = false ∧ p.add = false ∧ p.ds = 2) ∧ s.refreshedRange 16 8 = true) ∧
    (∀ p ∈ (planned 1 1 (leBytes 8 5)).plan, p.ds = 1 ∧ p.got.length = p.n) ∧ (run1 0#4).plan = [] := by
  decide +kernel

/-- Instance 1 of phase 1, whose group 0 has units 0 and 1 of this device as participants. -/
def withGroup (s : State) (l : List (Nat × Nat) := [(0, 0), (0, 1)]) : State :=
  { s with insts := [{ inst1 with phase := some 1 }], phases := [{ id := 1, job := 0, dies := 0, groupTable := 0#64, cdone := 0#64, st := .run, groups := [(0, l)] }] }
/-- Unit 1 of instance 1. -/
def collState (opc : Nat) (m : Message) (l : List (Nat × Nat) := [(0, 0), (0, 1)]) : State :=
  withGroup (command opc m (claimed (withUnit { seqUnit with inst := 1 }))) l
def part (rank opc : Nat) (w : Word) : CollPart := { rank := rank, opc := opc, ctl := w }
def roundState (ps : List CollPart) : State := { withGroup (withUnit { seqUnit with inst := 1 }) with colls := [⟨0, 1, 0, ps⟩], ev := { ph := 1, grp := 0 } }
theorem witness_CollectiveCommandsJoinTheirRound :
    (([(0x40, .cred, [0x10000#64, 0x100#64, 0x200#64]), (0x41, .cagt, [0x10000#64, 0x100#64, 0x200#64]), (0x42, .crsc, [0x10000#64, 0x100#64, 0x200#64]),
       (0x43, .cbcs, [0x10000#64, 0x100#64, 0x200#64]), (0x44, .cbar, [0#64])] : List (Nat × (Message → Instr) × List Word)).all (fun c =>
      let m := msgOf c.2.2
      acceptedThen (c.2.1 m) (collState c.1 m) (fun s1 im w =>
        (s1.collGroup (s1.unit im.unit) (collGrp (w 0))) == some (1, [(0, 0), (0, 1)]) && s1.devNum == 0#10 && rankOf [(0, 0), (0, 1)] 0 0 == some 0 &&
        collOp (w 0) == 0 && collFmt (w 0) == 0 && s1.unitReleased im.unit 3 && s1.colls.isEmpty && possible s1 im [⟨0, 0x200, 16, .load⟩, ⟨0, 0x100, 16, .store⟩]) &&
      acceptedThen (c.2.1 m) (collState c.1 m []) (fun s1 im w => (s1.collGroup (s1.unit im.unit) (collGrp (w 0))) == none) &&
      acceptedThen (c.2.1 m) (collState c.1 m [(0, 1)]) (fun s1 im w => (s1.collGroup (s1.unit im.unit) (collGrp (w 0))) == some (1, [(0, 1)]) && rankOf [(0, 1)] 0 0 == none && s1.devNum == 0#10)) = true) ∧
    (let s := roundState [part 0 0x44 0#64]; s.colls.find? (fun c => c.phase == 1 && c.grp == 0) = some ⟨0, 1, 0, [part 0 0x44 0#64]⟩) := by
  decide +kernel

/-- A queue M operation of the unit. -/
def mzer : MatOp := { id := 5, opc := 0x15#8, w := plainWord, msg := some (inMsg 0x15 (msgOf [0#64])), unit := 1, site := ⟨0, 0, 0, 0⟩ }
def mmulBad : MatOp := { id := 5, opc := 0x72#8, w := { tileWord 0 0 with mod := 1#3 }, unit := 1, site := ⟨0, 0, 0, 0⟩ }
def queued (o : MatOp) : State := (claimed (withUnit seqUnit)).modCluster 0 (fun c => { c with mq := [o] })
def issueIs (s : State) (o : MatOp) (ok : Bool) : Bool :=
  match s.issueMat 0 o with
  | .ok _ _ _ _ _ => ok
  | .fault _ _ => !ok
  | .wait _ => false
def task1 : TileTask := { unit := 1, hdr := 0#64, words := [0#64, 0x1000#64, 0x2000#64, 0#64], rdy := 1 }
theorem witness_EnginesComplete :
    (let s := { withUnit seqUnit with runs := [run1 0#4], ev := {} }; s.runs[s.ev.i]? = some (run1 0#4) ∧ s.runDone (run1 0#4) = true ∧ (run1 0#4).m.msg.hpush.toNat = 0) ∧
    (let s := { claimed (withUnit seqUnit) with runs := [run1 1#4], ev := {} }
     s.runs[s.ev.i]? = some (run1 1#4) ∧ s.runDone (run1 1#4) = true ∧ (run1 1#4).m.msg.hpush.toNat = 1 ∧ (s.unit 1).isEnded = false ∧
     s.canPush 0 (engineCode .copy) 1 = true ∧ s.ev.flag = false) ∧
    (let s := { queued mzer with ev := {} }
     (s.cluster s.ev.cl).mq[s.ev.i]? = some mzer ∧ mzer.issued = false ∧ mzer.held = false ∧ ((s.cluster s.ev.cl).mq.take s.ev.i).any (fun x => !x.issued && !x.held && mzer.sameSource x) = false ∧
     mzer.mayGo (s.unit 1) = true ∧ s.clusterHalted 0 (s.unit 1).job = false ∧ mzer.hpop = 0 ∧ issueIs s mzer true = true) ∧
    (let s := { queued mmulBad with ev := {} }; (s.cluster 0).mq[0]? = some mmulBad ∧ mmulBad.hpop = 0 ∧ mmulBad.msg = none ∧ issueIs s mmulBad false = true) ∧
    (let o := { mmulBad with opc := 0x11#8, a := 0x40000#64, msg := mzer.msg }; let s := { queued o with ev := {} }
     (s.cluster 0).mq[0]? = some o ∧ o.hpop = 0 ∧ issueIs s o false = true) ∧
    (let o := { mzer with issued := true }; let s := { queued o with ev := {} }; (s.cluster s.ev.cl).mq[s.ev.i]? = some o ∧ o.hpush = 0 ∧ o.issued = true ∧
     ((s.cluster s.ev.cl).mq.take s.ev.i).any (fun x => !x.fills.isEmpty || x.cimFill.isSome) = false ∧ (s.fillSlots s.ev.cl s.ev.i o).fyPending (fun w => w == o.who && w.2 != 0) = false) ∧
    (let m := { inMsg 0x20 cpy3 with busySince := some 0 }
     let s := { withHandlers 0x20 (command 0x20 cpy3) (entryWord 0x20 + 2 ^ 62) with ev := { eng := ⟨.copy, 0⟩ } }.setInbox ⟨.copy, 0⟩ [m]
     s.inbox s.ev.eng = [m] ∧ (s.handlerEntry s.ev.eng 0).any (fun p => bit p.2 62 && s.hostReady p.1 64 false) = true ∧ ((s.die 0).cyc - wd 0).toNat < 4096 ∧
     4096 ≤ (((s.modDie 0 (fun d => { d with cyc := 4096#64 })).die 0).cyc - wd 0).toNat) ∧
    (let s := { (withUnit seqUnit).modDie 0 (fun d => { d with tasks := [task1] }) with ev := {} }
     (nextTask (s.die s.ev.die).tasks 0).map Prod.fst = some 0 ∧ (s.die s.ev.die).tasks[0]? = some task1 ∧ task1.running = [] ∧ s.ev.die < 4 ∧ s.taskEngine 79 = true) ∧
    (let t := { task1 with nextBlk := 1, running := [(0, 79)] }
     let s := { poke (withUnit seqUnit) [(0, leBytes 4 3), (0x1000, leBytes 4 3)] with ev := {} }.modDie 0 (fun d => { d with tasks := [t] })
     (s.die s.ev.die).tasks[s.ev.i]? = some t ∧ t.running[s.ev.k]? = some (0, 79) ∧
     (match s.runBlock t 0 79 with
      | .ok _ _ _ => true
      | _ => false) = true) ∧
    (let s := roundState [part 0 0x40 0#64, part 1 0x40 1#64]
     (s.colls.find? (fun c => c.phase == s.ev.ph && c.grp == s.ev.grp)).isSome = true ∧ (s.phase? s.ev.ph).isSome = true ∧
     (∀ q, q < 2 → ([part 0 0x40 0#64, part 1 0x40 1#64] : List CollPart).any (fun p => p.rank == q && p.whole) = true) ∧
     (part 1 0x40 1#64).ctl ≠ (([part 0 0x40 0#64, part 1 0x40 1#64] : List CollPart).headD { rank := 0 }).ctl) ∧
    (let ps := [part 0 0x44 0#64, part 1 0x44 0#64]; let s := roundState ps
     (∀ q, q < 2 → ps.any (fun p => p.rank == q && p.whole) = true) ∧ ps ≠ [] ∧ (∀ p ∈ ps, p.ctl = 0#64 ∧ p.opc = 0x44) ∧ (destsReady s ps (collDst 0x44 0#64 2 * collSize 0#64)).2 = true) := by
  decide +kernel

/-! ### The fabric and the coherence network -/

def flight9 (q : Option Nat) : Flight := { src := ⟨0, 1, 0, 0⟩, pos := ⟨0, 0, 0, 0⟩, q := q, tok := { tok1 with itag := 9#8 } }
/-- A token on its way to queue 0 of PE(0,0), which holds an operation and the queues given. -/
def arriving (q : List (List Token)) (opc : Nat := 1) : State := { fabric opc (goodWord 1) q with flights := [flight9 (some 0)], ev := { u := 1 } }
def tags (l : List Nat) : List Token := l.map (fun k => { tok1 with itag := BitVec.ofNat 8 k })
/-- Queue 0 of PE(0,0) holds two tokens without partners. -/
def unpaired : State := { fabric 1 (goodWord 1) [tags [0, 1]] with ev := { u := 1, q := 0 } }
def entry9 (k : Nat) : MsEntry := { rank := 0, x := 0, y := 0, q := 0, tok := { tok1 with itag := BitVec.ofNat 8 k } }
theorem witness_TokensArriveAndWait :
    (let s := arriving [tags [0, 1, 2]]; s.flights[s.ev.i]? = some (flight9 (some 0)) ∧ s.flightUnit (flight9 (some 0)) = some 1 ∧ (flight9 (some 0)).tok.kind = 0#2 ∧
     (s.flights.take s.ev.i).any (fun g => g.src == (flight9 (some 0)).src && g.pos == (flight9 (some 0)).pos && g.q == (flight9 (some 0)).q) = false ∧
     s.queueTakes 1 ⟨0, 0, 0, 0⟩ 0 { tok1 with itag := 9#8 } = true ∧ (s.unit 1).nodeAt ⟨0, 0, 0, 0⟩ = some 0 ∧ (s.unit 1).effCol 0#2 = 0#2 ∧
     ((s.unit 1).pe 0).takes 0 = true ∧ (s.unit 1).duplicate 0 0 { tok1 with itag := 9#8 } = false ∧ (((s.unit 1).pe 0).queue 0).length < 4) ∧
    (arriving [tags [0, 1, 2, 3]]).queueTakes 1 ⟨0, 0, 0, 0⟩ 0 { tok1 with itag := 9#8 } = false ∧
    ((arriving [tags [9]]).unit 1).duplicate 0 0 { tok1 with itag := 9#8 } = true ∧ ((arriving [] 0x19).unit 1).nodeAt ⟨0, 0, 0, 0⟩ = some 0 ∧
    (((arriving [] 0x19).unit 1).pe 0).takes 3 = false ∧
    (let f := { flight9 none with inp := 0 }
     let s := { withUnit { pes := [(0, { pe 1 (goodWord 1) [] with sw := [0x8000#16, 0#16, 0#16, 0#16] })] } with flights := [f], ev := { u := 1 } }
     s.flights[s.ev.i]? = some f ∧ s.flightUnit f = some 1 ∧ f.tok.kind = 0#2 ∧ f.q = none ∧ ((s.unit 1).outsOf f ≠ [] ∨ (s.unit 1).headsOf f ≠ [])) ∧
    (unpaired.unitAt unpaired.ev.site.cl unpaired.ev.site.ctx = some 1 ∧ (unpaired.unit 1).keyOf unpaired.ev.site = 0 ∧ ((unpaired.unit 1).pe 0).queue 0 = tags [0, 1] ∧
     (unpaired.unit 1).fires = true ∧ unpaired.headFires 1 0 0 { tok1 with itag := 0#8 } = false ∧ unpaired.msEntries ((unpaired.unit 1).lead + 0) = []) ∧
    (let e := entry9 0; let s := poke ((fabric 1 (goodWord 1) [[], [tok1]]).modUnit 1 (fun u => { u with ovf := [e], ovft := 0x800#64 })) [(0x800, leBytes 16 (1 + 2 ^ 67))]; let u := s.unit 1
     u.ovf[s.ev.i]? = some e ∧ u.fires = true ∧ s.headFires s.ev.u (peKey 0 0 0) 0 e.tok = true ∧ (s.makeWay 1 e).2 = true ∧ ((s.makeWay 1 e).1.leaveTable 1 0 e).2 = true) ∧
    ((withUnit {}).quiescent 1 ((withUnit {}).unit 1) = true ∧ (fabric 1 (goodWord 1) [[tok1]]).quiescent 1 ((fabric 1 (goodWord 1) [[tok1]]).unit 1) = false) ∧
    (let s := { fabric 1 (goodWord 1) [[tok1]] with ev := { u := 1, x2 := 15, y2 := 15 } }; let u := s.unit 1; let d : Site := { s.ev.site with x := s.ev.x2, y := s.ev.y2 }
     let v := (u.moveNode s.ev.site d).withWords s.ev.words
     s.unitAt s.ev.site.cl s.ev.site.ctx = some 1 ∧ s.ev.words.all ((u.withWords s.ev.words).wordsOk u) = true ∧ (u.pe (u.keyOf s.ev.site)).stub = none ∧ u.keyOf s.ev.site ≠ u.keyOf d ∧
     d.x < 16 ∧ d.y < 16 ∧ (u.pe (u.keyOf s.ev.site)).consumes = true ∧ (u.pe (u.keyOf d)).consumes = false ∧ u.isDraining = false ∧ s.hasStub s.ev.site.cl = false ∧
     s.fleet.peFailed.contains (0, 15, 15) = false ∧ s.rewriteOk u v s.ev.site d (moveKey (u.keyOf s.ev.site) (u.keyOf d)) = true ∧
     ((s.setUnit 1 v).modCluster s.ev.site.cl (fun c => { c with
        mq := c.mq.map (fun o => if o.unit == 1 && o.site == s.ev.site then { o with site := d } else o)
        trace := aset c.trace (u.ctx, 0) (agetD c.trace (u.ctx, 0) 0 + 1) })).setsHold d = true) ∧
    (let s : State := { withUnit { pes := [(0, { stub := some (1, 0) }), (1, { pe 1 (goodWord 1) [[tok1]] with sw := [] })] } with ev := { u := 1, words := [(1, [])] } }
     let u := s.unit 1; let v := u.withWords s.ev.words
     s.ev.words.all ((u.withWords s.ev.words).wordsOk u) = true ∧ (u.pe (u.keyOf s.ev.site)).stub = some (1, 0) ∧
     s.rewriteOk u v s.ev.site { s.ev.site with x := 1, y := 0 } id = true) := by
  decide +kernel

/-- The set of the first token holds eight entries of its tag; one of them spills into the overflow table at 0x800. -/
def fullSet : State := poke (unpaired.modUnit 1 (fun u => { u with ms := List.replicate 8 (entry9 0), ovft := 0x800#64 })) [(0x800, leBytes 16 (2 ^ 67))]
theorem fullSet_entries : (fullSet.msEntries 0).filter (fun p => msSet (fullSet.unit p.1).ctx p.2 == msSet (fullSet.unit 1).ctx (entry9 0)) = fullSet.msEntries 0 := by
  refine List.filter_eq_self.mpr fun p hp => ?_
  have h : ∀ p ∈ fullSet.msEntries 0, p = (1, entry9 0) := by decide +kernel
  rw [h p hp]
  simp
theorem witness_TokensArriveAndWait_fullSet :
    (fullSet.unit 1).fires = true ∧ ((fullSet.unit 1).pe 0).queue 0 = tags [0, 1] ∧ fullSet.headFires 1 0 0 { tok1 with itag := 0#8 } = false ∧
    8 ≤ ((fullSet.msEntries 0).filter (fun p => msSet (fullSet.unit p.1).ctx p.2 == msSet (fullSet.unit 1).ctx (entry9 0))).length ∧
    fullSet.victim 1 ((fullSet.msEntries 0).filter (fun p => msSet (fullSet.unit p.1).ctx p.2 == msSet (fullSet.unit 1).ctx (entry9 0))) = some (1, entry9 0) ∧
    (fullSet.spill 1 (entry9 0)).2 = true := by
  rw [fullSet_entries]
  decide +kernel

/-- Entry 4 of unit 1: operation, phase, address 0x50040; its sequence word has no predecessor. -/
def entry (op : MemOp) (ph : SbPhase) (w : PeWord := plainWord) : SbEntry :=
  { id := 4, site := ⟨0, 0, 0, 0⟩, op := op, w := { w with seq := 0xFFC00000#32 }, tok := tok1, b := 7#64, phase := ph, ord := 1, ea := 0x40, n := 8, xa := 0x50040 }
def buffered (es : List SbEntry) : State := { withUnit { seqUnit with sb := es, nextId := 9 } with ev := { u := 1, id := 4 } }
/-- The store that the table keeps untagged: DST 0b11. -/
def storeWord : PeWord := { plainWord with dst := 3#2 }
theorem witness_StoreBufferIssuesInOrder :
    (let s := buffered [entry .ld .waiting]; let x := (s.issueEntry 1 (entry .ld .waiting)).unit 1
     (s.unit 1).entry? 4 = some (entry .ld .waiting) ∧ (s.unit 1).fires = true ∧ (s.unit 1).completes = true ∧
     (s.modUnit 1 (fun u => { u with status := .stopped 3 })).unit 1 = { (s.unit 1) with status := .stopped 3 } ∧ ({ (s.unit 1) with status := .stopped 3 } : UnitSt).completes = true ∧
     ({ (s.unit 1) with status := .stopped 3 } : UnitSt).fires = false ∧ (s.unit 1).canIssue (entry .ld .waiting) = true ∧
     (x.entry? 4).any (fun e => e.phase == .issued) = true) ∧
    (let s := buffered [{ entry .ld .waiting with w := plainWord }]; (s.unit 1).canIssue { entry .ld .waiting with w := plainWord } = false) ∧
    (let s := buffered [entry .ld .issued]; (s.unit 1).entry? 4 = some (entry .ld .issued) ∧ (entry .ld .issued).phase = .issued) ∧
    (let e := { entry .ld .waiting with ea := 0x20000 }; let x := ((buffered [e]).issueEntry 1 e).unit 1
     ((buffered [e]).unit 1).canIssue e = true ∧ (x.entry? 4).any (fun e => e.phase != .issued) = true) ∧
    (let f := { entry .lda .issued with id := 3 }; let e := { entry .st .issued storeWord with ord := 2 }; ((buffered [f, e]).unit 1).mayPerform e = false) ∧
    ((buffered [entry .stsp .issued]).unit 1).mayPerform (entry .stsp .issued) = true ∧
    (let s := (buffered [entry .st .issued storeWord]).modCluster 0 (fun c => { c with spans := [⟨0x50, 0x10, 0x11, .E, 0, [0#32, 0#32], false⟩] }); let e := entry .st .issued storeWord
     (s.unit 1).mayPerform e = true ∧ isFabXa e.xa = false ∧ e.tagged = false ∧ e.mt ≠ 2 ∧ s.l1Owns 0 e.xa e.n = true) ∧
    (let e := entry .st .issued; ((buffered [e]).unit 1).mayPerform e = true ∧ isFabXa e.xa = false ∧ e.tagged = true) ∧
    (let e := entry .ldxs .waiting; ((buffered [e]).unit 1).canIssue e = true ∧ e.op = .ldxs) ∧
    ((entry .st .heldWrite).op.held = true ∧ { entry .st .heldWrite with killed := true }.killed = true) ∧
    (let e := { entry .st .waiting with tok := { tok1 with col := 1#2 } }; e.op.held = true ∧ e.killed = false ∧ ((buffered [e]).unit 1).coloured e = true) := by
  decide +kernel
theorem witness_StoreBufferIssuesInOrder_ended :
    (let s := (buffered [entry .st .issued storeWord]).modUnit 1 (fun u => { u with status := .ended 1 })
     (s.unit 1).entry? 4 = some (entry .st .issued storeWord) ∧ (s.unit 1).isEnded = true) ∧
    (let f := { entry .st .faulted storeWord with id := 3 }; let e := { entry .st .waiting with ord := 2 }; ((buffered [f, e]).unit 1).behindFault e = true ∧
     ((buffered [e]).unit 1).behindFault e = false) ∧
    ((base.cluster 0).nc ≠ 0 ∧ { entry .ld .issued with mt := 2 }.mt = 2 ∧ { entry .ld .issued with mt := 1 }.w.mod = 0#3 ∧
     ({ plainWord with mod := 4#3 } : PeWord).mod = 4#3 ∧ (entry .ld .issued).mt = 0 ∧ (entry .ld .issued).op = .ld) := by
  decide +kernel

def line1 : Nat := 0x50040 / 128
def coh (k : MsgKind) (unit : Nat := 0) (mesi : Mesi := .S) : CohMsg := { kind := k, line := line1, cl := 0, unit := unit, id := 4, mesi := mesi }
/-- One message about the line, and the directory entry of the line. -/
def network (m : CohMsg) (d : DirEntry) (es : List SbEntry := []) : State := { buffered es with net := [m], dir := [(line1, d)] }
theorem witness_LinesAreGrantedAndMoved :
    (let s := network (coh .getS) {}; let m := coh .getS
     s.pickMsg .getS = some (0, coh .getS) ∧ s.hostReady (m.line / 32 * 4096 + m.w0 * 4) ((m.w1 + 1 - m.w0) * 4) false = true ∧ (coh .getS 0 .I).mesi = .I ∧
     (s.dirOf line1).sharers.find? (fun c => c != 0 && ((s.dirOf line1).mesi == .E || (s.dirOf line1).mesi == .M)) = none ∧ (coh .getS).mesi ≠ .I) ∧
    (let e := entry .ld .asked; let s := network (coh .getS 1) { mesi := .M, sharers := [5] } [e]
     s.pickMsg .getS = some (0, coh .getS 1) ∧ s.hostReady (line1 / 32 * 4096) 4 false = true ∧
     (s.dirOf line1).sharers.find? (fun c => c != 0 && ((s.dirOf line1).mesi == .E || (s.dirOf line1).mesi == .M)) = some 5) ∧
    (let m := { coh .getS with w0 := 16, w1 := 17 }; (network m { a1 := .Hx }).pickMsg .getS = some (0, m) ∧
     (network m { a1 := .Hx }).hostReady (m.line / 32 * 4096 + m.w0 * 4) ((m.w1 + 1 - m.w0) * 4) false = false) ∧
    (let e := { entry .stxs .asked with xa := 0x50000, ea := 0, n := 200 }; let m := { coh .getM 1 .M with line := 0x50000 / 128 }; let s := network m {} [e]
     s.pickMsg .getM = some (0, m) ∧ s.msgEntry m = some e ∧ s.hostReady (m.line * 128) 128 true = true ∧ (∀ c ∈ (s.dirOf m.line).sharers, c = m.cl) ∧
     m.line < (e.xa + e.n - 1) / 128 ∧ (e.xa + e.n - 1) / 128 ≤ m.line + 1 ∧
     (let m2 := { m with line := m.line + 1 }; (network m2 {} [e]).pickMsg .getM = some (0, m2) ∧ (network m2 {} [e]).msgEntry m2 = some e ∧ (network m2 {} [e]).hostReady (m2.line * 128) 128 true = true)) ∧
    (([.getM, .upg] : List MsgKind).all (fun k => let e := entry .st .asked
      let ok (d : DirEntry) : Bool := let s := network (coh k 1) d [e]
        s.pickMsg k == some (0, coh k 1) && s.msgEntry (coh k 1) == some e && e.op != .stxs && (s.dirOf line1).lock.isNone && (k != .upg || (s.dirOf line1).sharers.contains 0)
      ok { mesi := .S, sharers := [0] } && ok { mesi := .S, sharers := [0, 3] } && ok { mesi := .S, sharers := [0], b0 := .Hs } && (coh k 1).kind == k) = true) ∧
    (({ mesi := .S, sharers := [0], b0 := .Hs } : DirEntry).halfHeld = true ∧ ({ mesi := .S, sharers := [0, 3] } : DirEntry).sharers.filter (· != 0) = 3 :: []) ∧
    (([.getM, .upg] : List MsgKind).all (fun k => let e := { entry .st .asked with xa := hostBase }; let m := { coh k 1 with line := hostBase / 128 }
      let s := { buffered [e] with net := [m] }
      s.pickMsg k == some (0, m) && s.msgEntry m == some e && (s.dirOf m.line).lock.isNone && !(s.dirOf m.line).halfHeld && isHostXa (m.line * 128) && !s.hostReady (m.line * 128) 128 true) = true) ∧
    (let e := entry .st .asked; let s := network (coh .upg 1) { mesi := .S, sharers := [3] } [e]
     s.pickMsg .upg = some (0, coh .upg 1) ∧ s.msgEntry (coh .upg 1) = some e ∧ (s.dirOf line1).halfHeld = false ∧ isHostXa (line1 * 128) = false ∧ (s.dirOf line1).sharers.contains 0 = false) := by
  decide +kernel

theorem witness_LinesAreGrantedAndMoved_moves :
    (let s := (network (coh .putE) {}).modCluster 0 (fun c => { c with spans := [⟨0x50, 0x10, 0x11, .S, 0, [0#32, 0#32], false⟩] })
     ((s.replaceMsg 0 []).cluster 0).spans.any (fun sp => sp.touches line1) = true ∧ ((s.replaceMsg 0 []).cluster 0).spans.any (fun sp => sp.touches line1 && sp.mesi != .S) = false) ∧
    (([.putM, .putE, .putS] : List MsgKind).all (fun k => (network (coh k) {}).pickMsg k == some (0, coh k)) = true) ∧
    (let s := ({ network (coh .putS) { mesi := .S, sharers := [0] } with net := [coh .putS] } : State).modCluster 0 (fun c => { c with spans := [⟨0x50, 0x10, 0x11, .E, 0, [0#32, 0#32], false⟩] })
     ((s.replaceMsg 0 []).cluster 0).spans.any (fun sp => sp.touches line1 && sp.mesi != .S) = true ∧ (coh .putS).words = [] ∧
     (((network (coh .putS) {}).replaceMsg 0 []).cluster 0).spans.any (fun sp => sp.touches line1) = false) ∧
    (([.inv, .fwdS, .fwdM] : List MsgKind).all (fun k => (network (coh k) {}).net[(network (coh k) {}).ev.i]? == some (coh k)) = true) ∧
    (let e := entry .ld .asked; let m := coh .data 1 .I; let s := network m {} [e]
     s.net[s.ev.i]? = some m ∧ (s.replaceMsg s.ev.i []).msgEntry m = some e ∧ e.phase = .asked ∧ e.op = .ld ∧ m.mesi = .I ∧ badLine (s.replaceMsg s.ev.i []) e.xa e.n = none ∧
     (badLine { s with bad := [line1] } e.xa e.n).isSome = true) ∧
    (let e := entry .st .asked; let m := coh .data 1 .M; (network m {} [e]).msgEntry m = some e ∧ e.op ≠ .ld) ∧
    (let e := entry .st .asked; let m := coh .ack 1 .M; let s := network m {} [e]
     s.net[s.ev.i]? = some m ∧ m.unit ≠ 0 ∧ (s.replaceMsg s.ev.i []).msgEntry m = some e ∧ e.phase = .asked ∧ (coh .ack).unit = 0) ∧
    (let e := entry .st .performed; let m := coh .wack 1; let s := network m {} [e]; s.net[s.ev.i]? = some m ∧ s.msgEntry m = some e ∧ e.scopeStop = false ∧ e.op ≠ .stl ∧ e.op ≠ .amx ∧ e.op ≠ .fence) ∧
    (network (coh .wack 1) { snoops := [(1007, 0)] } [entry .stl .performed]).remotePending line1 = true ∧ { entry .lda .performed with scopeStop := true }.scopeStop = true ∧ (network (coh .wack 1) {}).remotePending line1 = false := by
  decide +kernel

/-- An entry of the unit after a store whose home has not acknowledged it, or a contribution to round 0 that has not been applied. -/
def releasing (op : MemOp) (d : DirEntry := {}) : State := network (coh .sync 1) d [{ entry op .asked with ord := 3 }]
def anArrival (s : State) (op : MemOp) : Bool := decide (s.arrivals (coh .sync 1) = [(1, { entry op .asked with ord := 3 })]) && decide (s.pickMsg .sync = some (0, coh .sync 1))
def contributed : RedRound := { inst := 1, grp := 0, parts := [{ node := 0, idx := 0, cl := 0, value := 5#64, uid := 1, ord := 2 }] }
theorem witness_HomePerformsAccesses :
    (let e := entry .st .asked; let s := network (coh .homeStore 1) {} [e]
     s.pickMsg .homeStore = some (0, coh .homeStore 1) ∧ s.msgEntry (coh .homeStore 1) = some e ∧ s.hostReady e.xa e.n true = true ∧ e.tagged = true ∧
     ((s.replaceMsg 0 [{ coh .homeStore 1 with kind := .wack }]).storeParts 0 e.xa e.bytes).1 = [] ∧
     (network (coh .homeStore 1) { a1 := .Hs, b0 := .Hs, a0 := .Hs } [e]).hostReady e.xa e.n true = false) ∧
    (([.lda, .stl, .amo, .amx, .fence] : List MemOp).all (fun op => let e := { entry op .asked with ord := 3 }; let s := releasing op
      anArrival s op && decide (s.hostReady e.xa e.n (e.op == .stl || e.op == .amo || e.op == .amx) = true) && (s.dirOf line1).lock.isNone &&
      !s.redPending 1 e && decide ((scopeCheck (s.dirOf line1).scopeRec e.scope 0).1 = 2) && (s.dirOf line1).remote.isEmpty && !s.remotePending line1 && (badLine s e.xa e.n).isNone) = true) ∧
    (let s := releasing .stl { scopeRec := some (3, 0) }; anArrival s .stl = true ∧ s.fabricReleased 1 = true ∧
     3 ≤ (scopeCheck (s.dirOf line1).scopeRec (entry .stl .asked).scope 0).1 ∧ ({ s with dir := s.dir ++ [(7, { snoops := [(1007, 0)] })] } : State).fabricReleased 1 = false) ∧
    (let s := releasing .stl { remote := [2] }; anArrival s .stl = true ∧ (s.dirOf line1).lock = none ∧ (s.dirOf line1).remote ≠ [] ∧ s.redPending 1 { entry .stl .asked with ord := 3 } = false ∧
     (scopeCheck (s.dirOf line1).scopeRec (entry .stl .asked).scope 0).1 < 3) ∧
    (let s := { releasing .stl with reds := [contributed] }; anArrival s .stl = true ∧ s.redPending 1 { entry .stl .asked with ord := 3 } = true) ∧
    ((5 : Nat) < 2 ^ 64 ∧ (2 ^ 64 - 1 : Nat) < 2 ^ 64) ∧
    (let e := entry .amo .asked storeWord; let f := { e with id := 5 }; let m := coh .sync 1; let n := { m with id := 5 }
     let s := { buffered [e, f] with net := [m, n], ev := { u := 1, i := 0, k := 1 } }
     s.net[s.ev.i]? = some m ∧ s.net[s.ev.k]? = some n ∧ s.ev.i ≠ s.ev.k ∧ s.msgEntry m = some e ∧ s.msgEntry n = some f ∧ m.kind = .sync ∧ n.kind = .sync ∧
     e.op = .amo ∧ f.op = .amo ∧ e.w.dst = 3#2 ∧ f.w.dst = 3#2 ∧ e.mt ≠ 3 ∧ f.mt ≠ 3 ∧ e.xa = f.xa ∧ e.w.sub = f.w.sub ∧ e.n = f.n ∧
     ({ storeWord with dst := 1#2 } : PeWord).dst = 1#2) := by
  decide +kernel

/-- A busy linked load, and a reduction round of the one contributor that the object declares. -/
def linked : SbEntry := { entry .ldlk .issued { goodWord 0x62 with fmt := 1#4 } with b := 3#64 }
def linkedGoes (l : SbEntry) : Bool :=
  let s := buffered [l]
  match translate s 0 0 l.ea .load 0 with
  | (s1, .ok xa mt _) => (s.unit 1).mayPerform { l with xa := xa, mt := mt } && (match s1.linkValue 1 { l with xa := xa, mt := mt } mt with
    | (_, .ok _) => true
    | _ => false)
  | _ => false
def round (r : RedRound) : State :=
  { withObject (withUnit { seqUnit with inst := 1 }) with reds := [r], ev := { u := 1, inst := 1, grp := 0 } }
def translates (r : State × TrRes) (P : State → Nat → Bool) : Bool :=
  match r with
  | (s1, .ok xa _ _) => P s1 xa
  | _ => false
theorem witness_TraversalsAndRoundsProceed :
    (let s := buffered [linked]; let u := s.unit 1; let t : Token := { tok1 with wave := tok1.wave + BitVec.ofNat 10 linked.k, col := 0#2 }
     u.entry? s.ev.id = some linked ∧ linked.op = .ldlk ∧ linked.phase = .issued ∧ u.fires = true ∧ s.windowOpen 1 t = true ∧ (u.pe (u.keyOf linked.site)).portBlocked = false ∧
     linked.ea % 8 = 0 ∧ linkedGoes linked = true ∧ linkedGoes { linked with k := 2 } = true) ∧
    (let s := round contributed; let g := redGroup s 0 0x1000 0
     s.reds.find? (fun r => r.inst == s.ev.inst && r.grp == s.ev.grp) = some contributed ∧ s.inst? s.ev.inst = some inst1 ∧ contributed.applied = false ∧
     contributed.id = 0 ∧ s.objectWaits 0 0x1000 = none ∧
     (∀ c ∈ redContributors s 0 0x1000 0, contributed.parts.any (fun p => (p.node, p.idx) == c) = true) ∧
     g.fmt = 1 ∧ g.target = 0x800 ∧ g.done = 0 ∧ translates (translateReady s 0 0 g.target 8 .atomic 2) (fun s1 xa => (badLine s1 xa 8).isNone) = true) ∧
    (let r := { contributed with applied := true, scope := 2 }; let s := poke (round r) [(0x1158, leBytes 8 0x900)]; let g := redGroup s 0 0x1000 0
     s.reds.find? (fun r => r.inst == s.ev.inst && r.grp == s.ev.grp) = some r ∧ s.inst? s.ev.inst = some inst1 ∧ r.applied = true ∧ r.id = 0 ∧ s.objectWaits 0 0x1000 = none ∧ s.roundReleased inst1 r = true ∧ g.done = 0x900 ∧
     translates (translateReady s 0 0 g.done 8 .atomic 2) (fun s1 xa => !isFabXa xa && (badLine (s1.dropRound r) xa 8).isNone) = true ∧
     (s.modUnit 1 (fun u => { u with sb := [{ entry .st .asked with tok := { tok1 with itag := 0#8 } }] })).roundReleased inst1 r = false) ∧
    (let r := { contributed with parts := [] }; let s := round r; s.objectWaits 0 0x1000 = none ∧ s.reds.find? (fun r => r.inst == s.ev.inst && r.grp == s.ev.grp) = some r ∧ r.applied = false ∧
     ∃ c ∈ redContributors s 0 0x1000 0, ([] : List RedPart).any (fun p => (p.node, p.idx) == c) = false) := by
  decide +kernel
/-! ### Units, graphs and queues -/

def powered (s : State) : State := { s with dies := List.replicate 4 { powered := true } }
/-- Unit 1 of the first node placed and not yet started; the launch's image lies at `img`. -/
def starting (img : Nat) : State := powered (withImage (withObject (withUnit { seqUnit with inst := 1, status := .placed none }) (img + 2 ^ 112)))
/-- The launch of node 0 waits for a region of die 0; a unit may hold regions. -/
def waiting (s : State) (rshape : Nat := 0) (node : NodeRec := { st := .running, inPool := true }) : State :=
  { withObject s (2 ^ 112 + rshape * 2 ^ 120) with insts := [{ inst1 with nodes := [node, {}] }] }
/-- A unit of the first node that has its place beside unit 1, now of the second node. -/
def secondPlaced : State :=
  powered { withUnit {} with units := [(1, { seqUnit with inst := 1, node := 1, status := .placed none }), (2, { seqUnit with id := 2, lead := 1, inst := 1, status := .placed none })] }
/-- Unit 3 of the first node has its place, and unit 0 has none. -/
def laterUnit : State := powered (waiting (withUnit { seqUnit with inst := 1, unitid := 3#12, status := .placed none }))
theorem witness_UnitsStartWhereTheyArePlaced :
    (let s := starting 0; let u : UnitSt := { seqUnit with inst := 1, status := .placed none }
     aget s.units 1 = some u ∧ s.startOk u.die = true ∧ s.placedBefore u = false ∧ s.readyBefore u = false ∧ (s.writeHeader u (s.descOf u)).2 = none ∧
     (s.descOf u).image = 0 ∧ (s.descOf u).entry = 0x2000 ∧ (s.descOf u).args = 0x3000) ∧
    ((secondPlaced.unit 1).status = .placed none ∧ secondPlaced.startOk 0 = true ∧ secondPlaced.placedBefore (secondPlaced.unit 1) = true) ∧
    (laterUnit.startOk 0 = true ∧ laterUnit.placedBefore (laterUnit.unit 1) = false ∧ laterUnit.readyBefore (laterUnit.unit 1) = true) ∧
    (let s := starting 0x400; let u : UnitSt := { seqUnit with inst := 1, status := .placed none }; let d := s.descOf u
     s.awaitImage u (d.image % 2 ^ 56) = none ∧ (s.writeHeader u d).2 = none ∧ d.image ≠ 0 ∧ okThen (((s.writeHeader u d).1.setUnit 1 (u.startRegs d)).loadImage (u.startRegs d) (d.image % 2 ^ 56)).2 (fun i => i.pes == []) = true) ∧
    (let s := starting 0x440; let u : UnitSt := { seqUnit with inst := 1, status := .placed none }; let d := s.descOf u
     s.awaitImage u (d.image % 2 ^ 56) = none ∧ (s.writeHeader u d).2 = none ∧ d.image ≠ 0 ∧
     (match (((s.writeHeader u d).1.setUnit 1 (u.startRegs d)).loadImage (u.startRegs d) (d.image % 2 ^ 56)).2 with
      | .error (.reject k) => k == 0x008
      | _ => false) = true) ∧
    (let placed (s : State) (uid : Option Nat) : Bool :=
       match s.firstServed 0 (s.ready.filter (fun r => match s.bestRegion s.ready r with
         | some (d, _, _) => d == 0
         | none => false)) with
       | some r => s.bestRegion s.ready r == some (0, 0, 0) && r.uid == uid && (s.inst? r.inst).isSome
       | none => false
     placed (waiting base) none = true ∧ placed (waiting (withUnit { seqUnit with inst := 1, status := .saved none }) 0 {}) (some 1) = true ∧
     placed (waiting (withUnit { seqUnit with inst := 1, status := .ready }) 0 {}) (some 1) = true) ∧
    (aget (withUnit seqUnit).units 1).isSome = true := by
  decide +kernel

theorem witness_UnitsStartWhereTheyArePlaced_stays :
    (let s := starting 0; let u : UnitSt := { seqUnit with inst := 1, status := .placed none }
     aget s.units 1 = some u ∧ (s.writeHeader u (s.descOf u)).2 = none ∧ s.startOk u.die = true ∧ aget ((s.startSequencer 1 id).units) 1 ≠ none) := by
  decide +kernel

theorem witness_UnitsArePreempted :
    (let s := { withUnit { seqUnit with quantum := 2 ^ 20 } with ev := { u := 1 } }
     (s.unit s.ev.u).isRunning = true ∧ (s.job (s.unit s.ev.u).job).cls ≠ 0 ∧ quantumLen ≤ (s.unit s.ev.u).quantum) ∧
    (let s0 := waiting (withUnit { seqUnit with job := 1 }) 6; let s := { s0 with jobs := aset s0.jobs 0 { s0.job 0 with cls := 0 } }
     let r := s.firstServed s.ev.die (s.ready.filter (fun r => (s.job r.job).cls == 0 && r.waitsOn s.ev.die && (s.bestRegion s.ready r).isNone &&
      !s.reserved.any (fun p => p.2 == (r.inst, r.node, r.idx)) && (s.pickVictims r s.ready).isSome))
     r.isSome = true ∧ ((r.bind (fun r => s.pickVictims r s.ready)).map (fun v => (v.1, v.2.1, v.2.2.map UnitSt.id))) = some (0, 0, [1])) ∧
    (let s := withUnit { seqUnit with status := .draining 0 none }
     aget s.units 1 = some { seqUnit with status := .draining 0 none } ∧ s.drained 1 { seqUnit with status := .draining 0 none } false = true) ∧
    (let s := withUnit { seqUnit with status := .draining 0 none, saveArea := 0x51000 }
     let d : State := { s with dir := [(0x51000 / 128, { a0 := .Hx })] }
     s.areaHeld 0x51000 0x400 = [] ∧ d.areaHeld 0x51000 0x400 = [0x51000 / 128] ∧ d.drained 1 (d.unit 1) false = true) ∧
    (let u : UnitSt := { seqUnit with status := .draining 0 none, pes := [(0, { stub := some (1, 0) })] }; (withUnit u).drained 1 u false = false) ∧
    (let s := withUnit { seqUnit with status := .draining 0 (some 3) }; aget s.units s.ev.u = some { seqUnit with status := .draining 0 (some 3) }) ∧
    (aget (withUnit seqUnit).units 1 = some seqUnit ∧ seqUnit.status = .running ∧ aget (withUnit { seqUnit with status := .placed none }).units 1 = some { seqUnit with status := .placed none }) ∧
    (let j : Job := { cls := 0, deadline := 4 }; aget ({ base with jobs := [(0, j)] } : State).jobs 0 = some j ∧ j.ended = false ∧ j.missed = false) := by
  decide +kernel

theorem witness_UnitsAreRestoredAndWatched :
    (let u : UnitSt := { seqUnit with status := .placed (some none) }; let s := powered (withUnit u)
     aget s.units s.ev.u = some u ∧ s.startOk u.die = true ∧ s.placedBefore u = false ∧ s.readyBefore u = false ∧ (upFrom (u.saveArea / 128) (u.saveLen / 128)).any (fun l => s.bad.contains l) = false ∧ u.active = none ∧
     (upFrom (u.saveArea / 128) (u.saveLen / 128)).any (fun l => [u.saveArea / 128].contains l) = true) ∧
    (let u : UnitSt := { seqUnit with status := .placed (some none), saveArea := 0x51000 }; let s := powered { withUnit u with bad := [0x51000 / 128] }
     aget s.units s.ev.u = some u ∧ s.startOk u.die = true ∧ s.placedBefore u = false ∧ s.readyBefore u = false ∧
     (upFrom (u.saveArea / 128) (u.saveLen / 128)).find? (fun l => s.bad.contains l) = some (0x51000 / 128)) ∧
    (let a : Image := { addr := 0x400#64 }; let u : UnitSt := { seqUnit with status := .placed (some none), active := some a }; let s := powered (withImage (withUnit u))
     aget s.units s.ev.u = some u ∧ s.startOk u.die = true ∧ s.placedBefore u = false ∧ s.readyBefore u = false ∧ u.active = some a ∧
     (upFrom (u.saveArea / 128) (u.saveLen / 128)).any (fun l => s.bad.contains l) = false ∧ okThen (s.loadImage u a.addr.toNat).2 (fun i => i.pes == []) = true) ∧
    (let u : UnitSt := { pes := [(0, { ereg := List.replicate 8 { full := true, tag := 1#4, val := 5#64 } })] }
     (aget u.pes 0).isSome = true ∧ (aget ({ pes := [(0, { hasOp := true })] } : Image).pes 0).isSome = true) ∧
    (let s := withUnit { seqUnit with watchdog := 2 ^ 28 }
     (s.unit s.ev.u).isRunning = true ∧ (s.job (s.unit s.ev.u).job).debugHold = false ∧ 2 ^ 28 ≤ (s.unit s.ev.u).watchdog) ∧
    (let s := withUnit { seqUnit with wait := .wfe (some 5) 1 0 }; (s.unit s.ev.u).wait = .wfe (some 5) 1 0 ∧ (s.unit s.ev.u).isRunning = true ∧ (s.dirOf 5).tag.toNat ≠ 1) ∧
    (let s := withUnit { seqUnit with wait := .wfe (some 5) 0 0 }
     (s.dirOf 5).tag.toNat = 0 ∧ ((s.die (dieOf (s.unit s.ev.u).lead)).cyc - wd 0).toNat < 2 ^ 16 ∧ s.ev.flag = false) ∧
    (let s := withUnit { seqUnit with wait := .wfe none 0 0 }; let s := { s with dies := [{ cyc := 65536#64 }, {}, {}, {}] }
     2 ^ 16 ≤ ((s.die (dieOf (s.unit s.ev.u).lead)).cyc - wd 0).toNat) ∧
    ((withUnit seqUnit).unitAt 0 0 = some 1) := by
  decide +kernel

/-- The object with its node kinds changed and the records of its two nodes; node `n` is at the event. -/
def graphOf (l : List (Nat × List Byte)) (a b : NodeRec) (n : Nat) : State :=
  { poke (withObject base) l with insts := [{ inst1 with nodes := [a, b] }], ev := { inst := 1, node := n } }
theorem witness_NodesAndPhasesProceed :
    (let s := graphOf [] {} {} 1; let i : Instance := { inst1 with nodes := [{}, {}] }
     s.inst? s.ev.inst = some i ∧ i.status = none ∧ s.ev.node < i.nodes.length ∧ s.anyObjectWaits = none ∧ (lget i.nodes 1 {}).st = .waiting ∧ s.graphRuns i 1 = true ∧ nodeDeps s 0 0x1000 1 = [0] ∧
     (∃ k ∈ nodeDeps s i.job i.base.toNat 1, (lget i.nodes k {}).ended? = none)) ∧
    (let a : NodeRec := { st := .ended 1 }; let s := graphOf [] a {} 1; let i : Instance := { inst1 with nodes := [a, {}] }
     s.inst? s.ev.inst = some i ∧ s.graphRuns i 1 = true ∧ ∀ k ∈ nodeDeps s i.job i.base.toNat 1, (lget i.nodes k {}).ended? = some 1) ∧
    (let a : NodeRec := { st := .ended 3 }; let s := graphOf [] a {} 1; let i : Instance := { inst1 with nodes := [a, {}] }
     s.inst? s.ev.inst = some i ∧ (∀ k ∈ nodeDeps s i.job i.base.toNat 1, (lget i.nodes k {}).ended? ≠ none) ∧
     (∃ k ∈ nodeDeps s i.job i.base.toNat 1, (lget i.nodes k {}).ended? ≠ some 1)) := by
  decide +kernel

theorem witness_NodesAndPhasesProceed_turns :
    (let a : NodeRec := { st := .eligible, held := true }; let s := graphOf [] a {} 0; let i : Instance := { inst1 with nodes := [a, {}] }
     s.inst? s.ev.inst = some i ∧ s.anyObjectWaits = none ∧ (lget i.nodes 0 {}).st = .eligible ∧ (lget i.nodes 0 {}).held = true ∧ (lget i.nodes 0 {}).due = true) ∧
    (let a : NodeRec := { st := .eligible, held := true, due := false }; let s := graphOf [] a {} 0; let i : Instance := { inst1 with nodes := [a, {}] }
     let d := nodeDesc s i.job i.base.toNat 0; s.anyObjectWaits = none ∧ (lget i.nodes 0 {}).due = false ∧ s.nudged i a d = false ∧ s.nudged i { a with nudges := [(true, d.cond)] } d = true) ∧
    (let a : NodeRec := { st := .running }; let b : NodeRec := { st := .ended 1 }; let s := graphOf [(0x1040, [2#8]), (0x1050, leBytes 4 (1 + 2 ^ 16))] a b 0
     let i : Instance := { inst1 with nodes := [a, b] }; let d := nodeDesc s 0 0x1000 0
     s.inst? s.ev.inst = some i ∧ s.anyObjectWaits = none ∧ (lget i.nodes 0 {}).st = .running ∧ d.kind = 2 ∧ bodyOf d = [1] ∧ ∀ k ∈ bodyOf d, (lget i.nodes k {}).ended?.isSome = true) ∧
    (let s := graphOf [(0x1044, leBytes 2 8)] {} {} 0; s.w2.poolD ≤ (nodeDesc s 0 0x1000 0).depth) := by
  decide +kernel

theorem witness_NodesAndPhasesProceed_launches :
    (let s := graphOf [] {} {} 0; let d := nodeDesc s 0 0x1000 0; d.depth < s.w2.poolD ∧ d.hold = false ∧ d.kind = 0) ∧
    (let a : NodeRec := { st := .eligible }; let s := graphOf [] a {} 0; let i : Instance := { inst1 with nodes := [a, {}] }
     s.inst? s.ev.inst = some i ∧ i.status = none ∧ (lget i.nodes 0 {}).st = .eligible ∧ (nodeDesc s i.job i.base.toNat s.ev.node).kind = 0 ∧ (lget i.nodes 0 {}).held = false ∧ s.mayEnter i 0 = true) ∧
    (let s := { graphOf [] {} {} 1 with dir := [(0x51000 / 128, { a0 := .Hx })] }; let i : Instance := { inst1 with nodes := [{}, {}] }
     s.inst? s.ev.inst = some i ∧ i.status = none ∧ s.ev.node < i.nodes.length ∧ s.anyObjectWaits.isSome = true) := by
  decide +kernel

def phase1 : Phase := { id := 1, job := 0, dies := 3, groupTable := 0#64, cdone := 0#64 }
def filling : Phase := { phase1 with st := .fill, closed := true }
def inPhase (p : Phase) (is : List Instance) : State := { State.reset with phases := [p], ev := { ph := 1 }, insts := is }
theorem witness_NodesAndPhasesProceed_phases :
    (inPhase phase1 []).phase? 1 = some phase1 ∧ phase1.st = .waiting ∧ (diesOf 3).all (fun d => ((inPhase phase1 []).die d).freeFor 0) = true ∧ diesOf phase1.dies ≠ [] ∧
    diesOf 0 = [] ∧ (inPhase phase1 []).groupsWait 0 0 = none ∧
    (({ inPhase phase1 [] with dies := [{ wsJob := some 2 }, {}, {}, {}] } : State).die 0).wsJob = some 2 ∧ 0 ∈ diesOf phase1.dies := by
  decide +kernel
theorem witness_NodesAndPhasesProceed_ends :
    (inPhase filling []).phase? 1 = some filling ∧ filling.st = .fill ∧ (inPhase filling []).fillPending filling = false ∧ (inPhase filling []).fillRunning 0 = false ∧
    ({ inPhase filling [] with runs := [{ m := { opc := 0x23#8, msg := ⟨3#4, 0, 0, 0, 0, []⟩, unit := 1 }, eng := ⟨.copy, 0⟩ }], units := (withUnit seqUnit).units } : State).fillRunning 0 = true ∧
    filling.closed = true ∧ ({ inst1 with phase := some 1, status := some 1 } : Instance).status.isSome = true ∧
    (inPhase filling [{ inst1 with phase := some 1 }]).begun filling = true ∧ ({ inst1 with phase := some 1 } : Instance).status = none := by
  decide +kernel

/-- A 64-byte entry (R332): KIND and flags, SEQ, HANDLE 7, and the rest from byte 8. -/
def entryOf (kind flags seq : Nat) (more : Nat := 0) : List Byte := leBytes 64 (flags + kind * 2 ^ 16 + seq * 2 ^ 24 + 7 * 2 ^ 40 + more * 2 ^ 64)
/-- Queue 2 of host 0 is bound to job 0 and holds entries. -/
def boundQueue (s : State) (l : List (List Byte)) : State :=
  { s with queues := s.queues.set 2 { job := some 0, host := 1, entries := l }, ev := { q := 2, bytes := entryOf 0 0 1 } }
theorem witness_KickRegistersTakeEntries :
    (let s := boundQueue base []
     s.ev.q < 32 ∧ (s.queue s.ev.q).host = s.ev.host + 1 ∧ s.ev.off = 0 ∧ s.ev.bytes.length = 64 ∧ (s.queue s.ev.q).entries.length < 16) ∧
    (let s := boundQueue base (List.replicate 16 [])
     (s.queue s.ev.q).host = s.ev.host + 1 ∧ s.ev.off = 0 ∧ s.ev.bytes.length = 64 ∧ 16 ≤ (s.queue s.ev.q).entries.length) ∧
    (let s := { boundQueue base [] with ev := { q := 2, off := 8 } }; (s.queue s.ev.q).host = s.ev.host + 1 ∧ s.ev.off ≠ 0) ∧
    (let s := { boundQueue base [] with ev := { q := 2, bytes := [0#8] } }; s.ev.bytes.length ≠ 64 ∧ s.ev.bytes.length ≠ 8) ∧
    (let s := { boundQueue base [] with ev := { q := 2, host := 1, bytes := entryOf 0 0 1 } }
     s.ev.q < 32 ∧ (s.queue s.ev.q).host ≠ s.ev.host + 1 ∧ ¬(s.ev.off = 0 ∧ s.ev.bytes.length = 8)) := by
  decide +kernel

/-- Whether the threads of Jasper run. -/
def runs (s : State) : Bool := !s.ev.former && (s.fw.nostby || decide (s.fw.jserial < s.fw.replayed + 8192)) && decide (s.fw.resumeAt ≤ s.fw.replayed)
theorem runs_iff (s : State) : runs s = true ↔ ThreadRuns s := by
  simp [runs, ThreadRuns, and_assoc]
theorem runs_reset : ThreadRuns base ∧ ¬ ThreadRuns { base with ev := { former := true } } ∧ ¬ ThreadRuns { base with fw := { base.fw with jserial := 8192, replayed := 0 } } ∧
    ThreadRuns { base with fw := { base.fw with jserial := 8192, nostby := true } } ∧ ¬ ThreadRuns { base with fw := { base.fw with resumeAt := 4 } } := by
  simp only [← runs_iff]
  decide +kernel
/-- Whether the thread of queue 2 takes the head entry. -/
def takes (s : State) (kind : Nat) : Bool :=
  runs s &&
  match (s.queue s.ev.q).entries with
  | e :: _ => (s.queue s.ev.q).job == some 0 && (s.queue s.ev.q).idle && (s.queue s.ev.q).unreg.isNone && entryKind e == kind && !malformed e &&
      entrySeq e == (s.queue s.ev.q).eseq.toNat
  | [] => false
/-- The patches of an entry at the object of handle 7 and the values of their uses. -/
def patchesOf (s : State) (e : List Byte) : Option (List (Nat × Nat)) :=
  match (s.kickPatches 0 e).2 with
  | .ok l => some l
  | _ => none
/-- The object of handle 7 registered, with one patch use: slot 0, the word at offset 0x60. -/
def registered (l : List (List Byte)) : State :=
  { boundQueue (poke (withObject base) [(0x100C, leBytes 2 1), (0x1100, leBytes 8 (0x60 * 2 ^ 16))]) l with objects := [⟨0, 7, 0x1000#64⟩] }
/-- A kick that patches slot 0 with a value. -/
def patchKick (v : Nat) : List Byte := entryOf 0 0x100000 1 (v * 2 ^ 64)
theorem witness_QueueThreadsTakeEntries :
    (([0, 1, 3, 5] : List Nat).all (fun k => let s := boundQueue base [entryOf k 8 1]
      (s.queue 2).job == some 0 && (s.queue 2).idle && entryKind (entryOf k 8 1) == k && malformed (entryOf k 8 1) && !malformed (entryOf k 0 1) &&
      entrySeq (entryOf k 0 0) == ((s.queue 2).eseq - 1#16).toNat && entrySeq (entryOf k 0 9) != (s.queue 2).eseq.toNat) = true) ∧
    (([0, 1, 3, 4, 5] : List Nat).all (fun k => takes (boundQueue base [entryOf k 0 1]) k) = true) ∧
    (let s := registered [entryOf 0 0 1]; takes s 0 = true ∧ entryBarrier (entryOf 0 0 1) = false ∧ s.object? 0 7 = some ⟨0, 7, 0x1000#64⟩ ∧ s.objectWaits 0 0x1000 = none ∧ patchesOf s (entryOf 0 0 1) = some [] ∧
     entryHandle (entryOf 0 0 1) = 7 ∧ badPatches 0x1000 (patchUses s 0 0x1000) [] = false ∧ useValues 0x1000 (patchUses s 0 0x1000) [] = []) ∧
    (let s := registered [patchKick 5]; let ps := [(0, 5)]; let vs := useValues 0x1000 (patchUses s 0 0x1000) ps
     takes s 0 = true ∧ patchesOf s (patchKick 5) = some ps ∧ badPatches 0x1000 (patchUses s 0 0x1000) ps = false ∧ vs = [(0x1060, 4, 5)] ∧
     vs.all (fun v => peekG s 0 v.1 v.2.1 == v.2.2) = false ∧ s.objectLive 0 7 = true ∧ ({ s with insts := [] } : State).objectLive 0 7 = false ∧
     (({ s with insts := [] } : State).writePatches 0 vs).2 = true) ∧
    (let s := registered [patchKick (2 ^ 32)]; let ps := [(0, 2 ^ 32)]; takes s 0 = true ∧ patchesOf s (patchKick (2 ^ 32)) = some ps ∧ badPatches 0x1000 (patchUses s 0 0x1000) ps = true) ∧
    (let s := { registered [entryOf 0 1 1] with insts := [{ inst1 with queue := 2 }] }; takes s 0 = true ∧ entryBarrier (entryOf 0 1 1) = true ∧ entryCanprev (entryOf 0 1 1) = false ∧
     s.queueLive 2 = true) ∧
    (let s := boundQueue base [entryOf 0 0 1]; takes s 0 = true ∧ s.queueLive 2 = false ∧ s.object? 0 7 = none) ∧
    (let s := boundQueue base [entryOf 3 0 1 0x1000]; takes s 3 = true ∧ s.resultWaits 0 (entryOf 3 0 1 0x1000) = none ∧ s.objectWaits 0 (efield (entryOf 3 0 1 0x1000) 8 8) = none ∧
     s.targetsWait 0 (efield (entryOf 3 0 1 0x1000) 8 8) = none) ∧
    aget (boundQueue base [entryOf 5 0 1]).jobs 0 ≠ none := by
  decide +kernel

theorem witness_QueueThreadsGoOn :
    (let s := { registered [] with queues := State.reset.queues.set 2 { job := some 0, holding := some (patchKick 5, [(0, 5)], 3) } }; let t := { s with insts := [] }
     (s.queue s.ev.q).job = some 0 ∧ (s.queue s.ev.q).holding = some (patchKick 5, [(0, 5)], 3) ∧ s.object? 0 (entryHandle (patchKick 5)) = some ⟨0, 7, 0x1000#64⟩ ∧ s.objectLive 0 7 = true ∧
     t.objectLive 0 7 = false ∧ t.objectWaits 0 0x1000 = none ∧ (t.writePatches 0 (useValues 0x1000 (patchUses t 0 0x1000) [(0, 5)])).2 = true) ∧
    (let e := entryOf 1 0 1 0x40; let s := { base with queues := State.reset.queues.set 2 { job := some 0, waiting := some (e, false) }, ev := { q := 2 } }
     runs s = true ∧ (s.queue s.ev.q).waiting = some (e, false) ∧ efield e 33 1 ≠ 1 ∧ efield e 8 8 % 8 = 0 ∧ efield (entryOf 1 0 1 0x44) 8 8 % 8 ≠ 0 ∧ efield (entryOf 1 0 1 0x44) 33 1 ≠ 1 ∧ okThen (readG s 0 0 (efield e 8 8 % 2 ^ 56) 8 .load 0).2 (fun b => waitMet e (leNat b)) = true) ∧
    (let e := entryOf 1 0 1 (2 ^ 200); efield e 33 1 = 1) ∧
    (let ok (e : List Byte) (bad : Bool) : Bool := let s := { boundQueue base [entryOf 0 0 4, e] with insts := [{ inst1 with queue := 2 }] }
       (s.queue s.ev.q).job == some 0 && lfind (fun e => entryKind e == 2) (s.queue s.ev.q).entries == some 1 && malformed e == bad && !(s.job 0).ended
     ok (entryOf 2 8 1 2) true = true ∧ ok (entryOf 2 0 1 2) false = true ∧ ok (entryOf 2 0 1 4) false = true ∧ efield (entryOf 2 0 1 2) 8 1 = 2 ∧
     efield (entryOf 2 0 1 4) 8 1 ≠ 2 ∧ entrySeq (entryOf 2 0 1 2) = inst1.kseq) ∧
    (let s := { base with queues := State.reset.queues.set 2 { job := some 0, unreg := some [] }, ev := { q := 2 } }; (s.queue s.ev.q).unreg = some []) ∧
    (let s := { base with ev := { q := 2, bytes := leBytes 64 3 } }
     s.ev.q < 32 ∧ s.ev.bytes.length = 64 ∧ (s.queue 2).entries = [] ∧ s.queueLive 2 = false ∧ (s.queue 2).idle = true ∧ efield s.ev.bytes 0 4 = 3 ∧
     aget s.jobs 3 = none ∧ (s.queue 2).job = none) ∧
    (let s := { boundQueue base [] with ev := { q := 2, bytes := leBytes 64 3 } }; (s.queue 2).job = some 0 ∧ s.queueLive 2 = false ∧ (s.queue 2).idle = true ∧ aget s.jobs 3 = none) := by
  decide +kernel

/-! ### Windows, firmware, hosts, the fleet -/

/-- Job 0's queue belongs to host 0, which writes the value at the event. -/
def owned (s : State) (v : Nat) : State := { s with queues := State.reset.queues.set 0 { job := some 0, host := 1 }, ev := { v := wd v } }
def stoppedUnit : UnitSt := { seqUnit with status := .stopped 5 }
theorem witness_HostCommandsAct :
    (([0, 1, 2, 3] : List Nat).all (fun act =>
      let s := owned (withUnit stoppedUnit) (5 + act * 2 ^ 16 + 2 ^ 31)
      s.ev.v.getLsbD 31 && wbits s.ev.v 17 16 == act && wbits s.ev.v 63 32 == 0 && s.ownsJob s.ev.host 0 &&
      (s.modW2 (fun w => { w with ucmdJob := 0, ucmdAct := act, ucmdHandle := wbits s.ev.v 15 0 })).findStopped 0 (wbits s.ev.v 15 0) == some 1 &&
      (owned base (5 + act * 2 ^ 16 + 2 ^ 31)).findStopped 0 (wbits s.ev.v 15 0) == none && !base.ownsJob 0 0) = true) ∧
    (aget (withUnit stoppedUnit).units 1 = some stoppedUnit ∧ stoppedUnit.status = .stopped 5 ∧ stoppedUnit.handler = false ∧ nextPending stoppedUnit.pend = none ∧ stoppedUnit.curFault = none) ∧
    (base.pow.hold = false ∧ base.pow.crit = false ∧ ({ withUnit stoppedUnit with pow := { hold := true } } : State).pow.hold = true ∧ ({ withUnit stoppedUnit with pow := { crit := true } } : State).pow.crit = true) ∧
    (let s := owned base 1; s.ev.v.getLsbD 0 = true ∧ s.ownsJob s.ev.host (wbits s.ev.v 63 32) = true ∧ s.w2.tlbBusy = false) ∧
    (let s : State := { owned base 1 with w2 := { tlbBusy := true } }; s.ev.v.getLsbD 0 = true ∧ s.ownsJob s.ev.host (wbits s.ev.v 63 32) = true ∧ s.w2.tlbBusy = true) ∧
    (([1, 2, 3] : List Nat).all (fun act =>
      let s := owned base (act * 2 ^ 27 + 2 ^ 31); let t := owned base (act * 2 ^ 27 + 2 ^ 31 + 2 ^ 26)
      s.ev.v.getLsbD 31 && wbits s.ev.v 29 27 == act && s.ownsJob s.ev.host 0 && !s.ev.v.getLsbD 26 && t.ev.v.getLsbD 26 && (aget s.jobs 0).isSome) = true) := by
  decide +kernel

theorem witness_RegistersTakeWrites :
    (withObject base).insts.any (fun i => i.status.isNone) = true ∧ base.insts.any (fun i => i.status.isNone) = false ∧
    ((8 : Nat) ≤ 4096 ∧ (8 : Nat) ≤ 4096) ∧
    (owned base 0).ownsAny 0 = true ∧ (owned base 0).ownsAny 1 = false ∧
    (let s := owned base 1; s.ev.v.getLsbD 0 = true ∧ wbits s.ev.v 5 4 = 0 ∧ s.fw.attBusy = false) ∧
    (let s : State := { owned base 0x11 with fw := { attBusy := true } }; s.ev.v.getLsbD 0 = true ∧ wbits s.ev.v 5 4 = 1 ∧ s.fw.attBusy = true) ∧
    (let s : State := { State.reset with fw := { attBusy := true, attWork := 1 }, regions := [(0, 1)] }
     s.fw.attBusy = true ∧ s.fw.attWork ≤ 1 ∧ s.assigned s.fw.attHost s.fw.attDst 1984 = true ∧ s.fw.attSample = none ∧ State.reset.assigned 0 0 1984 = false ∧ s.attReady 1984 = true) ∧
    (let s : State := { State.reset with fw := { attBusy := true, attWork := 0 }, regions := [(0, 1)] }
     s.fw.attBusy = true ∧ s.assigned s.fw.attHost s.fw.attDst 3760 = true ∧ s.fw.attSample = none ∧ s.attReady 3760 = true) ∧
    (let s : State := { State.reset with fw := { attBusy := true, attWork := 0, attSample := some [7#8] }, regions := [(0, 1)], dir := [(0, { a0 := .Hs })] }
     s.fw.attSample = some [7#8] ∧ s.attReady 1 = false) ∧
    ({ attBusy := true, attWork := 2 } : Firmware).attWork = 2 ∧
    (let s := owned base 1; (s.queue 0).host = s.ev.host + 1 ∧ s.ev.off = 0 * 32) ∧
    (([8, 16, 24] : List Nat).all (fun k => let s : State := { owned base 1 with ev := { off := k } }; (s.queue 0).host == s.ev.host + 1 && s.ev.off == 0 * 32 + k) = true) := by
  decide +kernel

theorem witness_FirmwareProceeds :
    (let s : State := { State.reset with fw := { mstate := 1 } }; s.fw.mstate = 1 ∧ s.fw.owner = false) ∧
    (let s : State := { State.reset with hub := 4096#64, fw := { hstate := 2 } }; s.fw.owner = false ∧ s.fw.nostby = false ∧ 4096 ≤ s.hubSince s.fw.heartbeat) ∧
    (let s := owned base 1; s.ownsAny s.ev.host = true ∧ s.ev.v.getLsbD 0 = true ∧ s.fw.handing = false ∧ base.ownsAny 0 = false) ∧
    (State.reset.fw.owner = false ∧ State.reset.ev.former = false ∧ ({ State.reset with ev := { former := true } } : State).ev.former = true ∧ State.reset.fw.jserial < State.reset.fw.replayed + 8192 ∧
     State.reset.mayCommit = true ∧ ({ State.reset with fw := { committedAt := some 0 } } : State).mayCommit = false ∧
     (let s : State := { State.reset with fw := { jserial := 8192 } }; s.fw.nostby = false ∧ s.fw.replayed + 8192 ≤ s.fw.jserial) ∧
     ({ State.reset with fw := { resumeAt := 3 } } : State).fw.replayed < 3 ∧ State.reset.fw.resumeAt ≤ State.reset.fw.replayed) ∧
    (let s : State := { State.reset with fw := { hstate := 3 }, hub := 5#64 }
     s.fw.hstate = 3 ∧ s.hubSince s.fw.hgo < 1000000 ∧ s.ev.former = false ∧ s.fw.jserial ≤ s.fw.replayed ∧ s.mayCommit = true ∧ s.fw.sampledAt ≠ some s.hub.toNat ∧
     ({ s with fw := { s.fw with sampledAt := some 5 } } : State).fw.sampledAt = some s.hub.toNat ∧ ({ s with fw := { s.fw with jserial := 1 } } : State).fw.jserial > s.fw.replayed) ∧
    (let f (k : Nat) (h : Word) : State := { State.reset with hub := h, fw := { hstate := k, nostby := true } }
     (f 1 0#64).fw.hstate = 1 ∧ (f 2 0#64).fw.hstate = 2 ∧ (f 3 999999#64).fw.hstate = 3 ∧ (f 3 999999#64).hubSince (f 3 999999#64).fw.hgo < 1000000 ∧
     (f 3 1000000#64).fw.handing = true ∧ 1000000 ≤ (f 3 1000000#64).hubSince (f 3 1000000#64).fw.hgo ∧ (f 0 0#64).fw.nostby = true) := by
  decide +kernel

/-- Host 0 asks for the half-line at 0x50040, in a region of both hosts; the directory has an entry for its line. -/
def asking (d : DirEntry) : State := { base with regions := [(0, 3)], dir := [(0x50040 / 128, d)], ev := { pa := 0x50040, bytes := List.replicate 64 0#8 } }
theorem witness_HostsAndPeersExchange :
    (let s := asking {}
     s.ev.host < 2 ∧ s.assigned s.ev.host (s.ev.pa / 64 * 64) 64 = true ∧ s.ev.pa / 64 % 2 = 1 ∧ (s.dirOf (0x50040 / 128)).snooped 1 = false ∧ (s.dirOf (0x50040 / 128)).lock = none ∧
     (s.dirOf (0x50040 / 128)).host 1 1 = .Hi ∧ (s.dirOf (0x50040 / 128)).host 0 1 ≠ .Hx) ∧
    (((asking { b1 := .Hx }).dirOf (0x50040 / 128)).host 1 1 = .Hx) ∧ (((asking { a1 := .Hx }).dirOf (0x50040 / 128)).host 0 1 = .Hx ∧ (asking {}).ev.bytes.length = 64) ∧
    (let s := asking { remote := [2] }; (s.dirOf (0x50040 / 128)).host 1 1 = .Hi ∧ (s.dirOf (0x50040 / 128)).remote ≠ [] ∧ (s.dirOf (0x50040 / 128)).snooped 1 = false ∧
     (asking {}).remotePending (0x50040 / 128) = false ∧ ((asking {}).dirOf (0x50040 / 128)).remote = []) ∧
    (((asking {}).dirOf ((hostBase + 0x50040) / 128)).lock = none ∧ ({ asking {} with dir := [((hostBase + 0x50040) / 128, { lock := some (1, 4) })] } : State).dirOf ((hostBase + 0x50040) / 128) ≠ {}) ∧
    (let s : State := { base with ports := State.reset.ports.set 16 { state := 2 }, hostAsk := [(4, true)] }
     s.hostPortUp (hostBase + 4 * 64) = true ∧ s.hostAsk.any (fun a => a.1 == 4 && decide (needRank a.2 ≤ Mesi.M.rank)) = true) ∧
    (let s := asking {}; bit (agetD s.regions 0 0) 0 = true ∧ bit (agetD s.regions 1 0) 0 = false ∧ s.decoded 0 = false ∧ (s.programDecoder 0 0 (some 0x10000000)).decoded 0 = true ∧
     (s.programDecoder 0 0 (some 0x10000000)).hdmMap 0 0x10000040 = some 0x40) ∧
    (let s : State := { base with ev := { flag := true, width := 0 } }; s.ev.flag = true ∧ s.ev.width = 0) ∧
    base.assigned 0 0x50040 64 = false ∧ base.bad.contains (0x50040 / 128) = false ∧ ({ base with bad := [2560] } : State).bad.contains (0x50040 / 128) = true ∧
    (let s := asking { a1 := .Hx, snoops := [(0, 3)] }; (s.dirOf (0x50040 / 128)).snoops.find? (fun p => p.1 == s.ev.host && decide (p.1 < 2) && p.2 % 2 == halfOf 0x50040) = some (0, 3)) ∧
    (let s : State := { base with ev := { flag := true, width := 8, rate := 64 }, ports := State.reset.ports.set 16 { state := 2 } }
     s.ev.flag = true ∧ s.ev.width ∈ [1, 2, 4, 8] ∧ s.ev.rate ∈ [16, 32, 64] ∧ (lget s.ports (16 + s.ev.host) {}).state = 2 ∧ base.ev.flag = false) ∧
    (let p : FyPacket := { (default : FyPacket) with kind := 0, ddev := 5#10, hops := 2#6, zero1 := 0, zero2 := 0 }
     badPacket p = false ∧ ({ base with fyParts := [p.pkey] } : State).fyParts.contains p.pkey = true ∧ base.fyParts.contains p.pkey = false ∧ p.ddev ≠ base.devNum ∧ 1 < p.hops.toNat ∧
     ({ p with ddev := 0#10, hops := 1#6 } : FyPacket).ddev = base.devNum ∧ ({ p with hops := 1#6 } : FyPacket).hops.toNat ≤ 1) ∧
    (let s : State := { base with ports := State.reset.ports.set 3 { state := 2 }, ev := { port := 3 } }; s.ev.port < 16 ∧ (lget s.ports s.ev.port {}).state ≠ 0) ∧
    base.ev.port < 16 ∧ (lget base.ports base.ev.port {}).state ≤ 1 := by
  decide +kernel

theorem witness_FleetEventsAct :
    (let s : State := { base with ev := { draw := 2401, inlet := 4501 } }; s.pow.limit < s.ev.draw ∧ s.pow.alarm = false) ∧
    (base.ev.draw ≤ base.pow.limit ∧ base.ev.inlet ≤ 4500) ∧
    (let s : State := { base with pow := { alarm := true }, hub := 2000000#64, ev := { draw := 2401 } }; s.pow.alarm = true ∧ 2000000 ≤ s.hubSince s.pow.since ∧ s.pow.limit < s.ev.draw) ∧
    (let s : State := { base with pow := { alarm := true, calm := some 0 }, hub := 10000000#64, ev := { draw := 2280, inlet := 4300 } }; let m := s.measured.pow
     s.pow.alarm = true ∧ m.calm = some 0 ∧ 10000000 ≤ s.hubSince 0 ∧ s.pow.crit = false ∧ s.ev.draw ≤ s.pow.limit) ∧
    (let s : State := { base with pow := { crit := true, cool := some 0 }, hub := 1000000000#64, ev := { inlet := 4300 } }
     s.pow.crit = true ∧ s.measured.pow.cool = some 0 ∧ 1000000000 ≤ s.hubSince 0) ∧
    (let s : State := { base with ev := { inlet := 5501 } }; 5500 < s.ev.inlet ∧ s.pow.crit = false) ∧
    (([.hbmRow 0x50000, .lsBank 0 3, .cimMacro 0 1, .peConfig 0 1 2, .l2Bank 3, .wsGroup 1 2] : List Element).all (fun e =>
      let s : State := { base with ev := { elem := e } }; let t := s.modFleet (fun f => { f with corrected := [(e, List.replicate 8 0)] })
      !isChannel s.ev.elem && decide ((s.recentErrors e).length < 8) && decide (8 ≤ (t.recentErrors e).length)) = true) ∧
    (let s : State := { base with clusters := [(0, { pending := true })] }
     (s.cluster 0).pending = true ∧ s.units.any (fun p => p.2.inRegion && p.2.covers 0) = false ∧ s.units.any (fun p => p.2.inRegion && p.2.die == dieOf 0) = false ∧
     ({ s with dies := [{ remap := true }, {}, {}, {}] } : State).die 0 = { remap := true }) := by
  decide +kernel

/-- The lines whose copies other devices still give up. -/
def recalled (s : State) : List Nat := (s.dir.map Prod.fst).filter s.remotePending
/-- A ring whose FQSIZE is 0, a full ring, and a ring with room. -/
theorem witness_RecordsEnterTheirRing :
    (let s : State := { State.reset with rings := [{ base := 0x70000, size := 4 }], dir := [(0x70000 / 128, { a0 := .Hx })] }; s.recordWaits 0 s.fyTag (recalled s) = true) ∧
    ({ State.reset with devPend := [.area 0x50000 [1#8]] } : State).devPend.any DevOp.isOwn = true ∧
    (0 < State.reset.rings.length ∧ State.reset.devPend.any DevOp.isOwn = false ∧ State.reset.recordWaits 0 State.reset.fyTag (recalled State.reset) = false ∧ (lget State.reset.rings 0 {}).size < 4) ∧
    (let s : State := { State.reset with rings := [{ base := 0x70000, size := 4, head := 16#32 }] }
     0 < s.rings.length ∧ s.devPend.any DevOp.isOwn = false ∧ s.recordWaits 0 s.fyTag (recalled s) = false ∧ ((lget s.rings 0 {}).head - (lget s.rings 0 {}).tail).toNat = 2 ^ (lget s.rings 0 {}).size) ∧
    (let s : State := { State.reset with rings := [{ base := 0x70000, size := 4, head := 15#32 }] }
     0 < s.rings.length ∧ s.devPend.any DevOp.isOwn = false ∧ s.recordWaits 0 s.fyTag (recalled s) = false ∧ 4 ≤ (lget s.rings 0 {}).size ∧ ((lget s.rings 0 {}).head - (lget s.rings 0 {}).tail).toNat ≠ 2 ^ (lget s.rings 0 {}).size) := by
  decide +kernel

/-! ### Translation -/

/-- Whether the walk of `va` reads `e` at the table `t` of a level. -/
def entryAt (s : State) (va l t e : Nat) : Bool :=
  isDevXa t && s.hostReady (t + 8 * walkIndex va l) 8 false && !s.bad.contains ((t + 8 * walkIndex va l) / 128) && decide (e = s.cohN (t + 8 * walkIndex va l) 8)
theorem entryAt_iff (s : State) (va l t e : Nat) : entryAt s va l t e = true ↔ EntryAt s va l t e := by
  simp [entryAt, EntryAt, and_assoc]
theorem witness_TranslationAndLSpace :
    (isDevXa (2 ^ 50) = false ∧ isDevXa 0x10000 = true ∧ base.hostReady 0x10000 8 false = true ∧ ({ base with bad := [0x200] } : State).bad.contains (0x10000 / 128) = true) ∧
    (EntryAt base 0x40 0 0x10000 0x20001 ∧ EntryAt base 0x40 1 0x20000 0x30001 ∧ EntryAt base 0x40 2 0x30000 0x40001 ∧ EntryAt base 0x40 3 0x40000 0x5302F ∧
     EntryAt base 0x40 0 0x60000 0 ∧ EntryAt (base.devWrite 0x60000 (leBytes 8 3)) 0x40 0 0x60000 3 ∧ EntryAt (base.devWrite 0x60000 (leBytes 8 0x41)) 0x40 0 0x60000 0x41 ∧
     EntryAt (base.devWrite 0x30000 (leBytes 8 0x4000302F)) 0x40 2 0x30000 0x4000302F) ∧
    (TableEntry 0x20001 ∧ TableEntry 0x30001 ∧ TableEntry 0x40001) ∧
    (bit 0x5302F 0 = true ∧ bits 0x5302F 3 1 ≠ 0 ∧ bits 0x5302F 15 14 = 0 ∧ bits 0x5302F 9 8 ≠ 3 ∧ bits 3 3 1 ≠ 0 ∧ bits 0x41 3 1 = 0 ∧ bits 0x41 15 1 ≠ 0 ∧
     bits 0x4000302F 28 16 = 0 ∧ bits 0x4000302F 9 8 = 0 ∧ bit 0x4000302F 0 = true ∧ bits 0x4000302F 3 1 ≠ 0 ∧ bits 0x4000302F 15 14 = 0) := by
  simp only [← entryAt_iff, TableEntry]
  decide +kernel
/-- The leaf of page 0 without A and D, and without X. -/
def leafIs (e : Nat) : State := base.devWrite 0x40000 (leBytes 8 e)
def walksTo (s : State) (e : Nat) : Bool :=
  match walk s (s.job 0).ptroot 0x40 with
  | .leaf 3 0x40000 x => x == e
  | _ => false
theorem witness_TranslationAndLSpace_leaf :
    (tlbHit base 0 0 0x40 = none ∧ tlbHit base 320 0 0x40 = none ∧ walksTo base 0x5302F = true ∧ leafFault base 0x5302F 3 0x40 .load = none ∧ base.rangeFault 0x50040 0 2 = false) ∧
    (let s := leafIs 0x5002F; walksTo s 0x5002F = true ∧ leafFault s 0x5002F 3 0x40 .store = none ∧ s.hostReady 0x40000 8 true = true ∧ leafFault s 0x5302F 3 0x40 .store = none) ∧
    (walksTo (leafIs 0x50027) 0x50027 = true ∧ leafFault (leafIs 0x50027) 0x50027 3 0x40 .fetch = some 0x082) ∧
    (let s := withFar base; (tlbHit s 0 0 0x20040).isSome = true ∧ (tlbHit s 0 0 0x20040).all (fun t => pteD t.pte.toNat && (leafFault s (t.leafFor 0x20040) t.level 0x20040 .load).isNone &&
       !s.rangeFault (leafAddr (t.leafFor 0x20040) t.level 0x20040) (pteMT (t.leafFor 0x20040)) (pteScope (t.leafFor 0x20040))) = true) := by
  decide +kernel
/-- A cluster whose first `n` banks are scratchpad. -/
def scratch (n : Nat) : Cluster := { roles := BitVec.ofNat 64 ((4 ^ n - 1) / 3) }
theorem witness_TranslationAndLSpace_map :
    ((scratch 4).banks 1).length = 4 ∧ ((scratch 3).banks 1).length = 3 ∧ bit 0 0 = false ∧ bit 0x4B01 0 = true ∧
    (4 = 2 ^ 2 ∧ bits 0x4B01 10 8 ≤ 5 ∧ 7 + 2 ≤ bits 0x4B01 15 11) ∧ (∀ j, j < 4 → 3 ≠ 2 ^ j) ∧ okThen (lspace (scratch 4) 0 0x4B01 0x2C5) (fun _ => true) = true := by
  decide +kernel

/-! ### Steps and encodings -/

/-- `neg` of 5, as PE(0,0) of cluster 0 runs it. -/
def negTurn : State := { ready 0x03 plainWord 5#64 0#64 0#64 with agenda := [.pe 0 0 0] }
theorem witness_StepKeepsMemoriesCanonical : negTurn.memsOk ∧ nextIs (step negTurn) (fun t => !t.mem.isEmpty) = true := by
  unfold State.memsOk
  decide +kernel
/-- A unit whose word at CCNT is ADDI g3, g0, 1, one whose word lies on no page, an engine with a message, and an event. -/
def wordTurn (at_ : Nat) : State := { poke (withUnit { seqUnit with ccnt := wd at_ }) [(0x100, leBytes 4 0x08600001)] with agenda := [.word 1] }
theorem witness_StepsRunTheDecodedInstruction :
    (let s := negTurn; let t : State := { s with agenda := [] }; let p := (s.unit 1).pe ((s.unit 1).keyOf ⟨0, 0, 0, 0⟩)
     t.choosePe 0 0 0 = some 0 ∧ t.unitAt 0 0 = some 1 ∧ p.hasOp = true ∧ decodePe p.op p.seq p.imm = some (.neg plainWord)) ∧
    (let s := wordTurn 0x100; let u := { seqUnit with ccnt := 0x100#64 }; let t : State := { s with agenda := [] }
     aget s.units 1 = some u ∧ t.sequences u = true ∧ okThen (readG t u.lead u.job u.ccnt.toNat 4 .fetch 3).2 (fun bs => leNat bs == 0x08600001) = true) ∧
    (let s := wordTurn 0x10000; let u := { seqUnit with ccnt := 0x10000#64 }; let t : State := { s with agenda := [] }
     aget s.units 1 = some u ∧ t.sequences u = true ∧
     (match (readG t u.lead u.job u.ccnt.toNat 4 .fetch 3).2 with
      | .error (.fault _) => true
      | _ => false) = true) ∧
    (let m : InMsg := { opc := 0x20#8, msg := ⟨3, 0, 0, 0, 0, [0#64, 0#64, 0#64]⟩, unit := 1 }; let s := base.setInbox ⟨.copy, 0⟩ [m]
     s.inbox ⟨.copy, 0⟩ = [m] ∧ s.clusterHalted m.cl m.job = false ∧ (cmdRow m.opc m.msg).isSome = true ∧ (cmdRow 0x4F#8 m.msg).isNone = true) ∧
    Instr.isEvent .moduleReset = true := by
  decide +kernel

theorem witness_PeEncodingRoundTrips :
    (Instr.neg plainWord).wf = true ∧ (Instr.neg plainWord).isPe = true ∧ (encode (.neg plainWord)).isSome = true ∧
    (decodePeWords (((encode (.neg plainWord)).getD []) ++ [7#32])).toOption = some (.neg plainWord, [7#32]) := by
  decide +kernel
theorem witness_StreamEncodingsRoundTrip :
    (let i := Instr.beq ⟨3, 0, 31, 0x7FB⟩; i.wf = true ∧ i.isCtl = true ∧ encode i = some [0x4060FFFB#32]) ∧ (decodeCtl 0x4060FFFB#32).wf = true ∧
    (let i := Instr.cpy ⟨1, 0, 0, 0, 0, [5#64]⟩; i.wf = true ∧ (encodeCmd i).isSome = true) := by
  decide +kernel
/-- A word of the table placed after reset is fetched, decoded and run: NEG of token 0 fires, and FIRED becomes 1 (R281). -/
theorem test_placed_word_runs : nextIs (step (State.reset.withFetchWord 32 (0x03 * 2 ^ 25 + 2 ^ 18 + 6 * 2 ^ 12 + 6 * 2 ^ 9))) (fun t => (t.unit 1).fired == 1#64) = true := by
  decide +kernel

end Sys2Proof.Tests
end

/-! PROOFS. The state after reset (R3), and the rules of the scope: power, corrected errors and spares (R379 to R385), registers without a
job (R2, R291, R385, R388), and the commands of the hosts (R354, R360, R366, R367). -/

namespace Sys2Proof.Proofs

open Sys2Proof Sys2Proof.Machine Sys2Proof.Laws

/-! ### The state after reset -/

/-- A list that holds only its default value answers it at every index. -/
theorem lget_replicate_self {α : Type} (n i : Nat) (d : α) : lget (List.replicate n d) i d = d := by
  induction n generalizing i with
  | zero => rfl
  | succ n ih =>
    cases i with
    | zero => rfl
    | succ i => exact ih i

theorem die_reset (d : Nat) : State.reset.die d = {} := lget_replicate_self 4 d ({} : Die)
theorem queue_reset (q : Nat) : State.reset.queue q = {} := lget_replicate_self 32 q ({} : Queue)
theorem ring_reset (k : Nat) : lget State.reset.rings k {} = {} := lget_replicate_self 33 k ({} : FaultRing)
theorem cluster_reset (c : Nat) : State.reset.cluster c = {} := rfl
theorem dirOf_reset (l : Nat) : State.reset.dirOf l = {} := rfl
theorem memsOk_reset : State.reset.memsOk := ⟨wf_nil, wf_nil, wf_nil, wf_nil⟩

/-- Settles O1: the lists of State.reset are empty or hold default values only. -/
theorem resetLeavesNothingBehind : Obligations.ResetLeavesNothingBehind := by
  unfold Obligations.ResetLeavesNothingBehind
  simp only [die_reset, queue_reset, ring_reset, cluster_reset, dirOf_reset]
  refine ⟨?_, memsOk_reset⟩
  simp [State.reset, DirEntry.halfHeld]

/-! ### What the power manager measures (R385) -/

/-- A measurement changes the power manager alone: draw and inlet as given, and the clocks since which they are calm and cool. -/
theorem measured_pow (s : State) : s.measured.pow = { s.pow with
    draw := s.ev.draw, inlet := s.ev.inlet
    calm := if s.ev.draw + 120 ≤ s.pow.limit ∧ s.ev.inlet ≤ 4300 then s.pow.calm.or (some s.hub.toNat) else none
    cool := if s.ev.inlet ≤ 4300 then s.pow.cool.or (some s.hub.toNat) else none } := by
  simp [State.measured, State.modPow, Power.watch]

@[simp] theorem measured_pow_alarm (s : State) : s.measured.pow.alarm = s.pow.alarm := rfl
@[simp] theorem measured_pow_crit (s : State) : s.measured.pow.crit = s.pow.crit := rfl

/-- A condition that began at clock `c` has held for `n` clocks once `c` is `n` clocks old; a measurement does not move the hub clock. -/
theorem measured_heldFor {s : State} {since : Option Nat} {c n : Nat} (hc : since = some c) (hn : n ≤ s.hubSince c) :
    s.measured.heldFor since n = true := by
  subst hc
  exact decide_eq_true hn

theorem powerAlarm_raises {s : State} (h : s.pow.limit < s.ev.draw ∨ 4500 < s.ev.inlet) (hoff : s.pow.alarm = false) :
    exec .powerAlarm s = .next { s with pow := { s.measured.pow with
      alarm := true, alarms := s.measured.pow.alarms + 1, since := s.hub.toNat } } := by
  have hor : (decide (s.pow.limit < s.ev.draw) || decide (4500 < s.ev.inlet)) = true := by simpa using h
  show execPowerAlarm s = _
  simp only [execPowerAlarm, nextS, hor, if_true, State.raiseAlarm, measured_pow_alarm, hoff, Bool.false_eq_true, if_false]
  rfl

theorem powerAlarm_measures {s : State} (hd : s.ev.draw ≤ s.pow.limit) (hi : s.ev.inlet ≤ 4500) :
    exec .powerAlarm s = .next { s with pow := s.measured.pow } := by
  have hor : (decide (s.pow.limit < s.ev.draw) || decide (4500 < s.ev.inlet)) = false := by simp [hd, hi]
  show execPowerAlarm s = _
  simp only [execPowerAlarm, nextS, hor, Bool.false_eq_true, if_false]
  rfl

theorem startHold_holds {s : State} (ha : s.pow.alarm = true) (ht : 2000000 ≤ s.hubSince s.pow.since) (hd : s.pow.limit < s.ev.draw) :
    exec .startHold s = .next { s with pow := { s.measured.pow with hold := true } } := by
  show execStartHold s = _
  simp only [execStartHold, nextS, ha, ht, hd, decide_true, Bool.and_self, if_true]
  rfl

theorem startHoldEnd_frees {s : State} (hd : s.ev.draw ≤ s.pow.limit) :
    exec .startHoldEnd s = .next { s with pow := { s.measured.pow with hold := false } } := by
  show execStartHoldEnd s = _
  simp only [execStartHoldEnd, nextS, hd, if_true]
  rfl

theorem powerAlarmEnd_ends {s : State} {c : Nat} (ha : s.pow.alarm = true) (hc : s.measured.pow.calm = some c)
    (ht : 10000000 ≤ s.hubSince c) (hcrit : s.pow.crit = false) :
    exec .powerAlarmEnd s = .next { s with pow := { s.measured.pow with alarm := false } } := by
  have hall : (s.measured.pow.alarm && s.measured.heldFor s.measured.pow.calm 10000000 && !s.measured.pow.crit) = true := by
    simp [ha, hcrit, measured_heldFor hc ht]
  show execPowerAlarmEnd s = _
  simp only [execPowerAlarmEnd, nextS, hall, if_true]
  rfl

theorem overtempEnd_ends {s : State} {c : Nat} (hcrit : s.pow.crit = true) (hc : s.measured.pow.cool = some c)
    (ht : 1000000000 ≤ s.hubSince c) :
    exec .overtempEnd s = .next { s with pow := { s.measured.pow with crit := false }, fw := { s.fw with mstate := 2 } } := by
  show execOvertempEnd s = _
  simp only [execOvertempEnd, nextS, measured_pow_crit, hcrit, measured_heldFor hc ht, Bool.and_self, if_true]
  rfl

theorem raiseAlarm_units (s : State) : s.raiseAlarm.units = s.units := by
  unfold State.raiseAlarm
  split <;> rfl

/-- Above 55 °C: the module is too hot, and every running unit is asked to leave (R385). -/
theorem overtempPreempt_acts {s : State} (hi : 5500 < s.ev.inlet) (hcrit : s.pow.crit = false) :
    ∃ t : State, t.pow.crit = true ∧ t.fw.mstate = 3 ∧ t.units = s.units ∧
      exec .overtempPreempt s = .next (((t.units.filter (fun p => p.2.isRunning)).map Prod.fst).foldl (fun s u => s.requestPreempt u true) t) := by
  have hor : (decide (s.ev.inlet ≤ 5500) || s.pow.crit) = false := by simp [hi, hcrit]
  refine ⟨(s.measured.raiseAlarm.modPow (fun p => { p with crit := true })).modFw (fun f => { f with mstate := 3 }),
    rfl, rfl, raiseAlarm_units s.measured, ?_⟩
  show execOvertempPreempt s = _
  simp only [execOvertempPreempt, nextS, hor, Bool.false_eq_true, if_false]

/-! ### Corrected errors and spares (R379 to R382) -/

theorem correctedErrorThreshold_below {s : State} (hch : isChannel s.ev.elem = false) (h : (s.recentErrors s.ev.elem).length < 8) :
    exec .correctedErrorThreshold s = .next s := by
  show execCorrectedErrorThreshold s = _
  simp only [execCorrectedErrorThreshold, nextS, hch, h, Bool.false_eq_true, if_false, if_true]

/-- An element over its threshold is repaired, with its count empty (R381). -/
theorem correctedErrorThreshold_repairs {s : State} (hch : isChannel s.ev.elem = false) (h : 8 ≤ (s.recentErrors s.ev.elem).length) :
    exec .correctedErrorThreshold s = .next ((s.modFleet (fun f => { f with corrected := adel f.corrected s.ev.elem })).repair s.ev.elem) := by
  have hn : ¬ (s.recentErrors s.ev.elem).length < 8 := Nat.not_lt.2 h
  show execCorrectedErrorThreshold s = _
  simp only [execCorrectedErrorThreshold, nextS, hch, hn, Bool.false_eq_true, if_false]

/-- The errors that an element has logged are those put into its own list, as far as they are recent. -/
theorem recentErrors_of_corrected {s t : State} {e : Element} {l : List Nat} (hl : t.fleet.corrected = aset s.fleet.corrected e l)
    (hh : t.hub = s.hub) : t.recentErrors e = l.filter (fun c => decide (s.hubSince c < 2 ^ 40)) := by
  simp [State.recentErrors, agetD, hl, State.hubSince, hh]

theorem recentErrors_logCorrected (s : State) (e : Element) : (s.logCorrected e).recentErrors e =
    if isChannel e = true then s.recentErrors e
    else (s.recentErrors e ++ [s.hub.toNat]).filter (fun t => decide (s.hubSince t < 2 ^ 40)) := by
  cases e with
  | hbmChannel st pages => rfl
  | _ => exact recentErrors_of_corrected (s := s) rfl rfl

/-- A pending cluster without a unit, on an idle die or one at a phase boundary, takes a spare or is marked unavailable (R380). -/
theorem clusterRemap_acts {s : State} {cl : Nat} (hcl : cl = s.ev.cl) (hp : (s.cluster cl).pending = true)
    (hu : s.units.any (fun p => p.2.inRegion && p.2.covers cl) = false)
    (hd : s.units.any (fun p => p.2.inRegion && p.2.die == dieOf cl) = false ∨ (s.die (dieOf cl)).remap = true) :
    exec .clusterRemap s = .next (if lget s.fleet.clSpare (dieOf cl) 0 = 0 then s.modCluster cl (fun c => { c with pending := false, unavail := true })
      else ((s.flushL1 cl).modCluster cl (fun _ => {})).modFleet (fun f =>
        { f with clSpare := lmod f.clSpare (dieOf cl) (· - 1), retired := lmod f.retired (dieOf cl) (· + 1), peFailed := f.peFailed.filter (fun p => p.1 != cl),
                 corrected := f.corrected.filter (fun p => !elemInCluster cl p.1) })) := by
  subst hcl
  have hor : (!s.units.any (fun p => p.2.inRegion && p.2.die == dieOf s.ev.cl) || (s.die (dieOf s.ev.cl)).remap) = true := by
    rcases hd with h | h <;> simp [h]
  show execClusterRemap s = _
  simp only [execClusterRemap, nextS, hp, hu, hor, Bool.not_true, Bool.or_self, Bool.false_eq_true, if_false]

/-! ### The fleet's events -/

/-- Settles O59: each event by its own lemma above. -/
theorem fleetEventsAct : Obligations.FleetEventsAct := by
  unfold Obligations.FleetEventsAct
  refine ⟨fun s => ⟨_, rfl, rfl, rfl, rfl, rfl, rfl, rfl, rfl, rfl, rfl, rfl, rfl⟩, ?power, ?errors, recentErrors_logCorrected,
    fun s cl => clusterRemap_acts⟩
  case power =>
    rintro s m rfl
    refine ⟨?_, powerAlarm_raises, powerAlarm_measures, startHold_holds, startHoldEnd_frees,
      fun _ => powerAlarmEnd_ends, fun _ => overtempEnd_ends, overtempPreempt_acts⟩
    simp only [measured_pow, and_self]
  case errors =>
    rintro s s1 rfl hch
    refine ⟨correctedErrorThreshold_below hch, fun h8 => ?_⟩
    rw [correctedErrorThreshold_repairs hch h8]
    refine ⟨fun pa he => ?_, fun cl k he => ?_, fun cl x y he => ?_, fun k g he => ?_⟩
    · rw [he]; rfl
    · rcases he with he | he <;> rw [he] <;> rfl
    · rw [he]; rfl
    · rcases he with he | he <;> rw [he] <;> rfl

/-! ### What hosts and other devices are asked for -/

/-- `t` is `s` after hosts and other devices have been asked for something: snoops and requests noted, packets sent and counted. -/
def Asked (s t : State) : Prop :=
  ∃ dir out ask fleet, t = { s with dir := dir, fyOut := out, hostAsk := ask, fleet := fleet }

theorem Asked.refl (s : State) : Asked s s := ⟨_, _, _, _, rfl⟩
theorem Asked.trans {s t r : State} (h : Asked s t) (h' : Asked t r) : Asked s r := by
  obtain ⟨_, _, _, _, rfl⟩ := h
  obtain ⟨_, _, _, _, rfl⟩ := h'
  exact ⟨_, _, _, _, rfl⟩
theorem Asked.foldl {α : Type} {f : State → α → State} (hf : ∀ s a, Asked s (f s a)) (l : List α) (s : State) : Asked s (l.foldl f s) := by
  induction l generalizing s with
  | nil => exact Asked.refl s
  | cons a r ih => exact (hf s a).trans (ih (f s a))
theorem Asked.modDir {s t : State} (h : Asked s t) (l : Nat) (f : DirEntry → DirEntry) : Asked s (t.modDir l f) :=
  h.trans ⟨_, _, _, _, rfl⟩

theorem asked_fySend (s : State) (d k : Nat) (pl : FyPayload) : Asked s (s.fySend d k pl) :=
  Asked.foldl (fun _ _ => ⟨_, _, _, _, rfl⟩) _ s
theorem asked_invRemote (s : State) (l : Nat) : Asked s (s.invRemote l) := by
  unfold State.invRemote
  split
  · exact Asked.refl s
  · exact (Asked.foldl (fun s d => asked_fySend s d 2 _) _ s).modDir _ _
theorem asked_askHost (s : State) (w : Bool) (l : Nat) : Asked s (s.askHost w l) := by
  refine Asked.foldl (fun s h => ?_) _ s
  split
  · exact Asked.refl s
  · exact ⟨_, _, _, _, rfl⟩
theorem asked_sendSnoops (s : State) (xa n : Nat) (w : Bool) : Asked s (s.sendSnoops xa n w) := by
  unfold State.sendSnoops
  split
  · exact Asked.foldl (fun s l => asked_askHost s w l) _ s
  · split
    · exact Asked.refl s
    · refine Asked.foldl (fun s l => ?_) _ s
      dsimp only
      split
      · exact Asked.refl s
      · exact (Asked.refl s).modDir _ _

/-! ### Writes of registers that name no job -/

theorem ownedWrite_owner {s : State} (h : s.ownsAny s.ev.host = true) (body : State → State) : ownedWrite s body = body s := by
  simp [ownedWrite, h]
theorem ownedWrite_foreign {s : State} (h : s.ownsAny s.ev.host = false) (body : State → State) :
    ownedWrite s body = s.writeRecord 32 { cause := 0x11D, src := 3 } := by
  simp [ownedWrite, h, State.foreign, State.devRecord]

theorem le_clamp {lo hi : Nat} (v : Nat) (h : lo ≤ hi) : lo ≤ clamp lo hi v := by unfold clamp; split_ifs <;> omega
theorem clamp_le {lo hi : Nat} (v : Nat) (h : lo ≤ hi) : clamp lo hi v ≤ hi := by unfold clamp; split_ifs <;> omega
theorem clamp_of_mem {lo hi v : Nat} (h1 : lo ≤ v) (h2 : v ≤ hi) : clamp lo hi v = v := by unfold clamp; split_ifs <;> omega

/-- POOLCFG is left as it is while a graph has not ended (R291). -/
theorem poolcfgWrite_acts {s : State} (h : s.ownsAny s.ev.host = true) : exec .poolcfgWrite s = .next (
    if s.insts.any (fun i => i.status.isNone) then s else s.modW2 (fun w => { w with poolD := clamp 1 8 (wbits s.ev.v 3 0) })) :=
  congrArg Host.Outcome.next (ownedWrite_owner h _)

/-- PWRCTL sets LIMIT and SPACING; the power manager watches its measurements against the new LIMIT (R385). -/
theorem pwrctlWrite_acts {s : State} (h : s.ownsAny s.ev.host = true) : exec .pwrctlWrite s = .next { s with pow :=
    ({ s.pow with spacing := clamp 8 4096 (wbits s.ev.v 31 16), limit := clamp 1200 2400 (wbits s.ev.v 15 0) } : Power).watch s.hub.toNat } :=
  congrArg Host.Outcome.next (ownedWrite_owner h _)

/-! ### Attestation (R388, R389) -/

/-- A GO of ATTCTL acts as a write of ATTCTL by a host that owns a queue. -/
theorem exec_attestation {x : Instr} {k : Nat} (hx : (x, k) ∈ [(Instr.attestationQuote, 0), (Instr.attestationKeys, 1)]) {s : State}
    (hgo : s.ev.v.getLsbD 0 = true) (hk : wbits s.ev.v 5 4 = k) : exec x s = .next (ownedWrite s (fun s => s.writeAttctl s.ev.v)) := by
  have hatt : attGo k s = ownedWrite s (fun s => s.writeAttctl s.ev.v) := by simp [attGo, hgo, hk]
  rw [← hatt]
  simp only [List.mem_cons, Prod.mk.injEq, List.not_mem_nil, or_false] at hx
  rcases hx with ⟨rfl, rfl⟩ | ⟨rfl, rfl⟩ <;> rfl

theorem writeAttctl_busy {s : State} {v : Word} (hb : s.fw.attBusy = true) :
    s.writeAttctl v = s.modFw (fun f => { f with attDone := f.attDone && !v.getLsbD 2, attKind := wbits v 5 4 }) := by
  simp [State.writeAttctl, hb]
theorem writeAttctl_go {s : State} {v : Word} (hgo : v.getLsbD 0 = true) (hb : s.fw.attBusy = false) :
    s.writeAttctl v = s.modFw (fun f => { f with
      attDone := f.attDone && !v.getLsbD 2, attKind := wbits v 5 4, attBusy := true, attErr := false, attWork := wbits v 5 4, attHost := s.ev.host }) := by
  simp only [State.writeAttctl, hgo, hb, Bool.not_true, Bool.or_self, Bool.false_eq_true, if_false]
  rfl

/-- A request of a reserved KIND, or for a place outside the host's regions, ends with ERR. -/
theorem attestationResult_errs {s : State} (hb : s.fw.attBusy = true)
    (h : 1 < s.fw.attWork ∨ s.assigned s.fw.attHost s.fw.attDst (if s.fw.attWork = 0 then 3760 else 1984) = false) :
    exec .attestationResult s = .next (s.modFw (fun f => { f with attBusy := false, attErr := true, attSample := none })) := by
  have hor : (decide (1 < s.fw.attWork) || !s.assigned s.fw.attHost s.fw.attDst (if s.fw.attWork = 0 then 3760 else 1984)) = true := by
    rcases h with h | h <;> simp [h]
  show execAttestationResult s = _
  simp only [execAttestationResult, nextS, hb, hor, Bool.not_true, Bool.false_eq_true, if_false, if_true]

/-- The ways in which the result comes to be sampled as `bs`, and the state then (R389). -/
theorem attSampled_eq {s t : State} {bs : List Byte}
    (h : s.fw.attSample = some bs ∧ t = s ∨
      s.fw.attSample = none ∧ s.fw.attWork = 0 ∧ bs = s.quote ∧
        t = State.modFw { s with freeCtr := s.freeCtr + (64 + 3309) } (fun f => { f with attSample := some bs, sampledAt := some s.hub.toNat }) ∨
      s.fw.attSample = none ∧ s.fw.attWork = 1 ∧ bs = (upFrom 0 1984).map Config.publicKey ∧ t = s.modFw (fun f => { f with attSample := some bs })) :
    s.attSampled = t ∧ t.fw.attSample = some bs := by
  rcases h with ⟨hs, rfl⟩ | ⟨hs, hw, rfl, rfl⟩ | ⟨hs, hw, rfl, rfl⟩
  · exact ⟨by simp [State.attSampled, hs], hs⟩
  · exact ⟨by simp [State.attSampled, hs, hw], rfl⟩
  · exact ⟨by simp [State.attSampled, hs, hw], rfl⟩

section
variable {s t : State} {bs : List Byte} (hb : s.fw.attBusy = true) (hw : s.fw.attWork ≤ 1)
  (ha : s.assigned s.fw.attHost s.fw.attDst (if s.fw.attWork = 0 then 3760 else 1984) = true)
  (ht : s.attSampled = t) (hbs : t.fw.attSample = some bs)
include hb hw ha ht hbs

/-- A request that is in order, with its sample taken, writes the sample or waits with it. -/
theorem attestationResult_sampled : exec .attestationResult s = .next (
    if t.attReady bs.length then (t.devWrite t.fw.attDst bs).modFw (fun f => { f with attBusy := false, attDone := true, attSample := none })
    else (touchedLines t.fw.attDst bs.length).foldl (fun s l => s.invRemote l) (t.sendSnoops t.fw.attDst bs.length true)) := by
  have hor : (decide (1 < s.fw.attWork) || !s.assigned s.fw.attHost s.fw.attDst (if s.fw.attWork = 0 then 3760 else 1984)) = false := by
    simp [ha, Nat.not_lt.2 hw]
  show execAttestationResult s = _
  simp only [execAttestationResult, nextS, hb, hor, ht, hbs, Option.getD_some, Bool.not_true, Bool.false_eq_true, if_false]
  cases t.attReady bs.length <;> rfl

theorem attestationResult_writes (hr : t.attReady bs.length = true) : exec .attestationResult s =
    .next ((t.devWrite t.fw.attDst bs).modFw (fun f => { f with attBusy := false, attDone := true, attSample := none })) := by
  rw [attestationResult_sampled hb hw ha ht hbs, if_pos hr]

theorem attestationResult_waits (hr : t.attReady bs.length = false) : ∃ r : State, exec .attestationResult s = .next r ∧ Asked t r :=
  ⟨_, by rw [attestationResult_sampled hb hw ha ht hbs, if_neg (by simp [hr])],
    (asked_sendSnoops t _ _ true).trans (Asked.foldl asked_invRemote _ _)⟩
end

/-! ### Fault-queue registers (R341) -/

/-- What a write of `v` does to register `reg` of a ring: FQBASE and FQSIZE, FQHEAD (read only), FQTAIL, FQLOST (a 1 clears). -/
def ringField (reg : Nat) (v : Word) (r : FaultRing) : FaultRing :=
  match reg with
  | 0 => { r with base := wbits v 51 12 * 4096, size := wbits v 4 0 }
  | 2 => { r with tail := v.setWidth 32 }
  | 3 => { r with lost := r.lost &&& ~~~(v.setWidth 32) }
  | _ => r

theorem writeRing_owner {s : State} {q : Nat} (hq : q < 32) (hown : (s.queue q).host = s.ev.host + 1) (reg : Nat) (v : Word) :
    s.writeRing q reg v = { s with rings := lmod s.rings q (ringField reg v) } := by
  simp only [State.writeRing, hq, hown, if_true, bne_self_eq_false, Bool.false_eq_true, if_false]
  rfl

/-- The owner of a queue writes the registers of its ring. -/
theorem registerWrite_ring {s : State} {q reg : Nat} (hq : q < 32) (hown : (s.queue q).host = s.ev.host + 1) (hreg : reg < 4)
    (hoff : s.ev.off = q * 32 + 8 * reg) :
    exec .registerWrite s = .next { s with rings := lmod s.rings q (ringField reg s.ev.v) } := by
  have h8 : (s.ev.off % 8 != 0) = false := by simp [hoff]; omega
  have hlt : s.ev.off < 33 * 32 := by omega
  have hqq : s.ev.off / 32 = q := by omega
  have hrr : s.ev.off % 32 / 8 = reg := by omega
  show execRegisterWrite s = _
  simp only [execRegisterWrite, nextS, h8, hlt, if_true, Bool.false_eq_true, if_false]
  rw [hqq, hrr, writeRing_owner hq hown]

/-- Settles O56: each register by its own lemmas above. -/
theorem registersTakeWrites : Obligations.RegistersTakeWrites := by
  unfold Obligations.RegistersTakeWrites
  refine ⟨fun s hown => ⟨fun hi => ?_, fun hi => ?_, ?_⟩, fun s x hx hown => ?_, fun lo hi v h => ⟨le_clamp v h, clamp_le v h, clamp_of_mem⟩,
    fun x k s hx hgo hk => ?attctl, ?result, ?ring⟩
  · rw [poolcfgWrite_acts hown, if_pos hi]
  · rw [poolcfgWrite_acts hown, if_neg (by simp [hi])]
  · exact ⟨_, pwrctlWrite_acts hown, rfl, rfl, rfl, rfl, rfl, rfl⟩
  · simp only [List.mem_cons, List.not_mem_nil, or_false] at hx
    rcases hx with rfl | rfl <;> exact congrArg Host.Outcome.next (ownedWrite_foreign hown _)
  case attctl =>
    rw [exec_attestation hx hgo hk]
    subst hk
    refine ⟨fun hown => ?_, fun hown hb => ?_, fun hown hb => ?_⟩
    · rw [ownedWrite_foreign hown]
    · rw [ownedWrite_owner hown, writeAttctl_busy hb]
    · rw [ownedWrite_owner hown, writeAttctl_go hgo hb]
  case result =>
    rintro s n hb rfl
    refine ⟨attestationResult_errs hb, fun bs t hw ha h => ?_⟩
    obtain ⟨ht, hbs⟩ := attSampled_eq h
    refine ⟨attestationResult_writes hb hw ha ht hbs, fun hr => ?_⟩
    obtain ⟨r, hr, _, _, _, _, rfl⟩ := attestationResult_waits hb hw ha ht hbs hr
    exact ⟨_, hr, rfl, rfl, rfl⟩
  case ring =>
    intro s q hq hown
    refine ⟨fun h => registerWrite_ring (reg := 0) hq hown (by decide) h,
      fun h => ⟨_, registerWrite_ring (reg := 1) hq hown (by decide) h, fun k => by simp [lget_lmod, ringField], rfl⟩,
      fun h => registerWrite_ring (reg := 2) hq hown (by decide) h,
      fun h => registerWrite_ring (reg := 3) hq hown (by decide) h⟩

/-! ### Jobs -/

theorem ownsJob_present {s : State} {host job : Nat} (h : s.ownsJob host job = true) : ∃ j, aget s.jobs job = some j := by
  rw [State.ownsJob, Bool.and_eq_true] at h
  exact Option.isSome_iff_exists.1 h.1

theorem job_modJob_self {s : State} {job : Nat} {j : Job} (h : aget s.jobs job = some j) (f : Job → Job) :
    (s.modJob job f).job job = f (s.job job) := by
  simp [State.job, State.modJob, agetD, aget_amod, h]

/-! ### UCMD (R354) -/

/-- The fields of UCMD as a GO writes them. -/
def ucmdFields (act : Nat) (s : State) : State :=
  s.modW2 (fun w => { w with ucmdJob := wbits s.ev.v 63 32, ucmdAct := act, ucmdHandle := wbits s.ev.v 15 0 })

/-- What action `act` of UCMD does to the unit that its handle names. -/
def ucmdBody (act : Nat) (s : State) (uid : Nat) : State :=
  if act = 0 then s.resumeUnit uid else if act = 1 then s.endUnit uid 3 else if act = 2 then s.cancelFrom uid 1
  else (s.modUnit uid (fun u => { u with ovft := if s.ev.host = 0 then s.w2.uargA else s.w2.uargB })).resumeUnit uid

theorem exec_ucmd {x : Instr} {act : Nat}
    (hx : (x, act) ∈ [(Instr.ucmdResume, 0), (Instr.ucmdEndFaulted, 1), (Instr.ucmdCancelLaunch, 2), (Instr.ucmdMoveOvft, 3)]) (s : State) :
    exec x s = .next (ucmd act s (ucmdBody act)) := by
  simp only [List.mem_cons, Prod.mk.injEq, List.not_mem_nil, or_false] at hx
  rcases hx with ⟨rfl, rfl⟩ | ⟨rfl, rfl⟩ | ⟨rfl, rfl⟩ | ⟨rfl, rfl⟩ <;> rfl

section
variable {act : Nat} {s : State} (hgo : s.ev.v.getLsbD 31 = true) (hact : wbits s.ev.v 17 16 = act)
include hgo hact

theorem ucmd_foreign (body : State → Nat → State) (hown : s.ownsJob s.ev.host (wbits s.ev.v 63 32) = false) :
    ucmd act s body = s.writeRecord 32 { cause := 0x11D, src := 3 } := by
  simp [ucmd, hgo, hact, hown, State.foreign, State.devRecord]

theorem ucmd_unnamed (body : State → Nat → State) (hown : s.ownsJob s.ev.host (wbits s.ev.v 63 32) = true)
    (hf : s.findStopped (wbits s.ev.v 63 32) (wbits s.ev.v 15 0) = none) :
    ucmd act s body = (ucmdFields act s).modW2 (fun w => { w with ucmdErr := true }) := by
  simp [ucmd, hgo, hact, hown, hf, ucmdFields]

theorem ucmd_named (body : State → Nat → State) {uid : Nat} (hown : s.ownsJob s.ev.host (wbits s.ev.v 63 32) = true)
    (hf : s.findStopped (wbits s.ev.v 63 32) (wbits s.ev.v 15 0) = some uid) :
    ucmd act s body = body ((ucmdFields act s).modW2 (fun w => { w with ucmdErr := false })) uid := by
  simp [ucmd, hgo, hact, hown, hf, ucmdFields]
end

/-- While starts are withheld or the module is too hot, the resume of a stopped unit is due later (R385). -/
theorem resumeUnit_waits {s : State} {uid : Nat} {u : UnitSt} {h : Nat} (hu : aget s.units uid = some u) (hst : u.status = .stopped h)
    (hp : s.pow.hold = true ∨ s.pow.crit = true) : s.resumeUnit uid = s.modUnit uid (fun u => { u with resumeDue := true }) := by
  have hor : (s.pow.hold || s.pow.crit) = true := by simpa using hp
  simp only [State.resumeUnit, State.unit_of_aget hu, hst, hor, if_true]

/-- A stopped unit outside its handler, with no fault held or waiting, resumes at TEPC (R352, R354). -/
theorem resumeUnit_runs {s : State} {uid : Nat} {u : UnitSt} {h : Nat} (hu : aget s.units uid = some u) (hst : u.status = .stopped h)
    (hhold : s.pow.hold = false) (hcrit : s.pow.crit = false) (hh : u.handler = false) (hp : nextPending u.pend = none) (hc : u.curFault = none) :
    s.resumeUnit uid = s.modUnit uid (fun u => { u with
      ccnt := u.tepc, curFault := none, resumeDue := false, status := .running, watchdog := 0 }) := by
  simp only [State.resumeUnit, State.resumeNow, State.unit_of_aget hu, hst, hhold, hcrit, hh, hp, hc, Bool.or_self, Bool.false_eq_true, if_false,
    State.modUnit_modUnit]

/-! ### TLBICTL (R360) -/

/-- The fields of TLBICTL as a GO writes them. -/
def tlbFields (s : State) : State :=
  s.modW2 (fun w => { w with tlbJob := wbits s.ev.v 63 32, tlbDone := w.tlbDone && !s.ev.v.getLsbD 2 })

section
variable {s : State} (hgo : s.ev.v.getLsbD 0 = true) (hown : s.ownsJob s.ev.host (wbits s.ev.v 63 32) = true)
include hgo hown

theorem tlbShootdown_busy (hb : s.w2.tlbBusy = true) : exec .tlbShootdown s = .next (tlbFields s) := by
  show execTlbShootdown s = _
  simp only [execTlbShootdown, nextS, hgo, hown, hb, Bool.not_true, Bool.false_eq_true, if_false, if_true]
  rfl

theorem tlbShootdown_starts {first n : Nat} (hb : s.w2.tlbBusy = false)
    (hfirst : first = wbits (if s.ev.host = 0 then s.w2.tlbVaA else s.w2.tlbVaB) 55 16)
    (hn : n = (if s.ev.host = 0 then s.w2.tlbNpA else s.w2.tlbNpB).toNat) :
    exec .tlbShootdown s = .next { s with
      tlb := s.tlb.filter (fun t => !(t.job == wbits s.ev.v 63 32 && t.touches first n))
      w2 := { (tlbFields s).w2 with tlbBusy := true, tlbPend := s.translated (wbits s.ev.v 63 32) first n } } := by
  subst hfirst hn
  show execTlbShootdown s = _
  simp only [execTlbShootdown, nextS, hgo, hown, hb, Bool.not_true, Bool.false_eq_true, if_false]
  rfl
end

theorem tlbShootdownDone_acts {s : State} (hb : s.w2.tlbBusy = true) : exec .tlbShootdownDone s = .next (
    if s.w2.tlbPend.any s.stillInFlight then s else s.modW2 (fun w => { w with tlbBusy := false, tlbDone := true, tlbPend := [] })) := by
  show execTlbShootdownDone s = _
  simp only [execTlbShootdownDone, nextS, hb, Bool.not_true, Bool.false_or]

/-! ### DBGCTL (R366, R367) -/

/-- The fields of DBGCTL as a GO writes them. -/
def dbgFields (act : Nat) (s : State) : State :=
  s.modW2 (fun w => { w with
    dbgJob := wbits s.ev.v 63 32, dbgAtt := s.ev.v.getLsbD 30, dbgAct := act, dbgWhole := s.ev.v.getLsbD 26
    dbgCl := wbits s.ev.v 25 17, dbgY := wbits s.ev.v 16 13, dbgX := wbits s.ev.v 12 9 })

section
variable {act : Nat} {s : State} (hgo : s.ev.v.getLsbD 31 = true) (hact : wbits s.ev.v 29 27 = act)
  (body : State → Nat → Nat → Nat → Nat → Bool → State)
include hgo hact

theorem dbgctl_foreign (hown : s.ownsJob s.ev.host (wbits s.ev.v 63 32) = false) :
    dbgctl act s body = s.writeRecord 32 { cause := 0x11D, src := 3 } := by
  simp [dbgctl, hgo, hact, hown, State.foreign, State.devRecord]

theorem dbgctl_acts (hown : s.ownsJob s.ev.host (wbits s.ev.v 63 32) = true) :
    dbgctl act s body = body (dbgFields act s) (wbits s.ev.v 63 32) (wbits s.ev.v 25 17) (wbits s.ev.v 12 9) (wbits s.ev.v 16 13) (s.ev.v.getLsbD 26) := by
  simp [dbgctl, hgo, hact, hown, dbgFields]
end

/-- The halts that a job keeps after a halt (`act` 1) or a resume of one PE. -/
def keepPe (act cl x y : Nat) (j : Job) : Job :=
  { j with haltPe := if act = 1 then (if j.haltPe.contains (cl, x, y) then j.haltPe else j.haltPe ++ [(cl, x, y)])
                     else j.haltPe.filter (fun p => p != (cl, x, y)) }
/-- The same of a whole cluster. -/
def keepCluster (act cl : Nat) (j : Job) : Job :=
  if act = 1 then { j with haltCl := if j.haltCl.contains cl then j.haltCl else j.haltCl ++ [cl] }
  else { j with haltCl := j.haltCl.filter (fun c => c != cl), haltPe := j.haltPe.filter (fun p => p.1 != cl) }
/-- A PE context halted (`act` 1) or released. -/
def markHalt (act : Nat) (p : PeCtx) : PeCtx := { p with halted := act == 1, stepOnce := false }
/-- The same, but with `act` 3 a halted context may fire once. -/
def markPe (act : Nat) (p : PeCtx) : PeCtx := if act = 3 then (if p.halted then { p with stepOnce := true } else p) else markHalt act p

theorem keepPe_contains (act cl x y : Nat) (j : Job) : (keepPe act cl x y j).haltPe.contains (cl, x, y) = true ↔ act = 1 := by
  by_cases ha : act = 1
  · by_cases hc : (cl, x, y) ∈ j.haltPe <;> simp [keepPe, ha, hc]
  · simp [keepPe, ha]
theorem keepCluster_contains (act cl : Nat) (j : Job) : (keepCluster act cl j).haltCl.contains cl = true ↔ act = 1 := by
  by_cases ha : act = 1
  · by_cases hc : cl ∈ j.haltCl <;> simp [keepCluster, ha, hc]
  · simp [keepCluster, ha]
/-- Resuming a whole cluster lifts the halts of its PEs too. -/
theorem keepCluster_haltPe {act : Nat} (ha : act ≠ 1) (cl y z : Nat) (j : Job) : (keepCluster act cl j).haltPe.contains (cl, y, z) = false := by
  simp [keepCluster, ha]

/-- A job with its REASON and DEBUG-HOLD after a halt or a resume. -/
def withHold (act : Nat) (hold : Bool) (j : Job) : Job := { j with dbgReason := if act = 1 then 1 else j.dbgReason, debugHold := hold }
/-- They are noted for a job, as what is halted of it now says. -/
def noteHold (act job : Nat) (s : State) : State := s.modJob job (withHold act (s.anyHalt job))

/-- A job that keeps other halts, with its REASON and DEBUG-HOLD noted: the latter says whether any part of it is halted. -/
theorem job_noteHold {act job : Nat} {s s' : State} {j : Job} (h : aget s.jobs job = some j) {keep : Job → Job}
    (hs' : s'.jobs = (s.modJob job keep).jobs) :
    (noteHold act job s').job job = withHold act ((noteHold act job s').anyHalt job) (keep (s.job job)) := by
  have hj : aget s'.jobs job = some (keep j) := by simp [hs', State.modJob, aget_amod, h]
  have hkeep : s'.job job = keep (s.job job) := by simp [State.job, agetD, hj, h]
  have hnote : (noteHold act job s').job job = withHold act (s'.anyHalt job) (s'.job job) := job_modJob_self hj _
  have hany : (noteHold act job s').anyHalt job = s'.anyHalt job := by
    unfold State.anyHalt
    rw [hnote]
    rfl
  rw [hnote, hany, hkeep]

/-- A halt or a resume of one PE. -/
def debugPe (act : Nat) (s : State) (job cl x y : Nat) : State :=
  noteHold act job ((s.modJob job (keepPe act cl x y)).modJobPe job cl x y (markPe act))
/-- A halt or a resume of a whole cluster. -/
def debugCluster (act : Nat) (s : State) (job cl : Nat) : State :=
  noteHold act job ((s.modJob job (keepCluster act cl)).modJobCluster job cl (markHalt act))

theorem debugPe_mem (act : Nat) (s : State) (job cl x y : Nat) : (debugPe act s job cl x y).mem = s.mem := rfl
theorem debugPe_w2 (act : Nat) (s : State) (job cl x y : Nat) : (debugPe act s job cl x y).w2 = s.w2 := rfl
theorem debugPe_units (act : Nat) (s : State) (job cl x y : Nat) :
    (debugPe act s job cl x y).units = (s.modJobPe job cl x y (markPe act)).units := rfl
theorem debugCluster_units (act : Nat) (s : State) (job cl : Nat) :
    (debugCluster act s job cl).units = (s.modJobCluster job cl (markHalt act)).units := rfl
theorem job_debugPe {act job : Nat} {s : State} {j : Job} (h : aget s.jobs job = some j) (cl x y : Nat) :
    (debugPe act s job cl x y).job job = withHold act ((debugPe act s job cl x y).anyHalt job) (keepPe act cl x y (s.job job)) :=
  job_noteHold h rfl
theorem job_debugCluster {act job : Nat} {s : State} {j : Job} (h : aget s.jobs job = some j) (cl : Nat) :
    (debugCluster act s job cl).job job = withHold act ((debugCluster act s job cl).anyHalt job) (keepCluster act cl (s.job job)) :=
  job_noteHold h rfl

/-- What action `act` of DBGCTL does. -/
def debugBody (act : Nat) (s : State) (job cl x y : Nat) (whole : Bool) : State :=
  if act = 3 then (if whole then s else s.modJobPe job cl x y (markPe act))
  else if whole then debugCluster act s job cl else debugPe act s job cl x y

theorem exec_debug {x : Instr} {act : Nat} (hx : (x, act) ∈ [(Instr.debugHalt, 1), (Instr.debugResume, 2), (Instr.debugStep, 3)]) (s : State) :
    exec x s = .next (dbgctl act s (debugBody act)) := by
  simp only [List.mem_cons, Prod.mk.injEq, List.not_mem_nil, or_false] at hx
  rcases hx with ⟨rfl, rfl⟩ | ⟨rfl, rfl⟩ | ⟨rfl, rfl⟩
  · exact congrArg (fun b => Host.Outcome.next (dbgctl 1 s b)) (by funext _ _ _ _ _ whole; cases whole <;> rfl)
  · exact congrArg (fun b => Host.Outcome.next (dbgctl 2 s b)) (by funext _ _ _ _ _ whole; cases whole <;> rfl)
  · rfl

theorem debugBody_pe {act : Nat} (h3 : act ≠ 3) (s : State) (job cl x y : Nat) : debugBody act s job cl x y false = debugPe act s job cl x y := by
  simp [debugBody, h3]
theorem debugBody_cluster {act : Nat} (h3 : act ≠ 3) (s : State) (job cl x y : Nat) : debugBody act s job cl x y true = debugCluster act s job cl := by
  simp [debugBody, h3]

/-! ### Commands of the hosts -/

/-- Settles O55: the actions of UCMD, TLBICTL and DBGCTL by their own lemmas above. -/
theorem hostCommandsAct : Obligations.HostCommandsAct := by
  unfold Obligations.HostCommandsAct
  refine ⟨?ucmd, fun s uid u h hu hst => ⟨resumeUnit_waits hu hst, resumeUnit_runs hu hst⟩, ?shootdown, fun s => tlbShootdownDone_acts, ?debug⟩
  case ucmd =>
    rintro x act s s1 uid job hx hgo hact rfl
    have hexec := exec_ucmd hx s
    refine ⟨fun hown => ?_, fun hown hf => ?_, ?_⟩
    · rw [hexec, ucmd_foreign hgo hact _ hown]
    · exact ⟨_, hexec.trans (congrArg _ (ucmd_unnamed hgo hact _ hown hf)), rfl, rfl⟩
    · rintro hown hf rfl
      exact hexec.trans (congrArg _ (ucmd_named hgo hact _ hown hf))
  case shootdown =>
    rintro s job first n hgo rfl hown
    exact ⟨tlbShootdown_busy hgo hown, tlbShootdown_starts hgo hown⟩
  case debug =>
    rintro x act s job hx hgo hact rfl
    have hexec := exec_debug hx s
    have howned (hown : s.ownsJob s.ev.host (wbits s.ev.v 63 32) = true) := hexec.trans (congrArg _ (dbgctl_acts hgo hact _ hown))
    refine ⟨fun hown => ?foreign, fun hown hw => ?pe, fun hown hw h3 => ?cluster, fun hown hw h3 => ?stepCluster⟩
    case foreign => rw [hexec, dbgctl_foreign hgo hact _ hown]
    case stepCluster =>
      subst h3
      rw [howned hown, hw]
      exact ⟨_, rfl, rfl, hw, rfl⟩
    all_goals
      obtain ⟨j, hj⟩ : ∃ j, aget (dbgFields act s).jobs (wbits s.ev.v 63 32) = some j := ownsJob_present hown
      rw [howned hown, hw]
    case pe =>
      by_cases h3 : act = 3
      · subst h3
        exact ⟨_, rfl, rfl, rfl, rfl, fun h => by omega, fun h => absurd rfl h, fun h => absurd rfl h⟩
      · rw [debugBody_pe h3]
        refine ⟨_, rfl, debugPe_mem .., congrArg Window2.dbgJob (debugPe_w2 ..), debugPe_units .., fun h1 _ => ?_,
          fun _ _ => congrArg Job.debugHold (job_debugPe hj ..), fun _ => ?_⟩
        · rw [job_debugPe hj]; exact if_pos h1
        · rw [job_debugPe hj]; exact keepPe_contains ..
    case cluster =>
      rw [debugBody_cluster h3]
      refine ⟨_, rfl, debugCluster_units .., ?_, fun h2 y z => ?_⟩
      · have hne : aget s.jobs (wbits s.ev.v 63 32) ≠ none := fun hn => Option.some_ne_none j (hj.symm.trans hn)
        rw [job_debugCluster hj, and_iff_left hne]
        exact keepCluster_contains ..
      · rw [job_debugCluster hj]; exact keepCluster_haltPe (by omega) ..

end Sys2Proof.Proofs

/-! PROOFS. Firings (R23, R24, R35, R64, R145, R162): when a PE fires, that every computing row completes, and what it leaves unchanged. -/

namespace Sys2Proof.Proofs

open Sys2Proof Sys2Proof.Machine Sys2Proof.Laws Sys2Proof.Claims

/-! ### When a PE fires -/

/-- Settles O8: readiness and the checks of R145 in their order, none of which holds the firing back. -/
theorem firingIsReady : Obligations.FiringIsReady := by
  unfold Obligations.FiringIsReady
  intro opc w s uid key toks col hfocus hereg hmatch hword hsel7 htags hcol
  refine ⟨{ a := (operandsOf opc w (((s.unit uid).purge key).pe key) toks).1, b := (operandsOf opc w (((s.unit uid).purge key).pe key) toks).2.1
            c := (operandsOf opc w (((s.unit uid).purge key).pe key) toks).2.2, toks := toks
            env := { rm := ((s.unit uid).purge key).rm, ereg := (((s.unit uid).purge key).pe key).ereg }
            tok := { (toks.map Prod.snd).headD {} with
              ctx := BitVec.ofNat 2 ((s.unit uid).purge key).ctx, col := col, last := joinLast (toks.map Prod.snd), kind := 0#2 } },
    ?_, rfl, rfl, rfl, List.any_map, rfl, rfl, rfl⟩
  simp only [prepFire, hfocus, hereg, hmatch, checkFiring, State.unit_setUnit_self, hword, hsel7, htags, hcol, Bool.not_true, Bool.or_self,
    Bool.false_eq_true, if_false]

/-! ### Computing rows -/

/-- A computing row fires its function under its own condition. -/
theorem exec_calcRow {i : Instr} {r : CalcRow} (h : calcRow i = some r) (s : State) : exec i s = .next (fireCalcIf r.more r.opc r.f r.w s) := by
  unfold calcRow at h
  split at h <;> cases h <;> rfl

theorem fireCalcIf_go {r : CalcRow} {s s1 : State} {uid key : Nat} {g : Gathered} (h : Fires r s s1 uid key g) :
    fireCalcIf r.more r.opc r.f r.w s = finishCalc r.w s1 uid key g (r.f r.w g.env g.a g.b g.c) := by
  unfold Fires at h
  simp only [fireCalcIf, h]

/-- Settles O9: one function serves all computing rows, and a firing of it without an enabled trap is committed and delivered. -/
theorem computingRowsComplete : Obligations.ComputingRowsComplete := by
  unfold Obligations.ComputingRowsComplete
  intro i r s s1 uid key g v t fl hrow hfires hcalc htrap
  rw [exec_calcRow hrow, fireCalcIf_go hfires, hcalc, finishCalc_ok htrap]

/-! ### What a firing may change of its unit -/

/-- Unit `v` is `u` after work of PE `key`: its PEs, the matching store, FIRED, the watchdog, the sticky flags and the report of quiescence may
differ, the other PEs do not. -/
structure UnitFrame (key : Nat) (u v : UnitSt) : Prop where
  rest : ∃ pes ms fired watchdog flags flagsNow quiet, v = { u with
    pes := pes, ms := ms, fired := fired, watchdog := watchdog, flags := flags, flagsNow := flagsNow, quiet := quiet }
  others : ∀ k, k ≠ key → v.pe k = u.pe k

theorem UnitFrame.refl (key : Nat) (u : UnitSt) : UnitFrame key u u := ⟨⟨_, _, _, _, _, _, _, rfl⟩, fun _ _ => rfl⟩

theorem UnitFrame.trans {key : Nat} {u v x : UnitSt} (h : UnitFrame key u v) (h' : UnitFrame key v x) : UnitFrame key u x := by
  obtain ⟨⟨_, _, _, _, _, _, _, rfl⟩, hpes⟩ := h
  obtain ⟨⟨_, _, _, _, _, _, _, rfl⟩, hpes'⟩ := h'
  exact ⟨⟨_, _, _, _, _, _, _, rfl⟩, fun k hk => (hpes' k hk).trans (hpes k hk)⟩

theorem UnitFrame.job {key : Nat} {u v : UnitSt} (h : UnitFrame key u v) : v.job = u.job := by
  obtain ⟨⟨_, _, _, _, _, _, _, rfl⟩, _⟩ := h
  rfl

theorem UnitFrame.lead {key : Nat} {u v : UnitSt} (h : UnitFrame key u v) : v.lead = u.lead := by
  obtain ⟨⟨_, _, _, _, _, _, _, rfl⟩, _⟩ := h
  rfl

theorem unitFrame_modPe (key : Nat) (u : UnitSt) (f : PeCtx → PeCtx) : UnitFrame key u (u.modPe key f) :=
  ⟨⟨_, _, _, _, _, _, _, rfl⟩, fun _ hk => UnitSt.pe_modPe_other u f (Ne.symm hk)⟩

/-- A unit framed with a debugger's step of the PE left as it was. -/
structure UnitKeeps (key : Nat) (u v : UnitSt) : Prop extends UnitFrame key u v where
  step : (v.pe key).stepOnce = (u.pe key).stepOnce

theorem UnitKeeps.refl (key : Nat) (u : UnitSt) : UnitKeeps key u u := ⟨.refl key u, rfl⟩
theorem UnitKeeps.trans {key : Nat} {u v x : UnitSt} (h : UnitKeeps key u v) (h' : UnitKeeps key v x) : UnitKeeps key u x :=
  ⟨h.toUnitFrame.trans h'.toUnitFrame, h'.step.trans h.step⟩

theorem unitKeeps_modPe (key : Nat) (u : UnitSt) {f : PeCtx → PeCtx} (hf : ∀ p, (f p).stepOnce = p.stepOnce) : UnitKeeps key u (u.modPe key f) :=
  ⟨unitFrame_modPe key u f, by rw [UnitSt.pe_modPe_self, hf]⟩

theorem unitKeeps_purge (key : Nat) (u : UnitSt) : UnitKeeps key u (u.purge key) := by
  unfold UnitSt.purge
  split
  · exact .refl key u
  · exact .trans (unitKeeps_modPe key u (f := fun p => { p with q := p.q.map (fun l => l.filter (fun t => !u.killed t)) }) fun _ => rfl)
      ⟨⟨⟨_, _, _, _, _, _, _, rfl⟩, fun _ _ => rfl⟩, rfl⟩

theorem unitKeeps_takeTok (key : Nat) (u : UnitSt) (q : Nat) (t : Token) : UnitKeeps key u (u.takeTok key q t) := by
  unfold UnitSt.takeTok
  split
  · split
    · exact unitKeeps_modPe key u fun _ => rfl
    · exact ⟨⟨⟨_, _, _, _, _, _, _, rfl⟩, fun _ _ => rfl⟩, rfl⟩
  · exact ⟨⟨⟨_, _, _, _, _, _, _, rfl⟩, fun _ _ => rfl⟩, rfl⟩

theorem unitKeeps_consume (key : Nat) (u : UnitSt) (toks : List (Nat × Token)) : UnitKeeps key u (u.consume key toks) := by
  induction toks generalizing u with
  | nil => exact .refl key u
  | cons p r ih => exact (unitKeeps_takeTok key u p.1 p.2).trans (ih _)

/-! ### What a firing may change of the machine -/

/-- State `t` is `s` after work of PE `key` of unit `uid` in which no debugger's step is used up. -/
structure PeWork (uid key : Nat) (s t : State) : Prop where
  rest : ∃ units fleet flights, t = { s with units := units, fleet := fleet, flights := flights }
  others : ∀ v, v ≠ uid → aget t.units v = aget s.units v
  self : UnitKeeps key (s.unit uid) (t.unit uid)

theorem PeWork.refl (uid key : Nat) (s : State) : PeWork uid key s s := ⟨⟨_, _, _, rfl⟩, fun _ _ => rfl, .refl key _⟩
theorem PeWork.trans {uid key : Nat} {s a t : State} (h : PeWork uid key s a) (h' : PeWork uid key a t) : PeWork uid key s t := by
  obtain ⟨⟨_, _, _, rfl⟩, ho, hs⟩ := h
  obtain ⟨⟨_, _, _, rfl⟩, ho', hs'⟩ := h'
  exact ⟨⟨_, _, _, rfl⟩, fun v hv => (ho' v hv).trans (ho v hv), hs.trans hs'⟩

/-- The unit after an update of it: updated, or the default one if there is none. -/
theorem unit_modUnit_cases (s : State) (uid : Nat) (f : UnitSt → UnitSt) :
    (s.modUnit uid f).unit uid = f (s.unit uid) ∨ (s.modUnit uid f).unit uid = s.unit uid := by
  cases h : aget s.units uid with
  | none => exact .inr (by simp [State.unit, agetD, State.aget_modUnit, h])
  | some x => exact .inl (by rw [State.unit_modUnit_self h, State.unit_of_aget h])

theorem peWork_modUnit {uid key : Nat} {s : State} {f : UnitSt → UnitSt} (hf : UnitKeeps key (s.unit uid) (f (s.unit uid))) :
    PeWork uid key s (s.modUnit uid f) := by
  refine ⟨⟨_, _, _, rfl⟩, fun v hv => by rw [State.aget_modUnit, if_neg (Ne.symm hv)], ?_⟩
  rcases unit_modUnit_cases s uid f with h | h <;> rw [h]
  · exact hf
  · exact .refl key _

theorem peWork_modPe (uid key : Nat) (s : State) {f : PeCtx → PeCtx} (hf : ∀ p, (f p).stepOnce = p.stepOnce) :
    PeWork uid key s (s.modUnit uid (fun u => u.modPe key f)) :=
  peWork_modUnit (unitKeeps_modPe key _ hf)

theorem peWork_raiseFlags (uid key : Nat) (s : State) (fl : Nat) : PeWork uid key s (s.modUnit uid (fun u => u.raiseFlags fl)) :=
  peWork_modUnit ⟨⟨⟨_, _, _, _, _, _, _, rfl⟩, fun _ _ => rfl⟩, rfl⟩

theorem peWork_consume (uid key : Nat) (s : State) (toks : List (Nat × Token)) : PeWork uid key s (s.modUnit uid (fun u => u.consume key toks)) :=
  peWork_modUnit (unitKeeps_consume key _ toks)

theorem peWork_setUnit {uid key : Nat} {s : State} {v : UnitSt} (h : UnitKeeps key (s.unit uid) v) : PeWork uid key s (s.setUnit uid v) :=
  ⟨⟨_, _, _, rfl⟩, fun w hw => aget_aset_other s.units v (Ne.symm hw), by rw [State.unit_setUnit_self]; exact h⟩

theorem peWork_emit (uid key : Nat) (s : State) (t : Token) : PeWork uid key s (s.emit uid key t) := by
  unfold State.emit
  dsimp only
  split
  · exact .refl uid key s
  · exact .trans (peWork_modUnit (f := fun u => { u with quiet := false }) ⟨⟨⟨_, _, _, _, _, _, _, rfl⟩, fun _ _ => rfl⟩, rfl⟩)
      ⟨⟨_, _, _, rfl⟩, fun _ _ => rfl, .refl key _⟩

theorem peWork_sendOut (uid key : Nat) (s : State) (t : Token) : PeWork uid key s (s.sendOut uid key t) := by
  unfold State.sendOut
  dsimp only
  split
  · exact .refl uid key s
  · split
    · exact peWork_emit uid key s _
    · exact peWork_modPe uid key s fun _ => rfl

theorem peWork_deliver (uid key : Nat) (s : State) (w : PeWord) (t : Token) : PeWork uid key s (s.deliver uid key w t) := by
  have hreg : PeWork uid key s (if w.dst == 1#2 || w.dst == 2#2 then
      s.modUnit uid (fun u => u.modPe key (fun p => p.setReg w.ei.toNat ⟨true, t.fmt, t.payload⟩)) else s) := by
    split
    · exact peWork_modPe uid key s fun _ => rfl
    · exact .refl uid key s
  unfold State.deliver
  dsimp only
  split
  · exact hreg.trans (peWork_sendOut uid key _ t)
  · exact hreg

/-! ### A debugger's step -/

/-- State `t` is `s` after a firing of PE `key` of unit `uid`; `step` says that it was a debugger's step (R367). -/
structure FiringFrame (uid key : Nat) (step : Bool) (s t : State) : Prop where
  rest : ∃ units jobs fleet flights, t = { s with units := units, jobs := jobs, fleet := fleet, flights := flights }
  jobs : t.jobs = if step then (s.modJob (s.unit uid).job (fun j => { j with dbgReason := 3 })).jobs else s.jobs
  others : ∀ v, v ≠ uid → (aget t.units v).map (if step then stepless else id) = (aget s.units v).map (if step then stepless else id)
  self : UnitFrame key (s.unit uid) (t.unit uid)

theorem FiringFrame.after {uid key : Nat} {step : Bool} {s a t : State} (hrest : ∃ units fleet flights, a = { s with units := units, fleet := fleet, flights := flights })
    (hothers : ∀ v, v ≠ uid → aget a.units v = aget s.units v) (hself : UnitFrame key (s.unit uid) (a.unit uid)) (h : FiringFrame uid key step a t) :
    FiringFrame uid key step s t := by
  have hjob := hself.job
  obtain ⟨_, _, _, rfl⟩ := hrest
  obtain ⟨⟨_, _, _, _, rfl⟩, hj, ho, hs⟩ := h
  exact ⟨⟨_, _, _, _, rfl⟩, by rw [hj, hjob]; rfl, fun v hv => by rw [ho v hv, hothers v hv], hself.trans hs⟩
theorem FiringFrame.before {uid key : Nat} {step : Bool} {s a t : State} (h : FiringFrame uid key step s a) (h' : PeWork uid key a t) :
    FiringFrame uid key step s t := by
  obtain ⟨⟨_, _, _, _, rfl⟩, hj, ho, hs⟩ := h
  obtain ⟨⟨_, _, _, rfl⟩, ho', hs'⟩ := h'
  exact ⟨⟨_, _, _, _, rfl⟩, hj, fun v hv => by rw [ho' v hv, ho v hv], hs.trans hs'.toUnitFrame⟩

/-- Values changed in their places. -/
theorem aget_mapVal {κ α : Type} [DecidableEq κ] (l : List (κ × α)) (k : κ) (h : κ → α → α) :
    aget (l.map (fun p => (p.1, h p.1 p.2))) k = (aget l k).map (h k) := by
  induction l with
  | nil => rfl
  | cons p r ih => by_cases hk : p.1 = k <;> simp [aget, hk, ih]

/-- What `State.modJobPe` makes of one unit. -/
def peOfJob (job cl x y : Nat) (f : PeCtx → PeCtx) (u : UnitSt) : UnitSt :=
  if u.job == job && u.inRegion && u.covers cl then
    { u with pes := u.pes.map (fun q => (q.1, if q.1 == peKey (cl - u.lead) x y then f q.2 else q.2)) }
  else u

theorem aget_modJobPe (s : State) (job cl x y : Nat) (f : PeCtx → PeCtx) (v : Nat) :
    aget (s.modJobPe job cl x y f).units v = (aget s.units v).map (peOfJob job cl x y f) := by
  have hmap : (s.modJobPe job cl x y f).units = s.units.map (fun p => (p.1, peOfJob job cl x y f p.2)) := by
    refine List.map_congr_left fun p _ => ?_
    unfold peOfJob
    split
    · exact congrArg (fun l => (p.1, { p.2 with pes := l })) (List.map_congr_left fun (q : Nat × PeCtx) _ =>
        (apply_ite (Prod.mk q.1) ((q.1 == peKey (cl - p.2.lead) x y) = true) (f q.2) q.2).symm)
    · rfl
  rw [hmap, aget_mapVal s.units v fun _ => peOfJob job cl x y f]

theorem pe_peOfJob_other {job cl x y k : Nat} {u : UnitSt} (f : PeCtx → PeCtx) (h : k ≠ peKey (cl - u.lead) x y) :
    (peOfJob job cl x y f u).pe k = u.pe k := by
  unfold peOfJob
  split
  · simp only [UnitSt.pe, agetD, aget_mapVal u.pes k fun j q => if j == peKey (cl - u.lead) x y then f q else q, beq_eq_false_iff_ne.2 h]
    cases aget u.pes k <;> rfl
  · rfl

/-- Steps used up make no difference to a unit but for them. -/
theorem stepless_peOfJob (job cl x y : Nat) (u : UnitSt) : stepless (peOfJob job cl x y (fun p => { p with stepOnce := false }) u) = stepless u := by
  unfold peOfJob
  split
  · simp only [stepless, List.map_map]
    refine congrArg (fun l => { u with pes := l }) (List.map_congr_left fun q _ => ?_)
    dsimp only [Function.comp]
    split <;> rfl
  · rfl

theorem peKey_of_key (key : Nat) : peKey (key / 256) (key % 16) (key / 16 % 16) = key := by unfold peKey; omega

theorem unitFrame_peOfJob (job key : Nat) (u : UnitSt) (f : PeCtx → PeCtx) :
    UnitFrame key u (peOfJob job (u.lead + key / 256) (key % 16) (key / 16 % 16) f u) := by
  refine ⟨?_, fun k hk => pe_peOfJob_other f (by rwa [Nat.add_sub_cancel_left, peKey_of_key])⟩
  unfold peOfJob
  split
  · exact ⟨_, _, _, _, _, _, _, rfl⟩
  · exact ⟨_, _, _, _, _, _, _, rfl⟩

theorem unitFrame_modJobPe {s : State} {uid job key lead : Nat} (hlead : (s.unit uid).lead = lead) (f : PeCtx → PeCtx) :
    UnitFrame key (s.unit uid) ((s.modJobPe job (lead + key / 256) (key % 16) (key / 16 % 16) f).unit uid) := by
  subst hlead
  have hframe := unitFrame_peOfJob job key (s.unit uid) f
  cases h : aget s.units uid with
  | none =>
    have habsent : ∀ t : State, aget t.units uid = none → t.unit uid = {} := fun t ht => by rw [State.unit, agetD, ht]
    rw [habsent s h, habsent _ (by rw [aget_modJobPe, h, Option.map_none])]
    exact .refl key _
  | some u =>
    have hu := State.unit_of_aget h
    rw [State.unit_of_aget (s := s.modJobPe _ _ _ _ _) (by rw [aget_modJobPe, h, Option.map_some]), ← hu]
    exact hframe

/-- A debugger's step is used up in every context of the job. -/
theorem stepUsed_frame (s : State) (uid key : Nat) : FiringFrame uid key true s
    ((s.modJob (s.unit uid).job (fun j => { j with dbgReason := 3 })).modJobPe (s.unit uid).job ((s.unit uid).lead + key / 256) (key % 16) (key / 16 % 16)
      (fun p => { p with stepOnce := false })) := by
  refine ⟨⟨_, _, _, _, rfl⟩, rfl, fun v _ => ?_,
    unitFrame_modJobPe (s := s.modJob (s.unit uid).job (fun j => { j with dbgReason := 3 })) rfl _⟩
  rw [if_pos rfl, aget_modJobPe, Option.map_map]
  exact Option.map_congr fun u _ => stepless_peOfJob ..

/-- A firing counts for its unit. -/
theorem fired_frame (s : State) (uid key : Nat) : FiringFrame uid key ((s.unit uid).pe key).stepOnce s (s.fired uid key) := by
  unfold State.fired
  dsimp only
  cases hstep : ((s.unit uid).pe key).stepOnce with
  | false =>
    refine .before (a := s.count (5 + dieOf (s.unit uid).lead) 1) ⟨⟨_, _, _, _, rfl⟩, rfl, fun _ _ => rfl, .refl key _⟩ (peWork_modUnit ?_)
    exact ⟨⟨⟨_, _, _, _, _, _, _, rfl⟩, fun _ _ => rfl⟩, rfl⟩
  | true =>
    let a := (s.count (5 + dieOf (s.unit uid).lead) 1).modUnit uid (fun u =>
      { u.modPe key (fun p => { p with stepOnce := false }) with fired := u.fired + 1#64, watchdog := 0 })
    have hself : UnitFrame key (s.unit uid) (a.unit uid) := by
      rcases unit_modUnit_cases (s.count (5 + dieOf (s.unit uid).lead) 1) uid _ with h | h <;> rw [h]
      · exact (unitFrame_modPe key _ _).trans ⟨⟨_, _, _, _, _, _, _, rfl⟩, fun _ _ => rfl⟩
      · exact .refl key _
    have hothers : ∀ v, v ≠ uid → aget a.units v = aget s.units v := fun v hv =>
      (State.aget_modUnit (s.count (5 + dieOf (s.unit uid).lead) 1) uid v _).trans (if_neg (Ne.symm hv))
    have hused := stepUsed_frame a uid key
    rw [hself.job, hself.lead] at hused
    exact .after ⟨_, _, _, rfl⟩ hothers hself hused

/-- The frame of a firing between work of its PE before and after it. -/
theorem commitFiring_frame {uid key : Nat} {s a : State} (h : PeWork uid key s a) (toks : List (Nat × Token)) :
    FiringFrame uid key ((s.unit uid).pe key).stepOnce s (a.commitFiring uid key toks) := by
  have hready := h.trans (peWork_consume uid key a toks)
  have hfired := fired_frame (a.modUnit uid (fun u => u.consume key toks)) uid key
  rw [hready.self.step] at hfired
  exact .after hready.rest hready.others hready.self.toUnitFrame hfired

/-- A computing firing from the readiness check on: its flags raised, its tokens consumed, its result delivered. -/
theorem afterCalc_frame {r : CalcRow} {s s1 : State} {uid key : Nat} {g : Gathered} (h : Fires r s s1 uid key g) (v : Word) (t fl : Nat) :
    FiringFrame uid key ((s.unit uid).pe key).stepOnce s (afterCalc s1 uid key r.w g v t fl) := by
  obtain ⟨_, rfl, _⟩ := prepFire_go h
  have hpurge : PeWork uid key s (s.setUnit uid ((s.unit uid).purge key)) := peWork_setUnit (unitKeeps_purge key _)
  exact (commitFiring_frame (hpurge.trans (peWork_raiseFlags uid key _ fl)) g.toks).before (peWork_deliver ..)

/-- Settles O11: the frame of the firing, read field by field. -/
theorem computingRowsFrame : Obligations.ComputingRowsFrame := by
  unfold Obligations.ComputingRowsFrame
  intro i r s s1 t uid key g v tg fl hrow hfires hcalc htrap hexec
  have hafter : afterCalc s1 uid key r.w g v tg (flagUnion fl) = t :=
    Host.Outcome.next.inj ((computingRowsComplete i r s s1 uid key g v tg fl hrow hfires hcalc htrap).symm.trans hexec)
  have hframe := afterCalc_frame hfires v tg (flagUnion fl)
  rw [hafter] at hframe
  obtain ⟨hrest, hjobs, hothers, hself⟩ := hframe
  generalize t.unit uid = x at hself ⊢
  obtain ⟨⟨_, _, _, _, _, _, _, rfl⟩, hpes⟩ := hself
  obtain ⟨_, _, _, _, rfl⟩ := hrest
  refine ⟨fun _ => ⟨rfl, rfl, rfl, rfl⟩, rfl, rfl, rfl, rfl, rfl, rfl, rfl, rfl, rfl, rfl, rfl, rfl, rfl, fun hstep => ?unstepped, fun hstep => ?stepped,
    rfl, rfl, rfl, rfl, rfl, rfl, rfl, rfl, rfl, rfl, rfl, rfl, rfl, rfl, rfl, rfl, rfl, rfl, rfl, rfl, rfl, rfl, rfl, rfl, rfl, rfl, rfl, rfl, rfl, rfl,
    rfl, hpes⟩
  case unstepped => simpa [hstep] using And.intro hjobs hothers
  case stepped => simpa [hstep] using And.intro hjobs hothers

end Sys2Proof.Proofs

/-! PROOFS. Quiescence (R41, R42, R278): that DONE charges the quantum of its unit (R296). -/

namespace Sys2Proof.Proofs

open Sys2Proof Sys2Proof.Machine Sys2Proof.Laws Sys2Proof.Claims

/-! ### DONE charges the quantum of its unit -/

/-- The reset machine with one running unit, of batch job 0, that is reported quiescent. -/
def quietUnit : State := { State.reset with units := [(0, { quiet := true })] }
/-- The charges of die 0 by job after a step (R295). -/
def chargesAfter : Host.Outcome State Fault Refusal → List (Nat × Nat)
  | .next t => (t.die 0).charges
  | _ => []

theorem quietUnit_atRest : Sequencing quietUnit { quiet := true } ∧ AtRest quietUnit { quiet := true } :=
  ⟨⟨rfl, rfl⟩, rfl, by decide +kernel⟩

/-- Its DONE charges job 0 a whole quantum; the end of the unit alone charges nothing. -/
theorem chargesAfter_done :
    chargesAfter (exec (.done ⟨0, 0, 0, 0⟩) quietUnit) = [(0, 2 ^ 20)] ∧ chargesAfter (.next ((rested quietUnit).endUnit 0 1)) = [] := by
  decide +kernel

/-- Refutes O35: of a unit that is not of the deadline class, DONE charges what is left of its quantum as well (R296), which the statement's end
state leaves out. -/
theorem not_wordsThatWaitForQuiescence : ¬ Obligations.WordsThatWaitForQuiescence := by
  unfold Obligations.WordsThatWaitForQuiescence
  rintro ⟨_, h⟩
  obtain ⟨_, hdone, _⟩ := h ⟨0, 0, 0, 0⟩ quietUnit _ quietUnit_atRest.1 quietUnit_atRest.2
  have hcharges := congrArg chargesAfter (hdone (by decide))
  rw [chargesAfter_done.1] at hcharges
  exact absurd (hcharges.trans chargesAfter_done.2) (by decide)

end Sys2Proof.Proofs

/-! PROOFS. Constants, counters, waves, tags and colours (R31 to R40, R175, R176, R179 to R186): what their firings emit and keep. -/

namespace Sys2Proof.Proofs

open Sys2Proof Sys2Proof.Machine Sys2Proof.Laws Sys2Proof.Claims

/-! ### PEs that an event or the focus names -/

theorem focusPe_some {s : State} {uid key : Nat} (h : s.focusPe = some (uid, key)) :
    (s.unit uid).fires = true ∧ ((s.unit uid).pe key).free = true := by
  unfold State.focusPe at h
  split at h
  · cases h
  · dsimp only at h
    split at h
    · next hready =>
      cases h
      simp only [Bool.and_eq_true] at hready
      exact hready.1
    · cases h

/-- A PE that an event names and that is free is one that the focus can name there. -/
theorem focusPe_of_evPe {s : State} {uid key : Nat} (h : s.evPe s.focus = some (uid, key)) (hfires : (s.unit uid).fires = true)
    (hfree : ((s.unit uid).pe key).free = true) : s.focusPe = some (uid, key) := by
  unfold State.evPe at h
  unfold State.focusPe
  split at h
  · cases h
  · dsimp only at h
    split at h
    · next hready =>
      cases h
      simp only [Bool.and_eq_true] at hready
      simp only [hfires, hfree, hready.2, Bool.and_self, if_true]
    · cases h

/-- The state in which the PE of `st` has taken its turn and is at the focus. -/
def inTurn (s : State) (st : Site) : State := { s.takeTurn st.cl st.x st.y with focus := st }

theorem inTurn_evPe (s : State) (st : Site) : (inTurn s st).evPe (inTurn s st).focus = s.evPe st := rfl
theorem inTurn_unit (s : State) (st : Site) (uid : Nat) : (inTurn s st).unit uid = s.unit uid := rfl
theorem inTurn_windowOpen (s : State) (st : Site) (uid : Nat) (t : Token) : (inTurn s st).windowOpen uid t = s.windowOpen uid t := rfl

/-! ### Constants (R175) -/

theorem exec_constFree {w : PeWord} {s : State} {uid key : Nat} (hfocus : s.focusPe = some (uid, key))
    (hnew : ((s.unit uid).pe key).constFired = false) (hword : wordFault 0x24 (s.unit uid).rm w = none) :
    exec (.constFree w) s = .next (((s.modUnit uid (fun u => u.modPe key (fun p => { p with constFired := true }))).fired uid key).deliver uid key w
      { payload := constVal w, fmt := w.fmt, ctx := BitVec.ofNat 2 (s.unit uid).ctx, last := true }) := by
  obtain ⟨hfires, hfree⟩ := focusPe_some hfocus
  show execConstFree w s = _
  simp only [execConstFree, nextS, hfocus, fireConstFree, hnew, hfires, hfree, hword, Bool.not_true, Bool.or_self, Bool.false_eq_true, if_false]

theorem exec_constTriggered {w : PeWord} {s s1 : State} {uid key : Nat} {g : Gathered} (h : Go 0x24 w s s1 uid key g) :
    exec (.constTriggered w) s = .next ((taken s1 uid key g).deliver uid key w { g.tok with payload := constVal w, fmt := w.fmt }) := by
  unfold Go at h
  show execConstTriggered w s = _
  simp only [execConstTriggered, nextS, h, taken]

/-- A free-form CONST fires in the turn of its PE. -/
theorem exec_constFreeFire {s : State} {uid key : Nat} (hev : s.evPe s.ev.site = some (uid, key)) (hturn : s.turnAt s.ev.site = true)
    (hopc : ((s.unit uid).pe key).opc = 0x24#7) (hsb : (wordAt s uid key).sb = 6#3) (hnew : ((s.unit uid).pe key).constFired = false)
    (hfree : ((s.unit uid).pe key).free = true) (hfires : (s.unit uid).fires = true) (hword : wordFault 0x24 (s.unit uid).rm (wordAt s uid key) = none) :
    exec .constFreeFire s = .next ((((inTurn s s.ev.site).modUnit uid (fun u => u.modPe key (fun p => { p with constFired := true }))).fired uid
      key).deliver uid key (wordAt s uid key)
        { payload := constVal (wordAt s uid key), fmt := (wordAt s uid key).fmt, ctx := BitVec.ofNat 2 (s.unit uid).ctx, last := true }) := by
  have hfocus : (inTurn s s.ev.site).focusPe = some (uid, key) := focusPe_of_evPe hev hfires hfree
  have hexec := exec_constFree (w := wordAt s uid key) hfocus hnew hword
  rw [inTurn_unit] at hexec
  rw [← hexec]
  unfold wordAt at hsb
  show execConstFreeFire s = execConstFree (wordAt s uid key) (inTurn s s.ev.site)
  simp only [execConstFreeFire, hev, hturn, hopc, hsb, beq_self_eq_true, Bool.and_self, if_true, wordAt, inTurn]

/-! ### INV (R176) -/

theorem invToken_first (t : Token) (n : Nat) : invToken t 0 n = { t with last := 1 == n } := by simp [invToken]

theorem exec_invOp {w : PeWord} {s s1 : State} {uid key : Nat} {g : Gathered} (h : Go 0x25 w s s1 uid key g) :
    exec (.invOp w) s = .next (if g.b.v.toNat = 0 then taken s1 uid key g
      else if g.b.v.toNat = 1 then (taken s1 uid key g).deliver uid key w (invToken (passed g) 0 g.b.v.toNat)
      else (((taken s1 uid key g).deliver uid key w (invToken (passed g) 0 g.b.v.toNat)).useNode s.focus).setNode uid key
        (.inv (passed g) 1 g.b.v.toNat)) := by
  unfold Go at h
  show execInvOp w s = _
  simp only [execInvOp, nextS, h, taken, passed]

theorem exec_invRepeat {s : State} {uid key k n : Nat} {t : Token} (hev : s.evPe s.ev.site = some (uid, key)) (hnode : nodeAt s uid key = .inv t k n)
    (hlive : (s.unit uid).killed t = false) (hnow : s.emitsNow s.ev.site = true) (hopen : s.windowOpen uid (invToken t k n) = true) :
    exec .invRepeat s = .next ((((s.useNode s.ev.site).setNode uid key (if k + 1 = n then .idle else .inv t (k + 1) n)).progress uid).deliver uid key
      (wordAt s uid key) (invToken t k n)) := by
  unfold nodeAt at hnode
  show execInvRepeat s = _
  simp only [execInvRepeat, nextS, hev, hnode, hlive, hnow, hopen, Bool.not_true, Bool.or_self, Bool.false_eq_true, if_false, wordAt]

/-! ### CNTR (R180) -/

theorem exec_cntrTriggered {w : PeWord} {s s1 : State} {uid key : Nat} {g : Gathered} (h : Go 0x36 w s s1 uid key g) :
    exec (.cntrTriggered w) s = .next (if g.a.v.toNat = 0 then taken s1 uid key g
      else if g.a.v.toNat = 1 then (taken s1 uid key g).deliver uid key w (cntrToken w g.tok g.b.v g.c.v 0 g.a.v.toNat)
      else (((taken s1 uid key g).deliver uid key w (cntrToken w g.tok g.b.v g.c.v 0 g.a.v.toNat)).useNode s.focus).setNode uid key
        (.cntrTrig g.tok g.b.v g.c.v 1 g.a.v.toNat)) := by
  unfold Go at h
  show execCntrTriggered w s = _
  simp only [execCntrTriggered, nextS, h, taken]

theorem exec_cntrTriggeredEmit {s : State} {uid key k n : Nat} {t : Token} {base step : Word} (hev : s.evPe s.ev.site = some (uid, key))
    (hnode : nodeAt s uid key = .cntrTrig t base step k n) (hlive : (s.unit uid).killed t = false) (hnow : s.emitsNow s.ev.site = true)
    (hopen : s.windowOpen uid (cntrToken (wordAt s uid key) t base step k n) = true) :
    exec .cntrTriggeredEmit s = .next ((((s.useNode s.ev.site).setNode uid key (if k + 1 = n then .idle else .cntrTrig t base step (k + 1) n)).progress
      uid).deliver uid key (wordAt s uid key) (cntrToken (wordAt s uid key) t base step k n)) := by
  unfold nodeAt at hnode
  unfold wordAt at hopen ⊢
  show execCntrTriggeredEmit s = _
  simp only [execCntrTriggeredEmit, nextS, hev, hnode, hlive, hnow, hopen, Bool.not_true, Bool.or_self, Bool.false_eq_true, if_false]

/-- Index k of a source-form CNTR. -/
def sourceToken (w : PeWord) (ctx : Nat) (base step n : Word) (k : Nat) : Token :=
  { payload := cntrVal w.fmt base step k, fmt := w.fmt, ctx := BitVec.ofNat 2 ctx, wave := BitVec.ofNat 10 k, last := k + 1 == n.toNat }

theorem exec_cntrSource {w : PeWord} {s : State} {uid key k : Nat} {base step n : Word} (hev : s.evPe s.focus = some (uid, key))
    (hnode : nodeAt s uid key = .cntrSrc base step n k) (hword : wordFault 0x36 (s.unit uid).rm w = none) (hk : k < n.toNat)
    (hgate : (s.unit uid).gates.getLsbD (w.imm.toNat / 16 % 16) = true) (hopen : s.windowOpen uid (sourceToken w (s.unit uid).ctx base step n k) = true) :
    exec (.cntrSource w) s = .next (((s.setNode uid key (.cntrSrc base step n (k + 1))).fired uid key).deliver uid key w
      (sourceToken w (s.unit uid).ctx base step n k)) := by
  unfold nodeAt at hnode
  unfold sourceToken at hopen ⊢
  show execCntrSource w s = _
  simp only [execCntrSource, nextS, hev, hnode, emitCntrSource, hword, Nat.not_le.2 hk, decide_false, hgate, hopen, Bool.not_true, Bool.or_self,
    Bool.false_eq_true, if_false]

/-- A source-form CNTR emits in the turn of its PE. -/
theorem exec_cntrSourceEmit {s : State} {uid key k : Nat} {base step n : Word} {w : PeWord} (hev : s.evPe s.ev.site = some (uid, key))
    (hturn : s.turnAt s.ev.site = true) (hopc : ((s.unit uid).pe key).opc = 0x36#7) (hnode : nodeAt s uid key = .cntrSrc base step n k)
    (hw : w = wordAt s uid key) (hsa : w.sa = 6#3) (hword : wordFault 0x36 (s.unit uid).rm w = none) (hk : k < n.toNat)
    (hgate : (s.unit uid).gates.getLsbD (w.imm.toNat / 16 % 16) = true) (hopen : s.windowOpen uid (sourceToken w (s.unit uid).ctx base step n k) = true) :
    exec .cntrSourceEmit s = .next ((((inTurn s s.ev.site).setNode uid key (.cntrSrc base step n (k + 1))).fired uid key).deliver uid key w
      (sourceToken w (s.unit uid).ctx base step n k)) := by
  have hexec := exec_cntrSource (s := inTurn s s.ev.site) hev hnode hword hk hgate hopen
  rw [inTurn_unit] at hexec
  rw [← hexec]
  subst hw
  unfold wordAt at hsa
  show execCntrSourceEmit s = execCntrSource (wordAt s uid key) (inTurn s s.ev.site)
  simp only [execCntrSourceEmit, hev, hturn, hopc, hsa, beq_self_eq_true, Bool.and_self, if_true, wordAt, inTurn]

/-- Settles O17: each form by its own lemma above; a count of 0, 1 or more is a case of INV and of the triggered CNTR. -/
theorem constantsAndCounters : Obligations.ConstantsAndCounters := by
  unfold Obligations.ConstantsAndCounters
  refine ⟨⟨fun w s uid key => exec_constFree, fun w s s1 uid key g => exec_constTriggered, ?inv, ?cntr, ?source⟩,
    fun s uid key k n t => exec_invRepeat, fun s uid key k n t base step => exec_cntrTriggeredEmit, ?sourceEmit, ?constFire⟩
  case inv =>
    intro w s s1 uid key g h
    rw [exec_invOp h, invToken_first]
    refine ⟨fun h0 => ?_, fun h1 => ?_, fun h2 => ?_⟩
    · rw [h0]; rfl
    · rw [h1]; rfl
    · have hne : (1 == g.b.v.toNat) = false := beq_false_of_ne (Nat.ne_of_lt h2)
      rw [if_neg (by omega), if_neg (by omega), hne]
  case cntr =>
    intro w s s1 uid key g h
    rw [exec_cntrTriggered h]
    refine ⟨fun h0 => ?_, fun h1 => ?_, fun h2 => ?_⟩
    · rw [h0]; rfl
    · rw [h1]; rfl
    · rw [if_neg (by omega), if_neg (by omega)]
  case source =>
    rintro w s uid key k base step n t hev hnode hword hk hgate rfl hopen
    exact exec_cntrSource hev hnode hword hk hgate hopen
  case sourceEmit =>
    rintro s s0 uid key k base step n w t hev hturn rfl hopc hnode hw hsa hword hk hgate rfl hopen
    exact exec_cntrSourceEmit hev hturn hopc hnode hw hsa hword hk hgate hopen
  case constFire =>
    rintro s s0 uid key hev hturn rfl hopc hsb hnew hfree hfires hword
    exact exec_constFreeFire hev hturn hopc hsb hnew hfree hfires hword

/-! ### Waves (R31, R179) -/

theorem exec_wadv {w : PeWord} {s s1 : State} {uid key : Nat} {g : Gathered} (h : Go 0x32 w s s1 uid key g) :
    exec (.wadv w) s = .next (
      if (taken s1 uid key g).windowOpen uid { passed g with wave := g.tok.wave + 1#10 } then
        (taken s1 uid key g).deliver uid key w { passed g with wave := g.tok.wave + 1#10 }
      else (taken s1 uid key g).setNode uid key (.wadvHold { passed g with wave := g.tok.wave + 1#10 })) := by
  unfold Go at h
  show execWadv w s = _
  simp only [execWadv, nextS, h, taken, passed]
  rfl

theorem exec_waveHoldRelease {s : State} {uid key : Nat} {t : Token} (hev : s.evPe s.ev.site = some (uid, key)) (hnode : nodeAt s uid key = .wadvHold t)
    (hopen : s.windowOpen uid t = true) :
    exec .waveHoldRelease s = .next (((s.setNode uid key .idle).progress uid).deliver uid key (wordAt s uid key) t) := by
  unfold nodeAt at hnode
  show execWaveHoldRelease s = _
  simp only [execWaveHoldRelease, nextS, hev, hnode, hopen, if_true, wordAt]

/-! ### TAGNEW (R34, R181, R182) -/

section
variable {w : PeWord} {s s1 : State} {uid key : Nat} {g : Gathered} (h : GoColourless 0x33 w s s1 uid key g)
include h

theorem exec_tagnew_level7 (hlvl : g.tok.lvl = 7#3) : exec (.tagnew w) s = .next (s1.faultAt uid key (raise 0x0A5 g.tok)) := by
  unfold GoColourless at h
  show execTagnew w s = _
  simp only [execTagnew, nextS, h, hlvl, if_true]

theorem exec_tagnew_takes {c : Nat} (hlvl : g.tok.lvl ≠ 7#3) (hfree : (taken s1 uid key g).freeTag uid (passed g) = some c) :
    exec (.tagnew w) s = .next (((taken s1 uid key g).modUnit uid (fun u => u.allocTag (passed g) c (w.imm.toNat % 16 + 1))).deliver uid key w
      (childToken (passed g) c)) := by
  unfold GoColourless at h
  unfold taken passed at hfree
  show execTagnew w s = _
  simp only [execTagnew, nextS, h, if_neg hlvl, hfree, taken, passed]

theorem exec_tagnew_waits (hlvl : g.tok.lvl ≠ 7#3) (hfree : (taken s1 uid key g).freeTag uid (passed g) = none) :
    exec (.tagnew w) s = .next ((taken s1 uid key g).setNode uid key (.tagnewWait (passed g) (w.imm.toNat % 16 + 1))) := by
  unfold GoColourless at h
  unfold taken passed at hfree
  show execTagnew w s = _
  simp only [execTagnew, nextS, h, if_neg hlvl, hfree, taken, passed]
end

theorem exec_tagnewWaitEnd {s : State} {uid key exits c : Nat} {t : Token} (hev : s.evPe s.ev.site = some (uid, key))
    (hnode : nodeAt s uid key = .tagnewWait t exits) (hfree : s.freeTag uid t = some c) :
    exec .tagnewWaitEnd s = .next (((s.modUnit uid (fun u => (u.allocTag t c exits).modPe key (fun p => { p with node := .idle }))).progress uid).deliver
      uid key (wordAt s uid key) (childToken t c)) := by
  unfold nodeAt at hnode
  show execTagnewWaitEnd s = _
  simp only [execTagnewWaitEnd, nextS, hev, hnode, hfree, wordAt]

/-! ### TAGXL (R183) -/

/-- Every tag but the reserved one passes the check of an operand that may carry any (R59). -/
theorem tagFault_any (p : Nat) (v : Word) {f : BitVec 4} (h : f ≠ 15#4) : tagFault p ⟨v, f.toNat⟩ 0x7FFF = none := by
  have h15 : f.toNat ≠ 15 := fun hf => h (BitVec.eq_of_toNat_eq hf)
  have hbit : ∀ n < 15, Nat.testBit 0x7FFF n = true := by decide
  rw [tagFault, if_neg h15, if_pos (hbit f.toNat (by have := f.isLt; omega))]

theorem oldest_filter_none {u : UnitSt} {p : Token → Bool} {l : List Token} (h : ∀ t ∈ l, p t = false) : u.oldest (l.filter p) = none := by
  rw [List.filter_eq_nil_iff.2 fun t ht => by simp [h t ht]]
  rfl

theorem exec_tagxl_joins {w : PeWord} {s : State} {uid key : Nat} {a b : Token} {col : BitVec 2} (hfocus : s.focusPe = some (uid, key))
    (hsa : w.sa.ult 4#3 = true) (hsb : w.sb.ult 4#3 = true)
    (hmapped : ∀ t ∈ (calm s uid key).avail key w.sb.toNat, ((calm s uid key).tagEntry t.lvl.toNat t.itag.toNat).isSome = true)
    (hb : (calm s uid key).oldest (((calm s uid key).avail key w.sb.toNat).filter (fun b =>
      ((calm s uid key).avail key w.sa.toNat).any (parentOf (calm s uid key) b))) = some b)
    (ha : ((calm s uid key).avail key w.sa.toNat).find? (parentOf (calm s uid key) b) = some a) (hword : wordFault 0x34 (calm s uid key).rm w = none)
    (hfa : a.fmt ≠ 15#4) (hfb : b.fmt ≠ 15#4) (hcol : (calm s uid key).joinCol [a, b] = some col) :
    exec (.tagxl w) s = .next (((calmed s uid key).commitFiring uid key [(w.sa.toNat, a), (w.sb.toNat, b)]).deliver uid key w
      { b with ctx := BitVec.ofNat 2 (calm s uid key).ctx, payload := a.payload, fmt := a.fmt, last := false, col := col }) := by
  have hnone : (calm s uid key).oldest (((calm s uid key).avail key w.sb.toNat).filter (fun t =>
      ((calm s uid key).tagEntry t.lvl.toNat t.itag.toNat).isNone)) = none :=
    oldest_filter_none fun t ht => by rw [← Option.not_isSome, hmapped t ht]; rfl
  unfold calm at *
  unfold Claims.parentOf at hb ha
  show execTagxl w s = _
  simp only [execTagxl, nextS, hfocus, hsa, hsb, hnone, hb, ha, hword, tagFault_any _ _ hfa, tagFault_any _ _ hfb, hcol, Option.getD_some, Bool.and_self, Bool.not_true,
    Bool.false_eq_true, if_false, calmed, calm]

theorem exec_tagxl_unmapped {w : PeWord} {s : State} {uid key : Nat} {t : Token} (hfocus : s.focusPe = some (uid, key))
    (hsa : w.sa.ult 4#3 = true) (hsb : w.sb.ult 4#3 = true)
    (ht : (calm s uid key).oldest (((calm s uid key).avail key w.sb.toNat).filter (fun t =>
      ((calm s uid key).tagEntry t.lvl.toNat t.itag.toNat).isNone)) = some t) (hword : wordFault 0x34 (calm s uid key).rm w = none) :
    exec (.tagxl w) s = .next ((calmed s uid key).faultAt uid key (raise 0x0A7 t)) := by
  unfold calm at *
  show execTagxl w s = _
  simp only [execTagxl, nextS, hfocus, hsa, hsb, ht, hword, Bool.and_self, Bool.not_true, Bool.false_eq_true, if_false, calmed, calm]

/-! ### TAGEND (R184) -/

/-- The tags of a unit after an exit by tag `e`; only an operand with LAST counts. -/
def exitTag (e : TagEntry) (last : Bool) (u : UnitSt) : UnitSt :=
  if last = false then u
  else if 1 < e.exits then { u with tags := u.tags.map (fun x => if x.lvl == e.lvl && x.itag == e.itag then { x with exits := x.exits - 1 } else x) }
  else { u with tags := u.tags.filter (fun x => !(x.lvl == e.lvl && x.itag == e.itag)), freed := u.freed ++ [(e.lvl, e.itag)] }

theorem exec_tagend_unmapped {w : PeWord} {s s1 : State} {uid key : Nat} {g : Gathered} (h : GoColourless 0x35 w s s1 uid key g)
    (he : (s1.unit uid).tagEntry g.tok.lvl.toNat g.tok.itag.toNat = none) : exec (.tagend w) s = .next (s1.faultAt uid key (raise 0x0A7 g.tok)) := by
  unfold GoColourless at h
  show execTagend w s = _
  simp only [execTagend, nextS, h, he]

theorem exec_tagend_exits {w : PeWord} {s s1 : State} {uid key : Nat} {g : Gathered} {e : TagEntry} (h : GoColourless 0x35 w s s1 uid key g)
    (he : (s1.unit uid).tagEntry g.tok.lvl.toNat g.tok.itag.toNat = some e) :
    exec (.tagend w) s = .next (((taken s1 uid key g).modUnit uid (exitTag e g.tok.last)).deliver uid key w
      { passed g with lvl := BitVec.ofNat 3 e.plvl, itag := BitVec.ofNat 8 e.pitag, wave := e.pwave, last := false, col := 0#2 }) := by
  unfold GoColourless at h
  show execTagend w s = _
  simp only [execTagend, nextS, h, he, taken, passed]
  have hexit : ∀ u : UnitSt, exitTag e g.tok.last u = { u with
      tags := if !g.tok.last then u.tags
        else if e.exits ≤ 1 then u.tags.filter (fun x => !(x.lvl == e.lvl && x.itag == e.itag))
        else u.tags.map (fun x => if x.lvl == e.lvl && x.itag == e.itag then { x with exits := x.exits - 1 } else x)
      freed := u.freed ++ if g.tok.last && decide (e.exits ≤ 1) then [(e.lvl, e.itag)] else [] } := by
    intro u
    unfold exitTag
    cases g.tok.last with
    | false => simp
    | true =>
      by_cases hx : 1 < e.exits
      · simp [hx, Nat.not_le.2 hx]
      · simp [hx, Nat.not_lt.1 hx]
  rw [funext hexit]

/-- Settles O19: each form by its own lemma above. -/
theorem wavesAndTagsAdvance : Obligations.WavesAndTagsAdvance := by
  unfold Obligations.WavesAndTagsAdvance
  refine ⟨?wadv, fun s uid key t => exec_waveHoldRelease,
    fun w s s1 uid key g h => ⟨exec_tagnew_level7 h, fun c => exec_tagnew_takes h, exec_tagnew_waits h⟩,
    fun s uid key exits c t => exec_tagnewWaitEnd, fun w s uid key a b col => exec_tagxl_joins, fun w s uid key t => exec_tagxl_unmapped,
    fun w s s1 uid key g => exec_tagend_unmapped, fun w s s1 uid key g e => exec_tagend_exits⟩
  rintro w s s1 uid key g t h rfl
  exact exec_wadv h

/-! ### COLOR (R35, R185) -/

theorem exec_color {w : PeWord} {s s1 : State} {uid key : Nat} {g : Gathered} (h : Go 0x37 w s s1 uid key g)
    (hcol : g.tok.col = 0#2 ∨ g.tok.col.toNat = w.imm.toNat % 4) :
    exec (.color w) s = .next (
      if ((taken s1 uid key g).unit uid).colState (w.imm.toNat % 4) = 0 then
        (taken s1 uid key g).deliver uid key w { passed g with col := BitVec.ofNat 2 (w.imm.toNat % 4) }
      else if (taken s1 uid key g).colourCount ((taken s1 uid key g).unit uid) (w.imm.toNat % 4) = 0 &&
          !((taken s1 uid key g).unit uid).decided.contains (w.imm.toNat % 4) then
        ((taken s1 uid key g).reopenColour uid (w.imm.toNat % 4)).deliver uid key w { passed g with col := BitVec.ofNat 2 (w.imm.toNat % 4) }
      else (taken s1 uid key g).setNode uid key (.colorWait (passed g) (w.imm.toNat % 4))) := by
  have hjoin : (g.tok.col != 0#2 && g.tok.col.toNat != w.imm.toNat % 4) = false := by rcases hcol with hcol | hcol <;> simp [hcol]
  unfold Go at h
  show execColor w s = _
  simp only [execColor, nextS, h, hjoin, Bool.false_eq_true, if_false, taken, passed]
  rfl

theorem exec_color_otherColour {w : PeWord} {s s1 : State} {uid key : Nat} {g : Gathered} (h : Go 0x37 w s s1 uid key g)
    (hcol : g.tok.col ≠ 0#2) (hk : g.tok.col.toNat ≠ w.imm.toNat % 4) : exec (.color w) s = .next (s1.faultAt uid key (raise 0x0A8 g.tok)) := by
  have hjoin : (g.tok.col != 0#2 && g.tok.col.toNat != w.imm.toNat % 4) = true := by simp [hcol, hk]
  unfold Go at h
  show execColor w s = _
  simp only [execColor, nextS, h, hjoin, if_true]

theorem reopenColour_eq (s : State) (uid k : Nat) : s.reopenColour uid k = reopened s uid k := by
  unfold State.reopenColour reopened waitingForColour wordAt
  rfl

/-! ### COMMIT and KILL (R38 to R40, R186) -/

/-- What a decision of colour k, which `apply` carries out, does; its token is of kind `kind`. -/
theorem fireDecision_decides {opc : Nat} {kind : BitVec 2} {apply : State → Nat → Nat → State} {w : PeWord} {s s1 : State} {uid key : Nat} {g : Gathered}
    (h : GoColourless opc w s s1 uid key g) (hk : w.imm.toNat % 4 ≠ 0) (hopen : (s1.unit uid).colState (w.imm.toNat % 4) = 0) :
    fireDecision opc kind apply w s = ((apply (taken s1 uid key g) uid (w.imm.toNat % 4)).modUnit uid (fun u =>
        { u with decided := u.decided ++ [w.imm.toNat % 4] })).emit uid key
      { g.tok with payload := 0#64, fmt := 0#4, col := BitVec.ofNat 2 (w.imm.toNat % 4), kind := kind, last := false } := by
  unfold GoColourless at h
  simp only [fireDecision, h, hk, hopen, decide_false, bne_self_eq_false, Bool.or_self, Bool.false_eq_true, if_false, taken]

theorem fireDecision_decided {opc : Nat} {kind : BitVec 2} {apply : State → Nat → Nat → State} {w : PeWord} {s s1 : State} {uid key : Nat} {g : Gathered}
    (h : GoColourless opc w s s1 uid key g) (hk : w.imm.toNat % 4 = 0 ∨ (s1.unit uid).colState (w.imm.toNat % 4) ≠ 0) :
    fireDecision opc kind apply w s = s1.faultAt uid key (raise 0x0A9 g.tok) := by
  have hor : (decide (w.imm.toNat % 4 = 0) || (s1.unit uid).colState (w.imm.toNat % 4) != 0) = true := by simpa using hk
  unfold GoColourless at h
  simp only [fireDecision, h, hor, if_true]

theorem ldel_length_append {α : Type} (l r : List α) (x : α) : ldel (l ++ x :: r) l.length = l ++ r := by
  induction l with
  | nil => rfl
  | cons y l ih => exact congrArg (y :: ·) ih

/-- The token of a decision goes on along its route behind what `pass` leaves of the others. -/
theorem exec_commitTokenPass {s : State} {l r : List Flight} {f : Flight} (hfl : s.flights = l ++ f :: r) (hi : s.ev.i = l.length)
    (hkind : f.tok.kind = 2#2 ∨ f.tok.kind = 3#2) :
    exec .commitTokenPass s = .next { s with flights :=
      (if f.tok.kind = 2#2 then (l ++ r).map (fun g => if f.passes g then { g with tok := { g.tok with col := 0#2 } } else g)
        else (l ++ r).filter (fun g => !f.passes g)) ++ onward s f } := by
  have hget : s.flights[s.ev.i]? = some f := by simp [hfl, hi]
  have hdel : ldel s.flights s.ev.i = l ++ r := by rw [hfl, hi, ldel_length_append]
  have hdecision : (f.tok.kind != 2#2 && f.tok.kind != 3#2) = false := by rcases hkind with hkind | hkind <;> simp [hkind]
  show execCommitTokenPass s = _
  simp only [execCommitTokenPass, nextS, hget, hdecision, Bool.false_eq_true, if_false, hdel, onward]
  split
  · simp only [List.append_assoc]
  · simp only [List.append_nil]

/-! ### The release of a colour (R35) -/

/-- A PE whose node is a COLOR that waits for colour k. -/
def waitsFor (k : Nat) (p : Nat × PeCtx) : Bool :=
  match p.2.node with
  | .colorWait _ k' => k' == k
  | _ => false

theorem any_waitsFor (u : UnitSt) (k : Nat) : u.pes.any (waitsFor k) = true ↔ waitingForColour u k ≠ [] := by
  rw [List.any_eq_true, waitingForColour, ne_eq, List.filterMap_eq_nil_iff, not_forall₂]
  refine exists_congr fun p => ?_
  unfold waitsFor
  cases p.2.node <;> simp

theorem exec_colourRelease (s : State) : exec .colourRelease s = .next (
    if !(s.unit s.ev.u).fires || (s.unit s.ev.u).colState s.ev.k = 0 || s.colourCount (s.unit s.ev.u) s.ev.k != 0 ||
      (s.unit s.ev.u).decided.contains s.ev.k then s
    else if (s.unit s.ev.u).pes.any (waitsFor s.ev.k) then reopened s s.ev.u s.ev.k else s) := by
  rw [← reopenColour_eq]
  rfl

/-- Settles O20: COLOR by its cases, the two decisions by one lemma, their tokens and the release of a colour by theirs. -/
theorem coloursAreDecided : Obligations.ColoursAreDecided := by
  unfold Obligations.ColoursAreDecided
  refine ⟨?paints, ?waits, fun w s s1 uid key g => exec_color_otherColour, ?reopens, ?decided, ?commit, ?kill, ?killToken, ?commitToken, ?noWaiting, ?release,
    ?stopped⟩
  case paints =>
    intro w s s1 uid key g h hcol hopen
    rw [exec_color h hcol, if_pos hopen]
  case waits =>
    intro w s s1 uid key g h hcol hopen hcount
    rw [exec_color h hcol, if_neg hopen, if_neg (by simp [hcount])]
  case reopens =>
    intro w s s1 uid key g h hcol hopen hcount
    rw [exec_color h hcol, if_neg hopen, hcount, reopenColour_eq]
    cases hdec : ((taken s1 uid key g).unit uid).decided.contains (w.imm.toNat % 4) <;> rfl
  case decided =>
    intro i opc w s s1 uid key g hi h hk
    simp only [List.mem_cons, Prod.mk.injEq, List.not_mem_nil, or_false] at hi
    rcases hi with ⟨rfl, rfl⟩ | ⟨rfl, rfl⟩
    · exact congrArg Host.Outcome.next (fireDecision_decided h hk)
    · exact congrArg Host.Outcome.next (fireDecision_decided h hk)
  case commit =>
    intro w s s1 uid key g h hk hopen
    exact congrArg Host.Outcome.next (fireDecision_decides h hk hopen)
  case kill =>
    intro w s s1 uid key g h hk hopen
    exact congrArg Host.Outcome.next (fireDecision_decides h hk hopen)
  case killToken =>
    intro s l r f hfl hi hkind
    rw [exec_commitTokenPass hfl hi (.inr hkind), if_neg (by rw [hkind]; decide)]
  case commitToken =>
    intro s l r f hfl hi hkind
    rw [exec_commitTokenPass hfl hi (.inl hkind), if_pos hkind]
  case noWaiting =>
    intro s hwait
    have hany : (s.unit s.ev.u).pes.any (waitsFor s.ev.k) = false := Bool.eq_false_iff.2 fun h => (any_waitsFor _ _).1 h hwait
    rw [exec_colourRelease, hany, if_neg Bool.false_ne_true, ite_self]
  case release =>
    intro s hfires hcol hcount hdec hwait
    rw [exec_colourRelease, hfires, hdec, (any_waitsFor _ _).2 hwait, hcount]
    simp [hcol]
  case stopped =>
    intro s hfires
    rw [exec_colourRelease, hfires]
    rfl

end Sys2Proof.Proofs

/-! PROOFS. Tokens on their way and at rest (R25 to R28, R41, R286, R301): arrival, the matching store, quiescence and migration. -/

namespace Sys2Proof.Proofs

open Sys2Proof Sys2Proof.Machine Sys2Proof.Laws Sys2Proof.Claims

/-! ### Arrival (R25, R286) -/

theorem exec_tokenArrival_packet {s : State} {f : Flight} {uid q : Nat} (hf : s.flights[s.ev.i]? = some f) (hkind : f.tok.kind = 0#2)
    (hunit : s.flightUnit f = some uid) (hq : f.q = some q)
    (hfirst : (s.flights.take s.ev.i).any (fun g => g.src == f.src && g.pos == f.pos && g.q == f.q) = false) :
    exec .tokenArrival s = .next (if s.queueTakes uid f.pos q f.tok
      then (({ s with flights := ldel s.flights s.ev.i } : State).enterQueue uid f.pos q f.tok).settleStubs uid else s) := by
  show execTokenArrival s = _
  simp only [execTokenArrival, nextS, hf, hkind, hunit, bne_self_eq_false, Bool.false_eq_true, if_false]
  simp only [hq] at hfirst ⊢
  simp only [hfirst, Bool.false_or]
  cases s.queueTakes uid f.pos q f.tok <;> rfl

theorem exec_tokenArrival_lane {s : State} {f : Flight} {uid : Nat} (hf : s.flights[s.ev.i]? = some f) (hkind : f.tok.kind = 0#2)
    (hunit : s.flightUnit f = some uid) (hq : f.q = none) (hroute : (s.unit uid).outsOf f ≠ [] ∨ (s.unit uid).headsOf f ≠ []) :
    exec .tokenArrival s = .next (if s.movable uid f && !s.yields uid f
      then (({ s with flights := ldel s.flights s.ev.i } : State).moveToken uid f).settleStubs uid else s) := by
  have hempty : (((s.unit uid).outsOf f).isEmpty && ((s.unit uid).headsOf f).isEmpty) = false := by
    rcases hroute with h | h <;> simp [h]
  show execTokenArrival s = _
  simp only [execTokenArrival, nextS, hf, hkind, hunit, hq, hempty, bne_self_eq_false, Bool.false_eq_true, if_false]
  cases s.movable uid f <;> cases s.yields uid f <;> rfl

section
variable {s : State} {pos : Site} {uid key q : Nat} {tok : Token} (hnode : (s.unit uid).nodeAt pos = some key)
include hnode

theorem queue_short_of_queueTakes (htakes : s.queueTakes uid pos q tok = true) (hcons : ((s.unit uid).pe key).takes q = true)
    (hnew : (s.unit uid).duplicate key q tok = false) : (((s.unit uid).pe key).queue q).length < 4 := by
  simp only [State.queueTakes, UnitSt.queueRoom, hnode, hcons, hnew, Bool.not_true, Bool.false_or, Bool.and_eq_true, decide_eq_true_eq] at htakes
  exact htakes.1.2

theorem enterQueue_enters (hcons : ((s.unit uid).pe key).takes q = true)
    (hnew : (s.unit uid).duplicate key q { tok with col := (s.unit uid).effCol tok.col } = false) :
    s.enterQueue uid pos q tok = (s.useNow pos.cl (.queue pos.cl pos.x pos.y q)).modUnit uid (fun u =>
      { (u.modPe key (fun p => p.setQueue q (p.queue q ++ [{ tok with col := (s.unit uid).effCol tok.col }]))) with quiet := false }) := by
  simp only [State.enterQueue, hnode, hcons, hnew, Bool.not_true, Bool.false_eq_true, if_false]

theorem enterQueue_duplicate (hcons : ((s.unit uid).pe key).takes q = true)
    (hdup : (s.unit uid).duplicate key q { tok with col := (s.unit uid).effCol tok.col } = true) :
    s.enterQueue uid pos q tok = (s.useNow pos.cl (.queue pos.cl pos.x pos.y q)).takeFault uid (some key)
      (raise 0x0A2 { tok with col := (s.unit uid).effCol tok.col }) := by
  simp only [State.enterQueue, hnode, hcons, hdup, Bool.not_true, Bool.false_eq_true, if_false, if_true]

theorem enterQueue_unconsumed (hcons : ((s.unit uid).pe key).takes q = false) :
    s.enterQueue uid pos q tok = (s.useNow pos.cl (.queue pos.cl pos.x pos.y q)).takeFault uid (some key)
      (raise 0x000 { tok with col := (s.unit uid).effCol tok.col }) := by
  simp only [State.enterQueue, hnode, hcons, Bool.not_false, if_true]
end

/-! ### The matching store (R26 to R28) -/

/-- The entries of the set of the matching store that an entry falls into, with their units. -/
def setOf (s : State) (uid : Nat) (e : MsEntry) : List (Nat × MsEntry) :=
  (s.msEntries ((s.unit uid).lead + e.rank)).filter (fun p => msSet (s.unit p.1).ctx p.2 == msSet (s.unit uid).ctx e)

theorem makeWay_free {s : State} {uid : Nat} {e : MsEntry} (h : (setOf s uid e).length < 8) : s.makeWay uid e = (s, true) := by
  unfold setOf at h
  simp only [State.makeWay, if_pos h]

theorem makeWay_spills {s : State} {uid : Nat} {e : MsEntry} {v : Nat × MsEntry} (h : 8 ≤ (setOf s uid e).length)
    (hv : s.victim uid (setOf s uid e) = some v) : s.makeWay uid e = s.spill v.1 v.2 := by
  unfold setOf at h hv
  simp only [State.makeWay, if_neg (Nat.not_lt.2 h), hv]

/-- A head token that cannot fire goes into the matching store when a way is made for it. -/
theorem exec_headToken_moves {s s1 : State} {uid key : Nat} {t : Token} {r : List Token} {e : MsEntry}
    (hunit : s.unitAt s.ev.site.cl s.ev.site.ctx = some uid) (hkey : key = (s.unit uid).keyOf s.ev.site)
    (hqueue : ((s.unit uid).pe key).queue s.ev.q = t :: r) (hr : r ≠ []) (hfires : (s.unit uid).fires = true)
    (hidle : s.headFires uid key s.ev.q t = false) (he : e = { rank := key / 256, x := key % 16, y := key / 16 % 16, q := s.ev.q, tok := t })
    (hway : s.makeWay uid e = (s1, true)) :
    exec .headTokenToMatchingStore s = .next ((s1.modUnit uid (fun u => { u with ms := u.ms ++ [e] })).modUnit uid
      (fun u => u.modPe key (fun p => p.setQueue s.ev.q r))) := by
  subst hkey he
  have hempty : r.isEmpty = false := by simpa using hr
  show execHeadTokenToMatchingStore s = _
  simp only [execHeadTokenToMatchingStore, nextS, hunit, hqueue, hempty, hfires, hidle, hway, Bool.true_or, Bool.not_true, Bool.or_self,
    Bool.false_eq_true, if_false, if_true, State.putMs]

theorem exec_matchingStoreRefill {s s1 s2 : State} {e : MsEntry} (he : (s.unit s.ev.u).ovf[s.ev.i]? = some e) (hfires : (s.unit s.ev.u).fires = true)
    (hneeded : s.headFires s.ev.u (peKey e.rank e.x e.y) e.q e.tok = true) (hway : s.makeWay s.ev.u e = (s1, true))
    (hleave : s1.leaveTable s.ev.u s.ev.i e = (s2, true)) :
    exec .matchingStoreRefill s = .next ((s2.modUnit s.ev.u (fun u => { u with ms := u.ms ++ [e] })).modCluster ((s.unit s.ev.u).lead + e.rank)
      (fun c => { c with trace := aset c.trace ((s.unit s.ev.u).ctx, 2) (agetD c.trace ((s.unit s.ev.u).ctx, 2) 0 + 1) })) := by
  show execMatchingStoreRefill s = _
  simp only [execMatchingStoreRefill, nextS, he, hfires, hneeded, hway, hleave, Bool.not_true, Bool.or_self, Bool.false_eq_true, if_false, State.putMs]

/-! ### Migration (R301) -/

section
variable {s : State} {uid : Nat} (hunit : s.unitAt s.ev.site.cl s.ev.site.ctx = some uid)
  (hwords : s.ev.words.all (((s.unit uid).withWords s.ev.words).wordsOk (s.unit uid)) = true)
include hunit hwords

/-- At a stub, switch words alone are rewritten. -/
theorem exec_migration_stub {q : Nat × Nat} (hstub : ((s.unit uid).pe ((s.unit uid).keyOf s.ev.site)).stub = some q)
    (hok : s.rewriteOk (s.unit uid) ((s.unit uid).withWords s.ev.words) s.ev.site { s.ev.site with x := q.1, y := q.2 } id = true) :
    exec .migration s = .next ((s.setUnit uid ((s.unit uid).withWords s.ev.words)).settleStubs uid) := by
  show execMigration s = _
  simp only [execMigration, nextS, hunit, hwords, hstub, hok, Bool.not_true, Bool.false_eq_true, if_false, if_true]

theorem exec_migration_start (hstub : ((s.unit uid).pe ((s.unit uid).keyOf s.ev.site)).stub = none) (hx : s.ev.x2 < 16) (hy : s.ev.y2 < 16) :
    exec .migration s = .next (s.startMigration uid s.ev.site { s.ev.site with x := s.ev.x2, y := s.ev.y2 } s.ev.words) := by
  show execMigration s = _
  simp only [execMigration, nextS, hunit, hwords, hstub, hx, hy, decide_true, Bool.and_self, Bool.not_true, Bool.false_eq_true, if_false, if_true]
end

/-- The cluster of a migrating node: its queued matrix operations name the new place, and the move is counted. -/
def migrated (s : State) (uid : Nat) (st d : Site) (v : UnitSt) : State :=
  (s.setUnit uid v).modCluster st.cl (fun c => { c with
    mq := c.mq.map (fun o => if o.unit == uid && o.site == st then { o with site := d } else o)
    trace := aset c.trace ((s.unit uid).ctx, 0) (agetD c.trace ((s.unit uid).ctx, 0) 0 + 1) })

theorem startMigration_moves {s : State} {uid : Nat} {st d : Site} {words : List (Nat × List (BitVec 16))} {v : UnitSt}
    (hne : (s.unit uid).keyOf st ≠ (s.unit uid).keyOf d) (hop : ((s.unit uid).pe ((s.unit uid).keyOf st)).consumes = true)
    (hfree : ((s.unit uid).pe ((s.unit uid).keyOf d)).consumes = false) (hdrain : (s.unit uid).isDraining = false) (hstub : s.hasStub st.cl = false)
    (hgood : s.fleet.peFailed.contains (d.cl, d.x, d.y) = false) (hv : v = ((s.unit uid).moveNode st d).withWords words)
    (hok : s.rewriteOk (s.unit uid) v st d (moveKey ((s.unit uid).keyOf st) ((s.unit uid).keyOf d)) = true)
    (hsets : (migrated s uid st d v).setsHold d = true) :
    s.startMigration uid st d words = ((migrated s uid st d v).count 22 1).settleStubs uid := by
  subst hv
  unfold migrated at hsets
  simp only [State.startMigration, migrated, hop, hfree, hstub, hdrain, beq_eq_false_iff_ne.2 hne, hgood, hok, hsets, Bool.not_true, Bool.or_self,
    Bool.false_eq_true, if_false]

theorem moveNode_pes (u : UnitSt) (st d : Site) : (u.moveNode st d).pes = ((u.setPe (u.keyOf d) { u.pe (u.keyOf st) with
      sw := (u.pe (u.keyOf d)).sw, halted := (u.pe (u.keyOf d)).halted, stepOnce := (u.pe (u.keyOf d)).stepOnce }).setPe (u.keyOf st)
    { sw := (u.pe (u.keyOf st)).sw, home := (u.pe (u.keyOf st)).home, halted := (u.pe (u.keyOf st)).halted, stepOnce := (u.pe (u.keyOf st)).stepOnce
      stub := some (d.x, d.y) }).pes := rfl

/-- The PE that a node leaves is a stub for the other and keeps its switch words. -/
theorem moveNode_pe_source (u : UnitSt) (st d : Site) : (u.moveNode st d).pe (u.keyOf st) =
    { sw := (u.pe (u.keyOf st)).sw, home := (u.pe (u.keyOf st)).home, halted := (u.pe (u.keyOf st)).halted, stepOnce := (u.pe (u.keyOf st)).stepOnce
      stub := some (d.x, d.y) } := by
  rw [UnitSt.pe, moveNode_pes, UnitSt.setPe, agetD_aset, if_pos rfl]

/-- The PE that takes a node holds what the node had, and keeps its own switch words. -/
theorem moveNode_pe_target {u : UnitSt} {st d : Site} (h : u.keyOf st ≠ u.keyOf d) : (u.moveNode st d).pe (u.keyOf d) = { u.pe (u.keyOf st) with
    sw := (u.pe (u.keyOf d)).sw, halted := (u.pe (u.keyOf d)).halted, stepOnce := (u.pe (u.keyOf d)).stepOnce } := by
  rw [UnitSt.pe, moveNode_pes, UnitSt.setPe, agetD_aset, if_neg h, UnitSt.setPe, agetD_aset, if_pos rfl]

/-- Settles O42: arrival, the matching store and migration by their lemmas above; the report of quiescence is its own meaning. -/
theorem tokensArriveAndWait : Obligations.TokensArriveAndWait := by
  unfold Obligations.TokensArriveAndWait
  refine ⟨fun s f uid q => exec_tokenArrival_packet, fun s f uid => exec_tokenArrival_lane, ?enter, ?store, ?refill, fun s => rfl, ?migration, ?moved⟩
  case enter =>
    rintro s pos uid key q tok t hnode rfl
    exact ⟨queue_short_of_queueTakes hnode, enterQueue_enters hnode, enterQueue_duplicate hnode, enterQueue_unconsumed hnode⟩
  case store =>
    rintro s uid key t r e es hunit hkey hqueue hr hfires hidle he rfl
    have hset : setOf s uid e = (s.msEntries ((s.unit uid).lead + e.rank)).filter (fun p => msSet (s.unit p.1).ctx p.2 == msSet (s.unit uid).ctx e) := rfl
    rw [← hset]
    exact ⟨fun hlen => exec_headToken_moves hunit hkey hqueue hr hfires hidle he (makeWay_free hlen),
      fun v s1 hlen hv hspill => exec_headToken_moves hunit hkey hqueue hr hfires hidle he ((makeWay_spills hlen hv).trans hspill)⟩
  case refill =>
    rintro s s1 s2 u e rfl he hfires hneeded hway hleave
    exact exec_matchingStoreRefill he hfires hneeded hway hleave
  case migration =>
    rintro s s1 uid key key' u v st d rfl hunit rfl rfl rfl rfl hx hy hwords
    refine ⟨fun q hstub hv hok => ?_, fun hstub hne hop hfree hdrain hnone hgood hv hok hs1 hsets => ?_⟩
    · subst hv
      exact exec_migration_stub hunit hwords hstub hok
    · subst hs1
      rw [exec_migration_start hunit hwords hstub hx hy]
      exact congrArg Host.Outcome.next (startMigration_moves hne hop hfree hdrain hnone hgood hv hok hsets)
  case moved =>
    rintro u v st d p p' hne rfl rfl rfl
    rw [moveNode_pe_target hne, moveNode_pe_source]
    exact ⟨rfl, rfl, rfl, rfl, rfl, rfl, rfl, rfl, rfl⟩

end Sys2Proof.Proofs

/-! PROOFS. The store buffer (R37, R39, R84, R86, R102, R227, R231): which entries issue, perform and wait. -/

namespace Sys2Proof.Proofs

open Sys2Proof Sys2Proof.Machine Sys2Proof.Laws Sys2Proof.Claims

/-! ### Performing -/

theorem performEntry_waits {s : State} {uid : Nat} {e : SbEntry} (h : (s.unit uid).mayPerform e = false) : s.performEntry uid e = s := by
  simp only [State.performEntry, h, Bool.not_false, if_true]

section
variable {s : State} {uid : Nat} {e : SbEntry} (hmay : (s.unit uid).mayPerform e = true)
include hmay

theorem performEntry_stsp (hop : e.op = .stsp) :
    s.performEntry uid e = ({ s with lsm := s.lsm.wrBytes (e.xa - lBase) e.bytes } : State).retire uid e.id := by
  simp only [State.performEntry, hmay, hop, Bool.not_true, Bool.false_eq_true, if_false]

/-- A plain store to a line that its cluster owns is written in the L1. -/
theorem performEntry_st_owned (hop : e.op = .st) (hfab : isFabXa e.xa = false) (htag : e.tagged = false) (hmt : e.mt ≠ 2)
    (howns : s.l1Owns e.site.cl e.xa e.n = true) : s.performEntry uid e = ((s.l1Write e.site.cl e.xa .M e.bytes).keepFor e).retire uid e.id := by
  simp only [State.performEntry, hmay, hop, hfab, htag, decide_eq_false hmt, howns, Bool.not_true, Bool.or_self, Bool.false_eq_true, if_false, if_true]

/-- A tagged or uncached store is performed at the home of its line. -/
theorem performEntry_st_home (hop : e.op = .st) (hfab : isFabXa e.xa = false) (h : e.tagged = true ∨ e.mt = 2) :
    s.performEntry uid e = s.ask uid e .homeStore := by
  have hor : (e.tagged || decide (e.mt = 2)) = true := by simpa using h
  simp only [State.performEntry, hmay, hop, hfab, hor, Bool.not_true, Bool.false_eq_true, if_false, if_true]
end

/-! ### Issue -/

theorem issueEntry_killed {s : State} {uid : Nat} {e : SbEntry} (hheld : e.op.held = true) (hkilled : e.killed = true) :
    s.issueEntry uid e = s.retireKilled uid e := by
  simp only [State.issueEntry, hheld, hkilled, Bool.and_self, if_true]

/-- A coloured write is held, with the place that its bytes have now (R37, R104). -/
theorem issueEntry_coloured {s : State} {uid : Nat} {e : SbEntry} (hkilled : e.killed = false) (hcol : (s.unit uid).coloured e = true) :
    s.issueEntry uid e = (s.markHeld uid e (s.heldXa uid e)).modUnit uid (fun x =>
      if e.op == .flushr then x.modEntry e.id (fun y => { y with ranges := s.heldRanges uid e }) else x) := by
  simp only [State.issueEntry, hkilled, hcol, Bool.and_false, Bool.false_eq_true, if_false, if_true]

theorem canIssue_behindFault {u : UnitSt} {e : SbEntry} (h : u.behindFault e = true) : u.canIssue e = false := by
  simp only [UnitSt.canIssue, h, Bool.not_true, Bool.and_false, Bool.false_and]

theorem entry?_id {u : UnitSt} {id : Nat} {e : SbEntry} (h : u.entry? id = some e) : e.id = id := by
  unfold UnitSt.entry? at h
  simpa using List.find?_some h

theorem completes_not_ended {u : UnitSt} (h : u.completes = true) : u.isEnded = false := by
  unfold UnitSt.completes at h
  unfold UnitSt.isEnded
  cases hst : u.status <;> simp [hst] at h ⊢

section
variable {s : State} {e : SbEntry} (he : (s.unit s.ev.u).entry? s.ev.id = some e)
include he

theorem storeBufferIssue_ended (hend : (s.unit s.ev.u).isEnded = true) :
    exec .storeBufferIssue s = .next (if e.phase = .issued then s.performEntry s.ev.u e else s) := by
  show execStoreBufferIssue s = _
  simp only [execStoreBufferIssue, nextS, he, hend, if_true]

variable (hlive : (s.unit s.ev.u).completes = true)
include hlive

theorem storeBufferIssue_waits (hphase : e.phase = .waiting) (h : (s.unit s.ev.u).fires = false ∨ (s.unit s.ev.u).canIssue e = false) :
    exec .storeBufferIssue s = .next s := by
  have hor : (!(s.unit s.ev.u).fires || !(s.unit s.ev.u).canIssue e) = true := by rcases h with h | h <;> simp [h]
  show execStoreBufferIssue s = _
  simp only [execStoreBufferIssue, nextS, he, completes_not_ended hlive, hlive, hphase, hor, Bool.not_true, Bool.false_eq_true, if_false, if_true]

theorem storeBufferIssue_performs (hphase : e.phase = .issued) : exec .storeBufferIssue s = .next (s.performEntry s.ev.u e) := by
  have hagain : (s.unit s.ev.u).entry? e.id = some e := by rw [entry?_id he, he]
  show execStoreBufferIssue s = _
  simp only [execStoreBufferIssue, nextS, he, completes_not_ended hlive, hlive, hphase, hagain, Bool.not_true, Bool.false_eq_true, if_false, if_true]

variable (hphase : e.phase = .waiting) (hfires : (s.unit s.ev.u).fires = true) (hcan : (s.unit s.ev.u).canIssue e = true)
include hphase hfires hcan

/-- LDXS issues and performs in two turns: its slot is empty between them (R130). -/
theorem storeBufferIssue_ldxs (hop : e.op = .ldxs) : exec .storeBufferIssue s = .next (s.issueEntry s.ev.u e) := by
  show execStoreBufferIssue s = _
  simp only [execStoreBufferIssue, nextS, he, completes_not_ended hlive, hlive, hphase, hfires, hcan, hop, beq_self_eq_true, Bool.not_true, Bool.or_self,
    Bool.false_eq_true, if_false, if_true]

theorem storeBufferIssue_issues {x : SbEntry} (hop : e.op ≠ .ldxs) (hx : ((s.issueEntry s.ev.u e).unit s.ev.u).entry? e.id = some x) :
    exec .storeBufferIssue s = .next (if x.phase = .issued then (s.issueEntry s.ev.u e).performEntry s.ev.u x else s.issueEntry s.ev.u e) := by
  show execStoreBufferIssue s = _
  simp only [execStoreBufferIssue, nextS, he, completes_not_ended hlive, hlive, hphase, hfires, hcan, beq_eq_false_iff_ne.2 hop, hx, Bool.not_true,
    Bool.or_self, Bool.false_eq_true, if_false]
end

/-! ### The hint that acts (R84, R86, R231) -/

theorem hintOf_uncached (c : Cluster) {e : SbEntry} (h : e.mt = 2) : hintOf c e = 2 := by simp [hintOf, h]

/-- In a cluster with cache banks, type 1 makes hint 0 hint 1. -/
theorem hintOf_noAlloc {c : Cluster} {e : SbEntry} (hnc : c.nc ≠ 0) (hmt : e.mt = 1) (hmod : e.w.mod = 0#3) : hintOf c e = 1 := by
  simp [hintOf, hnc, hmt, hmod]

/-- Hint 4 acts as hint 0 on a load. -/
theorem hintOf_load4 {c : Cluster} {e : SbEntry} (hnc : c.nc ≠ 0) (hop : e.op = .ld) (hmod : e.w.mod = 4#3) :
    (e.mt = 0 → hintOf c e = 0) ∧ (e.mt = 1 → hintOf c e = 1) := by
  have hst : e.stores = false := by simp [SbEntry.stores, hop]
  exact ⟨fun hmt => by simp [hintOf, hnc, hmt, hmod, hst], fun hmt => by simp [hintOf, hnc, hmt, hmod, hst]⟩

/-- Settles O43: the turn of an entry by its phase, and what performing and issuing do, by the lemmas above. -/
theorem storeBufferIssuesInOrder : Obligations.StoreBufferIssuesInOrder := by
  unfold Obligations.StoreBufferIssuesInOrder
  refine ⟨?turn, fun s e => storeBufferIssue_ended, fun u e => canIssue_behindFault,
    fun c e hnc => ⟨hintOf_uncached c, hintOf_noAlloc hnc, hintOf_load4 hnc⟩, fun s uid e => performEntry_waits, fun s uid e => performEntry_stsp,
    fun s uid e => performEntry_st_owned, fun s uid e => performEntry_st_home, fun s uid e hheld => ⟨issueEntry_killed hheld, issueEntry_coloured⟩⟩
  intro s e he hlive
  refine ⟨storeBufferIssue_waits he hlive, storeBufferIssue_performs he hlive, storeBufferIssue_ldxs he hlive,
    fun x hphase hfires hcan hop => storeBufferIssue_issues he hlive hphase hfires hcan hop, fun hphase hmay hop => ?_,
    fun hphase hmay hop hfab htag hmt howns => ?_⟩
  · rw [storeBufferIssue_performs he hlive hphase, performEntry_stsp hmay hop]
  · rw [storeBufferIssue_performs he hlive hphase, performEntry_st_owned hmay hop hfab htag hmt howns]

end Sys2Proof.Proofs

/-! PROOFS. Units are placed and start (R19, R274, R288, R294, R295, R299, R302). -/

namespace Sys2Proof.Proofs

open Sys2Proof Sys2Proof.Machine Sys2Proof.Laws Sys2Proof.Claims

/-! ### The start of a unit (R299) -/

/-- The state in which the registers of a unit are set and its claim is taken. -/
def withRegs (s : State) (uid : Nat) (u : UnitSt) (d : LaunchDesc) : State :=
  if d.claim then u.clusterList.foldl (fun t c => t.modCluster c (fun k => k.freshClaim uid)) (s.setUnit uid (u.startRegs d))
  else s.setUnit uid (u.startRegs d)

theorem startUnit_noImage {s : State} {uid : Nat} {u : UnitSt} {d : LaunchDesc} (h : d.image = 0) :
    s.startUnit uid u d = (withRegs s uid u d).startSequencer uid id := by
  simp only [State.startUnit, h, if_true]
  rfl

theorem startUnit_image {s s' : State} {uid : Nat} {u : UnitSt} {d : LaunchDesc} {r : Except ImgFail Image} (h : d.image ≠ 0)
    (hload : (withRegs s uid u d).loadImage (u.startRegs d) (d.image % 2 ^ 56) = (s', r)) :
    s.startUnit uid u d = match (generalizing := false) r with
      | .ok img => (s'.startSequencer uid (fun x => x.activate img)).endStranded uid
      | .error e => s'.imageFailed uid e := by
  have hstart : s.startUnit uid u d = match (withRegs s uid u d).loadImage (u.startRegs d) (d.image % 2 ^ 56) with
      | (s3, .ok img) => (s3.startSequencer uid (fun x => x.activate img)).endStranded uid
      | (s3, .error e) => s3.imageFailed uid e := if_neg h
  rw [hstart, hload]
  cases r <;> rfl

section
variable {s : State} {u : UnitSt} (hu : aget s.units s.ev.u = some u) (hst : u.status = .placed none) (hok : s.startOk u.die = true)
include hu hst hok

theorem exec_unitStart_waits (hbefore : s.placedBefore u = true) : exec .unitStart s = .next s := by
  show execUnitStart s = _
  simp only [execUnitStart, nextS, hu, hst, hok, hbefore, Bool.or_true, if_true]

variable (hbefore : s.placedBefore u = false)
include hbefore

theorem exec_unitStart_givesUp (hready : s.readyBefore u = true) : exec .unitStart s = .next (s.giveUpPlace s.ev.u) := by
  show execUnitStart s = _
  simp only [execUnitStart, nextS, hu, hst, hok, hbefore, hready, bne_self_eq_false, Bool.not_true, Bool.or_self, Bool.false_eq_true, if_false, if_true]

theorem exec_unitStart_starts {s1 : State} (hready : s.readyBefore u = false)
    (himage : (s.descOf u).image = 0 ∨ s.awaitImage u ((s.descOf u).image % 2 ^ 56) = none) (hheader : s.writeHeader u (s.descOf u) = (s1, none)) :
    exec .unitStart s = .next ((s1.startUnit s.ev.u u (s.descOf u)).leavePool u.inst u.node (s.descOf u).nunit) := by
  have hawait : (if (s.descOf u).image = 0 then none else s.awaitImage u ((s.descOf u).image % 2 ^ 56)) = none := by
    rcases himage with h | h
    · rw [if_pos h]
    · rw [h, ite_self]
  show execUnitStart s = _
  simp only [execUnitStart, nextS, hu, hst, hok, hbefore, hready, hawait, hheader, bne_self_eq_false, Bool.not_true, Bool.or_self, Bool.false_eq_true,
    if_false]
end

theorem unit_giveUpPlace {s : State} {uid : Nat} {u : UnitSt} (hu : aget s.units uid = some u) (hst : u.status = .placed none) :
    ((s.giveUpPlace uid).unit uid).status = .ready := by
  rw [State.giveUpPlace, State.unit_modUnit_self hu]
  simp only [hst]

/-! ### The registers at the start (R19, R274) -/

theorem startRegs_ccnt (u : UnitSt) (d : LaunchDesc) : (u.startRegs d).ccnt = wd d.entry &&& codeMask := rfl
theorem startRegs_greg_args (u : UnitSt) (d : LaunchDesc) : (u.startRegs d).greg 1#5 = wd d.args := rfl
/-- Every register but g1 reads 0. -/
theorem startRegs_greg_other (u : UnitSt) (d : LaunchDesc) {r : BitVec 5} (h : r ≠ 1#5) : (u.startRegs d).greg r = 0#64 := by
  have h1 : r.toNat ≠ 1 := fun hr => h (BitVec.eq_of_toNat_eq hr)
  have hg : (u.startRegs d).g = [0#64, wd d.args] := rfl
  rw [UnitSt.greg, hg]
  match hr : r.toNat with
  | 0 => simp [lget]
  | 1 => exact absurd hr h1
  | n + 2 => simp [lget]

/-! ### The sequencer starts (R299, R302) -/

/-- A unit as its sequencer starts, in which `f` has been done: what is halted of its job fires in no context (R367). -/
def startedUnit (s : State) (f : UnitSt → UnitSt) (u : UnitSt) : UnitSt :=
  { f u with
    pes := (f u).pes.map (fun p => (p.1, { p.2 with
      halted := p.2.halted || (s.job (f u).job).haltCl.contains ((f u).lead + p.1 / 256) ||
        (s.job (f u).job).haltPe.contains ((f u).lead + p.1 / 256, p.1 % 16, p.1 / 16 % 16) }))
    status := .running, started := s.startCtr, watchdog := 0, quantum := 0, quiet := false, wait := .none }

theorem unit_startSequencer {s : State} {uid : Nat} {u : UnitSt} (f : UnitSt → UnitSt) (hu : aget s.units uid = some u) :
    (s.startSequencer uid f).unit uid = startedUnit s f u := State.unit_modUnit_self (f := startedUnit s f) hu

/-! ### Placement (R294, R295) -/

/-- A ready unit whose region lies on die `die`. -/
def placeableOn (s : State) (die : Nat) (r : Ready) : Bool :=
  match s.bestRegion s.ready r with
  | some (d, _, _) => d == die
  | none => false

/-- Ready unit `r`, launched by `i`, takes region b and a context of the die. -/
def placeReady (s : State) (r : Ready) (i : Instance) (b ctx : Nat) : State :=
  match r.uid with
  | none => (s.newUnit r i).takeRegion r s.nextUnit s.ev.die b ctx id
  | some uid =>
    if (s.unit uid).status == .ready then s.takeRegion r uid s.ev.die b ctx (fun u => { u with status := .placed none })
    else (s.rebindColl (s.unit uid) (80 * s.ev.die + b * 2 ^ r.d.rshape) ctx).takeRegion r uid s.ev.die b ctx
      (fun u => { u.rebind (80 * s.ev.die + b * 2 ^ r.d.rshape) ctx with status := .placed (some none) })

/-- The scheduler places the unit that it serves first. -/
theorem exec_unitPlacement {s : State} {r : Ready} {i : Instance} {b ctx die : Nat}
    (hfirst : s.firstServed s.ev.die (s.ready.filter (placeableOn s s.ev.die)) = some r) (hbest : s.bestRegion s.ready r = some (die, b, ctx))
    (hinst : s.inst? r.inst = some i) : exec .unitPlacement s = .next (placeReady s r i b ctx) := by
  have hexec : exec .unitPlacement s = .next (match s.firstServed s.ev.die (s.ready.filter (placeableOn s s.ev.die)) with
      | none => s
      | some r =>
        match s.bestRegion s.ready r, s.inst? r.inst with
        | some (_, b, ctx), some i => placeReady s r i b ctx
        | _, _ => s) := rfl
  rw [hexec, hfirst]
  simp only [hbest, hinst]

theorem units_prepareCluster (s : State) (cl job : Nat) : (s.prepareCluster cl job).units = s.units := by
  unfold State.prepareCluster
  split <;> rfl

theorem units_foldl {α : Type} {f : State → α → State} (hf : ∀ s a, (f s a).units = s.units) (l : List α) (s : State) :
    (l.foldl f s).units = s.units := by
  induction l generalizing s with
  | nil => rfl
  | cons a r ih => exact (ih _).trans (hf s a)

/-- A unit takes its place: its region, its context and its die. -/
theorem unit_takeRegion {s : State} {uid : Nat} {u : UnitSt} (r : Ready) (die b ctx : Nat) (f : UnitSt → UnitSt) (hu : aget s.units uid = some u) :
    (s.takeRegion r uid die b ctx f).unit uid = { f u with die := die, lead := 80 * die + b * 2 ^ r.d.rshape, ctx := ctx } := by
  have hprep : ∀ t : State, t.units = s.units →
      ((regionClusters r.d.rshape die b).foldl (fun s cl => s.prepareCluster cl r.job) t).units = s.units := fun t ht =>
    (units_foldl (fun s cl => units_prepareCluster s cl r.job) _ t).trans ht
  have hphase : ∀ t : State, t.units = s.units → ((r.phase.toList).foldl (fun s p => s.modPhase p (fun x =>
      { x with ran := if x.ran.contains die then x.ran else x.ran ++ [die] })) t).units = s.units := fun t ht =>
    (units_foldl (fun s p => (rfl : (s.modPhase p _).units = s.units)) _ t).trans ht
  refine State.unit_modUnit_self (s := State.modDie _ die (fun d => { d with remap := false }))
    (f := fun u => { f u with die := die, lead := 80 * die + b * 2 ^ r.d.rshape, ctx := ctx }) ?_
  rw [← hu]
  exact congrArg (aget · uid) (hprep _ (hphase _ rfl))

/-- Settles O48: the start by its cases, and placement, by the lemmas above. -/
theorem unitsStartWhereTheyArePlaced : Obligations.UnitsStartWhereTheyArePlaced := by
  unfold Obligations.UnitsStartWhereTheyArePlaced
  refine ⟨⟨?starts, ?waits, fun u d => ⟨startRegs_ccnt u d, startRegs_greg_args u d, fun r => startRegs_greg_other u d⟩, ?running⟩, ?placed, ?region⟩
  case starts =>
    rintro s s1 s3 u d hu hst hok hbefore hready rfl himage hheader hs3
    have hexec := exec_unitStart_starts hu hst hok hbefore hready himage hheader
    obtain rfl : s3 = withRegs s1 s.ev.u u (s.descOf u) := hs3
    refine ⟨fun h0 => ?_, fun s4 img h0 hload => ?_, fun s4 k h0 hload => ?_⟩
    · rw [hexec, startUnit_noImage h0]
    · rw [hexec, startUnit_image h0 hload]
    · rw [hexec, startUnit_image h0 hload]
      rfl
  case waits =>
    intro s u hu hst hok
    exact ⟨exec_unitStart_waits hu hst hok,
      fun hbefore hready => ⟨exec_unitStart_givesUp hu hst hok hbefore hready, unit_giveUpPlace hu hst⟩⟩
  case running =>
    intro s uid u f hu
    rw [unit_startSequencer f hu]
    exact ⟨rfl, rfl, rfl, rfl⟩
  case placed =>
    intro s r i b ctx die hfirst hbest hinst
    have hexec := exec_unitPlacement hfirst hbest hinst
    refine ⟨fun hu => ?_, fun uid hu hst => ?_, fun uid hu hst => ?_⟩
    · rw [hexec, placeReady, hu]
    · have heq : ((s.unit uid).status == .ready) = true := beq_iff_eq.2 hst
      simp only [hexec, placeReady, hu, heq, if_true]
    · have hne : ((s.unit uid).status == .ready) = false := beq_eq_false_iff_ne.2 hst
      simp only [hexec, placeReady, hu, hne, Bool.false_eq_true, if_false]
  case region =>
    intro s r uid die b ctx u hu
    rw [unit_takeRegion r die b ctx id hu]
    exact ⟨rfl, rfl, rfl⟩

end Sys2Proof.Proofs

/-! PROOFS. Lanes and flags of a computing firing (R56, R59, R64, R145): lists by index, what a union of flags holds, which trap is taken, and
the end of a firing in each of its forms. -/

namespace Sys2Proof.Proofs

open Sys2Proof Sys2Proof.Machine Sys2Proof.Laws Sys2Proof.Claims

/-! ### Lists by index -/

theorem lget_eq_getElem {α : Type} (l : List α) (n : Nat) (d : α) (h : n < l.length) : lget l n d = l[n] := by
  induction l generalizing n with
  | nil => simp at h
  | cons x r ih =>
    cases n with
    | zero => rfl
    | succ n => exact ih n (Nat.lt_of_succ_lt_succ h)

theorem lget_of_length_le {α : Type} (l : List α) (n : Nat) (d : α) (h : l.length ≤ n) : lget l n d = d := by
  induction l generalizing n with
  | nil => rfl
  | cons x r ih =>
    cases n with
    | zero => simp at h
    | succ n => exact ih n (Nat.le_of_succ_le_succ h)

theorem upFrom_eq_range' (a n : Nat) : upFrom a n = List.range' a n := by
  induction n generalizing a with
  | zero => rfl
  | succ n ih => rw [upFrom, ih, List.range'_succ]

@[simp] theorem getElem_upFrom (a n k : Nat) (h : k < (upFrom a n).length) : (upFrom a n)[k] = a + k := by
  simp [upFrom_eq_range']

theorem lget_map_upFrom {α : Type} (f : Nat → α) (a n k : Nat) (d : α) (h : k < n) : lget ((upFrom a n).map f) k d = f (a + k) := by
  rw [lget_eq_getElem _ _ _ (by simpa using h)]
  simp

/-! ### Flags (R64) -/

theorem bit_eq_testBit (v k : Nat) : bit v k = v.testBit k := by
  rw [Nat.testBit_eq_decide_div_mod_eq, bit]
  rfl

@[simp] theorem bit_zero (k : Nat) : bit 0 k = false := by simp [bit_eq_testBit]

@[simp] theorem bit_or (a b k : Nat) : bit (a ||| b) k = (bit a k || bit b k) := by simp [bit_eq_testBit]

theorem bit_one (k : Nat) : bit 1 k = true ↔ k = 0 := by rw [bit_eq_testBit, Nat.testBit_one_eq_true_iff_self_eq_zero]

/-- The flags gathered over a list are those that were there and those of its members. -/
theorem bit_foldl_or {α : Type} (f : α → Nat) (l : List α) (a k : Nat) :
    bit (l.foldl (fun a p => a ||| f p) a) k = (bit a k || l.any (fun p => bit (f p) k)) := by
  induction l generalizing a with
  | nil => simp
  | cons x r ih => simp [ih, Bool.or_assoc]

theorem bit_flagUnion (fl : List (Nat × Nat)) (k : Nat) : bit (flagUnion fl) k = fl.any (fun p => bit p.2 k) := by
  simp [flagUnion, bit_foldl_or]

/-- A lane that raises nothing may be left out of the flags, as `laneCalc` does. -/
theorem bit_flagUnion_filterMap {α : Type} (m f : α → Nat) (l : List α) (k : Nat) :
    bit (flagUnion (l.filterMap (fun p => if f p = 0 then none else some (m p, f p)))) k = l.any (fun p => bit (f p) k) := by
  induction l with
  | nil => simp [bit_flagUnion]
  | cons x r ih =>
    rw [bit_flagUnion] at ih ⊢
    by_cases h : f x = 0 <;> simp [h, ih]

/-- The trap that is taken is that of the lowest enabled flag. -/
theorem trapFlag_eq_some {e fl k : Nat} (h : trapFlag e fl = some k) :
    bit fl k = true ∧ bit e k = true ∧ ∀ j, j < k → (bit fl j && bit e j) = false := by
  rw [trapFlag, List.find?_eq_some_iff_getElem] at h
  obtain ⟨hk, i, hi, hik, hmin⟩ := h
  obtain rfl : i = k := by simpa using hik
  rw [Bool.and_eq_true] at hk
  exact ⟨hk.1, hk.2, fun j hj => Bool.and_eq_false_iff.2 (by simpa using hmin j hj)⟩

theorem trapFlag_of_disabled {e : Nat} (fl : Nat) (h : e % 32 = 0) : trapFlag e fl = none := by
  rw [trapFlag, List.find?_eq_none]
  intro k hk
  have hk5 : k < 5 := by simpa using ((mem_upFrom 0 5 k).1 hk).2
  have hbit : bit e k = false := by
    have hmod := Nat.testBit_mod_two_pow e 5 k
    rw [show 2 ^ 5 = 32 from rfl, h, Nat.zero_testBit, decide_eq_true hk5, Bool.true_and] at hmod
    rw [bit_eq_testBit, ← hmod]
  simp [hbit]

@[simp] theorem trapFlag_zero (e : Nat) : trapFlag e 0 = none := by simp [trapFlag]

/-! ### Lanes (R56) -/

@[simp] theorem length_lanes (v : Word) (t : Nat) : (lanes v t).length = lanesOf t := by simp [lanes]

theorem lanesOf_pos (t : Nat) : 0 < lanesOf t := by unfold lanesOf; split <;> omega

theorem laneW_mul_lanesOf (t : Nat) : laneW t * lanesOf t ≤ 64 := Nat.div_mul_le_self 64 (lanesOf t)

theorem getElem_lanes (v : Word) (t l : Nat) (h : l < (lanes v t).length) : (lanes v t)[l] = lane v (laneW t) l := by simp [lanes]

/-- Two operands taken lane by lane in the lanes of one tag. -/
theorem zipWith_lanes {α : Type} (f : Nat → Nat → α) (x y : Word) (t : Nat) :
    List.zipWith f (lanes x t) (lanes y t) = (upFrom 0 (lanesOf t)).map (fun l => f (lane x (laneW t) l) (lane y (laneW t) l)) := by
  rw [lanes, lanes, List.zipWith_map, List.zipWith_self]

theorem map_lanes {α : Type} (f : Nat → α) (x : Word) (t : Nat) :
    (lanes x t).map f = (upFrom 0 (lanesOf t)).map (fun l => f (lane x (laneW t) l)) := by
  rw [lanes, List.map_map]; rfl

/-- A lane of a payload of equal lanes. -/
theorem lane_splat {w n l : Nat} (x : Nat) (h : w * n ≤ 64) (hl : l < n) : lane (splat w n x) w l = x % 2 ^ w := by
  rw [splat, lane_joinW _ _ _ (by simpa using h), lget_eq_getElem _ _ _ (by simpa using hl), List.getElem_replicate]

theorem lane_mod (v : Word) (w l : Nat) : lane v w l % 2 ^ w = lane v w l := Nat.mod_eq_of_lt (lane_lt v w l)

theorem wrapNat_lt (w : Nat) (i : Int) : wrapNat w i < 2 ^ w := by
  have hpos : 0 < ((2 ^ w : Nat) : Int) := Int.natCast_pos.2 (Nat.two_pow_pos w)
  have h0 := Int.emod_nonneg i (Int.ne_of_gt hpos)
  have h1 := Int.emod_lt_of_pos i hpos
  unfold wrapNat
  omega

theorem wrapNat_mod (w : Nat) (i : Int) : wrapNat w i % 2 ^ w = wrapNat w i := Nat.mod_eq_of_lt (wrapNat_lt w i)

/-! ### The end of a computing firing (R64) -/

/-- The FMT of a word that passes the checks of R145 is one that the entry accepts. -/
theorem fmtMask_of_wordFault {opc : Nat} {rm : BitVec 3} {w : PeWord} (h : wordFault opc rm w = none) :
    (opRule opc w.sub.toNat).fmtMask.testBit w.fmt.toNat = true := by
  unfold wordFault at h
  by_contra hmask
  simp only [Bool.not_eq_true] at hmask
  split at h
  · cases h
  · simp [hmask] at h

theorem fmtMask_of_go {opc : Nat} {w : PeWord} {s s1 : State} {ok : UnitSt → Token → Bool} {more : PeCtx → Bool} {uid key : Nat} {g : Gathered}
    (h : prepFire opc w s ok more = .go s1 uid key g) : (opRule opc w.sub.toNat).fmtMask.testBit w.fmt.toNat = true := by
  obtain ⟨_, _, _, hword, _⟩ := prepFire_go h
  exact fmtMask_of_wordFault hword

section
variable {i : Instr} {r : CalcRow} {s s1 : State} {uid key : Nat} {g : Gathered} {v : Word} {t : Nat} {fl : List (Nat × Nat)}

/-- A firing that raises no flag completes whatever traps are enabled. -/
theorem exec_plain (hrow : calcRow i = some r) (hfires : Fires r s s1 uid key g) (hcalc : r.f r.w g.env g.a g.b g.c = plain v t) :
    exec i s = .next (afterCalc s1 uid key r.w g v t 0) :=
  computingRowsComplete i r s s1 uid key g v t [] hrow hfires hcalc (trapFlag_zero _)

/-- A firing with no trap enabled completes whatever flags it raises. -/
theorem exec_untrapped (hrow : calcRow i = some r) (hfires : Fires r s s1 uid key g) (huctl : (s1.unit uid).uctl.toNat % 32 = 0)
    (hcalc : r.f r.w g.env g.a g.b g.c = .ok v t fl) : exec i s = .next (afterCalc s1 uid key r.w g v t (flagUnion fl)) :=
  computingRowsComplete i r s s1 uid key g v t fl hrow hfires hcalc (trapFlag_of_disabled _ huctl)

/-- An operation whose operands raise a cause takes it. -/
theorem exec_calcTrap {c : Nat} {d : Word} (hrow : calcRow i = some r) (hfires : Fires r s s1 uid key g)
    (hcalc : r.f r.w g.env g.a g.b g.c = .trap c d) : exec i s = .next (s1.faultAt uid key (raise c g.tok d)) := by
  rw [exec_calcRow hrow, fireCalcIf_go hfires, hcalc]
  rfl

/-- An enabled trap keeps the flags and takes the lowest cause. -/
theorem exec_flagTrap {k : Nat} (hrow : calcRow i = some r) (hfires : Fires r s s1 uid key g)
    (hcalc : r.f r.w g.env g.a g.b g.c = .ok v t fl) (htrap : trapFlag (s1.unit uid).uctl.toNat (flagUnion fl) = some k) :
    exec i s = .next ((s1.modUnit uid (fun u => u.raiseFlags (flagUnion fl))).faultAt uid key
      (raise (0x040 + k) g.tok (wd (flagLanes fl k)))) := by
  rw [exec_calcRow hrow, fireCalcIf_go hfires, hcalc]
  simp only [finishCalc, htrap]

/-- Lane `l` of the result of a lane-by-lane operation has the value of its own operands. -/
theorem lane_laneResults {n : Nat} (f : Nat → Nat × Nat) {m l : Nat} (hn : n * m ≤ 64) (hl : l < m) :
    lane (joinW n (((upFrom 0 m).map f).map Prod.fst)) n l = (f l).1 % 2 ^ n := by
  rw [lane_joinW _ _ _ (by simpa using hn), List.map_map, lget_map_upFrom _ _ _ _ _ hl, Nat.zero_add]
  rfl

/-- The flags of a lane-by-lane operation are the union of what its lanes raise. -/
theorem bit_flagUnion_laneResults (rs : List (Nat × Nat)) (k : Nat) :
    bit (flagUnion ((rs.zip (upFrom 0 rs.length)).filterMap (fun p => if p.1.2 = 0 then none else some (2 ^ p.2, p.1.2)))) k = true ↔
      ∃ r ∈ rs, bit r.2 k = true := by
  rw [bit_flagUnion_filterMap (fun p => 2 ^ p.2) (fun p : (Nat × Nat) × Nat => p.1.2), ← List.any_eq_true]
  have hfst : (rs.zip (upFrom 0 rs.length)).map Prod.fst = rs := List.map_fst_zip (by simp)
  conv_rhs => rw [← hfst, List.any_map]
  rfl

/-- A lane-by-lane firing with no trap enabled: every lane has its own value, and the flags are those that the lanes raise. -/
theorem exec_laneCalc {n m : Nat} {f : Nat → Nat × Nat} (hrow : calcRow i = some r) (hfires : Fires r s s1 uid key g)
    (huctl : (s1.unit uid).uctl.toNat % 32 = 0) (hn : n * m ≤ 64)
    (hcalc : r.f r.w g.env g.a g.b g.c = laneCalc n t ((upFrom 0 m).map f)) :
    ∃ (v : Word) (fl : Nat), exec i s = .next (afterCalc s1 uid key r.w g v t fl) ∧
      (∀ l, l < m → lane v n l = (f l).1 % 2 ^ n) ∧
      (∀ l, m ≤ l → lane v n l = 0) ∧
      (∀ k, bit fl k = true ↔ ∃ l, l < m ∧ bit (f l).2 k = true) := by
  refine ⟨_, _, exec_untrapped hrow hfires huctl hcalc, fun l hl => lane_laneResults f hn hl, fun l hl => ?_, fun k => ?_⟩
  · rw [lane_joinW _ _ _ (by simpa using hn), lget_of_length_le _ _ _ (by simpa using hl), Nat.zero_mod]
  · rw [bit_flagUnion_laneResults]
    simp [mem_upFrom]
end

/-- Settles O10: the row's function has raised the flag, and the trap is the lowest that is enabled. -/
theorem enabledTrapsHoldTheFiring : Obligations.EnabledTrapsHoldTheFiring := by
  unfold Obligations.EnabledTrapsHoldTheFiring
  intro i r s s1 uid key g v t k fl hrow hfires hcalc htrap
  exact ⟨exec_flagTrap hrow hfires hcalc htrap, trapFlag_eq_some htrap⟩

end Sys2Proof.Proofs

/-! PROOFS. Floating-point arithmetic lane by lane (R63, R200 to R205). -/

namespace Sys2Proof.Proofs

open Sys2Proof Sys2Proof.Machine Sys2Proof.Laws Sys2Proof.Claims

/-- A row whose function is lane-by-lane in its operands' lanes, on the formats that its entry accepts. -/
theorem flagRow_of_calc {i : PeWord → Instr} {tag : PeWord → Nat} {F : PeWord → Env → Nat → Nat → Nat → Nat × Nat} {opc : Nat} {f : CalcFn}
    (hrow : ∀ w, calcRow (i w) = some { opc := opc, f := f, w := w })
    (hwidth : ∀ w, laneW (tag w) * lanesOf w.fmt.toNat ≤ 64)
    (hcalc : ∀ w env a b c, (opRule opc w.sub.toNat).fmtMask.testBit w.fmt.toNat = true →
      f w env a b c = laneCalc (laneW (tag w)) (tag w) ((upFrom 0 (lanesOf w.fmt.toNat)).map (fun l =>
        F w env (opLane a w.fmt.toNat l) (opLane b w.fmt.toNat l) (opLane c w.fmt.toNat l)))) : FlagRow i tag F := by
  intro w r s s1 uid key g hr hfires huctl
  obtain rfl : _ = r := Option.some.inj ((hrow w).symm.trans hr)
  obtain ⟨v, fl, hexec, hlane, _, hflag⟩ := exec_laneCalc hr hfires huctl (hwidth w) (hcalc w g.env g.a g.b g.c (fmtMask_of_go hfires))
  exact ⟨v, fl, hexec, hlane, fun k _ => hflag k⟩

/-- The same with the result in the lanes of FMT. -/
theorem flagRow_of_fmt {i : PeWord → Instr} {F : PeWord → Env → Nat → Nat → Nat → Nat × Nat} {opc : Nat} {f : CalcFn}
    (hrow : ∀ w, calcRow (i w) = some { opc := opc, f := f, w := w })
    (hcalc : ∀ w env a b c, (opRule opc w.sub.toNat).fmtMask.testBit w.fmt.toNat = true →
      f w env a b c = laneCalc (laneW w.fmt.toNat) w.fmt.toNat ((upFrom 0 (lanesOf w.fmt.toNat)).map (fun l =>
        F w env (opLane a w.fmt.toNat l) (opLane b w.fmt.toNat l) (opLane c w.fmt.toNat l)))) : FlagRow i (fun w => w.fmt.toNat) F :=
  flagRow_of_calc hrow (fun w => laneW_mul_lanesOf w.fmt.toNat) hcalc

/-- An operation of two operands with one result stage (R63). -/
theorem laneFp2_eq (w : PeWord) (env : Env) (f : Nat → FpVal → FpVal → FpVal × Nat) (a b : Opnd) :
    laneFp2 w env f a b = laneCalc (laneW w.fmt.toNat) w.fmt.toNat ((upFrom 0 (lanesOf w.fmt.toNat)).map (fun l =>
      let r := f (modeOf w env) (fpLane (fziBit w) w.fmt.toNat (opLane a w.fmt.toNat l)) (fpLane (fziBit w) w.fmt.toNat (opLane b w.fmt.toNat l))
      roundLane w env w.fmt.toNat r.1 r.2)) := by
  simp only [laneFp2, zipWith_lanes, opLane]

/-- A fused operation with one result stage (R200). -/
theorem laneFma_eq (w : PeWord) (env : Env) (negP negC : Bool) (a b c : Opnd) :
    laneFma w env negP negC a b c = laneCalc (laneW w.fmt.toNat) w.fmt.toNat ((upFrom 0 (lanesOf w.fmt.toNat)).map (fun l =>
      let r := fmaExact negP negC (modeOf w env) (fpLane (fziBit w) w.fmt.toNat (opLane a w.fmt.toNat l))
        (fpLane (fziBit w) w.fmt.toNat (opLane b w.fmt.toNat l)) (fpLane (fziBit w) w.fmt.toNat (opLane c w.fmt.toNat l))
      roundLane w env w.fmt.toNat r.1 r.2)) := by
  simp only [laneFma, lanes, List.zip, List.zipWith_map, List.zipWith_self, opLane]

/-- Minimum and maximum (R202). -/
theorem laneMinMax_eq (w : PeWord) (isMax : Bool) (a b : Opnd) :
    laneMinMax w isMax a b = laneCalc (laneW w.fmt.toNat) w.fmt.toNat ((upFrom 0 (lanesOf w.fmt.toNat)).map (fun l =>
      minMaxCode (ffmtOf w.fmt.toNat) isMax (fzoBit w) (fziCode (ffmtOf w.fmt.toNat) (fziBit w) (opLane a w.fmt.toNat l))
        (fziCode (ffmtOf w.fmt.toNat) (fziBit w) (opLane b w.fmt.toNat l)))) := by
  simp only [laneMinMax, zipWith_lanes, opLane]

/-- An estimate rounded to its bits (R205). -/
theorem laneEst_eq (w : PeWord) (f : FpVal → FpVal × Nat) (a : Opnd) :
    laneEst w f a = laneCalc (laneW w.fmt.toNat) w.fmt.toNat ((upFrom 0 (lanesOf w.fmt.toNat)).map (fun l =>
      let r := f (fpLane (fziBit w) w.fmt.toNat (opLane a w.fmt.toNat l))
      let d := deliverFp (ffmtOf w.fmt.toNat) 0 false false (roundSig (estBits w.fmt.toNat) r.1)
      (d.1, d.2 ||| r.2))) := by
  simp only [laneEst, map_lanes, opLane]

theorem calcFsqrt_eq (w : PeWord) (env : Env) (a b c : Opnd) :
    calcFsqrt w env a b c = laneCalc (laneW w.fmt.toNat) w.fmt.toNat ((upFrom 0 (lanesOf w.fmt.toNat)).map (fun l =>
      let r := sqrtExact (fpLane (fziBit w) w.fmt.toNat (opLane a w.fmt.toNat l)); roundLane w env w.fmt.toNat r.1 r.2)) := by
  simp only [calcFsqrt, map_lanes, opLane]

/-- FCMP has one bit for each lane of its operands (R203). -/
theorem calcFcmp_eq (w : PeWord) (env : Env) (a b c : Opnd) :
    calcFcmp w env a b c = laneCalc (laneW 13) 13 ((upFrom 0 (lanesOf w.fmt.toNat)).map (fun l =>
      fcmpLane (w.sub.toNat % 4) (fpLane (fziBit w) w.fmt.toNat (opLane a w.fmt.toNat l)) (fpLane (fziBit w) w.fmt.toNat (opLane b w.fmt.toNat l)))) := by
  simp only [calcFcmp, zipWith_lanes, opLane]
  rfl

theorem lanesOf_le (t : Nat) : lanesOf t ≤ 64 := by unfold lanesOf; split <;> omega

theorem laneW_predicate_mul_lanesOf (w : PeWord) : laneW 13 * lanesOf w.fmt.toNat ≤ 64 := by
  simpa [show laneW 13 = 1 from rfl] using lanesOf_le w.fmt.toNat

/-- A lane of one bit is a bit. -/
theorem getLsbD_eq_lane_one (v : Word) (l : Nat) : v.getLsbD l = (lane v 1 l == 1) := by
  rw [BitVec.getLsbD, ← bit_eq_testBit]
  simp [lane, bit]

/-- Settles O15: each row is one function of its lanes, and an unset lane of a predicate is 0. -/
theorem floatArithmeticLanes : Obligations.FloatArithmeticLanes := by
  unfold Obligations.FloatArithmeticLanes
  refine ⟨?fadd, ?fsub, ?fmul, ?fdiv, ?fma, ?fms, ?fnma, ?fsqrt, ?fmin, ?fmax, ?frcpe, ?frsqe, ?fcmp, ?beyond⟩
  case fadd => exact flagRow_of_fmt (fun _ => rfl) (fun w env a b _ _ => laneFp2_eq w env addExact a b)
  case fsub => exact flagRow_of_fmt (fun _ => rfl) (fun w env a b _ _ => laneFp2_eq w env (fun m x y => addExact m x y.negate) a b)
  case fmul => exact flagRow_of_fmt (fun _ => rfl) (fun w env a b _ _ => laneFp2_eq w env mulExact a b)
  case fdiv => exact flagRow_of_fmt (fun _ => rfl) (fun w env a b _ _ => laneFp2_eq w env divExact a b)
  case fma => exact flagRow_of_fmt (fun _ => rfl) (fun w env a b c _ => laneFma_eq w env false false a b c)
  case fms => exact flagRow_of_fmt (fun _ => rfl) (fun w env a b c _ => laneFma_eq w env false true a b c)
  case fnma => exact flagRow_of_fmt (fun _ => rfl) (fun w env a b c _ => laneFma_eq w env true false a b c)
  case fsqrt => exact flagRow_of_fmt (fun _ => rfl) (fun w env a b c _ => calcFsqrt_eq w env a b c)
  case fmin => exact flagRow_of_fmt (fun _ => rfl) (fun w _ a b _ _ => laneMinMax_eq w false a b)
  case fmax => exact flagRow_of_fmt (fun _ => rfl) (fun w _ a b _ _ => laneMinMax_eq w true a b)
  case frcpe => exact flagRow_of_fmt (fun _ => rfl) (fun w _ a _ _ _ => laneEst_eq w rcpExact a)
  case frsqe => exact flagRow_of_fmt (fun _ => rfl) (fun w _ a _ _ _ => laneEst_eq w rsqExact a)
  case fcmp => exact flagRow_of_calc (fun _ => rfl) laneW_predicate_mul_lanesOf (fun w env a b c _ => calcFcmp_eq w env a b c)
  case beyond =>
    intro w s s1 uid key g hgo huctl
    obtain ⟨v, fl, hexec, _, hbeyond, _⟩ := exec_laneCalc (i := .fcmp w) rfl hgo huctl (laneW_predicate_mul_lanesOf w) (calcFcmp_eq w g.env g.a g.b g.c)
    refine ⟨v, fl, hexec, fun l hl => ?_⟩
    rw [getLsbD_eq_lane_one, show lane v 1 l = 0 from hbeyond l hl]
    rfl

end Sys2Proof.Proofs

/-! PROOFS. Conversions, codebook lookups, lane reductions and repacking (R75, R206 to R223). -/

namespace Sys2Proof.Proofs

open Sys2Proof Sys2Proof.Machine Sys2Proof.Laws Sys2Proof.Claims

/-! ### Parts of a list of lanes -/

theorem take_upFrom (a n k : Nat) : (upFrom a n).take k = upFrom a (min k n) :=
  List.ext_getElem (by simp) (by simp)

theorem drop_upFrom (a n k : Nat) : (upFrom a n).drop k = upFrom (a + k) (n - k) :=
  List.ext_getElem (by simp) (by simp [Nat.add_assoc])

theorem lanes_eq_cons (v : Word) (t : Nat) : lanes v t = lane v (laneW t) 0 :: (upFrom 1 (lanesOf t - 1)).map (lane v (laneW t)) := by
  obtain ⟨n, hn⟩ : ∃ n, lanesOf t = n + 1 := ⟨lanesOf t - 1, by have := lanesOf_pos t; omega⟩
  rw [lanes, hn]
  rfl

theorem mem_lanes {v : Word} {t c : Nat} : c ∈ lanes v t ↔ ∃ m, m < lanesOf t ∧ c = lane v (laneW t) m := by
  simp [lanes, mem_upFrom, eq_comm]

/-- The lanes of a payload with their numbers. -/
theorem zip_lanes (v : Word) (t : Nat) : (lanes v t).zip (upFrom 0 (lanesOf t)) = (upFrom 0 (lanesOf t)).map (fun l => (lane v (laneW t) l, l)) := by
  rw [lanes, List.zip_map_left, List.zip, List.zipWith_self, List.map_map]
  rfl

/-- The lanes of two payloads, one after the other (R221). -/
theorem lanes_append_lanes (x y : Word) (t : Nat) : lanes x t ++ lanes y t = (upFrom 0 (2 * lanesOf t)).map (fun l =>
    if l < lanesOf t then lane x (laneW t) l else lane y (laneW t) (l - lanesOf t)) := by
  refine List.ext_getElem (by simp [Nat.two_mul]) (fun l _ _ => ?_)
  simp only [List.getElem_append, length_lanes, getElem_lanes, List.getElem_map, getElem_upFrom, Nat.zero_add]
  rfl

/-- The `n` lanes of a payload from lane `d` on (R222). -/
theorem take_drop_lanes (x : Word) {t d n : Nat} (h : d + n ≤ lanesOf t) :
    ((lanes x t).drop d).take n = (upFrom 0 n).map (fun l => lane x (laneW t) (d + l)) := by
  refine List.ext_getElem (by simp; omega) (fun l _ _ => ?_)
  simp [getElem_lanes]

/-- Lane `l` of a result that raises no flag. -/
theorem lane_joinW_map {n m l : Nat} (f : Nat → Nat) (hn : n * m ≤ 64) (hl : l < m) :
    lane (joinW n ((upFrom 0 m).map f)) n l = f l % 2 ^ n := by
  rw [lane_joinW _ _ _ (by simpa using hn), lget_map_upFrom _ _ _ _ _ hl, Nat.zero_add]

/-! ### Conversions (R206 to R212, R223) -/

theorem calcFclass_eq (w : PeWord) (env : Env) (a b c : Opnd) :
    calcFclass w env a b c = plain (joinW (laneW w.fmt.toNat) ((upFrom 0 (lanesOf w.fmt.toNat)).map (fun l =>
      2 ^ fclassBit (ffmtOf w.fmt.toNat) (opLane a w.fmt.toNat l)))) (intTagOf w.fmt.toNat) := by
  simp only [calcFclass, map_lanes, opLane]

/-- A conversion takes the lanes that its source and FMT both have (R207). -/
theorem convLanes_eq (w : PeWord) (a : Opnd) (f : Nat → Nat × Nat) :
    convLanes w a f = laneCalc (laneW w.fmt.toNat) w.fmt.toNat
      ((upFrom 0 (min (lanesOf w.fmt.toNat) (lanesOf a.t))).map (fun l => f (opLane a a.t l))) := by
  simp only [convLanes, lanes, ← List.map_take, take_upFrom, List.map_map]
  rfl

/-- A row that converts lane by lane. -/
theorem convRow_of_calc {i : PeWord → Instr} {F : PeWord → Env → Nat → Nat → Nat × Nat} {opc : Nat} {f : CalcFn}
    (hrow : ∀ w, calcRow (i w) = some { opc := opc, f := f, w := w }) (hcalc : ∀ w env a b c, f w env a b c = convLanes w a (F w env a.t)) :
    ConvRow i F := by
  intro w r s s1 uid key g hr hfires huctl
  obtain rfl : _ = r := Option.some.inj ((hrow w).symm.trans hr)
  have hwidth : laneW w.fmt.toNat * min (lanesOf w.fmt.toNat) (lanesOf g.a.t) ≤ 64 :=
    Nat.le_trans (Nat.mul_le_mul_left _ (Nat.min_le_left _ _)) (laneW_mul_lanesOf w.fmt.toNat)
  obtain ⟨v, fl, hexec, hlane, hrest, hflag⟩ := exec_laneCalc hr hfires huctl hwidth ((hcalc w g.env g.a g.b g.c).trans (convLanes_eq w g.a _))
  refine ⟨v, fl, hexec, fun l hl => ?_, fun k _ => ?_⟩
  · split
    · next hsrc => exact hlane l (Nat.lt_min.2 ⟨hl, hsrc⟩)
    · next hsrc => exact hrest l (Nat.le_trans (Nat.min_le_right _ _) (Nat.le_of_not_lt hsrc))
  · simp only [hflag, Nat.lt_min, and_assoc]

theorem calcFrnd_eq (w : PeWord) (env : Env) (a b c : Opnd) :
    calcFrnd w env a b c = laneCalc (laneW w.fmt.toNat) w.fmt.toNat ((upFrom 0 (lanesOf w.fmt.toNat)).map (fun l =>
      frndLane (ffmtOf w.fmt.toNat) (modeOf w env) (fziCode (ffmtOf w.fmt.toNat) (fziBit w) (opLane a w.fmt.toNat l)))) := by
  simp only [calcFrnd, map_lanes, opLane]

/-- On the formats of FSCALE the scales stand in lanes as many as those of FMT (R223). -/
theorem lanesOf_intTagOf : ∀ t < 16, fFlt.testBit t = true → lanesOf (intTagOf t) = lanesOf t := by decide

theorem lanes_intTagOf (v : Word) {w : PeWord} (h : fFlt.testBit w.fmt.toNat = true) : lanes v (intTagOf w.fmt.toNat) = lanes v w.fmt.toNat := by
  simp only [lanes, laneW, lanesOf_intTagOf w.fmt.toNat w.fmt.isLt h]

/-! ### Codebooks (R213 to R215) -/

theorem calcCbd_eq {env : Env} (w : PeWord) (a b c : Opnd) (h : tableFault env.ereg = none) :
    calcCbd w env a b c = plain (joinW 16 ((upFrom 0 4).map (fun l => tableEntry env.ereg (lane a.v 4 (4 * (b.v.toNat % 4) + l))))) 8 := by
  simp only [calcCbd, h]

/-- CBE replaces the lanes of its quarter of c (R215). -/
theorem cbeLanes_eq (x : Word) (f : Nat → Nat) {q : Nat} (hq : q < 4) (y : Word) :
    (lanes y 12).take (4 * q) ++ (lanes x 8).map f ++ (lanes y 12).drop (4 * q + 4) = (upFrom 0 16).map (fun l =>
      if 4 * q ≤ l ∧ l < 4 * q + 4 then f (lane x 16 (l - 4 * q)) else lane y 4 l) := by
  have hx : lanesOf 8 = 4 := rfl
  have hy : lanesOf 12 = 16 := rfl
  refine List.ext_getElem (by simp [hx, hy]; omega) (fun l _ _ => ?_)
  simp only [List.getElem_append, List.getElem_map, getElem_upFrom, Nat.zero_add, List.getElem_take, List.getElem_drop, getElem_lanes,
    List.length_append, List.length_take, List.length_map, length_lanes, hx, hy]
  rcases Nat.lt_or_ge l (4 * q) with hlt | hge
  · have h1 : l < min (4 * q) 16 + 4 := by omega
    have h2 : l < min (4 * q) 16 := by omega
    rw [dif_pos h1, dif_pos h2, if_neg (by omega)]
    rfl
  · rcases Nat.lt_or_ge l (4 * q + 4) with hmid | hbeyond
    · have h1 : l < min (4 * q) 16 + 4 := by omega
      have h2 : ¬ l < min (4 * q) 16 := by omega
      rw [dif_pos h1, dif_neg h2, if_pos ⟨hge, hmid⟩, show l - min (4 * q) 16 = l - 4 * q by omega]
      rfl
    · have h1 : ¬ l < min (4 * q) 16 + 4 := by omega
      rw [dif_neg h1, if_neg (by omega), show 4 * q + 4 + (l - (min (4 * q) 16 + 4)) = l by omega]
      rfl

/-- The table of CBE as values (R215). -/
def bookOf (er : List EReg) : List FpVal := (upFrom 0 16).map (fun k => decodeFp fmtBf16 (tableEntry er k))

/-- What CBE finds for its lanes. -/
def cbeResults (er : List EReg) (x : Word) : List (Nat × Nat) := (lanes x 8).map (fun c => cbeLane (bookOf er) (decodeFp fmtBf16 c))

theorem calcCbe_eq {env : Env} (w : PeWord) (a b c : Opnd) (h : tableFault env.ereg = none) :
    calcCbe w env a b c = .ok (joinW 4 ((upFrom 0 16).map (fun l =>
        if 4 * (b.v.toNat % 4) ≤ l ∧ l < 4 * (b.v.toNat % 4) + 4
          then (cbeLane (bookOf env.ereg) (decodeFp fmtBf16 (lane a.v 16 (l - 4 * (b.v.toNat % 4))))).1 else lane c.v 4 l))) 12
      (((cbeResults env.ereg a.v).zip (upFrom 0 (cbeResults env.ereg a.v).length)).filterMap (fun p => if p.1.2 = 0 then none else some (2 ^ p.2, p.1.2))) := by
  simp only [calcCbe, h]
  rw [← cbeLanes_eq a.v (fun x => (cbeLane (bookOf env.ereg) (decodeFp fmtBf16 x)).1) (Nat.mod_lt _ (by decide)) c.v]
  simp only [cbeResults, bookOf, List.map_map, List.length_map, length_lanes]
  rfl

theorem calcTable_trap {env : Env} {c : Nat} {d : Word} (w : PeWord) (x y z : Opnd) (h : tableFault env.ereg = some (c, d)) :
    calcCbd w env x y z = .trap c d ∧ calcCbe w env x y z = .trap c d := by
  simp only [calcCbd, calcCbe, h, and_self]

/-! ### LSUM (R75, R216) -/

section
variable (f : Nat → Nat → Nat × Nat)

/-- The tree reads the lanes it spans. -/
theorem treeSum_congr {x y : Nat → Nat} (k : Nat) {l : Nat} (h : ∀ i, l ≤ i → i < l + 2 ^ k → x i = y i) : treeSum f x k l = treeSum f y k l := by
  induction k generalizing l with
  | zero => exact h l (Nat.le_refl l) (by omega)
  | succ k ih =>
    have hpow : 2 ^ (k + 1) = 2 ^ k + 2 ^ k := by rw [Nat.pow_succ]; omega
    rw [treeSum, treeSum, ih (fun i h1 h2 => h i h1 (by omega)), ih (fun i h1 h2 => h i (by omega) (by omega))]

theorem treeRaises_congr {x y : Nat → Nat} (b k : Nat) {l : Nat} (h : ∀ i, l ≤ i → i < l + 2 ^ k → x i = y i) :
    treeRaises f x b k l = treeRaises f y b k l := by
  induction k generalizing l with
  | zero => rfl
  | succ k ih =>
    have hpow : 2 ^ (k + 1) = 2 ^ k + 2 ^ k := by rw [Nat.pow_succ]; omega
    have hleft : ∀ i, l ≤ i → i < l + 2 ^ k → x i = y i := fun i h1 h2 => h i h1 (by omega)
    have hright : ∀ i, l + 2 ^ k ≤ i → i < l + 2 ^ k + 2 ^ k → x i = y i := fun i h1 h2 => h i (by omega) (by omega)
    rw [treeRaises, treeRaises, ih hleft, ih hright, treeSum_congr f k hleft, treeSum_congr f k hright]

/-- The sums of neighbours. -/
def pairSum (x : Nat → Nat) (i : Nat) : Nat := (f (x (2 * i)) (x (2 * i + 1))).1

/-- A tree over the sums of neighbours is the tree one level deeper. -/
theorem treeSum_pairSum (x : Nat → Nat) (k l : Nat) : treeSum f (pairSum f x) k l = treeSum f x (k + 1) (2 * l) := by
  induction k generalizing l with
  | zero => rfl
  | succ k ih =>
    have hmid : 2 * l + 2 ^ (k + 1) = 2 * (l + 2 ^ k) := by rw [Nat.pow_succ]; omega
    calc treeSum f (pairSum f x) (k + 1) l = (f (treeSum f (pairSum f x) k l) (treeSum f (pairSum f x) k (l + 2 ^ k))).1 := rfl
      _ = (f (treeSum f x (k + 1) (2 * l)) (treeSum f x (k + 1) (2 * l + 2 ^ (k + 1)))).1 := by rw [ih, ih, hmid]

/-- What a tree raises: the additions of neighbours, and those of the tree over their sums. -/
theorem treeRaises_pairSum (x : Nat → Nat) (b k l : Nat) : treeRaises f x b (k + 1) (2 * l) = true ↔
    treeRaises f (pairSum f x) b k l = true ∨ ∃ i, l ≤ i ∧ i < l + 2 ^ k ∧ bit (f (x (2 * i)) (x (2 * i + 1))).2 b = true := by
  induction k generalizing l with
  | zero =>
    simp only [treeRaises, treeSum, Bool.false_or, Bool.false_eq_true, false_or, Nat.pow_zero]
    refine ⟨fun h => ⟨l, Nat.le_refl l, Nat.lt_succ_self l, h⟩, fun ⟨i, h1, h2, h⟩ => ?_⟩
    rwa [Nat.le_antisymm (Nat.le_of_lt_succ h2) h1] at h
  | succ k ih =>
    have hpow : 2 ^ (k + 1) = 2 ^ k + 2 ^ k := by rw [Nat.pow_succ]; omega
    have hmid : 2 * l + 2 ^ (k + 1) = 2 * (l + 2 ^ k) := by omega
    have hdeep : treeRaises f x b (k + 1 + 1) (2 * l) = (treeRaises f x b (k + 1) (2 * l) || treeRaises f x b (k + 1) (2 * (l + 2 ^ k)) ||
        bit (f (treeSum f (pairSum f x) k l) (treeSum f (pairSum f x) k (l + 2 ^ k))).2 b) := by
      rw [treeSum_pairSum, treeSum_pairSum, ← hmid]
      rfl
    have hpairs : treeRaises f (pairSum f x) b (k + 1) l = (treeRaises f (pairSum f x) b k l || treeRaises f (pairSum f x) b k (l + 2 ^ k) ||
        bit (f (treeSum f (pairSum f x) k l) (treeSum f (pairSum f x) k (l + 2 ^ k))).2 b) := rfl
    rw [hdeep, hpairs]
    simp only [Bool.or_eq_true, ih]
    constructor
    · rintro (((h | ⟨i, h1, h2, h⟩) | (h | ⟨i, h1, h2, h⟩)) | h)
      · exact .inl (.inl (.inl h))
      · exact .inr ⟨i, h1, by omega, h⟩
      · exact .inl (.inl (.inr h))
      · exact .inr ⟨i, by omega, by omega, h⟩
      · exact .inl (.inr h)
    · rintro (((h | h) | h) | ⟨i, h1, h2, h⟩)
      · exact .inl (.inl (.inl h))
      · exact .inl (.inr (.inl h))
      · exact .inr h
      · rcases Nat.lt_or_ge i (l + 2 ^ k) with hi | hi
        · exact .inl (.inl (.inr ⟨i, h1, hi, h⟩))
        · exact .inl (.inr (.inr ⟨i, hi, by omega, h⟩))

/-- The codes of a list of codes with their masks. -/
def codeAt (xs : List (Nat × Nat)) (i : Nat) : Nat := (lget xs i (0, 0)).1

/-- One level of the model's tree adds neighbours. -/
theorem lsumLevel_spec (b m : Nat) (xs : List (Nat × Nat)) (h : xs.length = 2 * m) :
    (lsumLevel f xs).1.length = m ∧ (∀ i, i < m → codeAt (lsumLevel f xs).1 i = pairSum f (codeAt xs) i) ∧
      (bit (flagUnion (lsumLevel f xs).2) b = true ↔ ∃ i, i < m ∧ bit (f (codeAt xs (2 * i)) (codeAt xs (2 * i + 1))).2 b = true) := by
  induction m generalizing xs with
  | zero =>
    obtain rfl : xs = [] := List.eq_nil_of_length_eq_zero h
    refine ⟨rfl, fun i hi => absurd hi (Nat.not_lt_zero i), ?_⟩
    simp [lsumLevel, bit_flagUnion]
  | succ m ih =>
    match xs, h with
    | (x, mx) :: (y, my) :: r, h =>
      obtain ⟨hlen, hcode, hflag⟩ := ih r (by simp only [List.length_cons] at h; omega)
      refine ⟨by simp [lsumLevel, hlen], fun i hi => ?_, ?_⟩
      · cases i with
        | zero => rfl
        | succ i => exact hcode i (Nat.lt_of_succ_lt_succ hi)
      · have hstep : bit (flagUnion (lsumLevel f ((x, mx) :: (y, my) :: r)).2) b =
            (bit (f x y).2 b || bit (flagUnion (lsumLevel f r).2) b) := by
          by_cases hz : (f x y).2 = 0 <;> simp [lsumLevel, hz, bit_flagUnion]
        rw [hstep, Bool.or_eq_true, hflag]
        constructor
        · rintro (h0 | ⟨i, hi, h1⟩)
          · exact ⟨0, Nat.succ_pos m, h0⟩
          · exact ⟨i + 1, Nat.succ_lt_succ hi, h1⟩
        · rintro ⟨i, hi, h1⟩
          cases i with
          | zero => exact .inl h1
          | succ i => exact .inr ⟨i, Nat.lt_of_succ_lt_succ hi, h1⟩

/-- The model's tree is that of R75, with the flags of its additions. -/
theorem lsumTree_spec (b k : Nat) (xs : List (Nat × Nat)) (h : xs.length = 2 ^ k) :
    (lsumTree f k xs).1 = treeSum f (codeAt xs) k 0 ∧ bit (flagUnion (lsumTree f k xs).2) b = treeRaises f (codeAt xs) b k 0 := by
  induction k generalizing xs with
  | zero =>
    match xs, h with
    | [p], _ => exact ⟨rfl, by simp [lsumTree, flagUnion, treeRaises]⟩
  | succ k ih =>
    obtain ⟨hlen, hcode, hflag⟩ := lsumLevel_spec f b (2 ^ k) xs (by rw [h, Nat.pow_succ, Nat.mul_comm])
    obtain ⟨hsum, hraise⟩ := ih (lsumLevel f xs).1 hlen
    have hspan : ∀ i, 0 ≤ i → i < 0 + 2 ^ k → codeAt (lsumLevel f xs).1 i = pairSum f (codeAt xs) i := fun i _ hi => hcode i (by omega)
    refine ⟨?_, ?_⟩
    · calc (lsumTree f (k + 1) xs).1 = treeSum f (codeAt (lsumLevel f xs).1) k 0 := hsum
        _ = treeSum f (pairSum f (codeAt xs)) k 0 := treeSum_congr f k hspan
        _ = treeSum f (codeAt xs) (k + 1) 0 := treeSum_pairSum f (codeAt xs) k 0
    · have happ : bit (flagUnion (lsumTree f (k + 1) xs).2) b =
          (bit (flagUnion (lsumLevel f xs).2) b || treeRaises f (pairSum f (codeAt xs)) b k 0) := by
        rw [← treeRaises_congr f b k hspan, ← hraise]
        simp [lsumTree, bit_flagUnion]
      rw [happ, Bool.eq_iff_iff, Bool.or_eq_true, hflag]
      have htree := treeRaises_pairSum f (codeAt xs) b k 0
      simp only [Nat.zero_le, true_and, Nat.zero_add, Nat.mul_zero] at htree
      rw [htree, or_comm]
end

/-- LSUM of integers is the sum of the lanes in every lane. -/
theorem calcLsum_int {w : PeWord} (env : Env) (a b c : Opnd) (h : w.fmt.toNat ≤ 4) :
    calcLsum w env a b c = plain (splat (laneW w.fmt.toNat) (lanesOf w.fmt.toNat)
      ((upFrom 0 (lanesOf w.fmt.toNat)).map (opLane a w.fmt.toNat)).sum) w.fmt.toNat := by
  simp only [calcLsum, if_pos h, ← List.sum_eq_foldl]
  rfl

/-- One addition of the tree of LSUM, rounded under the word's MOD. -/
def lsumAdd (w : PeWord) (env : Env) (x y : Nat) : Nat × Nat :=
  let r := addExact (modeOf w env) (fpLane (fziBit w) w.fmt.toNat x) (fpLane (fziBit w) w.fmt.toNat y)
  roundLane w env w.fmt.toNat r.1 r.2

/-- The lanes of a payload with their masks. -/
def maskedLanes (v : Word) (t : Nat) : List (Nat × Nat) := (lanes v t).zip ((upFrom 0 (lanesOf t)).map (2 ^ ·))

theorem codeAt_maskedLanes (v : Word) {t l : Nat} (h : l < lanesOf t) : codeAt (maskedLanes v t) l = lane v (laneW t) l := by
  rw [codeAt, maskedLanes, lget_eq_getElem _ _ _ (by simpa using h)]
  simp [getElem_lanes]

/-- LSUM of more than one floating-point lane. -/
theorem calcLsum_tree {w : PeWord} (env : Env) (a b c : Opnd) (h4 : ¬ w.fmt.toNat ≤ 4) (h1 : lanesOf w.fmt.toNat ≠ 1) :
    calcLsum w env a b c = .ok (splat (laneW w.fmt.toNat) (lanesOf w.fmt.toNat)
        (lsumTree (lsumAdd w env) (Nat.log2 (lanesOf w.fmt.toNat)) (maskedLanes a.v w.fmt.toNat)).1) w.fmt.toNat
      (lsumTree (lsumAdd w env) (Nat.log2 (lanesOf w.fmt.toNat)) (maskedLanes a.v w.fmt.toNat)).2 := by
  simp only [calcLsum, if_neg h4, if_neg h1]
  rfl

/-- The formats of LSUM from 6 on have 2 or 4 lanes. -/
theorem lanesOf_lsum : ∀ t < 16, Nat.testBit 0x1FE t = true → 6 ≤ t → lanesOf t ≠ 1 ∧ lanesOf t = 2 ^ Nat.log2 (lanesOf t) := by decide

/-! ### NaNs under FZI (R53, R62) -/

theorem magOf_withSign_zero (F : FFmt) (n : Bool) : magOf F (withSign F n 0) = 0 := by cases n <;> simp [magOf, withSign]

/-- A code less than the least normal is a finite value. -/
theorem decodeFp_subnormal {F : FFmt} {c : Nat} (hF : 2 ^ F.fbits ≤ F.maxMag) (h : magOf F c < 2 ^ F.fbits) :
    decodeFp F c = .fin (signOf F c) (magOf F c % 2 ^ F.fbits) (1 - F.bias - F.fbits) := by
  simp only [decodeFp, if_neg (Nat.not_lt.2 (Nat.le_trans (Nat.le_of_lt h) hF)), Nat.div_eq_of_lt h, if_true]

/-- FZI neither makes nor removes a NaN. -/
theorem decodeFp_fziCode_eq_nan {F : FFmt} (fzi : Bool) (c : Nat) (s : Bool) (hF : 2 ^ F.fbits ≤ F.maxMag) :
    decodeFp F (fziCode F fzi c) = .nan s ↔ decodeFp F c = .nan s := by
  unfold fziCode
  split
  · next h =>
    obtain ⟨_, hlt⟩ : fzi = true ∧ magOf F c < 2 ^ F.fbits := by simpa using h
    rw [decodeFp_subnormal hF hlt, decodeFp_subnormal hF (by rw [magOf_withSign_zero]; exact Nat.two_pow_pos _)]
    simp
  · rfl

/-- LSUM of one binary64 lane: the lane after FZI, or the canonical NaN with NV for a signalling one. -/
theorem calcLsum_f64 {w : PeWord} (env : Env) (a b c : Opnd) (h : w.fmt.toNat = 5) :
    calcLsum w env a b c = if (decodeFp fmtF64 a.v.toNat).isNan
      then .ok (wd fmtF64.cnan) 5 (if (decodeFp fmtF64 a.v.toNat).isSnan then [(1, 1)] else [])
      else plain (wd (fziCode fmtF64 (fziBit w) a.v.toNat)) 5 := by
  have hnan := fun s => decodeFp_fziCode_eq_nan (F := fmtF64) (fziBit w) a.v.toNat s (by decide)
  have hlane : fpLane (fziBit w) 5 a.v.toNat = decodeFp fmtF64 (fziCode fmtF64 (fziBit w) a.v.toNat) := rfl
  simp only [calcLsum, h, hlane, show ¬ (5 ≤ 4) by decide, show lanesOf 5 = 1 from rfl, if_true, if_false]
  split
  · next s heq =>
    rw [(hnan s).1 heq]
    rfl
  · next hne =>
    have hfin : (decodeFp fmtF64 a.v.toNat).isNan = false := by
      cases hx : decodeFp fmtF64 a.v.toNat with
      | nan s => exact absurd ((hnan s).2 hx) (hne s)
      | inf n => rfl
      | fin n m e => rfl
    rw [hfin]
    rfl

/-! ### LDOT (R76, R217) -/

/-- On the formats of LDOT above 6 each of the two result lanes has half of the products. -/
theorem lanesOf_ldot : ∀ t < 16, fFlt11.testBit t = true → ¬ t ≤ 6 → lanesOf t - lanesOf t / 2 = lanesOf t / 2 := by decide

/-- The factors of product `l` of LDOT. -/
def dotPair (w : PeWord) (a b : Opnd) (l : Nat) : FpVal × FpVal :=
  (fpLane (fziBit w) w.fmt.toNat (opLane a w.fmt.toNat l), fpLane (fziBit w) w.fmt.toNat (opLane b w.fmt.toNat l))

/-- The products are divided among the result lanes: all to the one lane, or half to each of two. -/
theorem dotGroups_eq {w : PeWord} (a b : Opnd) {rt : Nat} (hmask : fFlt11.testBit w.fmt.toNat = true) (hrt : rt = if w.fmt.toNat ≤ 6 then 5 else 6) :
    (if w.fmt.toNat ≤ 6 then [(upFrom 0 (lanesOf w.fmt.toNat)).map (dotPair w a b)]
      else [((upFrom 0 (lanesOf w.fmt.toNat)).map (dotPair w a b)).take (lanesOf w.fmt.toNat / 2),
        ((upFrom 0 (lanesOf w.fmt.toNat)).map (dotPair w a b)).drop (lanesOf w.fmt.toNat / 2)]) =
      (upFrom 0 (lanesOf rt)).map (fun j => (upFrom (j * (lanesOf w.fmt.toNat / lanesOf rt)) (lanesOf w.fmt.toNat / lanesOf rt)).map (dotPair w a b)) := by
  subst hrt
  by_cases h6 : w.fmt.toNat ≤ 6
  · simp [h6, upFrom, show lanesOf 5 = 1 from rfl]
  · have hhalf := lanesOf_ldot w.fmt.toNat w.fmt.isLt hmask h6
    simp [h6, upFrom, show lanesOf 6 = 2 from rfl, ← List.map_take, ← List.map_drop, take_upFrom, drop_upFrom, hhalf,
      Nat.min_eq_left (Nat.div_le_self _ 2)]

/-- LDOT is one exact sum with one rounding for each result lane. -/
theorem calcLdot_eq {w : PeWord} (g : Gathered) {rt : Nat} (hmask : fFlt11.testBit w.fmt.toNat = true) (hrt : rt = if w.fmt.toNat ≤ 6 then 5 else 6) :
    calcLdot w g.env g.a g.b g.c = laneCalc (laneW rt) rt ((upFrom 0 (lanesOf rt)).map (dotLane w g rt)) := by
  have hpairs : ((lanes g.a.v w.fmt.toNat).map (fpLane (fziBit w) w.fmt.toNat)).zip ((lanes g.b.v w.fmt.toNat).map (fpLane (fziBit w) w.fmt.toNat)) =
      (upFrom 0 (lanesOf w.fmt.toNat)).map (dotPair w g.a g.b) := by
    simp only [lanes, List.zip, List.zipWith_map, List.zipWith_self]
    rfl
  simp only [calcLdot, hpairs, dotGroups_eq g.a g.b hmask hrt, ← hrt]
  simp only [lanes, List.zipWith_map, List.zipWith_self]
  rfl

/-! ### LRED (R218) -/

/-- A fold that keeps the better of two ends with the least key. -/
theorem foldl_least (key : Nat → Int) {better : Nat → Nat → Bool} (hbetter : ∀ x y, better x y = true ↔ key y < key x) (l : List Nat) (x : Nat) :
    l.foldl (fun acc y => if better acc y then y else acc) x ∈ x :: l ∧
      ∀ y ∈ x :: l, key (l.foldl (fun acc y => if better acc y then y else acc) x) ≤ key y := by
  induction l generalizing x with
  | nil => simp
  | cons z r ih =>
    rw [List.foldl_cons]
    by_cases h : better x z = true
    · obtain ⟨hmem, hle⟩ := ih z
      rw [if_pos h]
      refine ⟨List.mem_cons_of_mem _ hmem, fun y hy => ?_⟩
      rcases List.mem_cons.1 hy with rfl | hy
      · exact Int.le_of_lt (Int.lt_of_le_of_lt (hle z List.mem_cons_self) ((hbetter _ _).1 h))
      · exact hle y hy
    · obtain ⟨hmem, hle⟩ := ih x
      rw [if_neg h]
      refine ⟨?_, fun y hy => ?_⟩
      · rcases List.mem_cons.1 hmem with heq | hmem
        · exact List.mem_cons.2 (.inl heq)
        · exact List.mem_cons_of_mem _ (List.mem_cons_of_mem _ hmem)
      · have hx := hle x List.mem_cons_self
        rcases List.mem_cons.1 hy with rfl | hy
        · exact hx
        · rcases List.mem_cons.1 hy with rfl | hy
          · exact Int.le_trans hx (Int.not_lt.1 (fun hlt => h ((hbetter _ _).2 hlt)))
          · exact hle y (List.mem_cons_of_mem _ hy)

/-- LRED of integers leaves one of the lanes, the least or the greatest, in every lane. -/
theorem calcLred_int {w : PeWord} (env : Env) (a b c : Opnd) (h : w.fmt.toNat ≤ 4) :
    ∃ m, m < lanesOf w.fmt.toNat ∧
      calcLred w env a b c = plain (splat (laneW w.fmt.toNat) (lanesOf w.fmt.toNat) (opLane a w.fmt.toNat m)) w.fmt.toNat ∧
      ∀ l, l < lanesOf w.fmt.toNat →
        if w.sub.getLsbD 0 then sextNat (laneW w.fmt.toNat) (opLane a w.fmt.toNat m) ≤ sextNat (laneW w.fmt.toNat) (opLane a w.fmt.toNat l)
        else sextNat (laneW w.fmt.toNat) (opLane a w.fmt.toNat l) ≤ sextNat (laneW w.fmt.toNat) (opLane a w.fmt.toNat m) := by
  obtain ⟨hmem, hle⟩ := foldl_least
    (fun x => if w.sub.getLsbD 0 then sextNat (laneW w.fmt.toNat) x else - sextNat (laneW w.fmt.toNat) x)
    (better := fun x y => if w.sub.getLsbD 0 then decide (sextNat (laneW w.fmt.toNat) y < sextNat (laneW w.fmt.toNat) x)
      else decide (sextNat (laneW w.fmt.toNat) x < sextNat (laneW w.fmt.toNat) y))
    (fun x y => by split <;> simp) (lanes a.v w.fmt.toNat) (lane a.v (laneW w.fmt.toNat) 0)
  have hcons : ∀ c, c ∈ lane a.v (laneW w.fmt.toNat) 0 :: lanes a.v w.fmt.toNat ↔ c ∈ lanes a.v w.fmt.toNat := fun c => by
    rw [lanes_eq_cons, List.mem_cons, List.mem_cons]; tauto
  obtain ⟨m, hm, heq⟩ := mem_lanes.1 ((hcons _).1 hmem)
  refine ⟨m, hm, ?_, fun l hl => ?_⟩
  · simp only [calcLred, if_pos h]
    rw [heq]
    rfl
  · have hl' := hle _ ((hcons _).2 (mem_lanes.2 ⟨l, hl, rfl⟩))
    rw [heq] at hl'
    split
    · next hmin =>
      simp only [if_pos hmin] at hl'
      exact hl'
    · next hmax =>
      simp only [if_neg hmax] at hl'
      exact Int.le_of_neg_le_neg hl'

/-- The lesser and the greater of a value and itself is the value. -/
theorem minMaxCode_self {F : FFmt} {x : Nat} (isMax num : Bool) (h : (decodeFp F x).isNan = false) : (minMaxCode F isMax num x x).1 = x := by
  simp [minMaxCode, h]

/-- LRED of floating-point lanes (R218): a NaN makes the canonical NaN, and only a signalling one raises a flag. -/
theorem calcLred_fp {w : PeWord} (env : Env) (a b c : Opnd) (h : ¬ w.fmt.toNat ≤ 4) :
    ∃ fl, calcLred w env a b c = .ok (splat (laneW w.fmt.toNat) (lanesOf w.fmt.toNat)
        (if ∃ m, m < lanesOf w.fmt.toNat ∧ (decodeFp (ffmtOf w.fmt.toNat) (opLane a w.fmt.toNat m)).isNan = true then (ffmtOf w.fmt.toNat).cnan
         else ((upFrom 1 (lanesOf w.fmt.toNat - 1)).map (opLane a w.fmt.toNat)).foldl
           (fun x y => (minMaxCode (ffmtOf w.fmt.toNat) (!w.sub.getLsbD 0) false x y).1) (opLane a w.fmt.toNat 0))) w.fmt.toNat fl ∧
      ∀ k, (bit (flagUnion fl) k = true ↔
        k = 0 ∧ ∃ m, m < lanesOf w.fmt.toNat ∧ (decodeFp (ffmtOf w.fmt.toNat) (opLane a w.fmt.toNat m)).isSnan = true) := by
  have hnan : (lanes a.v w.fmt.toNat).any (fun c => (decodeFp (ffmtOf w.fmt.toNat) c).isNan) = true ↔
      ∃ m, m < lanesOf w.fmt.toNat ∧ (decodeFp (ffmtOf w.fmt.toNat) (opLane a w.fmt.toNat m)).isNan = true := by
    simp [lanes, mem_upFrom, opLane]
  refine ⟨((lanes a.v w.fmt.toNat).zip (upFrom 0 (lanesOf w.fmt.toNat))).filterMap (fun p =>
    if (decodeFp (ffmtOf w.fmt.toNat) p.1).isSnan then some (2 ^ p.2, 1) else none), ?_, fun k => ?_⟩
  · simp only [calcLred, if_neg h, hnan]
    congr 2
    split
    · rfl
    · next hno =>
      have h0 : (decodeFp (ffmtOf w.fmt.toNat) (lane a.v (laneW w.fmt.toNat) 0)).isNan = false :=
        Bool.eq_false_iff.2 (fun h0 => hno ⟨0, lanesOf_pos _, h0⟩)
      rw [lanes_eq_cons, List.foldl_cons, minMaxCode_self _ _ h0]
      rfl
  · rw [bit_flagUnion, zip_lanes, List.any_eq_true]
    constructor
    · rintro ⟨p, hp, hbit⟩
      obtain ⟨q, hq, hsome⟩ := List.mem_filterMap.1 hp
      obtain ⟨m, hm, rfl⟩ := List.mem_map.1 hq
      split at hsome
      · next hsnan =>
        cases hsome
        exact ⟨(bit_one k).1 hbit, m, by simpa using ((mem_upFrom _ _ _).1 hm).2, hsnan⟩
      · cases hsome
    · rintro ⟨rfl, m, hm, hsnan⟩
      have hm' : m ∈ upFrom 0 (lanesOf w.fmt.toNat) := (mem_upFrom _ _ _).2 ⟨Nat.zero_le m, by simpa using hm⟩
      exact ⟨(2 ^ m, 1), List.mem_filterMap.2 ⟨_, List.mem_map.2 ⟨m, hm', rfl⟩, if_pos hsnan⟩, (bit_one 0).2 rfl⟩

/-! ### LPACK and LUNPK (R221, R222) -/

/-- No entry of LPACK or LUNPK accepts a tag above 15. -/
theorem pairTag_of_ge {opc fmt tag : Nat} (hopc : opc = 0x5A ∨ opc = 0x5B) (hfmt : fmt < 16) (h : 16 ≤ tag) : pairTag opc fmt tag = false := by
  have hmask : ∀ o ∈ [0x5A, 0x5B], ∀ f < 16, (tagMasks o f 0).1 < 2 ^ 16 := by decide
  have hlt := hmask opc (by simpa using hopc) fmt hfmt
  exact Nat.testBit_lt_two_pow (Nat.lt_of_lt_of_le hlt (Nat.pow_le_pow_right (by decide) h))

/-- The tags of a pair, of which the second has twice the lanes. -/
theorem packPairs_spec {s t : Nat} (h : (s, t) ∈ packPairs) : s < 15 ∧ t < 15 ∧ lanesOf t = 2 * lanesOf s := by
  have hall : ∀ p ∈ packPairs, p.1 < 15 ∧ p.2 < 15 ∧ lanesOf p.2 = 2 * lanesOf p.1 := by decide
  exact hall _ h

/-- The tags that LPACK takes for FMT are those paired with it. -/
theorem pairTag_lpack {w : PeWord} (h : Nat.testBit 0x0FDC w.fmt.toNat = true) (t : Nat) :
    pairTag 0x5A w.fmt.toNat t = true ↔ (t, w.fmt.toNat) ∈ packPairs := by
  have hsmall : ∀ f < 16, Nat.testBit 0x0FDC f = true → ∀ t < 16, pairTag 0x5A f t = decide ((t, f) ∈ packPairs) := by decide
  by_cases ht : t < 16
  · rw [hsmall _ w.fmt.isLt h t ht, decide_eq_true_iff]
  · rw [pairTag_of_ge (.inl rfl) w.fmt.isLt (Nat.le_of_not_lt ht)]
    exact ⟨fun h => (Bool.false_ne_true h).elim, fun h => absurd (Nat.lt_succ_of_lt (packPairs_spec h).1) ht⟩

/-- The tags that LUNPK takes for FMT are those paired with it. -/
theorem pairTag_lunpk {w : PeWord} (h : Nat.testBit 0x07EE w.fmt.toNat = true) (t : Nat) :
    pairTag 0x5B w.fmt.toNat t = true ↔ (w.fmt.toNat, t) ∈ packPairs := by
  have hsmall : ∀ f < 16, Nat.testBit 0x07EE f = true → ∀ t < 16, pairTag 0x5B f t = decide ((f, t) ∈ packPairs) := by decide
  by_cases ht : t < 16
  · rw [hsmall _ w.fmt.isLt h t ht, decide_eq_true_iff]
  · rw [pairTag_of_ge (.inr rfl) w.fmt.isLt (Nat.le_of_not_lt ht)]
    exact ⟨fun h => (Bool.false_ne_true h).elim, fun h => absurd (Nat.lt_succ_of_lt (packPairs_spec h).2.1) ht⟩

/-- What LPACK makes of lanes of tag `t` (R221). -/
def packed (w : PeWord) (env : Env) (t : Nat) (src : List Nat) : Calc :=
  if w.fmt.toNat ≤ 4 then plain (joinW (laneW w.fmt.toNat) src) w.fmt.toNat
  else laneCalc (laneW w.fmt.toNat) w.fmt.toNat (src.map (fun c =>
    let d := deliverFp (ffmtOf w.fmt.toNat) (modeOf w env) false false (fpLane false t c)
    (d.1, d.2 ||| snanFlag [fpLane false t c])))

/-- LPACK of a tag paired with FMT: the lanes of a, then those of b. -/
theorem calcLpack_pair {w : PeWord} (env : Env) {a b : Opnd} (c : Opnd) {ta tb : Nat} (hta : ta = if w.sa = 6#3 then b.t else a.t)
    (htb : tb = if w.sb = 6#3 then ta else b.t) (hmask : Nat.testBit 0x0FDC w.fmt.toNat = true) :
    ((ta, w.fmt.toNat) ∉ packPairs → calcLpack w env a b c = .trap 0x004 0#64) ∧
    ((ta, w.fmt.toNat) ∈ packPairs → tb ≠ ta → tb ≠ 15 → calcLpack w env a b c = .trap 0x021 (wd (tb + 16))) ∧
    ((ta, w.fmt.toNat) ∈ packPairs → tb = ta → calcLpack w env a b c = packed w env ta (lanes a.v ta ++ lanes b.v ta)) := by
  have hcalc : calcLpack w env a b c =
      if !pairTag 0x5A w.fmt.toNat ta then .trap 0x004 0#64
      else if tb = 15 then .trap 0x026 (wd (15 + 16))
      else if tb != ta then .trap 0x021 (wd (tb + 16))
      else packed w env ta (lanes a.v ta ++ lanes b.v tb) := by
    subst htb hta
    simp only [calcLpack, packed, beq_iff_eq]
  have htag := pairTag_lpack hmask ta
  refine ⟨fun hno => ?_, fun hyes hne h15 => ?_, fun hyes heq => ?_⟩
  · rw [hcalc, Bool.eq_false_iff.2 (fun h => hno (htag.1 h))]
    rfl
  · simp [hcalc, htag.2 hyes, h15, hne]
  · subst heq
    simp [hcalc, htag.2 hyes, Nat.ne_of_lt (packPairs_spec hyes).1]

/-- The source lane of lane `l` of LUNPK: the upper half of the lanes when SUB[22] is 1 (R222). -/
def unpackFrom (w : PeWord) (l : Nat) : Nat := (if w.sub.getLsbD 0 then lanesOf w.fmt.toNat else 0) + l

/-- LUNPK of a tag paired with FMT: each lane of its half widened. -/
theorem calcLunpk_pair {w : PeWord} (env : Env) {a : Opnd} (b c : Opnd) (hmask : Nat.testBit 0x07EE w.fmt.toNat = true) :
    ((w.fmt.toNat, a.t) ∉ packPairs → calcLunpk w env a b c = .trap 0x004 0#64) ∧
    ((w.fmt.toNat, a.t) ∈ packPairs → calcLunpk w env a b c =
      if w.fmt.toNat ≤ 4 then plain (joinW (laneW w.fmt.toNat) ((upFrom 0 (lanesOf w.fmt.toNat)).map (fun l =>
        wrapNat (laneW w.fmt.toNat) (sextNat (laneW a.t) (opLane a a.t (unpackFrom w l)))))) w.fmt.toNat
      else laneCalc (laneW w.fmt.toNat) w.fmt.toNat ((upFrom 0 (lanesOf w.fmt.toNat)).map (fun l =>
        let x := fpLane false a.t (opLane a a.t (unpackFrom w l))
        ((deliverFp (ffmtOf w.fmt.toNat) 0 false false x).1, snanFlag [x])))) := by
  have htag := pairTag_lunpk hmask a.t
  refine ⟨fun hno => ?_, fun hyes => ?_⟩
  · rw [calcLunpk, Bool.eq_false_iff.2 (fun h => hno (htag.1 h))]
    rfl
  · obtain ⟨_, _, hlanes⟩ := packPairs_spec hyes
    have hhalf : (if w.sub.getLsbD 0 then lanesOf w.fmt.toNat else 0) + lanesOf w.fmt.toNat ≤ lanesOf a.t := by split <;> omega
    simp only [calcLunpk, htag.2 hyes, Bool.not_true, Bool.false_eq_true, if_false, take_drop_lanes a.v hhalf, List.map_map]
    rfl

/-! ### The statement -/

section
variable {w : PeWord} {s s1 : State} {uid key : Nat} {g : Gathered}

theorem exec_lsum_tree {f : Nat → Nat → Nat × Nat} (hgo : prepFire 0x56 w s = .go s1 uid key g) (hfmt : 6 ≤ w.fmt.toNat)
    (huctl : (s1.unit uid).uctl.toNat % 32 = 0) (hf : f = lsumAdd w g.env) :
    ∃ (v : Word) (fl : Nat), exec (.lsum w) s = .next (afterCalc s1 uid key w g v w.fmt.toNat fl) ∧
      (∀ l, l < lanesOf w.fmt.toNat → lane v (laneW w.fmt.toNat) l =
        treeSum f (opLane g.a w.fmt.toNat) (Nat.log2 (lanesOf w.fmt.toNat)) 0 % 2 ^ laneW w.fmt.toNat) ∧
      (∀ k, k < 5 → bit fl k = treeRaises f (opLane g.a w.fmt.toNat) k (Nat.log2 (lanesOf w.fmt.toNat)) 0) := by
  have h4 : ¬ w.fmt.toNat ≤ 4 := by omega
  obtain ⟨hone, hpow⟩ := lanesOf_lsum w.fmt.toNat w.fmt.isLt (fmtMask_of_go hgo) hfmt
  have hspec := fun b => lsumTree_spec f b (Nat.log2 (lanesOf w.fmt.toNat)) (maskedLanes g.a.v w.fmt.toNat) (by simp [maskedLanes, ← hpow])
  have hspan : ∀ i, 0 ≤ i → i < 0 + 2 ^ Nat.log2 (lanesOf w.fmt.toNat) → codeAt (maskedLanes g.a.v w.fmt.toNat) i = opLane g.a w.fmt.toNat i :=
    fun i _ hi => codeAt_maskedLanes g.a.v (by rwa [Nat.zero_add, ← hpow] at hi)
  refine ⟨_, _, exec_untrapped (i := .lsum w) rfl hgo huctl (calcLsum_tree g.env g.a g.b g.c h4 hone), fun l hl => ?_, fun k _ => ?_⟩
  · rw [lane_splat _ (laneW_mul_lanesOf _) hl, ← hf, (hspec 0).1, treeSum_congr f _ hspan]
  · rw [← hf, (hspec k).2, treeRaises_congr f k _ hspan]

theorem exec_lsum_f64 (hgo : prepFire 0x56 w s = .go s1 uid key g) (hfmt : w.fmt.toNat = 5) (huctl : (s1.unit uid).uctl.toNat % 32 = 0) :
    exec (.lsum w) s = .next (if (decodeFp fmtF64 g.a.v.toNat).isNan
      then afterCalc s1 uid key w g (wd fmtF64.cnan) 5 (if (decodeFp fmtF64 g.a.v.toNat).isSnan then 1 else 0)
      else afterCalc s1 uid key w g (wd (fziCode fmtF64 (fziBit w) g.a.v.toNat)) 5 0) := by
  have hcalc := calcLsum_f64 g.env g.a g.b g.c hfmt
  split
  · next hnan =>
    rw [exec_untrapped (i := .lsum w) rfl hgo huctl (hcalc.trans (if_pos hnan))]
    cases (decodeFp fmtF64 g.a.v.toNat).isSnan <;> rfl
  · next hnan => exact exec_plain (i := .lsum w) rfl hgo (hcalc.trans (if_neg hnan))

theorem exec_lpack_pair {ta : Nat} (hgo : prepFire 0x5A w s = .go s1 uid key g) (huctl : (s1.unit uid).uctl.toNat % 32 = 0)
    (hpair : (ta, w.fmt.toNat) ∈ packPairs)
    (hcalc : calcLpack w g.env g.a g.b g.c = packed w g.env ta (lanes g.a.v ta ++ lanes g.b.v ta)) :
    ∃ (v : Word) (fl : Nat), exec (.lpack w) s = .next (afterCalc s1 uid key w g v w.fmt.toNat fl) ∧
      ∀ l, l < lanesOf w.fmt.toNat → ∃ c, c = (if l < lanesOf ta then opLane g.a ta l else opLane g.b ta (l - lanesOf ta)) ∧
        lane v (laneW w.fmt.toNat) l = (if w.fmt.toNat ≤ 4 then c
          else (deliverFp (ffmtOf w.fmt.toNat) (modeOf w g.env) false false (fpLane false ta c)).1) % 2 ^ laneW w.fmt.toNat := by
  obtain ⟨_, _, hlanes⟩ := packPairs_spec hpair
  rw [lanes_append_lanes, ← hlanes, packed] at hcalc
  split at hcalc
  · next hint =>
    refine ⟨_, _, exec_plain (i := .lpack w) rfl hgo hcalc, fun l hl => ⟨_, rfl, ?_⟩⟩
    rw [lane_joinW_map _ (laneW_mul_lanesOf _) hl, if_pos hint]
    rfl
  · next hfp =>
    rw [List.map_map] at hcalc
    obtain ⟨v, fl, hexec, hlane, _⟩ := exec_laneCalc (i := .lpack w) rfl hgo huctl (laneW_mul_lanesOf _) hcalc
    refine ⟨v, fl, hexec, fun l hl => ⟨_, rfl, ?_⟩⟩
    rw [hlane l hl, if_neg hfp]
    rfl

theorem exec_lunpk_pair (hgo : prepFire 0x5B w s = .go s1 uid key g) (huctl : (s1.unit uid).uctl.toNat % 32 = 0)
    (hpair : (w.fmt.toNat, g.a.t) ∈ packPairs) :
    ∃ (v : Word) (fl : Nat), exec (.lunpk w) s = .next (afterCalc s1 uid key w g v w.fmt.toNat fl) ∧
      ∀ l, l < lanesOf w.fmt.toNat → ∃ c, c = opLane g.a g.a.t ((if w.sub.getLsbD 0 then lanesOf w.fmt.toNat else 0) + l) ∧
        lane v (laneW w.fmt.toNat) l = (if w.fmt.toNat ≤ 4 then wrapNat (laneW w.fmt.toNat) (sextNat (laneW g.a.t) c)
          else (deliverFp (ffmtOf w.fmt.toNat) 0 false false (fpLane false g.a.t c)).1 % 2 ^ laneW w.fmt.toNat) := by
  have hcalc := (calcLunpk_pair g.env g.b g.c (fmtMask_of_go hgo)).2 hpair
  split at hcalc
  · next hint =>
    refine ⟨_, _, exec_plain (i := .lunpk w) rfl hgo hcalc, fun l hl => ⟨opLane g.a g.a.t (unpackFrom w l), rfl, ?_⟩⟩
    rw [lane_joinW_map _ (laneW_mul_lanesOf _) hl, wrapNat_mod, if_pos hint]
  · next hfp =>
    obtain ⟨v, fl, hexec, hlane, _⟩ := exec_laneCalc (i := .lunpk w) rfl hgo huctl (laneW_mul_lanesOf _) hcalc
    refine ⟨v, fl, hexec, fun l hl => ⟨opLane g.a g.a.t (unpackFrom w l), rfl, ?_⟩⟩
    rw [hlane l hl, if_neg hfp]
end

/-- Settles O16: what each function computes from the lanes of its operands, and the end of a computing firing. -/
theorem floatConversionAndLaneValues : Obligations.FloatConversionAndLaneValues := by
  unfold Obligations.FloatConversionAndLaneValues
  refine ⟨⟨?fclass, ?fcvt, ?ftoi, ?itof, ?frnd, ?fscale, ?cbd, ?cbe, ?table⟩, ?lsumInt, ?lsumTree, ?lsumF64, ?ldot, ?lredInt, ?lredFp, ?lpack, ?lunpk⟩
  case fclass =>
    intro w s s1 uid key g hgo
    refine ⟨_, exec_plain (i := .fclass w) rfl hgo (calcFclass_eq w g.env g.a g.b g.c), fun l hl => ?_⟩
    rw [lane_joinW_map _ (laneW_mul_lanesOf _) hl]
  case fcvt => exact convRow_of_calc (fun _ => rfl) (fun _ _ _ _ _ => rfl)
  case ftoi => exact convRow_of_calc (fun _ => rfl) (fun _ _ _ _ _ => rfl)
  case itof => exact convRow_of_calc (fun _ => rfl) (fun _ _ _ _ _ => rfl)
  case frnd => exact flagRow_of_fmt (fun _ => rfl) (fun w env a b c _ => calcFrnd_eq w env a b c)
  case fscale =>
    refine flagRow_of_fmt (fun _ => rfl) (fun w env a b c hmask => ?_)
    have hwidth : laneW (intTagOf w.fmt.toNat) = laneW w.fmt.toNat := by rw [laneW, laneW, lanesOf_intTagOf _ w.fmt.isLt hmask]
    simp only [calcFscale, lanes_intTagOf b.v hmask, hwidth, zipWith_lanes]
    rfl
  case cbd =>
    intro w s s1 uid key g hgo htable
    refine ⟨_, exec_plain (i := .cbd w) rfl hgo (calcCbd_eq w g.a g.b g.c htable), fun l hl => ?_⟩
    rw [lane_joinW_map _ (by decide) hl, tableEntry, lane_mod]
  case cbe =>
    intro w s s1 uid key q g tb hgo htable huctl hq htb
    subst hq htb
    refine ⟨_, _, exec_untrapped (i := .cbe w) rfl hgo huctl (calcCbe_eq w g.a g.b g.c htable), fun l hl => ?_, fun k _ => ?_⟩
    · rw [lane_joinW_map _ (by decide) hl]
      split
      · rfl
      · exact lane_mod _ _ _
    · rw [bit_flagUnion_laneResults, cbeResults, map_lanes]
      simp [mem_upFrom, bookOf, show lanesOf 8 = 4 from rfl, show laneW 8 = 16 from rfl]
  case table =>
    intro i w opc c d s s1 uid key g hi hgo htable
    obtain ⟨hcbd, hcbe⟩ := calcTable_trap w g.a g.b g.c htable
    rcases List.mem_cons.1 hi with heq | hi
    · cases heq
      exact exec_calcTrap (i := .cbd w) rfl hgo hcbd
    · cases List.mem_singleton.1 hi
      exact exec_calcTrap (i := .cbe w) rfl hgo hcbe
  case lsumInt =>
    intro w s s1 uid key g hgo hfmt
    exact ⟨_, exec_plain (i := .lsum w) rfl hgo (calcLsum_int g.env g.a g.b g.c hfmt), fun l hl => lane_splat _ (laneW_mul_lanesOf _) hl⟩
  case lsumTree =>
    intro w s s1 uid key g f hgo hfmt huctl hf
    exact exec_lsum_tree hgo hfmt huctl (funext (fun x => funext (hf x)))
  case lsumF64 =>
    intro w s s1 uid key g hgo hfmt huctl
    exact exec_lsum_f64 hgo hfmt huctl
  case ldot =>
    intro w s s1 uid key rt g hgo huctl hrt
    obtain ⟨v, fl, hexec, hlane, _, hflag⟩ :=
      exec_laneCalc (i := .ldot w) rfl hgo huctl (laneW_mul_lanesOf rt) (calcLdot_eq g (fmtMask_of_go hgo) hrt)
    exact ⟨v, fl, hexec, hlane, fun k _ => hflag k⟩
  case lredInt =>
    intro w s s1 uid key g hgo hfmt
    obtain ⟨m, hm, hcalc, hbest⟩ := calcLred_int g.env g.a g.b g.c hfmt
    refine ⟨_, m, exec_plain (i := .lred w) rfl hgo hcalc, hm, fun l hl => ⟨?_, hbest l hl⟩⟩
    rw [lane_splat _ (laneW_mul_lanesOf _) hl]
    exact lane_mod _ _ _
  case lredFp =>
    intro w s s1 uid key g F hgo hfmt hF huctl
    subst hF
    have h4 : ¬ w.fmt.toNat ≤ 4 := by omega
    obtain ⟨fl, hcalc, hflag⟩ := calcLred_fp g.env g.a g.b g.c h4
    exact ⟨_, _, exec_untrapped (i := .lred w) rfl hgo huctl hcalc, fun l hl => lane_splat _ (laneW_mul_lanesOf _) hl, fun k _ => hflag k⟩
  case lpack =>
    intro w s s1 uid key ta tb g hgo huctl hta htb
    obtain ⟨hno, hother, hpair⟩ := calcLpack_pair g.env g.c hta htb (fmtMask_of_go hgo)
    exact ⟨fun h => exec_calcTrap (i := .lpack w) rfl hgo (hno h), fun h hne h15 => exec_calcTrap (i := .lpack w) rfl hgo (hother h hne h15),
      fun h heq => exec_lpack_pair hgo huctl h (hpair h heq)⟩
  case lunpk =>
    intro w s s1 uid key g hgo huctl
    obtain ⟨hno, _⟩ := calcLunpk_pair g.env (a := g.a) g.b g.c (fmtMask_of_go hgo)
    exact ⟨fun h => exec_calcTrap (i := .lunpk w) rfl hgo (hno h), exec_lunpk_pair hgo huctl⟩

end Sys2Proof.Proofs

/-! PROOFS. Tiles as lists (R65 to R68): packed codes, rows and columns of 32, and grids of them. -/

namespace Sys2Proof.Proofs

open Sys2Proof Sys2Proof.Machine Sys2Proof.Laws Sys2Proof.Claims

/-! ### Elements of lists -/

theorem lget_map {α β : Type} (f : α → β) (l : List α) (n : Nat) (d : β) (e : α) (h : n < l.length) : lget (l.map f) n d = f (lget l n e) := by
  rw [lget_eq_getElem _ _ _ (by simpa using h), List.getElem_map, lget_eq_getElem _ _ _ h]

theorem lget_zipWith {α β γ : Type} (f : α → β → γ) (l : List α) (m : List β) (n : Nat) (d : γ) (a : α) (b : β) (hl : n < l.length)
    (hm : n < m.length) : lget (List.zipWith f l m) n d = f (lget l n a) (lget m n b) := by
  rw [lget_eq_getElem _ _ _ (by simpa using ⟨hl, hm⟩), List.getElem_zipWith, lget_eq_getElem _ _ _ hl, lget_eq_getElem _ _ _ hm]

theorem lget_append {α : Type} (l m : List α) (n : Nat) (d : α) :
    lget (l ++ m) n d = if n < l.length then lget l n d else lget m (n - l.length) d := by
  induction l generalizing n with
  | nil => simp
  | cons x r ih => cases n <;> simp [lget, ih]

theorem lget_drop {α : Type} (l : List α) (m n : Nat) (d : α) : lget (l.drop m) n d = lget l (m + n) d := by
  induction m generalizing l with
  | zero => simp
  | succ m ih =>
    cases l with
    | nil => simp [lget]
    | cons x r => rw [List.drop_succ_cons, ih, Nat.add_right_comm]; rfl

theorem lget_take {α : Type} (l : List α) {m n : Nat} (d : α) (h : n < m) : lget (l.take m) n d = lget l n d := by
  rcases Nat.lt_or_ge n l.length with hn | hn
  · rw [lget_eq_getElem _ _ _ (by simpa using ⟨h, hn⟩), lget_eq_getElem _ _ _ hn, List.getElem_take]
  · rw [lget_of_length_le _ _ _ (by simp [hn]), lget_of_length_le _ _ _ hn]

/-- A list by its elements. -/
theorem eq_map_lget {α : Type} {l : List α} {n : Nat} (d : α) (h : l.length = n) : l = (upFrom 0 n).map (fun k => lget l k d) :=
  List.ext_getElem (by simp [h]) (fun k hk _ => by simp [lget_eq_getElem _ _ _ hk])

theorem all_iff_lget {l : List Int} {n : Nat} (p : Int → Bool) (h : l.length = n) : l.all p = true ↔ ∀ k, k < n → p (lget l k 0) = true := by
  conv_lhs => rw [eq_map_lget 0 h]
  simp [mem_upFrom]

theorem map_upFrom_succ {α : Type} (f : Nat → α) (a n : Nat) : (upFrom (a + 1) n).map f = (upFrom a n).map (fun k => f (k + 1)) :=
  List.ext_getElem (by simp) (fun k _ _ => by simp [Nat.add_right_comm])

/-! ### Packed codes (R67) -/

@[simp] theorem length_unpackCodes (b n v : Nat) : (unpackCodes b n v).length = n := by
  induction n generalizing v with
  | zero => rfl
  | succ n ih => simp [unpackCodes, ih]

theorem lget_unpackCodes (b : Nat) {n k : Nat} (v : Nat) (h : k < n) : lget (unpackCodes b n v) k 0 = v / 2 ^ (b * k) % 2 ^ b := by
  induction n generalizing v k with
  | zero => cases h
  | succ n ih =>
    cases k with
    | zero => simp [unpackCodes, lget]
    | succ k =>
      rw [unpackCodes, lget, ih _ (Nat.lt_of_succ_lt_succ h), Nat.div_div_eq_div_mul, ← Nat.pow_add, Nat.mul_succ, Nat.add_comm b]

/-- Codes are packed as lanes are joined. -/
theorem packCodes_eq_joinLanes (b : Nat) (l : List Nat) : packCodes b l = joinLanes b l := by
  induction l with
  | nil => rfl
  | cons c r ih => rw [packCodes, joinLanes, ih]

/-- Codes written in enough bytes and read back. -/
theorem lget_unpack_leBytes {b n m k : Nat} {l : List Nat} (hl : l.length = n) (hm : b * n ≤ 8 * m) (hk : k < n) :
    lget (unpackCodes b n (leNat (leBytes m (packCodes b l)))) k 0 = lget l k 0 % 2 ^ b := by
  have hlt : packCodes b l < 256 ^ m := by
    rw [packCodes_eq_joinLanes, show 256 = 2 ^ 8 from rfl, ← Nat.pow_mul]
    exact Nat.lt_of_lt_of_le (joinLanes_lt b l) (Nat.pow_le_pow_right (by decide) (hl ▸ hm))
  rw [leNat_leBytes, Nat.mod_eq_of_lt hlt, lget_unpackCodes b _ hk, packCodes_eq_joinLanes, joinLanes_div]

/-! ### Rows and columns -/

@[simp] theorem length_rows32 {α : Type} (m : Nat) (l : List α) : (rows32 m l).length = m := by
  induction m generalizing l with
  | zero => rfl
  | succ m ih => simp [rows32, ih]

theorem lget_rows32 {α : Type} {m i : Nat} (l : List α) (h : i < m) : lget (rows32 m l) i [] = (l.drop (32 * i)).take 32 := by
  induction m generalizing l i with
  | zero => cases h
  | succ m ih =>
    cases i with
    | zero => rfl
    | succ i => rw [rows32, lget, ih _ (Nat.lt_of_succ_lt_succ h), List.drop_drop, Nat.mul_succ, Nat.add_comm]

/-- Element j of row i. -/
theorem lget_lget_rows32 {α : Type} {m i j : Nat} (l : List α) (d : α) (hi : i < m) (hj : j < 32) :
    lget (lget (rows32 m l) i []) j d = lget l (32 * i + j) d := by
  rw [lget_rows32 l hi, lget_take _ _ hj, lget_drop]

/-- A row by its elements. -/
theorem lget_rows32_eq_map {α : Type} {m i : Nat} {l : List α} (d : α) (hi : i < m) (hl : l.length = 32 * m) :
    lget (rows32 m l) i [] = (upFrom 0 32).map (fun j => lget l (32 * i + j) d) := by
  have hlen : (lget (rows32 m l) i []).length = 32 := by
    rw [lget_rows32 l hi, List.length_take, List.length_drop, hl]
    omega
  rw [eq_map_lget d hlen]
  refine List.map_congr_left (fun j hj => ?_)
  exact lget_lget_rows32 l d hi (by simpa using ((mem_upFrom _ _ _).1 hj).2)

theorem length_of_mem_rows32 {α : Type} {m : Nat} {l r : List α} (hl : l.length = 32 * m) (h : r ∈ rows32 m l) : r.length = 32 := by
  obtain ⟨i, hi, rfl⟩ := List.mem_iff_getElem.1 h
  rw [length_rows32] at hi
  rw [← lget_eq_getElem _ _ [], lget_rows32 l hi, List.length_take, List.length_drop, hl]
  omega

@[simp] theorem length_transpose32 {α : Type} (d : α) (l : List α) : (transpose32 d l).length = 1024 := by simp [transpose32]

/-- Element i of column j. -/
theorem lget_transpose32 {α : Type} (d : α) (l : List α) {i j : Nat} (e : α) (hi : i < 32) (hj : j < 32) :
    lget (transpose32 d l) (32 * j + i) e = lget l (32 * i + j) d := by
  rw [transpose32, lget_map_upFrom _ _ _ _ _ (by omega), Nat.zero_add, show (32 * j + i) % 32 * 32 + (32 * j + i) / 32 = 32 * i + j by omega]

/-! ### Grids of 32 columns -/

theorem length_flatMap32 {α β : Type} (g : α → List β) (l : List α) (h : ∀ x ∈ l, (g x).length = 32) : (l.flatMap g).length = 32 * l.length := by
  induction l with
  | nil => rfl
  | cons x r ih =>
    rw [List.flatMap_cons, List.length_append, h x List.mem_cons_self, ih (fun y hy => h y (List.mem_cons_of_mem _ hy)), List.length_cons]
    omega

theorem lget_flatMap32 {α β : Type} (g : α → List β) (l : List α) (n : Nat) (d : β) (e : α) (h : ∀ x ∈ l, (g x).length = 32) (hn : n < 32 * l.length) :
    lget (l.flatMap g) n d = lget (g (lget l (n / 32) e)) (n % 32) d := by
  induction l generalizing n with
  | nil => simp at hn
  | cons x r ih =>
    rw [List.flatMap_cons, lget_append, h x List.mem_cons_self]
    split
    · next hlt => rw [Nat.div_eq_of_lt hlt, Nat.mod_eq_of_lt hlt]; rfl
    · next hge =>
      have hdiv : n / 32 = (n - 32) / 32 + 1 := by omega
      have hmod : n % 32 = (n - 32) % 32 := by omega
      rw [ih (n - 32) (fun y hy => h y (List.mem_cons_of_mem _ hy)) (by rw [List.length_cons] at hn; omega), hdiv, hmod]
      rfl

/-- Lane n = 32 i + j of a grid of rows and columns. -/
theorem lget_grid {α β γ : Type} (f : α → β → γ) (l : List α) (m : List β) (n : Nat) (d : γ) (a : α) (b : β) (hl : l.length = 32) (hm : m.length = 32)
    (hn : n < 1024) : lget (l.flatMap (fun x => m.map (f x))) n d = f (lget l (n / 32) a) (lget m (n % 32) b) := by
  rw [lget_flatMap32 _ _ _ _ a (by simp [hm]) (by rw [hl]; exact hn), lget_map _ _ _ _ b (by omega)]

theorem length_grid {α β γ : Type} (f : α → β → γ) (l : List α) (m : List β) (hl : l.length = 32) (hm : m.length = 32) :
    (l.flatMap (fun x => m.map (f x))).length = 1024 := by
  rw [length_flatMap32 _ _ (by simp [hm]), hl]

end Sys2Proof.Proofs

/-! PROOFS. Products and drains (R66 to R68, R72 to R74): the views of tiles, the lanes of a product and of an accumulator. -/

namespace Sys2Proof.Proofs

open Sys2Proof Sys2Proof.Machine Sys2Proof.Laws Sys2Proof.Claims

/-! ### Views (R66 to R68) -/

theorem microOf_le {img : List Byte} {base x : Nat} (h : x ∈ microOf img base) : x ≤ 3 := by
  obtain ⟨k, hk, rfl⟩ := List.mem_iff_getElem.1 h
  have hk' : k < 32 := by simpa [microOf] using hk
  rw [← lget_eq_getElem _ _ 0, microOf, lget_unpackCodes 2 _ hk']
  exact Nat.le_of_lt_succ (Nat.mod_lt _ (by decide))

@[simp] theorem length_microOf (img : List Byte) (base : Nat) : (microOf img base).length = 32 := by simp [microOf]

@[simp] theorem length_tileCodes (tag : Nat) (img : List Byte) : (tileCodes tag img).length = 1024 := by simp [tileCodes]

theorem shaped_viewTile (tag : Nat) (img : List Byte) (tab : List Nat) : Shaped (viewTile tag img tab) := by
  refine ⟨by simp [viewTile], fun r hr => length_of_mem_rows32 (by simp) hr, by simp [viewTile], by simp [viewTile], fun x hx => ?_⟩
  rcases List.mem_append.1 hx with hx | hx <;> exact microOf_le hx

/-- The significand of element n: a signed code, or the entry of the held table (R68, R71). -/
theorem lget_viewTile (tag : Nat) (img : List Byte) (tab : List Nat) {n : Nat} (h : n < 1024) :
    lget (lget (viewTile tag img tab).rows (n / 32) []) (n % 32) 0 =
      if tag = 4 then lget (heldTable tab).1 (lget (tileCodes tag img) n 0) 0 else sextNat (codeBits tag) (lget (tileCodes tag img) n 0) := by
  have hi : n / 32 < 32 := by omega
  have hj : n % 32 < 32 := by omega
  simp only [viewTile]
  rw [lget_lget_rows32 _ _ hi hj, Nat.div_add_mod, lget_map _ _ _ _ 0 (by simpa using h)]

/-! ### Products (R73) -/

/-- The sum of products with shifts, by elements. -/
theorem dotShift_eq_sum {n : Nat} (as bs : List Int) (ks : List Nat) (ha : as.length = n) (hb : bs.length = n) (hk : ks.length = n) :
    dotShift as bs ks = ((upFrom 0 n).map (fun k => lget as k 0 * lget bs k 0 * ((2 ^ lget ks k 0 : Nat) : Int))).sum := by
  induction n generalizing as bs ks with
  | zero =>
    obtain rfl := List.eq_nil_of_length_eq_zero ha
    rfl
  | succ n ih =>
    match as, bs, ks, ha, hb, hk with
    | a :: as, b :: bs, k :: ks, ha, hb, hk =>
      rw [dotShift, ih as bs ks (Nat.succ.inj ha) (Nat.succ.inj hb) (Nat.succ.inj hk), upFrom, List.map_cons, List.sum_cons, map_upFrom_succ]
      rfl

theorem length_products {A B : XsView} (hA : A.rows.length = 32) : (products A B).length = 1024 := by
  rw [products, length_grid _ _ _ hA (by simp)]

/-- Element k of column j of an operand. -/
theorem lget_column {B : XsView} (hB : Shaped B) {j k : Nat} (hj : j < 32) (hk : k < 32) :
    lget (lget (rows32 32 (transpose32 0 B.rows.flatten)) j []) k 0 = lget (lget B.rows k []) j 0 := by
  obtain ⟨hrows, hrow, _⟩ := hB
  rw [lget_lget_rows32 _ _ hj hk, lget_transpose32 0 _ 0 hk hj, ← List.flatMap_id, lget_flatMap32 id B.rows _ _ [] hrow (by omega),
    show (32 * k + j) / 32 = k by omega, show (32 * k + j) % 32 = j by omega]
  rfl

/-- Lane n of the model's products is p(i, j) of R73. -/
theorem lget_products {A B : XsView} (hA : Shaped A) (hB : Shaped B) {n : Nat} (hn : n < 1024) : lget (products A B) n 0 = prodAt A B n := by
  obtain ⟨hrowsA, hrowA, _, hcxA, _⟩ := hA
  obtain ⟨_, _, hrxB, _, _⟩ := id hB
  have hi : n / 32 < 32 := by omega
  have hj : n % 32 < 32 := by omega
  have hcols : (transpose32 0 B.rows.flatten).length = 32 * 32 := by simp
  rw [products, lget_grid _ _ _ _ _ [] [] hrowsA (by simp) hn, dotShift_eq_sum (n := 32), prodAt]
  · refine congrArg List.sum (List.map_congr_left (fun k hk => ?_))
    have hk : k < 32 := by simpa using ((mem_upFrom _ _ _).1 hk).2
    rw [lget_column hB hj hk, lget_zipWith _ _ _ _ _ 0 0 (by omega) (by omega)]
  · rw [lget_eq_getElem _ _ _ (by omega)]
    exact hrowA _ (List.getElem_mem _)
  · rw [lget_rows32_eq_map 0 hj hcols, List.length_map, length_upFrom]
  · simp [hcxA, hrxB]

/-! ### Accumulators (R72, R73) -/

theorem accLanes_of_length {l : List Int} (h : l.length = 1024) : accLanes l = l := by
  rw [accLanes, if_neg]
  intro hempty
  rw [List.isEmpty_iff.1 hempty] at h
  cases h

theorem length_accLanes {l : List Int} (h : l = [] ∨ l.length = 1024) : (accLanes l).length = 1024 := by
  rcases h with rfl | h
  · rw [show accLanes [] = List.replicate 1024 0 from rfl, List.length_replicate]
  · rw [accLanes_of_length h, h]

/-- Keeping no lane when all are zero changes no lane. -/
theorem lget_accLanes_trimLanes {l : List Int} (h : l.length = 1024) {n : Nat} (hn : n < 1024) : lget (accLanes (trimLanes l)) n 0 = lget l n 0 := by
  unfold trimLanes
  split
  · next hzero =>
    have hn0 := (all_iff_lget _ h).1 hzero n hn
    rw [show accLanes [] = List.replicate 1024 0 from rfl, lget_replicate_self]
    exact (beq_iff_eq.1 hn0).symm
  · rw [accLanes_of_length h]

/-- The lanes that a product leaves, if all fit in 40 bits (R73). -/
def settle (a : Acc) (new : List Int) : Except Nat Acc := if new.all fits40 then .ok { a with lanes := trimLanes new } else .error 0x02D

theorem settle_spec {a : Acc} {new : List Int} {L : Nat → Int} (hlen : new.length = 1024) (hL : ∀ n, n < 1024 → lget new n 0 = L n) :
    ((∀ n, n < 1024 → fits40 (L n) = true) → ∃ x, settle a new = .ok x ∧ (∀ n, n < 1024 → accLane x n = L n) ∧
      x.kd = a.kd ∧ x.es = a.es ∧ x.rv = a.rv ∧ x.cv = a.cv) ∧
    ((∃ n, n < 1024 ∧ fits40 (L n) = false) → settle a new = .error 0x02D) := by
  have hall : new.all fits40 = true ↔ ∀ n, n < 1024 → fits40 (L n) = true := by
    rw [all_iff_lget fits40 hlen]
    exact ⟨fun h n hn => hL n hn ▸ h n hn, fun h n hn => (hL n hn).symm ▸ h n hn⟩
  refine ⟨fun hfit => ⟨{ a with lanes := trimLanes new }, if_pos (hall.2 hfit), fun n hn => ?_, rfl, rfl, rfl, rfl⟩, fun ⟨n, hn, hbad⟩ => if_neg ?_⟩
  · exact (lget_accLanes_trimLanes hlen hn).trans (hL n hn)
  · intro h
    rw [hall.1 h n hn] at hbad
    cases hbad

/-- The exponent sum of a product (R73). -/
def expSum (A B : XsView) : Int := (A.e : Int) + (B.e : Int) - A.f - B.f

/-- The products under the sign of SUB. -/
def signedBySub (sub : Nat) (l : List Int) : List Int := if sub = 2 then l.map (- ·) else l

theorem length_signedBySub (sub : Nat) (l : List Int) : (signedBySub sub l).length = l.length := by unfold signedBySub; split <;> simp

theorem lget_signedBySub {sub : Nat} {l : List Int} {n : Nat} (h : n < l.length) : lget (signedBySub sub l) n 0 = if sub = 2 then - lget l n 0 else lget l n 0 := by
  unfold signedBySub
  split
  · rw [lget_map _ _ _ _ 0 h]
  · rfl

section
variable {sub : Nat} {A B : XsView} {acc : Acc}

/-- A first product sets the lanes, the exponent sum and the vectors. -/
theorem mmulAcc_set (hA : A.e ≠ 0) (hB : B.e ≠ 0) (hsub : sub = 0) :
    mmulAcc sub A B acc = settle { lanes := [], es := some (expSum A B), rv := A.rx.map (BitVec.ofNat 2), cv := B.cx.map (BitVec.ofNat 2), kd := 1 }
      (List.zipWith (· + ·) (accLanes []) (products A B)) := by
  subst hsub
  simp only [mmulAcc, decide_eq_false hA, decide_eq_false hB, bne_self_eq_false, Bool.false_and, Bool.or_self, Bool.false_eq_true, if_false, if_true]
  rfl

/-- A product into an accumulator without an exponent sum. -/
theorem mmulAcc_fresh (hA : A.e ≠ 0) (hB : B.e ≠ 0) (hsub : sub ≠ 0) (hkd : acc.kd ≠ 8) (hes : acc.es = none) :
    mmulAcc sub A B acc = settle { acc with kd := acc.kd + 1, es := some (expSum A B), rv := A.rx.map (BitVec.ofNat 2), cv := B.cx.map (BitVec.ofNat 2) }
      (List.zipWith (· + ·) (accLanes acc.lanes) (signedBySub sub (products A B))) := by
  simp only [mmulAcc, decide_eq_false hA, decide_eq_false hB, decide_eq_false hkd, if_neg hsub, Bool.and_false, Bool.or_self, Bool.false_eq_true,
    if_false, hes]
  rfl

/-- A product joined to an accumulator at the lesser exponent sum. -/
theorem mmulAcc_join {es : Int} (hA : A.e ≠ 0) (hB : B.e ≠ 0) (hsub : sub ≠ 0) (hkd : acc.kd ≠ 8) (hes : acc.es = some es)
    (hrv : acc.rv = A.rx.map (BitVec.ofNat 2)) (hcv : acc.cv = B.cx.map (BitVec.ofNat 2)) :
    mmulAcc sub A B acc = if es ≤ expSum A B
      then settle { acc with kd := acc.kd + 1 } (List.zipWith (· + ·) (accLanes acc.lanes)
        (signedBySub sub ((products A B).map (· * (2 ^ (expSum A B - es).toNat : Nat)))))
      else settle { acc with kd := acc.kd + 1, es := some (expSum A B) } (List.zipWith (· + ·)
        (accLanes ((accLanes acc.lanes).map (· * (2 ^ (es - expSum A B).toNat : Nat)))) (signedBySub sub (products A B))) := by
  simp only [mmulAcc, decide_eq_false hA, decide_eq_false hB, decide_eq_false hkd, if_neg hsub, Bool.and_false, Bool.or_self, Bool.false_eq_true,
    if_false, hes, ← hrv, ← hcv, bne_self_eq_false]
  rfl

/-- A lane of an accumulator to which products are added. -/
theorem lget_add {l p : List Int} (hl : l.length = 1024) (hp : p.length = 1024) {n : Nat} (hn : n < 1024) :
    lget (List.zipWith (· + ·) l p) n 0 = lget l n 0 + lget p n 0 := lget_zipWith _ _ _ _ _ 0 0 (by omega) (by omega)

theorem length_add {l p : List Int} (hl : l.length = 1024) (hp : p.length = 1024) : (List.zipWith (· + ·) l p).length = 1024 := by simp [hl, hp]

theorem newLane_set (hsub : sub = 0) (n : Nat) : newLane sub A B acc n = prodAt A B n := if_pos hsub

/-- Without an exponent sum the lane and the product stand on one scale. -/
theorem newLane_fresh (hsub : sub ≠ 0) (hes : acc.es = none) (n : Nat) :
    newLane sub A B acc n = accLane acc n + if sub = 2 then - prodAt A B n else prodAt A B n := by
  simp [newLane, hsub, hes]

/-- The product is brought to the lesser exponent sum of the accumulator. -/
theorem newLane_join_product {es : Int} (hsub : sub ≠ 0) (hes : acc.es = some es) (hle : es ≤ expSum A B) (n : Nat) :
    newLane sub A B acc n = accLane acc n +
      if sub = 2 then - (prodAt A B n * (2 ^ (expSum A B - es).toNat : Nat)) else prodAt A B n * (2 ^ (expSum A B - es).toNat : Nat) := by
  have hd : (-(expSum A B - es)).toNat = 0 := by omega
  simp only [newLane, if_neg hsub, hes, Option.getD_some]
  rw [← expSum, hd]
  split <;> simp

/-- The accumulator is brought to the lesser exponent sum of the product. -/
theorem newLane_join_acc {es : Int} (hsub : sub ≠ 0) (hes : acc.es = some es) (hlt : ¬ es ≤ expSum A B) (n : Nat) :
    newLane sub A B acc n = accLane acc n * (2 ^ (es - expSum A B).toNat : Nat) + if sub = 2 then - prodAt A B n else prodAt A B n := by
  have hd : (expSum A B - es).toNat = 0 := by omega
  simp only [newLane, if_neg hsub, hes, Option.getD_some]
  rw [← expSum, hd, Int.neg_sub]
  simp

/-- What R73 makes of the accumulator: its lanes, count, exponent sum and vectors. -/
structure Settles (sub : Nat) (A B : XsView) (acc a : Acc) (new : List Int) : Prop where
  length : new.length = 1024
  lane : ∀ n, n < 1024 → lget new n 0 = newLane sub A B acc n
  kd : a.kd = if sub = 0 then 1 else acc.kd + 1
  es : a.es = some (if sub = 0 then expSum A B else min (acc.es.getD (expSum A B)) (expSum A B))
  rv : a.rv = A.rx.map (BitVec.ofNat 2)
  cv : a.cv = B.cx.map (BitVec.ofNat 2)

/-- Every product of two tiles that are not zero settles the lanes of R73. -/
theorem mmulAcc_settles (hA : Shaped A) (hB : Shaped B) (hlanes : acc.lanes = [] ∨ acc.lanes.length = 1024) (hkd : sub = 0 ∨ acc.kd ≠ 8)
    (heA : A.e ≠ 0) (heB : B.e ≠ 0)
    (hvec : sub = 0 ∨ acc.es = none ∨ (acc.rv = A.rx.map (BitVec.ofNat 2) ∧ acc.cv = B.cx.map (BitVec.ofNat 2))) :
    ∃ a new, mmulAcc sub A B acc = settle a new ∧ Settles sub A B acc a new := by
  have hprod : (products A B).length = 1024 := length_products hA.1
  have hacc : (accLanes acc.lanes).length = 1024 := length_accLanes hlanes
  have hsigned : (signedBySub sub (products A B)).length = 1024 := by rw [length_signedBySub, hprod]
  rcases Nat.eq_zero_or_pos sub with h0 | hpos
  · have hempty : (accLanes []).length = 1024 := length_accLanes (.inl rfl)
    refine ⟨_, _, mmulAcc_set heA heB h0, length_add hempty hprod, fun n hn => ?_, (if_pos h0).symm, by rw [if_pos h0], rfl, rfl⟩
    rw [lget_add hempty hprod hn, lget_products hA hB hn, newLane_set h0, show accLanes [] = List.replicate 1024 0 from rfl, lget_replicate_self,
      Int.zero_add]
  · have h0 : sub ≠ 0 := Nat.ne_of_gt hpos
    have hkd : acc.kd ≠ 8 := hkd.resolve_left h0
    have hkd' : acc.kd + 1 = if sub = 0 then 1 else acc.kd + 1 := (if_neg h0).symm
    cases hes : acc.es with
    | none =>
      refine ⟨_, _, mmulAcc_fresh heA heB h0 hkd hes, length_add hacc hsigned, fun n hn => ?_, hkd', by rw [if_neg h0, hes]; simp, rfl, rfl⟩
      rw [lget_add hacc hsigned hn, lget_signedBySub (by omega), lget_products hA hB hn, newLane_fresh h0 hes]
      rfl
    | some es =>
      obtain ⟨hrv, hcv⟩ := (hvec.resolve_left h0).resolve_left (by simp [hes])
      have hjoin := mmulAcc_join heA heB h0 hkd hes hrv hcv
      split at hjoin
      · next hle =>
        have hscaled : ((products A B).map (· * ((2 ^ (expSum A B - es).toNat : Nat) : Int))).length = 1024 := by simp [hprod]
        have hsigned' := (length_signedBySub sub ((products A B).map (· * ((2 ^ (expSum A B - es).toNat : Nat) : Int)))).trans hscaled
        refine ⟨_, _, hjoin, length_add hacc hsigned', fun n hn => ?_, hkd', ?_, hrv, hcv⟩
        · rw [lget_add hacc hsigned' hn, lget_signedBySub (by omega), lget_map _ _ _ _ 0 (by omega), lget_products hA hB hn,
            newLane_join_product h0 hes hle]
          rfl
        · rw [if_neg h0, hes, Option.getD_some, Int.min_eq_left hle]
      · next hlt =>
        have hscaled : ((accLanes acc.lanes).map (· * ((2 ^ (es - expSum A B).toNat : Nat) : Int))).length = 1024 := by simp [hacc]
        refine ⟨_, _, hjoin, length_add ((congrArg _ (accLanes_of_length hscaled)).trans hscaled) hsigned, fun n hn => ?_, hkd', ?_, hrv, hcv⟩
        · rw [accLanes_of_length hscaled, lget_add hscaled hsigned hn, lget_signedBySub (by omega), lget_map _ _ _ _ 0 (by omega), lget_products hA hB hn,
            newLane_join_acc h0 hes hlt]
          rfl
        · rw [if_neg h0, hes, Option.getD_some, Int.min_eq_right (Int.le_of_lt (Int.not_le.1 hlt))]

/-- An accumulator with other vectors refuses the product (R73). -/
theorem mmulAcc_otherVectors (hsub : sub ≠ 0) (hkd : acc.kd ≠ 8) (heA : A.e ≠ 0) (heB : B.e ≠ 0) (hes : acc.es ≠ none)
    (hvec : acc.rv ≠ A.rx.map (BitVec.ofNat 2) ∨ acc.cv ≠ B.cx.map (BitVec.ofNat 2)) : mmulAcc sub A B acc = .error 0x02D := by
  obtain ⟨es, hes⟩ := Option.ne_none_iff_exists'.1 hes
  have hne : (A.rx.map (BitVec.ofNat 2) != acc.rv || B.cx.map (BitVec.ofNat 2) != acc.cv) = true := by
    simpa [bne_iff_ne, ne_comm] using hvec
  simp only [mmulAcc, decide_eq_false heA, decide_eq_false heB, decide_eq_false hkd, if_neg hsub, Bool.and_false, Bool.or_self, Bool.false_eq_true,
    if_false, hes, hne, if_true]

theorem mmulAcc_full (hsub : sub ≠ 0) (hkd : acc.kd = 8) : mmulAcc sub A B acc = .error 0x02C := by
  simp [mmulAcc, hsub, hkd]

/-- A zero tile counts and adds nothing (R73). -/
theorem mmulAcc_zeroTile (hkd : sub = 0 ∨ acc.kd ≠ 8) (hzero : A.e = 0 ∨ B.e = 0) :
    mmulAcc sub A B acc = .ok { acc with lanes := if sub = 0 then [] else acc.lanes, kd := if sub = 0 then 1 else acc.kd + 1 } := by
  have hz : (decide (A.e = 0) || decide (B.e = 0)) = true := by simpa using hzero
  by_cases h0 : sub = 0
  · simp [mmulAcc, h0, hz]
  · simp [mmulAcc, h0, hkd.resolve_left h0, hz]
end

/-! ### Drains (R74) -/

theorem lget_accValues_none {acc : Acc} (h : acc.es = none) (n : Nat) : lget (accValues acc) n (.fin false 0 0) = .fin false 0 0 := by
  rw [accValues, h]
  exact lget_replicate_self _ _ _

/-- The value of lane n of an accumulator (R74). -/
theorem lget_accValues_some {acc : Acc} {es : Int} (h : acc.es = some es) (hrv : acc.rv.length = 32) (hcv : acc.cv.length = 32)
    (hlanes : acc.lanes = [] ∨ acc.lanes.length = 1024) {n : Nat} (hn : n < 1024) :
    lget (accValues acc) n (.fin false 0 0) = if accLane acc n = 0 then .fin false 0 0
      else .fin (decide (accLane acc n < 0)) (accLane acc n).natAbs
        (es - 254 - 6 - ((lget acc.rv (n / 32) 0#2).toNat : Int) - ((lget acc.cv (n % 32) 0#2).toNat : Int)) := by
  have hexp : es - 254 - 6 = es - 260 := by omega
  rw [accValues, h]
  simp only
  rw [lget_zipWith _ _ _ _ _ 0 0 (by rw [length_accLanes hlanes]; exact hn) (by rw [length_grid _ _ _ hrv hcv]; exact hn),
    lget_grid _ _ _ _ _ 0#2 0#2 hrv hcv hn, hexp]
  rfl

/-- The elements of a raw binary32 image are those it was made of. -/
theorem lget_rawElems_rawImage {es : List Nat} {n : Nat} (hlen : es.length = 1024) (hn : n < 1024) :
    lget (rawElems 7 (rawImage 7 es)) n 0 = lget es n 0 % 2 ^ 32 :=
  lget_unpack_leBytes (b := 8 * rawBytes 7) (m := imageLen 7) hlen (by simp [rawBytes, imageLen]) hn

/-- Each lane of a drain is its value rounded once to binary32 (R74). -/
theorem lget_rawElems_drainF32 (mode : Nat) (fzo sat : Bool) {acc : Acc} {n : Nat} (hn : n < 1024) (hlen : (accValues acc).length = 1024) :
    lget (rawElems 7 (drainF32 mode fzo sat acc).1) n 0 =
      (deliverFp fmtF32 mode fzo sat (lget (accValues acc) n (.fin false 0 0))).1 % 2 ^ 32 := by
  rw [drainF32, lget_rawElems_rawImage (by simp [hlen]) hn, List.map_map, lget_map _ _ _ _ (.fin false 0 0) (by omega)]
  rfl

theorem bit_drainF32 (mode : Nat) (fzo sat : Bool) (acc : Acc) (k : Nat) :
    bit (drainF32 mode fzo sat acc).2 k = true ↔ ∃ v, v ∈ accValues acc ∧ bit (deliverFp fmtF32 mode fzo sat v).2 k = true := by
  simp [drainF32, bit_foldl_or]

end Sys2Proof.Proofs

/-! PROOFS. Quantisation (R66, R67, R69): what an XS image says of its parts, and the parts that R69 computes. -/

namespace Sys2Proof.Proofs

open Sys2Proof Sys2Proof.Machine Sys2Proof.Laws Sys2Proof.Claims

/-! ### Signed codes -/

theorem sextNat_mod (b c : Nat) : sextNat b (c % 2 ^ b) = sextNat b c := by simp only [sextNat, Nat.mod_mod]

/-- A number within the range of a signed code is read back from it. -/
theorem sextNat_wrapNat {b : Nat} {i : Int} (hb : b ≠ 0) (hlo : -((2 ^ (b - 1) : Nat) : Int) ≤ i) (hhi : i < ((2 ^ (b - 1) : Nat) : Int)) :
    sextNat b (wrapNat b i) = i := by
  have hpow : 2 ^ b = 2 * 2 ^ (b - 1) := by rw [← Nat.pow_succ']; congr 1; omega
  have hpos := Nat.two_pow_pos (b - 1)
  have hlt := wrapNat_lt b i
  simp only [sextNat, if_neg hb, Nat.mod_eq_of_lt hlt]
  rcases lt_or_ge i 0 with hneg | hnn
  · have hval : wrapNat b i = (i + (2 ^ b : Nat)).toNat := by
      rw [wrapNat, ← Int.add_emod_right, Int.emod_eq_of_lt (by omega) (by omega)]
    rw [if_neg (by omega)]
    omega
  · have hval : wrapNat b i = i.toNat := by rw [wrapNat, Int.emod_eq_of_lt hnn (by omega)]
    rw [if_pos (by omega)]
    omega

/-! ### The parts of an XS image (R66, R67) -/

section
variable {tag e cbid n : Nat} {rx cx codes : List Nat}

theorem imgByte_mkXs_zero (h : tag < 256) : imgByte (mkXs tag e rx cx cbid codes) 0 = tag := by
  have hbyte : imgByte (mkXs tag e rx cx cbid codes) 0 = tag % 256 := rfl
  rw [hbyte, Nat.mod_eq_of_lt h]

theorem imgByte_mkXs_one (h : e < 256) : imgByte (mkXs tag e rx cx cbid codes) 1 = e := by
  have hbyte : imgByte (mkXs tag e rx cx cbid codes) 1 = e % 256 := rfl
  rw [hbyte, Nat.mod_eq_of_lt h]

theorem lget_microOf_rows (he : e ≠ 0) (hrx : rx.length = 32) (hn : n < 32) : lget (microOf (mkXs tag e rx cx cbid codes) 2) n 0 = lget rx n 0 % 4 := by
  have hpart : ((mkXs tag e rx cx cbid codes).drop 2).take 8 = leBytes 8 (packCodes 2 rx) := by
    simp [mkXs, he, List.drop_append, List.drop_of_length_le]
  rw [microOf, hpart, lget_unpack_leBytes hrx (by decide) hn]
  rfl

theorem lget_microOf_columns (he : e ≠ 0) (hcx : cx.length = 32) (hn : n < 32) :
    lget (microOf (mkXs tag e rx cx cbid codes) 10) n 0 = lget cx n 0 % 4 := by
  have hpart : ((mkXs tag e rx cx cbid codes).drop 10).take 8 = leBytes 8 (packCodes 2 cx) := by
    simp [mkXs, he, List.drop_append, List.drop_of_length_le]
  rw [microOf, hpart, lget_unpack_leBytes hcx (by decide) hn]
  rfl

theorem lget_tileCodes_mkXs (he : e ≠ 0) (htag : tag ∈ [1, 2, 3]) (hcodes : codes.length = 1024) (hn : n < 1024) :
    lget (tileCodes tag (mkXs tag e rx cx cbid codes)) n 0 = lget codes n 0 % 2 ^ codeBits tag := by
  have hpart : (mkXs tag e rx cx cbid codes).drop 32 = leBytes (imageLen tag - 32) (packCodes (codeBits tag) codes) := by
    simp [mkXs, he, List.drop_append, List.drop_of_length_le]
  have hroom : ∀ t ∈ [1, 2, 3], codeBits t * 1024 ≤ 8 * (imageLen t - 32) := by decide
  rw [tileCodes, hpart, lget_unpack_leBytes hcodes (hroom tag htag) hn]
end

/-! ### The exponents of R69 -/

theorem maxInt_eq_none {l : List Int} : maxInt l = none ↔ l = [] := by
  cases l with
  | nil => simp [maxInt]
  | cons x r => simp only [maxInt]; split <;> simp

theorem cap3_le (x : Int) : cap3 x ≤ 3 := by unfold cap3; split <;> omega

/-- The micro-exponents of the rows, for exponents in rows of 32 and their greatest. -/
def quantRows (M : Int) (es : List (Option Int)) : List Nat :=
  (rows32 32 es).map (fun r =>
    match maxInt (r.filterMap id) with
    | some e => cap3 (M - e)
    | none => 3)

/-- The micro-exponents of the columns, after those of the rows. -/
def quantColumns (M : Int) (rx : List Nat) (es : List (Option Int)) : List Nat :=
  (rows32 32 (transpose32 none es)).map (fun c =>
    match minInt ((rx.zip c).filterMap (fun p => p.2.map (fun e => M - (p.1 : Nat) - e))) with
    | some d => cap3 d
    | none => 3)

@[simp] theorem length_quantRows (M : Int) (es : List (Option Int)) : (quantRows M es).length = 32 := by simp [quantRows]
@[simp] theorem length_quantColumns (M : Int) (rx : List Nat) (es : List (Option Int)) : (quantColumns M rx es).length = 32 := by simp [quantColumns]

theorem quantRows_le {M : Int} {es : List (Option Int)} {i : Nat} (hi : i < 32) : lget (quantRows M es) i 0 ≤ 3 := by
  rw [quantRows, lget_map _ _ _ _ [] (by simpa using hi)]
  split
  · exact cap3_le _
  · exact Nat.le_refl 3

theorem quantColumns_le {M : Int} {rx : List Nat} {es : List (Option Int)} {j : Nat} (hj : j < 32) : lget (quantColumns M rx es) j 0 ≤ 3 := by
  rw [quantColumns, lget_map _ _ _ _ [] (by simpa using hj)]
  split
  · exact cap3_le _
  · exact Nat.le_refl 3

section
variable {vs : List FpVal} (hlen : vs.length = 1024)
include hlen

/-- The exponent of an element. -/
theorem lget_map_expOf {k : Nat} (hk : k < 1024) : lget (vs.map expOf) k none = expOf (lget vs k (.fin false 0 0)) :=
  lget_map _ _ _ _ _ (by omega)

/-- The exponents of row i. -/
theorem filterMap_row {i : Nat} (hi : i < 32) : (lget (rows32 32 (vs.map expOf)) i []).filterMap id =
    (upFrom 0 32).filterMap (fun j => expOf (lget vs (32 * i + j) (.fin false 0 0))) := by
  rw [lget_rows32_eq_map none hi (by simp [hlen]), List.filterMap_map]
  refine List.filterMap_congr (fun j hj => ?_)
  have hj : j < 32 := by simpa using ((mem_upFrom _ _ _).1 hj).2
  exact lget_map_expOf hlen (by omega)

/-- The exponents of column j, less the micro-exponents of their rows. -/
theorem filterMap_column (M : Int) {rx : List Nat} (hrx : rx.length = 32) {j : Nat} (hj : j < 32) :
    (rx.zip (lget (rows32 32 (transpose32 none (vs.map expOf))) j [])).filterMap (fun p => p.2.map (fun e => M - (p.1 : Nat) - e)) =
    (upFrom 0 32).filterMap (fun i => (expOf (lget vs (32 * i + j) (.fin false 0 0))).map (fun e => M - ((lget rx i 0 : Nat) : Int) - e)) := by
  rw [lget_rows32_eq_map none hj (by simp)]
  conv_lhs => rw [eq_map_lget 0 hrx]
  rw [List.zip, List.zipWith_map, List.zipWith_self, List.filterMap_map]
  refine List.filterMap_congr (fun i hi => ?_)
  have hi : i < 32 := by simpa using ((mem_upFrom _ _ _).1 hi).2
  simp only [Function.comp_apply, lget_transpose32 none _ none hi hj, lget_map_expOf hlen (show 32 * i + j < 1024 by omega)]

/-- The micro-exponent of row i (R69). -/
theorem lget_quantRows (M : Int) {i : Nat} (hi : i < 32) : lget (quantRows M (vs.map expOf)) i 0 =
    match maxInt ((upFrom 0 32).filterMap (fun j => expOf (lget vs (32 * i + j) (.fin false 0 0)))) with
    | some e => cap3 (M - e)
    | none => 3 := by
  rw [quantRows, lget_map _ _ _ _ [] (by simpa using hi), filterMap_row hlen hi]

/-- The micro-exponent of column j (R69). -/
theorem lget_quantColumns (M : Int) {rx : List Nat} (hrx : rx.length = 32) {j : Nat} (hj : j < 32) : lget (quantColumns M rx (vs.map expOf)) j 0 =
    match minInt ((upFrom 0 32).filterMap (fun i =>
      (expOf (lget vs (32 * i + j) (.fin false 0 0))).map (fun e => M - ((lget rx i 0 : Nat) : Int) - e))) with
    | some d => cap3 d
    | none => 3 := by
  rw [quantColumns, lget_map _ _ _ _ [] (by simpa using hj), filterMap_column hlen M hrx hj]
end

/-! ### Quantised tiles (R69) -/

/-- A NaN is quantised as zero. -/
def nanAsZero (v : FpVal) : FpVal := if v.isNan then .fin false 0 0 else v

theorem expOf_nanAsZero (v : FpVal) : expOf (nanAsZero v) = expOf v := by cases v <;> rfl
theorem isInf_nanAsZero (v : FpVal) : (nanAsZero v).isInf = v.isInf := by cases v <;> rfl

theorem map_expOf_nanAsZero (vs : List FpVal) : (vs.map nanAsZero).map expOf = vs.map expOf := by
  rw [List.map_map]
  exact List.map_congr_left (fun v _ => expOf_nanAsZero v)

theorem any_isInf_nanAsZero {vs : List FpVal} (h : ∀ v ∈ vs, v.isInf = false) : (vs.map nanAsZero).any FpVal.isInf = false := by
  rw [List.any_map, List.any_eq_false]
  intro v hv
  rw [Function.comp_apply, isInf_nanAsZero, h v hv]
  decide

/-- No element has an exponent: all are zero or NaN. -/
theorem all_isNone_expOf (vs : List FpVal) : (vs.map expOf).all Option.isNone = (vs.filterMap expOf).isEmpty := by
  rw [Bool.eq_iff_iff, List.isEmpty_iff, List.filterMap_eq_nil_iff]
  simp

theorem filterMap_id_expOf (vs : List FpVal) : (vs.map expOf).filterMap id = vs.filterMap expOf := by
  rw [List.filterMap_map]; rfl

/-- The code of an element scaled by `2^k`, and its flags. -/
def quantCode (tag : Nat) (v : FpVal) (k : Int) : Nat × Nat :=
  match v with
  | .fin n m e =>
    let r := roundAt 0 n m (e + k) 0
    let s := if 2 ^ (codeBits tag - 1) - 1 < r.1 then 2 ^ (codeBits tag - 1) - 1 else r.1
    (wrapNat (codeBits tag) (if n then -(s : Int) else s), if r.2 || decide (2 ^ (codeBits tag - 1) - 1 < r.1) then 16 else 0)
  | .inf n => (wrapNat (codeBits tag) (if n then -((2 ^ (codeBits tag - 1) - 1 : Nat) : Int) else ((2 ^ (codeBits tag - 1) - 1 : Nat) : Int)), 4)
  | .nan _ => (0, 0)

/-- The scales of the elements. -/
def quantScale (tag : Nat) (M : Int) (rx cx : List Nat) : List Int :=
  rx.flatMap (fun r => cx.map (fun c => 127 + (fracBits tag : Int) - (M + 127) + (r : Nat) + (c : Nat)))

theorem codeBits_ne_zero (tag : Nat) : codeBits tag ≠ 0 := by
  unfold codeBits
  split
  · decide
  · split <;> decide

/-- The significand of a code: the element scaled, rounded to nearest even and clamped (R69). -/
theorem sextNat_quantCode {tag : Nat} (neg : Bool) (m : Nat) (e k : Int) : sextNat (codeBits tag) (quantCode tag (.fin neg m e) k).1 =
    (if neg then -1 else 1) * ((Nat.min (roundAt 0 neg m (e + k) 0).1 (2 ^ (codeBits tag - 1) - 1) : Nat) : Int) := by
  have hb := codeBits_ne_zero tag
  have hmin : (if 2 ^ (codeBits tag - 1) - 1 < (roundAt 0 neg m (e + k) 0).1 then 2 ^ (codeBits tag - 1) - 1 else (roundAt 0 neg m (e + k) 0).1) =
      Nat.min (roundAt 0 neg m (e + k) 0).1 (2 ^ (codeBits tag - 1) - 1) := by
    simp only [Nat.min_def]
    split <;> split <;> omega
  have hle : Nat.min (roundAt 0 neg m (e + k) 0).1 (2 ^ (codeBits tag - 1) - 1) ≤ 2 ^ (codeBits tag - 1) - 1 := Nat.min_le_right _ _
  have hpos := Nat.two_pow_pos (codeBits tag - 1)
  simp only [quantCode, hmin]
  rw [sextNat_wrapNat hb (by split <;> omega) (by split <;> omega)]
  cases neg <;> simp

section
variable {tag : Nat} {vs : List FpVal}

/-- A quantised tile with a finite exponent: its image by parts. -/
theorem quantise_normal {M : Int} (hfin : ∀ v ∈ vs, v.isNan = false ∧ v.isInf = false) (hM : maxInt (vs.filterMap expOf) = some M)
    (hlo : 1 ≤ M + 127) (hhi : M + 127 ≤ 254) :
    (quantise tag vs).1 = mkXs tag (M + 127).toNat (quantRows M (vs.map expOf)) (quantColumns M (quantRows M (vs.map expOf)) (vs.map expOf)) 0
      ((List.zipWith (quantCode tag) vs
        (quantScale tag M (quantRows M (vs.map expOf)) (quantColumns M (quantRows M (vs.map expOf)) (vs.map expOf)))).map Prod.fst) := by
  have hclean : vs.map nanAsZero = vs := (List.map_congr_left (fun v hv => if_neg (by simp [(hfin v hv).1]))).trans (List.map_id vs)
  have hinf : vs.any FpVal.isInf = false := List.any_eq_false.2 (fun v hv => by simp [(hfin v hv).2])
  have hsome : (vs.map expOf).all Option.isNone = false := by
    rw [all_isNone_expOf, List.isEmpty_eq_false_iff]
    rintro hnil
    rw [hnil] at hM
    cases hM
  unfold nanAsZero at hclean
  simp only [quantise, hclean, hinf, hsome, filterMap_id_expOf, hM, Option.getD_some, if_neg (Int.not_lt.2 hlo), if_neg (Int.not_lt.2 hhi),
    Bool.false_and, Bool.false_eq_true, if_false]
  rfl

/-- A tile with no exponent of at least 1: a zero tile with its flags (R69). -/
theorem quantise_low (hfin : ∀ v ∈ vs, v.isInf = false) (hlow : ∀ M, maxInt (vs.filterMap expOf) = some M → M + 127 < 1) :
    quantise tag vs = (mkXs tag 0 [] [] 0 [], (if vs.any FpVal.isNan then 1 else 0) + if (vs.filterMap expOf).isEmpty then 0 else 24) := by
  have hinf := any_isInf_nanAsZero hfin
  have hes := map_expOf_nanAsZero vs
  unfold nanAsZero at hinf hes
  simp only [quantise, hinf, hes, all_isNone_expOf, filterMap_id_expOf, Bool.not_false, Bool.and_true]
  split
  · rfl
  · next hne =>
    cases hM : maxInt (vs.filterMap expOf) with
    | none => exact absurd (List.isEmpty_iff.2 (maxInt_eq_none.1 hM)) hne
    | some M =>
      rw [Option.getD_some, if_pos (hlow M hM)]

end

end Sys2Proof.Proofs

/-! PROOFS. Matrix rows and queue M (R209, R252 to R254): what the firings hand over, and what the issue of a product or a drain leaves. -/

namespace Sys2Proof.Proofs

open Sys2Proof Sys2Proof.Machine Sys2Proof.Laws Sys2Proof.Claims

/-! ### Firings -/

/-- An operation forwarded to queue M (R252). -/
theorem fireMatrix_go {opc : Nat} {slot cim : PeWord → Option Nat} {w : PeWord} {s s1 : State} {uid key : Nat} {g : Gathered}
    (hgo : prepFireT opc w s = .go s1 uid key g) (hfault : matFault s1 uid ((s1.unit uid).siteOf key).cl w (slot w) (cim w) = none) :
    fireMatrix opc slot cim w s = ((taken s1 uid key g).modUnit uid (fun u =>
      { (u.modPe key (fun p => { p with out := p.out ++ [.pending (s1.unit uid).nextId] })) with nextId := (s1.unit uid).nextId + 1, quiet := false })).modCluster
        ((s1.unit uid).siteOf key).cl (fun c => { c with mq := c.mq ++
          [{ id := (s1.unit uid).nextId, opc := BitVec.ofNat 8 opc, w := w, unit := uid, site := (s1.unit uid).siteOf key, tok := g.tok
             rm := (s1.unit uid).rm, uctl := (s1.unit uid).uctl }] }) := by
  simp only [fireMatrix, hgo, hfault]
  rfl

/-- The tile form of FCVT whose descriptor names a full raw slot (R209). -/
theorem exec_fcvtTile_go {w : PeWord} {s s2 : State} {uid key fl : Nat} {toks : List (Nat × Token)} {a : Opnd} {t : Tile} {img : List Byte}
    (hfocus : s.focusPe = some (uid, key)) (hereg : eregReady w ((calm s uid key).pe key) = true)
    (hmatch : (calm s uid key).matchSet key (selQueues w) (fun _ => true) = some toks)
    (ha : a = operandOf 0x50 w ((calm s uid key).pe key) toks w.sa 0b10) (hfields : fcvtTileFieldsOk w = true)
    (hmode : (roundMode w.mod (calm s uid key).rm).isSome = true) (himm : w.sa ≠ 5#3 ∨ w.x = true)
    (hsel7 : w.sa ≠ 7#3 ∨ (((calm s uid key).pe key).reg w.ei.toNat).full = true) (htag : tagFault 0 a 0b10 = none)
    (hcheck : fcvtTileCheck (calmed s uid key) uid ((calm s uid key).siteOf key).cl a.v = some (.ok t))
    (hquant : quantise (wbits a.v 11 8) (rawValues t.tag.toNat (w.sub.getLsbD 2) t.img) = (img, fl))
    (hflags : (calmed s uid key).tileFlags uid fl (calm s uid key).uctl = (s2, none)) :
    exec (.fcvtTile w) s = .next (((s2.commitFiring uid key toks).modCluster ((calm s uid key).siteOf key).cl (fun c =>
      c.setSlot (wbits a.v 3 0) ⟨BitVec.ofNat 4 (wbits a.v 11 8), img⟩)).deliver uid key w
        { (toks.map Prod.snd).headD {} with ctx := BitVec.ofNat 2 (calm s uid key).ctx, payload := a.v, fmt := 1#4
                                            col := (calm s uid key).effCol ((toks.map Prod.snd).headD {}).col, kind := 0#2 }) := by
  have hmode' : (roundMode w.mod (calm s uid key).rm).isNone = false := by
    rw [← Option.not_isSome, hmode]
    rfl
  have himm' : (w.sa == 5#3 && !w.x) = false := by
    rcases himm with h | h <;> simp [h]
  have hsel7' : (w.sa == 7#3 && !(((calm s uid key).pe key).reg w.ei.toNat).full) = false := by
    rcases hsel7 with h | h <;> simp [h]
  subst ha
  unfold calmed at hcheck hflags
  unfold calm at *
  have hexec : exec (.fcvtTile w) s = execFcvtTile w s := rfl
  simp only [hexec, execFcvtTile, hfocus, hereg, hmatch, hfields, hmode', himm', hsel7', htag, hcheck, hquant, hflags, Bool.not_true,
    Bool.false_eq_true, if_false]

/-! ### Issue of products (R253, R265) -/

/-- A product finds both of its tiles full. -/
theorem pair_ok_full {c : Cluster} {a b fmt : Nat} {ae : Bool} {A B : XsView} (h : c.pair a b fmt ae = .ok A B) :
    (c.slot a).tag ≠ 0#4 ∧ (c.cimSlot b).tile.tag ≠ 0#4 := by
  simp only [Cluster.pair] at h
  split at h
  · split at h <;> cases h
  · next hfull => simpa using hfull

/-- The issue of one product whose operands pass their checks. -/
theorem issueProducts_one {s : State} {cl k a b fmt sub : Nat} {ae : Bool} {A B : XsView} (uid : Nat) (h : (s.cluster cl).pair a b fmt ae = .ok A B) :
    s.issueProducts cl uid k a b fmt 1 sub ae = match mmulAcc sub A B ((s.cluster cl).accOf k) with
      | .ok x => .ok (((s.count (9 + dieOf cl) 1).modCluster cl (fun c => c.setAcc k x)).noteNarrow uid) 0
      | .error c => .fault s (cause c) := by
  obtain ⟨ha, hb⟩ := pair_ok_full h
  have hfull : ((upFrom 0 1).any (fun i => ((s.cluster cl).slot (a + i)).tag == 0#4 || ((s.cluster cl).cimSlot (b + i)).tile.tag == 0#4)) = false := by
    simp [upFrom, ha, hb]
  simp only [State.issueProducts, hfull, Bool.false_and, Bool.false_eq_true, if_false, Cluster.chain, h]
  cases mmulAcc sub A B ((s.cluster cl).accOf k) <;> rfl

/-! ### Issue of drains (R74, R254) -/

theorem accOf_setSlot (c : Cluster) (k a : Nat) (t : Tile) : (c.setSlot k t).accOf a = c.accOf a := rfl

/-- A drain into a slot raises no enabled trap: its image is the fill, and memory and units are as they were. -/
theorem issueDrain_slot {s : State} {d : Drain} {traps : Nat} (cl job va code : Nat) (who : Nat × Nat) (hsub : d.sub = 0 ∨ d.sub = 2)
    (htrap : trapFlag traps (d.image ((s.cluster cl).accOf d.acc)).2.2 = none) :
    ∃ t : State, s.issueDrain cl who job va d traps code = .ok t (d.image ((s.cluster cl).accOf d.acc)).2.2
      [(d.slot, ⟨BitVec.ofNat 4 (d.image ((s.cluster cl).accOf d.acc)).1, (d.image ((s.cluster cl).accOf d.acc)).2.1⟩)] ∧ t.units = s.units ∧ t.mem = s.mem ∧
      (d.clr = false → ∀ k, (t.cluster cl).accOf k = (s.cluster cl).accOf k) := by
  have h1 : d.sub ≠ 1 := by omega
  have h3 : d.sub ≠ 3 := by omega
  simp only [State.issueDrain, if_neg h3, if_neg h1, htrap]
  refine ⟨_, rfl, by split <;> rfl, by split <;> rfl, fun hclr k => ?_⟩
  rw [if_neg (by simp [hclr]), State.emptySlots, State.cluster_modCluster_self]
  exact accOf_setSlot _ _ _ _

theorem image_eq (d : Drain) (a : Acc) :
    d.image a = if d.sub = 2 then (d.fmt, quantise d.fmt (accValues a)) else (7, drainF32 d.mode d.fzo d.sat a) := by
  unfold Drain.image
  split <;> rfl

/-- A raw tile is quantised (R209). -/
theorem quantTile_raw {t : Tile} (qtag : Nat) (fzi : Bool) (h : t.tag.toNat ∈ [5, 6, 7]) :
    quantTile qtag fzi t = .ok (⟨BitVec.ofNat 4 qtag, (quantise qtag (rawValues t.tag.toNat fzi t.img)).1⟩,
      (quantise qtag (rawValues t.tag.toNat fzi t.img)).2) := by
  have hrange : 5 ≤ t.tag.toNat ∧ t.tag.toNat ≤ 7 := by simp at h; omega
  have h8 : ¬ 8#4 ≤ t.tag := by rw [BitVec.le_def, BitVec.toNat_ofNat]; omega
  have h5 : ¬ t.tag.toNat < 5 := by omega
  simp only [quantTile, if_neg h8, if_neg h5]

/-! ### The statement -/

/-- The image of a quantised tile holds the exponents and significands that R69 computes. -/
theorem quantise_parts {tag : Nat} {vs : List FpVal} {img : List Byte} {M : Int} (htag : tag ∈ [1, 2, 3]) (hlen : vs.length = 1024)
    (hfin : ∀ v ∈ vs, v.isNan = false ∧ v.isInf = false) (hM : maxInt (vs.filterMap expOf) = some M) (hlo : 1 ≤ M + 127) (hhi : M + 127 ≤ 254)
    (himg : img = (quantise tag vs).1) :
    imgByte img 0 = tag ∧ (imgByte img 1 : Int) = M + 127 ∧
    (∀ i, i < 32 → lget (microOf img 2) i 0 = lget (quantRows M (vs.map expOf)) i 0) ∧
    (∀ j, j < 32 → lget (microOf img 10) j 0 = lget (quantColumns M (quantRows M (vs.map expOf)) (vs.map expOf)) j 0) ∧
    (∀ n, n < 1024 → sextNat (codeBits tag) (lget (tileCodes tag img) n 0) = sextNat (codeBits tag) (quantCode tag (lget vs n (.fin false 0 0))
      (fracBits tag - M + (lget (quantRows M (vs.map expOf)) (n / 32) 0 : Nat) +
        (lget (quantColumns M (quantRows M (vs.map expOf)) (vs.map expOf)) (n % 32) 0 : Nat))).1) := by
  have hnum : 1 ≤ tag ∧ tag ≤ 3 := by simp at htag; omega
  have he : (M + 127).toNat ≠ 0 := by omega
  have hcol : (quantColumns M (quantRows M (vs.map expOf)) (vs.map expOf)).length = 32 := length_quantColumns _ _ _
  have hscale : (quantScale tag M (quantRows M (vs.map expOf)) (quantColumns M (quantRows M (vs.map expOf)) (vs.map expOf))).length = 1024 :=
    length_grid _ _ _ (length_quantRows _ _) hcol
  rw [himg, quantise_normal hfin hM hlo hhi]
  refine ⟨imgByte_mkXs_zero (by omega), ?_, fun i hi => ?_, fun j hj => ?_, fun n hn => ?_⟩
  · rw [imgByte_mkXs_one (by omega)]
    omega
  · rw [lget_microOf_rows he (length_quantRows _ _) hi, Nat.mod_eq_of_lt (Nat.lt_succ_of_le (quantRows_le hi))]
  · rw [lget_microOf_columns he hcol hj, Nat.mod_eq_of_lt (Nat.lt_succ_of_le (quantColumns_le hj))]
  · have hexp : ∀ r c : Int, 127 + (fracBits tag : Int) - (M + 127) + r + c = fracBits tag - M + r + c := fun r c => by omega
    rw [lget_tileCodes_mkXs he htag (by simp [hlen, hscale]) hn, sextNat_mod, lget_map _ _ _ _ (0, 0) (by simp [hlen, hscale, hn]),
      lget_zipWith _ _ _ _ _ (.fin false 0 0) 0 (by omega) (by omega), quantScale, lget_grid _ _ _ _ _ 0 0 (length_quantRows _ _) hcol hn, hexp]

/-- Settles O24: the firings join queue M, and every lane of a product, a drain and a quantised tile has its exact value. -/
theorem matrixRowsJoinTheQueue : Obligations.MatrixRowsJoinTheQueue := by
  unfold Obligations.MatrixRowsJoinTheQueue
  refine ⟨⟨?queue, ?fcvtTile⟩, ⟨?product, ?otherVectors, ?full, ?zeroTile, ?view, ?issue⟩,
    ⟨?value, ?drainF32, ?drain, ?image, ?quantised, ?low, ?quantTile⟩⟩
  case queue =>
    intro i w opc slot cim s s1 uid key g hi hgo hfault
    simp only [List.mem_cons, List.not_mem_nil, or_false, Prod.mk.injEq] at hi
    rcases hi with ⟨rfl, rfl, rfl, rfl⟩ | ⟨rfl, rfl, rfl, rfl⟩ | ⟨rfl, rfl, rfl, rfl⟩ <;>
      exact congrArg Host.Outcome.next (fireMatrix_go hgo hfault)
  case fcvtTile =>
    intro w s s2 uid key fl toks a t img hfocus hereg hmatch ha hfields hmode himm hsel7 htag hcheck hquant hflags
    exact exec_fcvtTile_go hfocus hereg hmatch ha hfields hmode himm hsel7 htag hcheck hquant hflags
  case product =>
    intro sub A B acc es _ hA hB hlanes hkd heA heB hes hvec
    obtain ⟨a, new, hmul, hnew⟩ := mmulAcc_settles hA hB hlanes hkd heA heB hvec
    obtain ⟨hfits, hbad⟩ := settle_spec (a := a) hnew.length hnew.lane
    rw [hmul, ← hnew.kd, ← hnew.rv, ← hnew.cv, show es = expSum A B from hes, ← hnew.es]
    exact ⟨hfits, hbad⟩
  case otherVectors => exact fun sub A B acc hsub hkd heA heB hes hvec => mmulAcc_otherVectors hsub hkd heA heB hes hvec
  case full => exact fun sub A B acc hsub hkd => mmulAcc_full hsub hkd
  case zeroTile => exact fun sub A B acc hkd hzero => mmulAcc_zeroTile hkd hzero
  case view => exact fun tag img tab => ⟨shaped_viewTile tag img tab, fun n hn => lget_viewTile tag img tab hn⟩
  case issue =>
    intro s cl uid k a b fmt sub ae A B hpair
    exact ⟨fun x hx => by rw [issueProducts_one uid hpair, hx], fun c hc => by rw [issueProducts_one uid hpair, hc]⟩
  case value =>
    intro acc n hn hrv hcv hlanes
    cases hes : acc.es with
    | none => exact lget_accValues_none hes n
    | some es => exact lget_accValues_some hes hrv hcv hlanes hn
  case drainF32 => exact fun mode fzo sat acc n hn hlen => ⟨lget_rawElems_drainF32 mode fzo sat hn hlen, bit_drainF32 mode fzo sat acc⟩
  case drain => exact fun s cl job va traps code who d hsub htrap => issueDrain_slot cl job va code who hsub htrap
  case image => exact image_eq
  case quantised =>
    intro tag vs img M htag hlen hfin hM hlo hhi himg
    obtain ⟨hcode, hexp, hrows, hcolumns, hsig⟩ := quantise_parts htag hlen hfin hM hlo hhi himg
    refine ⟨hcode, hexp, fun i hi => (hrows i hi).trans (lget_quantRows hlen M hi), fun j hj => ?_, fun n neg m e hn hv => ?_⟩
    · have hminus : ∀ i ∈ upFrom 0 32, ((lget (microOf img 2) i 0 : Nat) : Int) = (lget (quantRows M (vs.map expOf)) i 0 : Nat) :=
        fun i hi => congrArg _ (hrows i (by simpa using ((mem_upFrom _ _ _).1 hi).2))
      have hcolumn := lget_quantColumns hlen M (length_quantRows M (vs.map expOf)) hj
      rw [List.filterMap_congr (fun i hi => by rw [← hminus i hi])] at hcolumn
      exact (hcolumns j hj).trans hcolumn
    · rw [hsig n hn, hv, sextNat_quantCode, hrows _ (by omega), hcolumns _ (by omega)]
  case low => exact fun tag vs _ _ hfin hlow => quantise_low hfin hlow
  case quantTile => exact fun qtag fzi t ht => quantTile_raw qtag fzi ht

end Sys2Proof.Proofs

/-! PROOFS. Translation and the L space (R126, R355 to R359): what a walk answers at each level, the checks on a leaf, what a translation
grants and caches, and the place of an L-space byte. -/

namespace Sys2Proof.Proofs

open Sys2Proof Sys2Proof.Machine Sys2Proof.Laws Sys2Proof.Claims

/-! ### Entries of the page tables (R355) -/

/-- A leaf is an entry with R, W or X. -/
theorem leaf_iff (e : Nat) : (pteR e = true ∨ pteW e = true) ∨ pteX e = true ↔ bits e 3 1 ≠ 0 := by
  simp only [pteR, pteW, pteX, bit, bits, beq_iff_eq]
  omega

/-- The frame of a leaf of level 2 is a multiple of 8192 pages. -/
theorem ptePPN_mod (e : Nat) : ptePPN e % 8192 = bits e 28 16 := Nat.mod_mod_of_dvd (e / 2 ^ 16) (by decide : (8192 : Nat) ∣ 2 ^ 36)

theorem ptePPN_div (e : Nat) : ptePPN e / 8192 = bits e 51 29 := by
  simp only [ptePPN, bits]
  omega

theorem malformedLeaf_iff (e l : Nat) :
    malformedLeaf e l = true ↔ bits e 15 14 ≠ 0 ∨ bits e 9 8 = 3 ∨ l = 2 ∧ (bits e 9 8 ≠ 0 ∨ bits e 28 16 ≠ 0) := by
  simp only [malformedLeaf, pteCG, ptePPN_mod, Bool.or_eq_true, Bool.and_eq_true, bne_iff_ne, beq_iff_eq, or_assoc]

theorem malformedTable_iff (e : Nat) : malformedTable e = true ↔ bits e 15 1 ≠ 0 ∨ bits e 55 52 ≠ 0 := by
  simp [malformedTable]

/-- The address that a leaf gives is that of its frame, with the low bits of the virtual address. -/
theorem leafAddr_two (e va : Nat) : leafAddr e 2 va = bits e 51 29 * 2 ^ 29 + va % 2 ^ 29 := by rw [leafAddr, if_pos rfl, ptePPN_div]
theorem leafAddr_three (e va : Nat) : leafAddr e 3 va = bits e 51 16 * 2 ^ 16 + va % 2 ^ 16 := rfl

/-! ### One level of a walk (R358) -/

section
variable {s : State} {va n l t e : Nat}

theorem walkFrom_outside (h : isDevXa t = false) : walkFrom s va (n + 1) l t = .fault (0x093 + 4 * l) l 0 := by
  simp [walkFrom, h]

theorem walkFrom_badLine (hdev : isDevXa t = true) (hready : s.hostReady (t + 8 * walkIndex va l) 8 false = true)
    (hbad : s.bad.contains ((t + 8 * walkIndex va l) / 128) = true) : walkFrom s va (n + 1) l t = .fault (0x092 + 4 * l) l 0 := by
  simp only [walkFrom, hdev, hready, hbad, Bool.not_true, Bool.false_eq_true, if_false, if_true]

/-- An entry that can be read decides how the walk goes on. -/
theorem walkFrom_entry (h : EntryAt s va l t e) : walkFrom s va (n + 1) l t =
    if bit e 0 = false then .fault (0x090 + 4 * l) l e
    else if bits e 3 1 ≠ 0 then (if l < 2 ∨ malformedLeaf e l = true then .fault (0x091 + 4 * l) l e else .leaf l (t + 8 * walkIndex va l) e)
    else if l = 3 ∨ malformedTable e = true then .fault (0x091 + 4 * l) l e
    else walkFrom s va n (l + 1) (bits e 51 16 * 65536) := by
  obtain ⟨hdev, hready, hbad, he⟩ := h
  have hV : ((!pteV e) = true) = (bit e 0 = false) := by simp [pteV]
  simp only [walkFrom, hdev, hready, hbad, ← he, hV, leaf_iff, Bool.not_true, Bool.false_eq_true, if_false, Bool.or_eq_true, decide_eq_true_eq,
    beq_iff_eq]
  rfl

theorem walkFrom_invalid (h : EntryAt s va l t e) (hv : bit e 0 = false) : walkFrom s va (n + 1) l t = .fault (0x090 + 4 * l) l e := by
  rw [walkFrom_entry h, if_pos hv]

theorem walkFrom_badLeaf (h : EntryAt s va l t e) (hv : bit e 0 = true) (hleaf : bits e 3 1 ≠ 0) (hbad : l < 2 ∨ malformedLeaf e l = true) :
    walkFrom s va (n + 1) l t = .fault (0x091 + 4 * l) l e := by
  rw [walkFrom_entry h, if_neg (by simp [hv]), if_pos hleaf, if_pos hbad]

theorem walkFrom_leaf (h : EntryAt s va l t e) (hv : bit e 0 = true) (hleaf : bits e 3 1 ≠ 0) (hl : ¬ l < 2) (hok : ¬ malformedLeaf e l = true) :
    walkFrom s va (n + 1) l t = .leaf l (t + 8 * walkIndex va l) e := by
  rw [walkFrom_entry h, if_neg (by simp [hv]), if_pos hleaf, if_neg (by simp [hl, hok])]

theorem walkFrom_badTable (h : EntryAt s va l t e) (hv : bit e 0 = true) (hleaf : bits e 3 1 = 0) (hbad : l = 3 ∨ malformedTable e = true) :
    walkFrom s va (n + 1) l t = .fault (0x091 + 4 * l) l e := by
  rw [walkFrom_entry h, if_neg (by simp [hv]), if_neg (by simp [hleaf]), if_pos hbad]

/-- A table entry above level 3 leads on. -/
theorem walkFrom_table (h : EntryAt s va l t e) (ht : TableEntry e) (hl : l ≠ 3) :
    walkFrom s va (n + 1) l t = walkFrom s va n (l + 1) (bits e 51 16 * 65536) := by
  obtain ⟨hv, hlow, hhigh⟩ := ht
  have hleaf : bits e 3 1 = 0 := by
    simp only [bits] at hlow ⊢
    omega
  rw [walkFrom_entry h, if_neg (by simp [hv]), if_neg (by simp [hleaf]), if_neg (by simp [malformedTable_iff, hl, hlow, hhigh])]

end

section
variable {s : State} {root va e0 e1 e2 : Nat} (h0 : EntryAt s va 0 root e0) (ht0 : TableEntry e0)
  (h1 : EntryAt s va 1 (bits e0 51 16 * 65536) e1) (ht1 : TableEntry e1) (h2 : EntryAt s va 2 (bits e1 51 16 * 65536) e2)
include h0 ht0 h1 ht1 h2

/-- A well-formed leaf of level 2 ends the walk. -/
theorem walk_level2 (hv : bit e2 0 = true) (hleaf : bits e2 3 1 ≠ 0) (hzero : bits e2 15 14 = 0) (hcg : bits e2 9 8 = 0)
    (hframe : bits e2 28 16 = 0) : walk s root va = .leaf 2 (bits e1 51 16 * 65536 + 8 * bits va 41 29) e2 := by
  rw [walk, walkFrom_table h0 ht0 (by decide), walkFrom_table h1 ht1 (by decide),
    walkFrom_leaf h2 hv hleaf (by decide) (by simp [malformedLeaf_iff, hzero, hcg, hframe])]
  rfl

/-- So does one of level 3. -/
theorem walk_level3 {e3 : Nat} (ht2 : TableEntry e2) (h3 : EntryAt s va 3 (bits e2 51 16 * 65536) e3) (hv : bit e3 0 = true)
    (hleaf : bits e3 3 1 ≠ 0) (hzero : bits e3 15 14 = 0) (hcg : bits e3 9 8 ≠ 3) :
    walk s root va = .leaf 3 (bits e2 51 16 * 65536 + 8 * bits va 28 16) e3 := by
  rw [walk, walkFrom_table h0 ht0 (by decide), walkFrom_table h1 ht1 (by decide), walkFrom_table h2 ht2 (by decide),
    walkFrom_leaf h3 hv hleaf (by decide) (by simp [malformedLeaf_iff, hzero, hcg])]
  rfl

end

/-! ### The checks on a leaf (R358) -/

theorem writes_iff (k : Acc5) : k.writes = true ↔ k ∈ [Acc5.store, .atomic, .flushInv, .tileStore, .patch] := by cases k <;> decide

/-- A leaf passes when its scope is assigned and its rights and its memory type allow the access. -/
theorem leafFault_eq_none_iff (s : State) (e l va : Nat) (k : Acc5) : leafFault s e l va k = none ↔ (k = .patch ∨
    (bits e 6 4 ≤ 4 ∧ (k ∈ [Acc5.load, .flushClean, .flushInv, .tileLoad, .atomic] → bit e 1 = true) ∧
      (k ∈ [Acc5.store, .flushInv, .tileStore, .atomic] → bit e 2 = true) ∧ (k = .fetch → bit e 3 = true) ∧
      (k ∈ [Acc5.tileLoad, .tileStore] → bits e 11 10 ≠ 3) ∧ (bits e 11 10 = 3 → s.hostPortUp (leafAddr e l va) = true) ∧
      (k ∈ [Acc5.store, .atomic, .flushInv, .tileStore] → bit e 7 = false))) := by
  cases k <;> simp [leafFault, pteScope, pteR, pteW, pteX, pteMT, pteRD, Acc5.writes, ite_eq_iff, and_assoc]

/-- The causes of a leaf that fails, each with what it says of the leaf; an unassigned scope comes before the others. -/
theorem leafFault_eq_some {s : State} {e l va c : Nat} {k : Acc5} (h : leafFault s e l va k = some c) :
    c = 0x08A ∧ 4 < bits e 6 4 ∨ bits e 6 4 ≤ 4 ∧ (c = 0x080 ∧ bit e 1 = false ∨ c = 0x081 ∧ bit e 2 = false ∨ c = 0x083 ∧ k = .atomic ∨
      c = 0x082 ∧ k = .fetch ∧ bit e 3 = false ∨ (c = 0x084 ∨ c = 0x085) ∧ bits e 11 10 = 3 ∨ c = 0x08C ∧ bit e 7 = true) := by
  simp only [leafFault, pteScope, pteR, pteW, pteX, pteMT, pteRD, Bool.and_eq_true, Bool.or_eq_true, Bool.not_eq_true', beq_iff_eq,
    Bool.and_eq_false_iff] at h
  split_ifs at h <;> cases h <;> simp_all

/-! ### What a translation answers (R356, R357, R359) -/

/-- The cached translation that serves an access: the cluster's or its die's, but not for a write while D is 0. -/
def serving (s : State) (cl job va : Nat) (k : Acc5) : Option TlbEntry :=
  ((tlbHit s cl job va).or (tlbHit s (320 + dieOf cl) job va)).filter (fun t => !k.writes || pteD t.pte.toNat)

section
variable {s : State} {cl job va acc : Nat} {k : Acc5} (hva : va < 2 ^ 56)
include hva

theorem translate_serving {t : TlbEntry} {pa : Nat} (ht : serving s cl job va k = some t) (hleaf : leafFault s (t.leafFor va) t.level va k = none)
    (hpa : pa = leafAddr (t.leafFor va) t.level va) (hrange : s.rangeFault pa (pteMT (t.leafFor va)) (pteScope (t.leafFor va)) = false) :
    translate s cl job va k acc = (s, .ok (s.extend pa (pteMT (t.leafFor va))) (pteMT (t.leafFor va)) (pteScope (t.leafFor va))) := by
  subst hpa
  unfold serving at ht
  unfold Sys2Proof.Machine.translate
  cases hcl : tlbHit s cl job va <;> rw [hcl] at ht <;>
    simp only [Option.or] at ht <;> simp only [Nat.mod_eq_of_lt hva, hcl, ht, hleaf, hrange, Bool.false_eq_true, if_false]

/-- A walk that ends at a leaf that fails its checks. -/
theorem translate_walk_faults {l a e c : Nat} (ht : serving s cl job va k = none) (hwalk : walk s (s.job job).ptroot va = .leaf l a e)
    (hleaf : leafFault s e l va k = some c) : translate s cl job va k acc = (s, .fault ⟨c, wd e, wd (l + 16 * acc)⟩) := by
  unfold serving at ht
  unfold Sys2Proof.Machine.translate
  cases hcl : tlbHit s cl job va <;> rw [hcl] at ht <;>
    simp only [Option.or] at ht <;> simp only [Nat.mod_eq_of_lt hva, hcl, ht, hwalk, hleaf]

/-- A walk that ends at a good leaf sets A, and D for a write, and is cached by the cluster and its die. -/
theorem translate_walk_grants {s1 : State} {l a e e1 pa : Nat} (ht : serving s cl job va k = none)
    (hwalk : walk s (s.job job).ptroot va = .leaf l a e) (hleaf : leafFault s e l va k = none)
    (he1 : e1 = e ||| 2 ^ 12 ||| (if k.writes = true then 2 ^ 13 else 0)) (hready : e1 = e ∨ s.hostReady a 8 true = true)
    (hs1 : s1 = (((if e1 = e then s else s.devWrite a (leBytes 8 e1)).tlbFill cl job va e1 l 256).tlbFill (320 + dieOf cl) job va e1 l 8192))
    (hleaf1 : leafFault s1 e1 l va k = none) (hpa : pa = leafAddr e1 l va) (hrange : s1.rangeFault pa (pteMT e1) (pteScope e1) = false) :
    translate s cl job va k acc = (s1, .ok (s1.extend pa (pteMT e1)) (pteMT e1) (pteScope e1)) := by
  subst hpa
  have hgo : (e1 != e && !s.hostReady a 8 true) = false := by
    rcases hready with h | h <;> simp [h]
  unfold serving at ht
  unfold Sys2Proof.Machine.translate
  cases hcl : tlbHit s cl job va <;> rw [hcl] at ht <;>
    simp only [Option.or] at ht <;>
      simp only [Nat.mod_eq_of_lt hva, hcl, ht, hwalk, hleaf, ← he1, hgo, ← hs1, hleaf1, hrange, Bool.false_eq_true, if_false]

end

/-! ### What a walk leaves in the cache (R356, R359) -/

/-- The frame number of a leaf moved by `d` pages. -/
theorem ptePPN_ppnAdd (e d : Nat) : ptePPN (ppnAdd e d) = (ptePPN e + d) % 2 ^ 36 := by
  simp only [ppnAdd, ptePPN, bits]
  omega

theorem ppnAdd_lt {e : Nat} (d : Nat) (h : e < 2 ^ 64) : ppnAdd e d < 2 ^ 64 := by
  simp only [ppnAdd, ptePPN, bits]
  omega

/-- A leaf by its high bits, its frame number and its low bits. -/
theorem eq_of_pte_fields (e : Nat) : e / 2 ^ 52 * 2 ^ 52 + ptePPN e * 65536 + e % 65536 = e := by
  simp only [ptePPN, bits]
  omega

/-- Moving the frame number back and forth leaves the leaf as it is. -/
theorem ppnAdd_ppnAdd_back (e : Nat) {d : Nat} (h : d ≤ 2 ^ 36) : ppnAdd (ppnAdd e (2 ^ 36 - d)) d = e := by
  have hhigh : ppnAdd e (2 ^ 36 - d) / 2 ^ 52 = e / 2 ^ 52 := by
    simp only [ppnAdd]
    omega
  have hlow : ppnAdd e (2 ^ 36 - d) % 65536 = e % 65536 := by
    simp only [ppnAdd]
    omega
  have hframe : (ptePPN (ppnAdd e (2 ^ 36 - d)) + d) % 2 ^ 36 = ptePPN e := by
    have : ptePPN e < 2 ^ 36 := Nat.mod_lt _ (by decide)
    rw [ptePPN_ppnAdd]
    omega
  rw [ppnAdd, hhigh, hlow, hframe, eq_of_pte_fields]

/-- The pages that a leaf covers hold the page that was walked for. -/
theorem leafSpan_spec (e l va : Nat) : (leafSpan e l va).1 ≤ va / 65536 ∧ va / 65536 < (leafSpan e l va).1 + (leafSpan e l va).2 ∧
    (leafSpan e l va).2 ≤ 8192 := by
  simp only [leafSpan]
  split_ifs <;> omega

/-- The entry that a walk leaves in the cache. -/
def filled (holder job va e l : Nat) : TlbEntry :=
  { holder := holder, job := job, vpage := (leafSpan e l va).1, pages := (leafSpan e l va).2, level := l
    pte := wd (if l = 2 then e else ppnAdd e (2 ^ 36 - (va / 65536 - (leafSpan e l va).1))) }

theorem filled_mem_tlbFill (s : State) (holder job va e l cap : Nat) : filled holder job va e l ∈ (s.tlbFill holder job va e l cap).tlb :=
  List.mem_append_right _ (List.mem_singleton.2 rfl)

/-- For the page that was walked for, it gives the leaf back. -/
theorem filled_leafFor (holder job va l : Nat) {e : Nat} (h : e < 2 ^ 64) : (filled holder job va e l).leafFor va = e := by
  obtain ⟨hfirst, hlast, hpages⟩ := leafSpan_spec e l va
  by_cases hl : l = 2
  · simp only [TlbEntry.leafFor, filled, if_pos hl, BitVec.toNat_ofNat, Nat.mod_eq_of_lt h]
  · simp only [TlbEntry.leafFor, filled, if_neg hl, BitVec.toNat_ofNat, Nat.mod_eq_of_lt (ppnAdd_lt _ h)]
    exact ppnAdd_ppnAdd_back e (by omega)

/-! ### The map of the L space (R126) -/

/-- The interleaving of SWZ suits `ns` banks. -/
def SwizzleSuits (ns swz : Nat) : Prop := ∃ j, ns = 2 ^ j ∧ bits swz 10 8 ≤ 5 ∧ (bits swz 10 8 = 0 ∨ 7 + j ≤ bits swz 15 11)

theorem swizzleSuits_iff (ns swz : Nat) : SwizzleSuits ns swz ↔
    (2 ^ ns.log2 != ns || decide (5 < bits swz 10 8) || (decide (0 < bits swz 10 8) && decide (bits swz 15 11 < 7 + ns.log2))) = false := by
  simp only [Bool.or_eq_false_iff, Bool.and_eq_false_iff, bne_eq_false_iff_eq, decide_eq_false_iff_not, SwizzleSuits]
  constructor
  · rintro ⟨j, rfl, hrow, hshift⟩
    rw [Nat.log2_two_pow]
    omega
  · rintro ⟨⟨hns, hrow⟩, hshift⟩
    exact ⟨ns.log2, hns.symm, by omega, by omega⟩

/-- The place of an address among `ns` scratchpad banks: the bank's place in their list, and the offset in it. -/
def lplace (ns swz a : Nat) : Nat × Nat :=
  if bit swz 0 = true then (((a / 128 % 32) ^^^ (a / 2 ^ bits swz 15 11 % 2 ^ bits swz 10 8)) % ns, a / 128 / ns * 128 + a % 128)
  else (a / 32768, a % 32768)

/-- The byte at place `p` among the scratchpad banks of cluster `cl`. -/
def lbyte (c : Cluster) (cl : Nat) (p : Nat × Nat) : Nat := cl * 2 ^ 20 + lget (c.banks 1) p.1 0 * 32768 + p.2

section
variable {c : Cluster} {cl swz a : Nat}

theorem lspace_beyond (h : (c.banks 1).length * 32768 ≤ a) : lspace c cl swz a = .error 0x065 := by
  simp only [lspace, if_pos h]

theorem lspace_unsuited (ha : a < (c.banks 1).length * 32768) (hbit : bit swz 0 = true) (h : ¬ SwizzleSuits (c.banks 1).length swz) :
    lspace c cl swz a = .error 0x066 := by
  rw [swizzleSuits_iff, Bool.not_eq_false] at h
  simp only [lspace, if_neg (Nat.not_le.2 ha), hbit, h, Bool.not_true, Bool.false_eq_true, if_false, if_true]

theorem lspace_at (ha : a < (c.banks 1).length * 32768) (h : bit swz 0 = true → SwizzleSuits (c.banks 1).length swz) :
    lspace c cl swz a = .ok (lbyte c cl (lplace (c.banks 1).length swz a)) := by
  cases hbit : bit swz 0 with
  | false => simp only [lspace, if_neg (Nat.not_le.2 ha), lbyte, lplace, hbit, Bool.not_false, Bool.false_eq_true, if_true, if_false]
  | true =>
    simp only [lspace, if_neg (Nat.not_le.2 ha), lbyte, lplace, hbit, (swizzleSuits_iff _ _).1 (h hbit), Bool.not_true, Bool.false_eq_true,
      if_false, if_true, Nat.add_assoc]

/-- The map answers a byte only for an address within the banks, and interleaves only as suits them. -/
theorem lspace_eq_ok {x : Nat} (h : lspace c cl swz a = .ok x) : a < (c.banks 1).length * 32768 ∧
    (bit swz 0 = true → SwizzleSuits (c.banks 1).length swz) ∧ x = lbyte c cl (lplace (c.banks 1).length swz a) := by
  have ha : a < (c.banks 1).length * 32768 := by
    by_contra hle
    rw [lspace_beyond (Nat.not_lt.1 hle)] at h
    cases h
  have hsuits : bit swz 0 = true → SwizzleSuits (c.banks 1).length swz := by
    intro hbit
    by_contra hno
    rw [lspace_unsuited ha hbit hno] at h
    cases h
  rw [lspace_at ha hsuits] at h
  exact ⟨ha, hsuits, (Except.ok.inj h).symm⟩

end

/-- An address within the banks has its place in one of them. -/
theorem lplace_lt {ns a : Nat} (swz : Nat) (h : a < ns * 32768) : (lplace ns swz a).1 < ns ∧ (lplace ns swz a).2 < 32768 := by
  unfold lplace
  split
  · have hns : 0 < ns := by omega
    have hrow : a / 128 / ns < 256 := by
      rw [Nat.div_lt_iff_lt_mul hns]
      omega
    exact ⟨Nat.mod_lt _ hns, by omega⟩
  · exact ⟨by omega, by omega⟩

/-- The bits that the swizzle adds to a chunk's bank come from its row. -/
theorem swizzle_row_congr {swz j a b : Nat} (hshift : bits swz 10 8 = 0 ∨ 7 + j ≤ bits swz 15 11) (h : a / 128 / 2 ^ j = b / 128 / 2 ^ j) :
    a / 2 ^ bits swz 15 11 % 2 ^ bits swz 10 8 = b / 2 ^ bits swz 15 11 % 2 ^ bits swz 10 8 := by
  rcases hshift with h0 | hle
  · simp [h0, Nat.mod_one]
  · obtain ⟨m, hm⟩ := Nat.exists_eq_add_of_le hle
    have hdiv : ∀ x, x / 2 ^ bits swz 15 11 = x / 128 / 2 ^ j / 2 ^ m := fun x => by
      rw [hm, pow_add, pow_add, ← Nat.div_div_eq_div_mul, ← Nat.div_div_eq_div_mul]
      rfl
    rw [hdiv, hdiv, h]

/-- Places are of one address each: the offset gives the row of the chunk, and the row and the bank give its column. -/
theorem lplace_injective {ns swz a b : Nat} (hns : ns ≤ 32) (hsuits : bit swz 0 = true → SwizzleSuits ns swz)
    (h : lplace ns swz a = lplace ns swz b) : a = b := by
  unfold lplace at h
  split at h
  · next hbit =>
    obtain ⟨j, rfl, _, hshift⟩ := hsuits hbit
    obtain ⟨hbank, hoff⟩ := Prod.mk.inj h
    have hrow : a / 128 / 2 ^ j = b / 128 / 2 ^ j := by omega
    have hj : j ≤ 5 := (Nat.pow_le_pow_iff_right (by decide : 1 < 2)).1 (hns : 2 ^ j ≤ 2 ^ 5)
    rw [swizzle_row_congr hshift hrow, Nat.xor_mod_two_pow, Nat.xor_mod_two_pow, Nat.xor_left_inj,
      Nat.mod_mod_of_dvd _ (Nat.pow_dvd_pow 2 hj), Nat.mod_mod_of_dvd _ (Nat.pow_dvd_pow 2 hj)] at hbank
    have hchunk : a / 128 = b / 128 := by rw [← Nat.div_add_mod (a / 128) (2 ^ j), ← Nat.div_add_mod (b / 128) (2 ^ j), hrow, hbank]
    omega
  · obtain ⟨hbank, hoff⟩ := Prod.mk.inj h
    omega

/-! ### The banks of a role -/

theorem nodup_upFrom (a n : Nat) : (upFrom a n).Nodup := upFrom_eq_range' a n ▸ List.nodup_range'

theorem length_banks_le (c : Cluster) (r : Nat) : (c.banks r).length ≤ 32 :=
  (List.length_filter_le _ _).trans (length_upFrom 0 32).le

theorem lget_banks_mem (c : Cluster) {r n : Nat} (h : n < (c.banks r).length) : lget (c.banks r) n 0 ∈ c.banks r := by
  rw [lget_eq_getElem _ _ _ h]
  exact List.getElem_mem h

theorem lget_banks_injective (c : Cluster) {r m n : Nat} (hm : m < (c.banks r).length) (hn : n < (c.banks r).length)
    (h : lget (c.banks r) m 0 = lget (c.banks r) n 0) : m = n := by
  rw [lget_eq_getElem _ _ _ hm, lget_eq_getElem _ _ _ hn] at h
  exact (((nodup_upFrom 0 32).filter _).getElem_inj_iff).1 h

/-- Two addresses of the L space do not share a byte. -/
theorem lspace_injective {c : Cluster} {cl swz a b x : Nat} (ha : lspace c cl swz a = .ok x) (hb : lspace c cl swz b = .ok x) : a = b := by
  obtain ⟨hla, hsuits, hxa⟩ := lspace_eq_ok ha
  obtain ⟨hlb, _, hxb⟩ := lspace_eq_ok hb
  obtain ⟨hbanka, hoffa⟩ := lplace_lt swz hla
  obtain ⟨hbankb, hoffb⟩ := lplace_lt swz hlb
  have hsame := hxa.symm.trans hxb
  simp only [lbyte] at hsame
  have hbank := lget_banks_injective c hbanka hbankb (by omega)
  exact lplace_injective (length_banks_le c 1) hsuits (Prod.ext hbank (by omega))

/-! ### The statement -/

/-- Settles O47: the walk level by level, the leaf by its checks, and the L space by the place of an address among the banks. -/
theorem translationAndLSpace : Obligations.TranslationAndLSpace := by
  unfold Obligations.TranslationAndLSpace
  refine ⟨⟨?level, ?leaf⟩, ⟨leafFault_eq_none_iff, ?causes, ?walked, ?refused, ?cached, ?filled⟩,
    ⟨fun c cl swz a => lspace_beyond, ?linear, ?interleaved, ?bank, fun c cl swz a b x => lspace_injective⟩⟩
  case level =>
    intro s va l t hl
    obtain ⟨n, hn⟩ : ∃ n, 4 - l = n + 1 := ⟨3 - l, by omega⟩
    rw [hn]
    refine ⟨walkFrom_outside, walkFrom_badLine, fun e he => ⟨walkFrom_invalid he, fun hv hleaf hbad => walkFrom_badLeaf he hv hleaf ?_,
      fun hv hleaf hbad => walkFrom_badTable he hv hleaf ?_⟩⟩
    · exact hbad.imp_right (malformedLeaf_iff e l).2
    · exact hbad.imp_right (malformedTable_iff e).2
  case leaf =>
    intro s root va e0 e1 e2 h0 ht0 h1 ht1 h2
    exact ⟨fun hv hleaf hzero hcg hframe => ⟨walk_level2 h0 ht0 h1 ht1 h2 hv hleaf hzero hcg hframe, leafAddr_two e2 va⟩,
      fun e3 ht2 h3 hv hleaf hzero hcg => ⟨walk_level3 h0 ht0 h1 ht1 h2 ht2 h3 hv hleaf hzero hcg, leafAddr_three e3 va⟩⟩
  case causes =>
    intro s e l va k c _ hc
    rcases leafFault_eq_some hc with ⟨rfl, h⟩ | ⟨hscope, ⟨rfl, h⟩ | ⟨rfl, h⟩ | ⟨rfl, h⟩ | ⟨rfl, h, h'⟩ | ⟨rfl | rfl, h⟩ | ⟨rfl, h⟩⟩ <;>
      simp_all
  case walked =>
    intro s s1 cl job va acc l a e e1 pa k hva ht hwalk hleaf he1 hready hs1 hleaf1 hpa hrange
    simp only [← writes_iff] at he1
    exact translate_walk_grants hva ht hwalk hleaf he1 hready hs1 hleaf1 hpa hrange
  case refused => exact fun s cl job va acc c l a e k hva ht hwalk hleaf => translate_walk_faults hva ht hwalk hleaf
  case cached =>
    intro s cl job va acc pa k t hva ht hdirty hleaf hpa hrange
    have hserves : serving s cl job va k = some t := by
      cases hw : k.writes <;> simp_all [serving]
    exact translate_serving hva hserves hleaf hpa hrange
  case filled =>
    intro s holder job va e l cap he
    obtain ⟨hfirst, hlast, _⟩ := leafSpan_spec e l va
    exact ⟨filled holder job va e l, filled_mem_tlbFill s holder job va e l cap, rfl, rfl, rfl, filled_leafFor holder job va l he, hfirst, hlast⟩
  case linear =>
    intro c cl swz a ha hbit
    rw [lspace_at ha (by simp [hbit])]
    simp [lbyte, lplace, hbit]
  case interleaved =>
    rintro c cl swz a ns rfl ha hbit
    refine ⟨fun h => ?_, fun h => lspace_unsuited ha hbit h⟩
    rw [lspace_at ha (fun _ => h)]
    simp [lbyte, lplace, hbit]
  case bank =>
    intro c cl swz a x h
    obtain ⟨ha, _, rfl⟩ := lspace_eq_ok h
    obtain ⟨hbank, hoff⟩ := lplace_lt swz ha
    exact ⟨_, _, lget_banks_mem c hbank, hoff, rfl⟩

end Sys2Proof.Proofs

/-! PROOFS. Messages and handoffs of PE rows (R137, R258, R259). -/

namespace Sys2Proof.Proofs

open Sys2Proof Sys2Proof.Machine Sys2Proof.Laws Sys2Proof.Claims

/-! ### SEND, TTQ, HOFF and HWAIT -/

section
variable {w : PeWord} {s s1 : State} {uid key : Nat} {g : Gathered}

theorem exec_send_done {s2 : State} (hgo : GoColourless 0x74 w s s1 uid key g) (hissued : (s1.unit uid).issuedDone = true)
    (hsent : s1.sendMessage uid ((s1.unit uid).siteOf key).cl g.a.v g.tok = (s2, .done)) : exec (.send w) s = .next (taken s2 uid key g) := by
  unfold GoColourless at hgo
  show execSend w s = _
  simp only [execSend, nextS, hgo, hissued, hsent, finishSend, taken, Bool.not_true, Bool.false_eq_true, if_false]

theorem exec_ttq_done {s2 : State} (hgo : GoColourless 0x75 w s s1 uid key g) (hissued : (s1.unit uid).issuedDone = true)
    (hsent : s1.submitRecord uid ((s1.unit uid).siteOf key).cl g.a.v = (s2, .done)) : exec (.ttq w) s = .next (taken s2 uid key g) := by
  unfold GoColourless at hgo
  show execTtq w s = _
  simp only [execTtq, nextS, hgo, hissued, hsent, finishSend, taken, Bool.not_true, Bool.false_eq_true, if_false]

/-- HOFF pushes its count and delivers a, or waits at a full FIFO. -/
theorem exec_hoff {cl : Nat} (hgo : Go 0x76 w s s1 uid key g) (hcl : cl = ((s1.unit uid).siteOf key).cl)
    (hclaim : handoffFault s1 uid cl 1 w.fmt.toNat = none) : exec (.hoff w) s = .next (if s1.canPush cl 1 w.fmt.toNat = true
      then (taken (s1.pushHandoff cl 1 w.fmt.toNat) uid key g).deliver uid key w (passed g) else s1) := by
  subst hcl
  unfold Go at hgo
  show execHoff w s = _
  simp only [execHoff, nextS, hgo, hclaim, taken, passed]
  cases s1.canPush ((s1.unit uid).siteOf key).cl 1 w.fmt.toNat <;> rfl

/-- HWAIT pops its count and delivers a, or waits at an empty FIFO. -/
theorem exec_hwait {cl : Nat} (hgo : Go 0x77 w s s1 uid key g) (hcl : cl = ((s1.unit uid).siteOf key).cl)
    (hclaim : handoffFault s1 uid cl 1 w.fmt.toNat = none) : exec (.hwait w) s = .next (if s1.canPop cl w.fmt.toNat 1 = true
      then (taken (s1.popHandoff cl w.fmt.toNat 1) uid key g).deliver uid key w (passed g) else s1) := by
  subst hcl
  unfold Go at hgo
  show execHwait w s = _
  simp only [execHwait, nextS, hgo, hclaim, taken, passed]
  cases s1.canPop ((s1.unit uid).siteOf key).cl w.fmt.toNat 1 <;> rfl

end

/-- Settles O25: each operation by its own lemma above. -/
theorem messagesAndHandoffsFire : Obligations.MessagesAndHandoffsFire := by
  unfold Obligations.MessagesAndHandoffsFire
  refine ⟨fun w s s1 s2 uid key g => exec_send_done, fun w s s1 s2 uid key g => exec_ttq_done, ?hoff, ?hwait⟩
  case hoff =>
    intro w s s1 uid key cl g hgo hcl hclaim
    exact ⟨fun hroom => by rw [exec_hoff hgo hcl hclaim, if_pos hroom], fun hfull => by rw [exec_hoff hgo hcl hclaim, if_neg (by simp [hfull])]⟩
  case hwait =>
    intro w s s1 uid key cl g hgo hcl hclaim
    exact ⟨fun hcount => by rw [exec_hwait hgo hcl hclaim, if_pos hcount], fun hempty => by rw [exec_hwait hgo hcl hclaim, if_neg (by simp [hempty])]⟩

end Sys2Proof.Proofs

/-! PROOFS. BANKR, RESZ, INJ, EXTR and CFGL (R123 to R125, R278): what bank roles become, and what leaves and enters the region. -/

namespace Sys2Proof.Proofs

open Sys2Proof Sys2Proof.Machine Sys2Proof.Laws Sys2Proof.Claims

/-! ### Bank roles (R123 to R125) -/

/-- A word that waits for the report of quiescence goes on at rest. -/
theorem whenQuiet_atRest {s : State} {u : UnitSt} (h : AtRest s u) (k : State → State) : whenQuiet s s.curUnit u k = k (rested s) := by
  obtain ⟨hquiet, hstill⟩ := h
  simp only [whenQuiet, hquiet, hstill, Bool.and_self, if_true, rested]

/-- RESZ on one cluster, if enough of its banks are off. -/
def resizeTo (n : Nat) (s : State) (k : Nat) : State :=
  match reszRoles (s.cluster k) n with
  | some r => s.resize k r
  | none => s

section
variable {c : CWord} {s : State} {u : UnitSt} (hs : Sequencing s u)
include hs

theorem exec_bankr (hc : ctlFieldsOk 0x20 c = true) : exec (.bankr c) s = .next (
    if u.clusterList.any (fun k => (s.cluster k).lsMode) = true then s.ctlFault s.curUnit 0x0EA
    else if s.units.any (fun p => p.1 != s.curUnit && p.2.inRegion && u.clusterList.any (fun k => p.2.covers k)) = true then s.ctlFault s.curUnit 0x0EB
    else whenQuiet s s.curUnit u (fun t => (u.clusterList.foldl (fun t k => t.setRoles k (u.greg c.ga)) t).nextWord s.curUnit)) :=
  congrArg Host.Outcome.next (seqWord_acts hs hc _)

theorem exec_resz (hc : ctlFieldsOk 0x21 c = true) : exec (.resz c) s = .next (
    if u.clusterList.any (fun k => !(s.cluster k).lsMode) = true then s.ctlFault s.curUnit 0x0EA
    else if u.clusterList.any (fun k => (reszRoles (s.cluster k) ((CWord.imm16 c).toNat % 64)).isNone) = true then s.ctlFault s.curUnit 0x0EB
    else (u.clusterList.foldl (resizeTo ((CWord.imm16 c).toNat % 64)) s).nextWord s.curUnit) :=
  congrArg Host.Outcome.next (seqWord_acts hs hc _)

end

theorem resizeTo_of_some {n : Nat} {s : State} {k : Nat} {r : Word} (h : reszRoles (s.cluster k) n = some r) : resizeTo n s k = s.resize k r := by
  simp only [resizeTo, h]

theorem roles_resize (s : State) (k : Nat) (r : Word) : ((s.resize k r).cluster k).roles = r := by
  simp [State.resize, State.cluster, State.modCluster, agetD]

theorem cluster_resize_other (s : State) {k j : Nat} (r : Word) (h : k ≠ j) : (s.resize k r).cluster j = s.cluster j := by
  simp [State.resize, State.cluster, State.modCluster, agetD, aget_aset, h]

/-- RESZ changes the roles of each cluster of a list, and neither memory nor units nor another cluster. -/
theorem foldl_resizeTo {n : Nat} {l : List Nat} (hl : l.Nodup) (s : State) (h : ∀ k ∈ l, (reszRoles (s.cluster k) n).isSome) :
    (l.foldl (resizeTo n) s).mem = s.mem ∧ (l.foldl (resizeTo n) s).units = s.units ∧
      (∀ k ∈ l, some ((l.foldl (resizeTo n) s).cluster k).roles = reszRoles (s.cluster k) n) ∧
      (∀ k, k ∉ l → (l.foldl (resizeTo n) s).cluster k = s.cluster k) := by
  induction l generalizing s with
  | nil => simp
  | cons k l ih =>
    obtain ⟨hk, hl⟩ := List.nodup_cons.1 hl
    obtain ⟨r, hr⟩ := Option.isSome_iff_exists.1 (h k List.mem_cons_self)
    have hkeep : ∀ j ∈ l, (s.resize k r).cluster j = s.cluster j := fun j hj => cluster_resize_other s r (by rintro rfl; exact hk hj)
    obtain ⟨hmem, hunits, hroles, hother⟩ := ih hl (s.resize k r) (fun j hj => hkeep j hj ▸ h j (List.mem_cons_of_mem k hj))
    rw [List.foldl_cons, resizeTo_of_some hr]
    refine ⟨hmem, hunits, fun j hj => ?_, fun j hj => ?_⟩
    · rcases List.mem_cons.1 hj with rfl | hj
      · rw [hother _ hk, roles_resize, hr]
      · rw [hroles j hj, hkeep j hj]
    · obtain ⟨hjk, hjl⟩ := not_or.1 (List.mem_cons.not.1 hj)
      rw [hother j hjl, cluster_resize_other s r (Ne.symm hjk)]

/-! ### What BANKR leaves -/

theorem rd_of_absent {m : Memory} {x : Nat} (h : ∀ p ∈ m, p.1 ≠ x) : m.rd x = Config.unlistedByte := by
  induction m with
  | nil => rfl
  | cons p m ih =>
    rw [Memory.rd, if_neg (h p List.mem_cons_self), ih (fun q hq => h q (List.mem_cons_of_mem p hq)), ite_self]

/-- The bytes left when banks of a cluster have been cleared are those outside the banks. -/
theorem mem_lsm_foldl_clearBank (cl : Nat) (l : List Nat) (s : State) (p : Nat × Byte) :
    p ∈ (l.foldl (fun s k => s.clearBank cl k) s).lsm ↔
      p ∈ s.lsm ∧ ∀ k ∈ l, ¬ (cl * 2 ^ 20 + k * 32768 ≤ p.1 ∧ p.1 < cl * 2 ^ 20 + k * 32768 + 32768) := by
  induction l generalizing s with
  | nil => simp
  | cons k l ih =>
    rw [List.foldl_cons, ih]
    simp only [State.clearBank, Memory.clear, List.mem_filter, List.forall_mem_cons, Bool.not_eq_true', Bool.and_eq_false_iff,
      decide_eq_false_iff_not, ← not_and_or, and_assoc]

theorem clusters_foldl_clearBank (cl : Nat) (l : List Nat) (s : State) : (l.foldl (fun s k => s.clearBank cl k) s).clusters = s.clusters := by
  induction l generalizing s with
  | nil => rfl
  | cons k l ih => exact ih (s.clearBank cl k)

theorem cluster_flushL1_other (s : State) {k j : Nat} (h : j ≠ k) : (s.flushL1 k).cluster j = s.cluster j := by
  simp [State.flushL1, State.cluster, State.modCluster, agetD, aget_aset, Ne.symm h]

theorem roles_setRoles (s : State) (k : Nat) (r : Word) : ((s.setRoles k r).cluster k).roles = r := by simp [State.setRoles]

theorem cluster_setRoles_other (s : State) {k j : Nat} (r : Word) (h : j ≠ k) : (s.setRoles k r).cluster j = s.cluster j := by
  rw [State.setRoles, State.cluster_modCluster_other _ _ (Ne.symm h), State.cluster, clusters_foldl_clearBank, ← State.cluster,
    cluster_flushL1_other s h]

/-- A bank that becomes a scratchpad bank is empty. -/
theorem lsm_setRoles_new {s : State} {k b i : Nat} {r : Word} (hb : b < 32) (hold : (s.cluster k).role b ≠ 1)
    (hnew : ({ s.cluster k with roles := r } : Cluster).role b = 1) (hi : i < 32768) :
    (s.setRoles k r).lsm.rd (k * 2 ^ 20 + b * 32768 + i) = Config.unlistedByte := by
  have hcleared : b ∈ (({ s.cluster k with roles := r } : Cluster).banks 1).filter (fun j => (s.cluster k).role j != 1) := by
    simp [Cluster.banks, mem_upFrom, hb, hold, hnew]
  refine rd_of_absent fun p hp hx => ?_
  obtain ⟨_, hout⟩ := (mem_lsm_foldl_clearBank k _ _ p).1 hp
  exact hout b hcleared (by omega)

/-! ### Role words (R121, R124) -/

/-- The word whose digits to base 4 are given. -/
def quads (d : Nat → Nat) (m : Nat) : Nat := (upFrom 0 m).foldl (fun n k => n + d k * 4 ^ k) 0

theorem quads_succ (d : Nat → Nat) (m : Nat) : quads d (m + 1) = quads d m + d m * 4 ^ m := by
  rw [quads, upFrom_eq_range', List.range'_concat, List.foldl_append, ← upFrom_eq_range']
  simp [quads]

theorem quads_lt {d : Nat → Nat} (hd : ∀ k, d k < 4) (m : Nat) : quads d m < 4 ^ m := by
  induction m with
  | zero => exact Nat.one_pos
  | succ m ih =>
    have hle : d m * 4 ^ m ≤ 3 * 4 ^ m := Nat.mul_le_mul_right _ (Nat.le_of_lt_succ (hd m))
    rw [quads_succ, pow_succ]
    omega

theorem quads_digit {d : Nat → Nat} (hd : ∀ k, d k < 4) {m k : Nat} (h : k < m) : quads d m / 4 ^ k % 4 = d k := by
  induction m with
  | zero => omega
  | succ m ih =>
    rw [quads_succ]
    rcases Nat.lt_succ_iff_lt_or_eq.1 h with hk | rfl
    · obtain ⟨j, rfl⟩ := Nat.exists_eq_add_of_lt hk
      have hsplit : d (k + j + 1) * 4 ^ (k + j + 1) = 4 ^ k * (4 * (d (k + j + 1) * 4 ^ j)) := by ring
      rw [hsplit, Nat.add_mul_div_left _ _ (by positivity), Nat.add_mul_mod_self_left, ih hk]
    · rw [Nat.add_mul_div_right _ _ (by positivity), Nat.div_eq_of_lt (quads_lt hd k), Nat.zero_add, Nat.mod_eq_of_lt (hd k)]

theorem role_lt (c : Cluster) (k : Nat) : c.role k < 4 := Nat.mod_lt _ (by decide)

/-- The role word with the roles of some banks set. -/
theorem role_withRoles (c : Cluster) (ks : List Nat) {r k : Nat} (hr : r < 4) (hk : k < 32) :
    ({ c with roles := withRoles c ks r } : Cluster).role k = if k ∈ ks then r else c.role k := by
  have hd : ∀ j, (if ks.contains j then r else c.role j) < 4 := fun j => by split <;> [exact hr; exact role_lt c j]
  have hlt : quads (fun j => if ks.contains j then r else c.role j) 32 < 2 ^ 64 := (quads_lt hd 32).trans_eq (by norm_num)
  have hword : (withRoles c ks r).toNat = quads (fun j => if ks.contains j then r else c.role j) 32 :=
    (BitVec.toNat_ofNat _ 64).trans (Nat.mod_eq_of_lt hlt)
  rw [Cluster.role, hword, quads_digit hd hk]
  simp

theorem mem_banks (c : Cluster) (r k : Nat) : k ∈ c.banks r ↔ k < 32 ∧ c.role k = r := by simp [Cluster.banks, mem_upFrom]

theorem nodup_banks (c : Cluster) (r : Nat) : (c.banks r).Nodup := (nodup_upFrom 0 32).filter _

theorem mem_banks_withRoles (c : Cluster) (ks : List Nat) {r : Nat} (hr : r < 4) (q k : Nat) :
    k ∈ ({ c with roles := withRoles c ks r } : Cluster).banks q ↔ k < 32 ∧ (if k ∈ ks then r else c.role k) = q := by
  rw [mem_banks]
  exact and_congr_right fun hk => by rw [role_withRoles c ks hr hk]

/-- The cache banks are counted by any list of them without repetition. -/
theorem nc_eq_length {c : Cluster} {l : List Nat} (hl : l.Nodup) (h : ∀ k, k ∈ c.banks 0 ↔ k ∈ l) : c.nc = l.length :=
  ((List.perm_ext_iff_of_nodup (nodup_banks c 0) hl).2 h).length_eq

/-- Banks that are off become cache banks. -/
theorem nc_withRoles_on {c : Cluster} {m : Nat} (h : m ≤ (c.banks 3).length) :
    ({ c with roles := withRoles c ((c.banks 3).take m) 0 } : Cluster).nc = (c.banks 0).length + m := by
  have hoff : ∀ j ∈ (c.banks 3).take m, j < 32 ∧ c.role j = 3 := fun j hj => (mem_banks c 3 j).1 (List.mem_of_mem_take hj)
  have hnodup : (c.banks 0 ++ (c.banks 3).take m).Nodup := by
    refine List.nodup_append.2 ⟨nodup_banks c 0, (nodup_banks c 3).sublist (List.take_sublist _ _), fun a ha b hb hab => ?_⟩
    have h0 := ((mem_banks c 0 a).1 ha).2
    have h3 := (hoff b hb).2
    subst hab
    omega
  rw [nc_eq_length hnodup, List.length_append, List.length_take, Nat.min_eq_left h]
  intro j
  rw [mem_banks_withRoles c _ (by decide), List.mem_append, mem_banks]
  by_cases hin : j ∈ (c.banks 3).take m
  · simp [hin, (hoff j hin).1]
  · simp [hin]

/-- Cache banks beyond the first `n` are turned off. -/
theorem nc_withRoles_off {c : Cluster} {n : Nat} (h : n ≤ (c.banks 0).length) :
    ({ c with roles := withRoles c ((c.banks 0).drop n) 3 } : Cluster).nc = n := by
  have hsplit := nodup_banks c 0
  rw [← List.take_append_drop n (c.banks 0)] at hsplit
  obtain ⟨htake, _, hapart⟩ := List.nodup_append.1 hsplit
  rw [nc_eq_length htake, List.length_take, Nat.min_eq_left h]
  intro j
  rw [mem_banks_withRoles c _ (by decide)]
  by_cases hin : j ∈ (c.banks 0).drop n
  · have hout : j ∉ (c.banks 0).take n := fun hj => hapart j hj j hin rfl
    simp [hin, hout]
  · have hcache : j ∈ c.banks 0 ↔ j ∈ (c.banks 0).take n ∨ j ∈ (c.banks 0).drop n := by rw [← List.mem_append, List.take_append_drop]
    rw [if_neg hin, ← mem_banks, hcache, or_iff_left hin]

/-- RESZ gives a cluster as many cache banks as it asks for. -/
theorem nc_reszRoles {k : Cluster} {n : Nat} {r : Word} (h : reszRoles k n = some r) : ({ k with roles := r } : Cluster).nc = n := by
  simp only [reszRoles] at h
  split at h
  · split at h
    · cases h
    · cases h
      rw [nc_withRoles_on (by omega)]
      omega
  · cases h
    exact nc_withRoles_off (by omega)

/-! ### INJ, EXTR and CFGL -/

/-- The queue of the node at a place, if there is one, has room. -/
theorem any_queueFull_false {u : UnitSt} {pos : Site} {q : Nat} (h : ∀ key, u.nodeAt pos = some key → ((u.pe key).queue q).length < 4) :
    (u.nodeAt pos).any (fun key => decide (4 ≤ ((u.pe key).queue q).length)) = false := by
  cases hnode : u.nodeAt pos with
  | none => rfl
  | some key => exact decide_eq_false (Nat.not_le.2 (h key hnode))

section
variable {c : CWord} {s : State} {u : UnitSt} (hs : Sequencing s u)
include hs

theorem exec_inj_faults (hc : ctlFieldsOk 0x1E c = true) (h : u.size ≤ (routeSite ((u.greg c.gb).toNat % 2 ^ 32)).1.cl ∨
      (u.greg c.gb).toNat % 2048 ≠ 0 ∨ (lget u.lvl 0 0#9).toNat ≤ bits (u.greg c.gb).toNat 39 32 ∨ u.active = none) :
    exec (.inj c) s = .next (s.ctlFault s.curUnit 0x0E5) := by
  refine congrArg Host.Outcome.next ((seqWord_acts hs hc _).trans (if_pos ?_))
  simpa [or_assoc] using h

theorem exec_inj_sends {d : Site × Nat} {pos : Site} {itag : Nat} (hc : ctlFieldsOk 0x1E c = true)
    (hd : d = routeSite ((u.greg c.gb).toNat % 2 ^ 32)) (hitag : itag = bits (u.greg c.gb).toNat 39 32) (hcl : d.1.cl < u.size)
    (hzero : (u.greg c.gb).toNat % 2048 = 0) (hlvl : itag < (lget u.lvl 0 0#9).toNat) (hactive : u.active.isSome = true)
    (hpos : pos = u.placeOf ⟨u.lead + d.1.cl, d.1.x, d.1.y, u.ctx⟩) (hroom : ∀ key, u.nodeAt pos = some key → ((u.pe key).queue d.2).length < 4) :
    exec (.inj c) s = .next { unitBecomes s { u.next.holdTag0 itag with quiet := false } with
      flights := s.flights ++ [{ src := ⟨u.lead, 16, 17, u.ctx⟩, pos := pos, q := some d.2
                                 tok := { payload := u.greg c.ga, fmt := c.lo.setWidth 4, ctx := BitVec.ofNat 2 u.ctx, itag := BitVec.ofNat 8 itag
                                          wave := BitVec.ofNat 10 (bits (u.greg c.gb).toNat 49 40), last := c.lo.getLsbD 4 } }] } := by
  subst hd hitag hpos
  have ⟨hunit, _⟩ := hs
  refine congrArg Host.Outcome.next ((seqWord_acts hs hc _).trans ((if_neg ?_).trans ((if_neg ?_).trans ?_)))
  · simp [-Nat.reducePow, hcl, hzero, hlvl, Option.isSome_iff_ne_none.1 hactive]
  · exact Bool.eq_false_iff.1 (any_queueFull_false hroom)
  · rw [State.modUnit_of_aget hunit]
    rfl

theorem exec_extr_takes (hc : ctlFieldsOk 0x1F c = true) {k : Nat} (hk : k = (CWord.imm16 c).toNat % 16) {t : Token}
    (ht : u.oldest (agetD u.sinks k []) = some t) : exec (.extr c) s = .next (unitBecomes s
      { (u.setG c.gd t.payload).next with sinks := aset u.sinks k ((agetD u.sinks k []).erase t) }) := by
  have ⟨hunit, _⟩ := hs
  subst hk
  show execExtr c s = _
  simp only [execExtr, nextS, seqWord_acts hs hc, ht, State.modUnit_of_aget hunit, unitBecomes]

/-- An empty sink: a cause at rest, and else a wait. -/
theorem exec_extr_empty (hc : ctlFieldsOk 0x1F c = true) {k : Nat} (hk : k = (CWord.imm16 c).toNat % 16)
    (ht : u.oldest (agetD u.sinks k []) = none) :
    exec (.extr c) s = .next (if (u.quiet && s.quiescent s.curUnit u) = true then s.ctlFault s.curUnit 0x0E6 else s) := by
  subst hk
  show execExtr c s = _
  simp only [execExtr, nextS, seqWord_acts hs hc, ht]

/-- What CFGL makes of each answer of the image load. -/
theorem exec_cfgl_of_load {s1 : State} {va : Nat} {r : Except ImgFail Image} (hc : ctlFieldsOk 0x18 c = true)
    (hva : va = (u.greg c.ga + (sx16 c <<< 6)).toNat % 2 ^ 56) (hload : s.loadImage u va = (s1, r)) :
    (∀ img, r = .ok img → exec (.cfgl c) s = .next (s1.modUnit s.curUnit (fun x => { x.next with staged := some img }))) ∧
    (∀ k, r = .error (.reject k) → exec (.cfgl c) s = .next (s1.ctlFault s.curUnit k (if va % 64 = 0 then 0 else va))) ∧
    (∀ k a d0 d1, r = .error (.fetch k a d0 d1) → k ≠ 0x160 → exec (.cfgl c) s = .next (s1.ctlFault s.curUnit 0x0E8 a (wd k) d1)) := by
  subst hva
  have hexec : exec (.cfgl c) s = execCfgl c s := rfl
  refine ⟨fun img hr => ?_, fun k hr => ?_, fun k a d0 d1 hr hk => ?_⟩ <;> subst hr <;>
    simp only [hexec, execCfgl, nextS, seqWord_acts hs hc, hload]
  · simp
  · rw [if_neg hk]

end

/-- Settles O36: BANKR and RESZ by what they do to each cluster, the others by their own lemmas above. -/
theorem banksTokensAndImages : Obligations.BanksTokensAndImages := by
  unfold Obligations.BanksTokensAndImages
  refine ⟨⟨?bankr, ?resz, fun s k r => ⟨roles_setRoles s k r, fun j => cluster_setRoles_other s r, fun b i => lsm_setRoles_new⟩,
      fun k n r _ => nc_reszRoles⟩,
    fun c s u d pos itag hs => exec_inj_sends hs, fun c s u hs => exec_inj_faults hs, ?extr, ?cfgl⟩
  case bankr =>
    intro c s u hs hc
    refine ⟨fun hmode => ?_, fun hmode hshared => ?_, fun hmode hshared hrest => ?_⟩ <;> rw [exec_bankr hs hc]
    · rw [if_pos hmode]
    · rw [if_neg (by simp [hmode]), if_pos hshared]
    · rw [if_neg (by simp [hmode]), if_neg (by simp [hshared]), whenQuiet_atRest hrest]
  case resz =>
    rintro c s u n hs hc rfl
    refine ⟨fun hmode => ?_, fun hmode hfew => ?_, fun hmode hfew => ?_⟩ <;> rw [exec_resz hs hc]
    · rw [if_pos hmode]
    · rw [if_neg (by simp [hmode]), if_pos hfew]
    · refine ⟨_, by rw [if_neg (by simp [hmode]), if_neg (by simp [hfew])], foldl_resizeTo (l := u.clusterList) (nodup_upFrom _ _) s fun k hk => ?_⟩
      simpa [Option.isSome_iff_ne_none] using List.any_eq_false.1 hfew k hk
  case extr =>
    intro c s u k hs hc hk
    refine ⟨fun t ht => exec_extr_takes hs hc hk ht, fun ht hrest => ?_, fun ht hbusy => ?_⟩ <;> rw [exec_extr_empty hs hc hk ht]
    · rw [if_pos (by simp [hrest.1, hrest.2])]
    · rw [if_neg (by simpa [AtRest] using hbusy)]
  case cfgl =>
    intro c s s1 u va hs hc hva
    refine ⟨fun img hload => (exec_cfgl_of_load hs hc hva hload).1 img rfl, fun k hload => (exec_cfgl_of_load hs hc hva hload).2.1 k rfl,
      fun k a d0 d1 hload => (exec_cfgl_of_load hs hc hva hload).2.2 k a d0 d1 rfl, fun halign => ?_⟩
    have hload : s.loadImage u va = (s, .error (.reject 0x008)) := by simp [State.loadImage, halign]
    rw [(exec_cfgl_of_load hs hc hva hload).2.1 _ rfl, if_neg halign]

end Sys2Proof.Proofs

/-! PROOFS. What engines do later (R137, R138, R252, R256, R261, R262, R269, R272, R303): replies, queue M, busy entries, tile tasks and
collective rounds. -/

namespace Sys2Proof.Proofs

open Sys2Proof Sys2Proof.Machine Sys2Proof.Laws Sys2Proof.Claims

/-! ### Commands that complete (R137, R262) -/

/-- A command whose accesses have performed, and whose push its FIFO has room for, leaves with its push, its flags and its reply. -/
theorem completeRun_completes {s : State} {i c : Nat} {r : Run} {push : Bool} (hr : s.runs[i]? = some r) (hc : c = r.m.msg.hpush.toNat)
    (hdone : s.runDone r = true) (hpush : push = (c != 0 && !(s.unit r.m.unit).isEnded))
    (hroom : push = false ∨ s.canPush r.m.cl (engineCode r.eng.kind) c = true) :
    s.completeRun i = ((({ (if push then s.pushHandoff r.m.cl (engineCode r.eng.kind) c else s) with
      runs := ldel s.runs i } : State).engineFlags r.m r.flags).sendReply r.eng r.m (replyPayload false r.m 0)) := by
  subst hc
  have hgo : (push && !s.canPush r.m.cl (engineCode r.eng.kind) r.m.msg.hpush.toNat) = false := by
    rcases hroom with h | h <;> simp [h]
  simp only [State.completeRun, hr, hdone, ← hpush, hgo, Bool.not_true, Bool.or_self, Bool.false_eq_true, if_false]
  cases push <;> rfl

/-- HANDOFF_PUSH of an engine command is its reply with the push; of a matrix operation, its retirement. -/
theorem exec_handoffPush_of_flag {s : State} : (s.ev.flag = false → exec .handoffPush s = .next (s.completeRun s.ev.i)) ∧
    (s.ev.flag = true → exec .handoffPush s = exec .matrixRetire s) := by
  have hexec : exec .handoffPush s = .next (if s.ev.flag = true then s.retireMat s.ev.cl s.ev.i else s.completeRun s.ev.i) := rfl
  exact ⟨fun h => by rw [hexec, if_neg (by simp [h])], fun h => by rw [hexec, if_pos h]; rfl⟩

/-! ### Queue M (R138, R252, R256) -/

/-- What MATRIX_ISSUE makes of each answer of the issue of an operation whose turn it is. -/
theorem exec_matrixIssue_of_issue {s s1 s2 : State} {o : MatOp} {r : MatRes} (ho : (s.cluster s.ev.cl).mq[s.ev.i]? = some o)
    (hissued : o.issued = false) (hheld : o.held = false)
    (hfirst : ((s.cluster s.ev.cl).mq.take s.ev.i).any (fun x => !x.issued && !x.held && o.sameSource x) = false)
    (hmay : o.mayGo (s.unit o.unit) = true)
    (hhalt : s.clusterHalted s.ev.cl (s.unit o.unit).job = false ∨ (s.unit o.unit).isDraining = true)
    (hpop : o.hpop = 0 ∨ s.canPop s.ev.cl o.hpop 3 = true)
    (hs1 : s1 = (if o.hpop = 0 then s else (s.popHandoff s.ev.cl o.hpop 3).modMq s.ev.cl s.ev.i (fun x => { x with popped := true })))
    (hissue : s1.issueMat s.ev.cl o = r) :
    (∀ fl fs cim sc, r = .ok s2 fl fs cim sc →
      exec .matrixIssue s = .next (((if o.msg.isSome then s2 else s2.modUnit o.unit (fun u => u.raiseFlags fl)).progress o.unit).modMq
        s.ev.cl s.ev.i (fun x => { x with issued := true, flags := fl, fills := fs, cimFill := cim, scope := sc }))) ∧
    (∀ f m, r = .fault s2 f → o.msg = some m →
      exec .matrixIssue s = .next ((s2.modCluster s.ev.cl (fun c => { c with mq := ldel c.mq s.ev.i })).nackF ⟨.matrix, s.ev.cl⟩ m f m.addr)) ∧
    (∀ f, r = .fault s2 f → o.msg = none →
      exec .matrixIssue s = .next ((s2.modMq s.ev.cl s.ev.i (fun x => { x with held := true })).takeFault o.unit (some ((s.unit o.unit).keyOf o.site))
        { cause := f.cause, addr := if o.sbId = 0 then 0#64 else o.a, tag := o.tok, d0 := f.d0, d1 := f.d1, mat := o.id })) := by
  have hturn : (o.issued || o.held || ((s.cluster s.ev.cl).mq.take s.ev.i).any (fun x => !x.issued && !x.held && o.sameSource x) ||
      !o.mayGo (s.unit o.unit) || (s.clusterHalted s.ev.cl (s.unit o.unit).job && !(s.unit o.unit).isDraining)) = false := by
    rcases hhalt with h | h <;> simp [hissued, hheld, hfirst, hmay, h]
  have hcount : (o.hpop != 0 && !s.canPop s.ev.cl o.hpop 3) = false := by
    rcases hpop with h | h <;> simp [h]
  have hs1' : (if (o.hpop != 0) = true then (s.popHandoff s.ev.cl o.hpop 3).modMq s.ev.cl s.ev.i (fun x => { x with popped := true }) else s) = s1 := by
    rw [hs1]
    by_cases h : o.hpop = 0 <;> simp [h]
  have hexec : exec .matrixIssue s = execMatrixIssue s := rfl
  refine ⟨fun fl fs cim sc hr => ?_, fun f m hr hm => ?_, fun f hr hm => ?_⟩ <;>
    simp only [hexec, execMatrixIssue, nextS, ho, hturn, hcount, hs1', hissue, hr, Bool.false_eq_true, if_false]
  · simp only [hm]
  · simp only [hm]

/-- An issued operation retires once its tiles are in order, its FIFO has room and what it wrote on other devices is complete. -/
theorem retireMat_retires {s s0 t : State} {cl i : Nat} {o : MatOp} (ho : (s.cluster cl).mq[i]? = some o) (hissued : o.issued = true)
    (hfirst : ((s.cluster cl).mq.take i).any (fun x => !x.fills.isEmpty || x.cimFill.isSome) = false) (hs0 : s0 = s.fillSlots cl i o)
    (hpush : o.hpush = 0 ∨ s0.canPush cl 3 o.hpush = true) (hremote : s0.fyPending (fun w => w == o.who && w.2 != 0) = false)
    (ht : t = ((if o.hpush = 0 then s0 else s0.pushHandoff cl 3 o.hpush).modCluster cl (fun c => { c with mq := ldel c.mq i })).progress o.unit) :
    s.retireMat cl i = match o.msg with
      | some m => { t with runs := t.runs ++ [{ m := m, eng := ⟨.matrix, cl⟩, flags := o.flags, scope := o.scope }] }
      | none => if o.sbId ≠ 0 then t.retire o.unit o.sbId
        else t.resolveOut o.unit ((t.unit o.unit).keyOf o.site) o.id (some { o.tok with payload := 0#64, fmt := 1#4 }) := by
  subst hs0
  have hturn : (!o.issued || ((s.cluster cl).mq.take i).any (fun x => !x.fills.isEmpty || x.cimFill.isSome)) = false := by
    simp only [hissued, hfirst, Bool.not_true, Bool.or_self]
  have hroom : (o.hpush != 0 && !(s.fillSlots cl i o).canPush cl 3 o.hpush || (s.fillSlots cl i o).fyPending (fun w => w == o.who && w.2 != 0)) = false := by
    rcases hpush with h | h <;> simp [h, hremote]
  have ht' : ((if (o.hpush != 0) = true then (s.fillSlots cl i o).pushHandoff cl 3 o.hpush else s.fillSlots cl i o).modCluster cl
      (fun c => { c with mq := ldel c.mq i })).progress o.unit = t := by
    rw [ht]
    by_cases h : o.hpush = 0 <;> simp [h]
  simp only [State.retireMat, ho, hturn, hroom, ht', Bool.false_eq_true, if_false]
  cases o.msg <;> simp only [bne_iff_ne]

/-! ### Busy entries (R261) -/

/-- A message that waits at a BUSY entry is refused once it has waited 4096 clocks. -/
theorem exec_handlerBusyTimeout {s : State} {m : InMsg} {rest : List InMsg} {c ea h : Nat} (hin : s.inbox s.ev.eng = m :: rest)
    (hsince : m.busySince = some c) (hentry : s.handlerEntry s.ev.eng m.msg.handler.toNat = some (ea, h)) (hready : s.hostReady ea 64 false = true)
    (hbusy : bit h 62 = true) : exec .handlerBusyTimeout s = .next (if 4096 ≤ ((s.die (dieOf m.cl)).cyc - wd c).toNat
      then (s.setInbox s.ev.eng rest).nack s.ev.eng m 0x0C3 (wd h) else s) := by
  show execHandlerBusyTimeout s = _
  simp only [execHandlerBusyTimeout, nextS, hin, hsince, hentry, hready, hbusy, Bool.not_true, Bool.false_eq_true, Bool.true_and, if_false,
    decide_eq_true_eq]

/-! ### Tile tasks (R271, R272, R303) -/

theorem lmod_eq_modify {α : Type} (f : α → α) (l : List α) (i : Nat) : lmod l i f = l.modify i f := by
  induction l generalizing i with
  | nil => simp [lmod]
  | cons x l ih => cases i <;> simp [lmod, ih]

theorem getElem?_lmod_self {α : Type} {l : List α} {i : Nat} {x : α} (f : α → α) (h : l[i]? = some x) : (lmod l i f)[i]? = some (f x) := by
  rw [lmod_eq_modify, List.getElem?_modify_eq, h]
  rfl

theorem lget_of_getElem? {α : Type} {l : List α} {i : Nat} {x : α} (d : α) (h : l[i]? = some x) : lget l i d = x := by
  obtain ⟨hi, hx⟩ := List.getElem?_eq_some_iff.1 h
  rw [lget_eq_getElem l i d hi, hx]

theorem die_modDie_self {s : State} {d : Nat} (f : Die → Die) (h : d < s.dies.length) : (s.modDie d f).die d = f (s.die d) := by
  simp [State.die, State.modDie, lget_lmod, h]

/-- A die with a record is one of the dies. -/
theorem die_lt_of_task {s : State} {d i : Nat} {t : TileTask} (h : (s.die d).tasks[i]? = some t) : d < s.dies.length := by
  by_contra hle
  rw [State.die, lget_of_length_le _ _ _ (Nat.not_lt.1 hle)] at h
  cases h

/-- The record whose turn it is has blocks to hand out. -/
theorem nextTask_hasBlocks {l : List TileTask} {j i o k : Nat} (h : nextTask l j = some (i, o, k)) :
    ∃ t, j ≤ i ∧ l[i - j]? = some t ∧ t.nextBlk < t.blocks := by
  induction l generalizing j i o k with
  | nil => cases h
  | cons x l ih =>
    have hrest : ∀ {i o k}, nextTask l (j + 1) = some (i, o, k) → ∃ t, j ≤ i ∧ (x :: l)[i - j]? = some t ∧ t.nextBlk < t.blocks := by
      intro i o k h
      obtain ⟨t, hle, ht, hblk⟩ := ih h
      refine ⟨t, by omega, ?_, hblk⟩
      rw [show i - j = (i - (j + 1)) + 1 by omega, List.getElem?_cons_succ, ht]
    simp only [nextTask] at h
    split at h
    · exact hrest h
    · next hno =>
      have hhead : ∃ t, j ≤ j ∧ (x :: l)[j - j]? = some t ∧ t.nextBlk < t.blocks := by
        simp only [Bool.or_eq_true, decide_eq_true_eq, not_or] at hno
        exact ⟨x, le_rfl, by simp, by omega⟩
      split at h
      · next hl =>
        split at h
        · cases h
          exact hrest hl
        · cases h
          exact hhead
      · cases h
        exact hhead

/-- The record's next block goes to the task context of a cluster. -/
def handBlock (d i cl : Nat) (s : State) : State :=
  (s.takeEngine cl).modDie d (fun x => { x with tasks := lmod x.tasks i (fun t => { t with nextBlk := t.nextBlk + 1, running := t.running ++ [(t.nextBlk, cl)] }) })
/-- One cluster's turn in TILE_TASK_START. -/
def offerBlock (d i : Nat) (s : State) (cl : Nat) : State :=
  let t := lget (s.die d).tasks i {}
  if (decide (t.nextBlk < t.blocks) && decide (t.running.length < 64) && s.taskEngine cl) = true then handBlock d i cl s else s

theorem exec_tileTaskStart {s : State} {i o k : Nat} (h : nextTask (s.die s.ev.die).tasks 0 = some (i, o, k)) :
    exec .tileTaskStart s = .next ((upFrom (80 * s.ev.die) 80).foldl (offerBlock s.ev.die i) s) := by
  show execTileTaskStart s = _
  simp only [execTileTaskStart, nextS, h]
  rfl

/-- Record `i` of a die has had a block after block `n` handed out, which runs. -/
def HasStarted (d i n : Nat) (s : State) : Prop := ∃ t, (s.die d).tasks[i]? = some t ∧ t.running ≠ [] ∧ n < t.nextBlk

theorem task_handBlock {s : State} {d i : Nat} {t : TileTask} (cl : Nat) (h : (s.die d).tasks[i]? = some t) :
    ((handBlock d i cl s).die d).tasks[i]? = some { t with nextBlk := t.nextBlk + 1, running := t.running ++ [(t.nextBlk, cl)] } := by
  have hd : d < (s.takeEngine cl).dies.length := die_lt_of_task h
  rw [handBlock, die_modDie_self _ hd]
  exact getElem?_lmod_self _ h

theorem hasStarted_handBlock {s : State} {d i n : Nat} {t : TileTask} (cl : Nat) (h : (s.die d).tasks[i]? = some t) (hn : n ≤ t.nextBlk) :
    HasStarted d i n (handBlock d i cl s) :=
  ⟨_, task_handBlock cl h, by simp, Nat.lt_succ_of_le hn⟩

/-- What has started stays so while further blocks are handed out. -/
theorem HasStarted.offered {d i n : Nat} {s : State} (h : HasStarted d i n s) (cl : Nat) : HasStarted d i n (offerBlock d i s cl) := by
  have ⟨t, ht, _, hn⟩ := h
  simp only [offerBlock]
  split
  · exact hasStarted_handBlock cl ht hn.le
  · exact h

theorem HasStarted.foldl_offerBlock {d i n : Nat} {s : State} (h : HasStarted d i n s) (l : List Nat) : HasStarted d i n (l.foldl (offerBlock d i) s) := by
  induction l generalizing s with
  | nil => exact h
  | cons cl l ih => exact ih (h.offered cl)

/-- The first free task context takes the record's next block. -/
theorem hasStarted_foldl_offerBlock {d i : Nat} {s : State} {t : TileTask} (ht : (s.die d).tasks[i]? = some t) (hblk : t.nextBlk < t.blocks)
    (hidle : t.running = []) {l : List Nat} (hfree : ∃ cl ∈ l, s.taskEngine cl = true) :
    HasStarted d i t.nextBlk (l.foldl (offerBlock d i) s) := by
  induction l with
  | nil =>
    obtain ⟨cl, hcl, _⟩ := hfree
    cases hcl
  | cons cl l ih =>
    have hoffer : offerBlock d i s cl = if s.taskEngine cl = true then handBlock d i cl s else s := by
      simp [offerBlock, lget_of_getElem? {} ht, hblk, hidle]
    rw [List.foldl_cons, hoffer]
    by_cases hcl : s.taskEngine cl = true
    · rw [if_pos hcl]
      exact (hasStarted_handBlock cl ht le_rfl).foldl_offerBlock l
    · rw [if_neg hcl]
      obtain ⟨c, hc, hc'⟩ := hfree
      refine ih ⟨c, (List.mem_cons.1 hc).resolve_left ?_, hc'⟩
      rintro rfl
      exact hcl hc'

/-- A block whose products and stores have performed ends; the last one leads to the end of its record. -/
theorem exec_tileTaskBlockDone_ok {s s1 s2 : State} {t t1 : TileTask} {blk cl fl sc : Nat} (ht : (s.die s.ev.die).tasks[s.ev.i]? = some t)
    (hblk : t.running[s.ev.k]? = some (blk, cl)) (hrun : s.runBlock t blk cl = .ok s1 fl sc)
    (ht1 : t1 = { t with running := ldel t.running s.ev.k, ok := t.ok + 1, scope := Nat.max t.scope sc })
    (hs2 : s2 = (if (s1.unit t.unit).isEnded then s1 else (s1.modUnit t.unit (fun u => u.raiseFlags fl)).noteNarrow t.unit)) :
    exec .tileTaskBlockDone s = .next (if t1.running.isEmpty && decide (t1.blocks ≤ t1.nextBlk) then
        (s2.modTask s.ev.die s.ev.i (fun _ => t1)).finishTask s.ev.die s.ev.i t1
      else s2.modTask s.ev.die s.ev.i (fun _ => t1)) := by
  subst ht1 hs2
  show execTileTaskBlockDone s = _
  simp only [execTileTaskBlockDone, nextS, ht, hblk, hrun, b2n, Bool.not_true, Bool.false_eq_true, if_true, if_false, Nat.add_zero]

/-! ### Collective rounds (R269) -/

section
variable {s : State} {c : CollRound} {ph : Phase} (hc : s.colls.find? (fun c => c.phase == s.ev.ph && c.grp == s.ev.grp) = some c)
  (hph : s.phase? s.ev.ph = some ph)
  (hall : ∀ q, q < (agetD ph.groups c.grp []).length → c.parts.any (fun p => p.rank == q && p.whole) = true)
include hc hph hall

/-- A round that every rank has reached with commands that differ is refused to all. -/
theorem exec_collectiveRound_unequal
    (hdiffer : ∃ p ∈ c.parts, p.ctl ≠ (c.parts.headD { rank := 0 }).ctl ∨ p.opc ≠ (c.parts.headD { rank := 0 }).opc) :
    exec .collectiveRoundComplete s = .next (c.parts.foldl State.refusePart (s.dropColl c.phase c.grp)) := by
  have hwhole : (upFrom 0 (agetD ph.groups c.grp []).length).all (fun q => c.parts.any (fun p => p.rank == q && p.whole)) = true :=
    List.all_eq_true.2 fun q hq => hall q (by simpa using ((mem_upFrom _ _ _).1 hq).2)
  have hsame : c.parts.all (fun p => p.ctl == (c.parts.headD { rank := 0 }).ctl && p.opc == (c.parts.headD { rank := 0 }).opc) = false := by
    obtain ⟨p, hp, hne⟩ := hdiffer
    refine List.all_eq_false.2 ⟨p, hp, ?_⟩
    simpa [imp_iff_not_or] using hne
  show execCollectiveRoundComplete s = _
  simp only [execCollectiveRoundComplete, nextS, hc, hph, hwhole, hsame, Bool.not_true, Bool.not_false, Bool.false_eq_true, if_false, if_true]

/-- One of equal commands writes every destination, once all of them can be written. -/
theorem exec_collectiveRound_equal {t : State} {P opc : Nat} {w : Word} (hP : P = (agetD ph.groups c.grp []).length) (hne : c.parts ≠ [])
    (hsame : ∀ p ∈ c.parts, p.ctl = w ∧ p.opc = opc) (hready : destsReady s c.parts (collDst opc w P * collSize w) = (t, true)) :
    exec .collectiveRoundComplete s = .next (c.parts.foldl (fun s p => s.finishPart P c.parts p)
      { t with colls := (s.dropColl c.phase c.grp).colls }) := by
  subst hP
  have hwhole : (upFrom 0 (agetD ph.groups c.grp []).length).all (fun q => c.parts.any (fun p => p.rank == q && p.whole)) = true :=
    List.all_eq_true.2 fun q hq => hall q (by simpa using ((mem_upFrom _ _ _).1 hq).2)
  have hhead : (c.parts.headD { rank := 0 }).ctl = w ∧ (c.parts.headD { rank := 0 }).opc = opc := by
    cases hparts : c.parts with
    | nil => exact absurd hparts hne
    | cons p l => exact hsame p (hparts ▸ List.mem_cons_self)
  have hequal : c.parts.all (fun p => p.ctl == w && p.opc == opc) = true := by
    simpa using hsame
  have hexec : exec .collectiveRoundComplete s = .next (
      if (!(destsReady s c.parts (collDst opc w (agetD ph.groups c.grp []).length * collSize w)).2) = true then
        (destsReady s c.parts (collDst opc w (agetD ph.groups c.grp []).length * collSize w)).1
      else c.parts.foldl (fun s p => s.finishPart (agetD ph.groups c.grp []).length c.parts p)
        { (destsReady s c.parts (collDst opc w (agetD ph.groups c.grp []).length * collSize w)).1 with colls := (s.dropColl c.phase c.grp).colls }) := by
    show execCollectiveRoundComplete s = _
    simp only [execCollectiveRoundComplete, nextS, hc, hph, hwhole, hhead, hequal, Bool.not_true, Bool.false_eq_true, if_false]
    rfl
  rw [hexec, hready]
  rfl

end

/-! ### The statement -/

/-- Settles O41: each event by its own lemma above. -/
theorem enginesComplete : Obligations.EnginesComplete := by
  unfold Obligations.EnginesComplete
  refine ⟨?reply, ?issue, ?retire, ?busy, ?start, fun s s1 s2 t t1 blk cl fl sc => exec_tileTaskBlockDone_ok,
    fun s c ph => exec_collectiveRound_unequal, ?equal⟩
  case reply =>
    intro s r c push hr hc hdone hpush hroom
    have hrun := completeRun_completes hr hc hdone hpush hroom
    exact ⟨_, rfl, congrArg _ hrun, fun hflag => (exec_handoffPush_of_flag.1 hflag).trans (congrArg _ hrun)⟩
  case issue =>
    intro s s1 s2 o ho hissued hheld hfirst hmay hhalt hpop hs1
    have hissue {r : MatRes} := exec_matrixIssue_of_issue (s2 := s2) (r := r) ho hissued hheld hfirst hmay hhalt hpop hs1
    exact ⟨fun fl fs cim sc hr => (hissue hr).1 fl fs cim sc rfl, fun f m hr hm => (hissue hr).2.1 f m rfl hm, fun f hr hm => (hissue hr).2.2 f rfl hm⟩
  case retire =>
    intro s s0 o t ho hissued hfirst hs0 hpush hremote ht
    exact ⟨congrArg Host.Outcome.next (retireMat_retires ho hissued hfirst hs0 hpush hremote ht), exec_handoffPush_of_flag.2⟩
  case busy =>
    intro s m rest c ea h hin hsince hentry hready hbusy
    refine ⟨fun hlong => ?_, fun hshort => ?_⟩ <;> rw [exec_handlerBusyTimeout hin hsince hentry hready hbusy]
    · rw [if_pos hlong]
    · rw [if_neg (Nat.not_le.2 hshort)]
  case start =>
    intro s t i o k hnext ht hidle _ hfree
    obtain ⟨t', _, ht', hblk⟩ := nextTask_hasBlocks hnext
    obtain rfl : t' = t := Option.some.inj (ht'.symm.trans ht)
    obtain ⟨cl, hlo, hhi, hcl⟩ := hfree
    obtain ⟨v, hv, hrunning, hmore⟩ := hasStarted_foldl_offerBlock ht hblk hidle ⟨cl, (mem_upFrom _ 80 cl).2 ⟨hlo, hhi⟩, hcl⟩
    exact ⟨_, v, exec_tileTaskStart hnext, hv, hrunning, hmore⟩
  case equal =>
    intro s t c ph P opc w hc hph hP hall hne hsame hready
    exact exec_collectiveRound_equal hc hph (hP ▸ hall) hP hne hsame hready

end Sys2Proof.Proofs

/-! PROOFS. Encodings (R142, R146 to R148, R153): PE words decode to what was encoded; an arithmetic control word may not. -/

namespace Sys2Proof.Proofs

open Sys2Proof Sys2Proof.Machine Sys2Proof.Laws Sys2Proof.Claims

/-! ### The words of the manual -/

/-- Settles O5: each word is decoded by evaluation. -/
theorem wordsOfTheManualDecode : Obligations.WordsOfTheManualDecode :=
  ⟨rfl, rfl, rfl, rfl, rfl, rfl, rfl, rfl, rfl, rfl, rfl, rfl, rfl, rfl, rfl⟩

/-! ### Operation words (R142, R152) -/

/-- The fields of an operation word are those that were put there. -/
theorem peFields_peWordBits (opc : BitVec 7) (w : PeWord) (seq imm : Word32) :
    peFields (peWordBits opc w) seq imm = { w with seq := seq, imm := imm } := by
  obtain ⟨sub, fmt, sa, sb, sc, ei, dst, mod, x, _, _⟩ := w
  simp (disch := decide) only [peFields, peWordBits, BitVec.extractLsb'_append_eq_of_add_le, BitVec.extractLsb'_append_eq_of_le,
    Nat.reduceSub, BitVec.extractLsb'_eq_self, BitVec.getLsbD_append, if_pos, BitVec.getLsbD_ofBool, decide_true, Bool.true_and]

theorem peOpc_peWordBits (opc : BitVec 7) (w : PeWord) : peOpc (peWordBits opc w) = opc := by
  simp (disch := decide) only [peOpc, peWordBits, BitVec.extractLsb'_append_eq_of_le, Nat.reduceSub, BitVec.extractLsb'_eq_self]

theorem decodePe_peWordBits (opc : BitVec 7) (w : PeWord) (seq imm : Word32) :
    decodePe (peWordBits opc w) seq imm = peRow opc { w with seq := seq, imm := imm } := by
  rw [decodePe, peOpc_peWordBits, peFields_peWordBits]

/-- A code with a dash in the opcode map has the one row of such codes. -/
theorem peRow_of_isDash {opc : BitVec 7} (h : isDash opc = true) (w : PeWord) : peRow opc w = some (.unassignedOpc opc w) := by
  simp only [isDash, Bool.or_eq_true, beq_iff_eq, or_assoc] at h
  rcases h with rfl | rfl | rfl | rfl | rfl | rfl | rfl | rfl | rfl | rfl | rfl | rfl <;> rfl

/-- The opcode map gives back the row of a PE instruction; where rows share an opcode, the field that tells them apart decides. -/
theorem peRow_of_pePart {i : Instr} {opc : BitVec 7} {w : PeWord} (h : i.pePart = some (opc, w)) (hform : i.formOk = true) :
    peRow opc w = some i := by
  cases i with
  | unassignedOpc _ _ => cases h; exact peRow_of_isDash hform w
  | constFree _ | cntrSource _ | fcvtTile _ | mdrnMem _ => cases h; exact if_pos hform
  | constTriggered _ | cntrTriggered _ | fcvt _ =>
    cases h
    exact if_neg (by simpa only [Instr.formOk, bne_iff_ne, Bool.not_eq_true', beq_iff_eq, Bool.not_eq_true] using hform)
  | mdrnZero _ =>
    cases h
    have hsub : w.sub = 3#3 := by simpa [Instr.formOk] using hform
    simp [peRow, hsub]
  | mdrn _ =>
    cases h
    have hsub : w.sub ≠ 1#3 ∧ w.sub ≠ 3#3 := by simpa [Instr.formOk] using hform
    simp [peRow, hsub]
  | _ => cases h <;> rfl

/-! ### The words of a PE (R140, R142) -/

/-- The words that a well-formed word leaves out are 0 in it. -/
theorem eq_zero_of_peWordsOk {opc : BitVec 7} {w : PeWord} (h : peWordsOk opc w = true) :
    (memClass opc w.sub = false → w.seq = 0#32) ∧ (w.x = false → w.imm = 0#32) := by
  obtain ⟨hseq, himm⟩ : (memClass opc w.sub = true ∨ w.seq = 0#32) ∧ (w.x = true ∨ w.imm = 0#32) := by simpa [peWordsOk] using h
  exact ⟨fun hm => hseq.resolve_left (by simp [hm]), fun hx => himm.resolve_left (by simp [hx])⟩

/-- An operation word is followed by the sequence word of the memory class and the immediate of X = 1, and decodes with them. -/
theorem decodePeWords_peWordBits {opc : BitVec 7} {w : PeWord} {i : Instr} (rest : List Word32) (hwords : peWordsOk opc w = true)
    (hrow : peRow opc w = some i) :
    decodePeWords (peWordBits opc w :: ((if memClass opc w.sub then [w.seq] else []) ++ (if w.x then [w.imm] else [])) ++ rest) =
      .ok (i, rest) := by
  obtain ⟨hseq, himm⟩ := eq_zero_of_peWordsOk hwords
  have hpe : decodePe (peWordBits opc w) w.seq w.imm = some i := by rw [decodePe_peWordBits, hrow]
  unfold decodePeWords
  simp only [peOpc_peWordBits, peFields_peWordBits, List.cons_append]
  cases hm : memClass opc w.sub with
  | false =>
    rw [hseq hm] at hpe
    cases hx : w.x with
    | false => rw [himm hx] at hpe; simp [hpe]
    | true => simp [hpe]
  | true =>
    cases hx : w.x with
    | false => rw [himm hx] at hpe; simp [hpe]
    | true => simp [hpe]

theorem encode_of_pePart {i : Instr} {opc : BitVec 7} {w : PeWord} (h : i.pePart = some (opc, w)) :
    encode i = some (peWordBits opc w :: ((if memClass opc w.sub then [w.seq] else []) ++ (if w.x then [w.imm] else []))) := by
  rw [encode, h]

theorem wf_of_pePart {i : Instr} {opc : BitVec 7} {w : PeWord} (h : i.pePart = some (opc, w)) (hwf : i.wf = true) :
    i.formOk = true ∧ peWordsOk opc w = true := by
  simp only [Instr.wf, h, Bool.and_eq_true] at hwf
  obtain ⟨⟨⟨hform, hwords, _⟩, _⟩, _⟩ := hwf
  exact ⟨hform, hwords⟩

/-- Settles O6: the words decode to the row of their opcode and fields, and that is the instruction. -/
theorem peEncodingRoundTrips : Obligations.PeEncodingRoundTrips := by
  unfold Obligations.PeEncodingRoundTrips
  intro i ws rest hwf hpe henc
  obtain ⟨⟨opc, w⟩, hpart⟩ := Option.isSome_iff_exists.1 hpe
  obtain ⟨hform, hwords⟩ := wf_of_pePart hpart hwf
  cases (encode_of_pePart hpart).symm.trans henc
  exact decodePeWords_peWordBits rest hwords (peRow_of_pePart hpart hform)

/-! ### Control words (R147, R148) -/

/-- Refutes O7: well-formedness bounds LO of an arithmetic word and does not ask that FN in it is the row's own. ADD with FN 5 is well
formed and encodes as ADD with FN 0. -/
theorem not_streamEncodingsRoundTrip : ¬ Obligations.StreamEncodingsRoundTrip := by
  unfold Obligations.StreamEncodingsRoundTrip
  rintro ⟨⟨hctl, _⟩, _⟩
  have hdecoded : [Instr.seqAdd ⟨0#5, 0#5, 0#5, 0#11⟩] = [Instr.seqAdd ⟨0#5, 0#5, 0#5, 5#11⟩] :=
    hctl (.seqAdd ⟨0#5, 0#5, 0#5, 5#11⟩) [ctlWordBits 1#6 ⟨0#5, 0#5, 0#5, 0#11⟩] rfl rfl rfl
  simp at hdecoded

end Sys2Proof.Proofs

/-! PROOFS. Special registers and traps (R149, R152, R198, R280 to R285, R366): what a write leaves and a read gives, and the firings that
raise a cause. -/

namespace Sys2Proof.Proofs

open Sys2Proof Sys2Proof.Machine Sys2Proof.Laws Sys2Proof.Claims

/-! ### Counters and special registers in firings (R285) -/

section
variable {w : PeWord} {s s1 : State} {uid key : Nat} {g : Gathered}

theorem exec_rdctr (hgo : Go 0x7A w s s1 uid key g) : exec (.rdctr w) s = .next ((taken s1 uid key g).deliver uid key w
    { g.tok with payload := if w.sub = 0#3 then (s1.die (dieOf (s1.unit uid).lead)).cyc else (s1.unit uid).fired, fmt := 1#4 }) := by
  unfold Go at hgo
  show execRdctr w s = _
  simp only [execRdctr, nextS, hgo, taken]

theorem exec_rdst_reads {v : Word} (hgo : Go 0x7B w s s1 uid key g)
    (hv : s1.readSpecial uid ((s1.unit uid).siteOf key).cl (w.imm.toNat % 256) = some v) :
    exec (.rdst w) s = .next ((taken s1 uid key g).deliver uid key w { g.tok with payload := v, fmt := 1#4 }) := by
  unfold Go at hgo
  show execRdst w s = _
  simp only [execRdst, nextS, hgo, hv, taken]

theorem exec_rdst_unassigned (hgo : Go 0x7B w s s1 uid key g)
    (hn : s1.readSpecial uid ((s1.unit uid).siteOf key).cl (w.imm.toNat % 256) = none) :
    exec (.rdst w) s = .next (s1.faultAt uid key (raise 0x0E2 g.tok)) := by
  unfold Go at hgo
  show execRdst w s = _
  simp only [execRdst, nextS, hgo, hn]

theorem exec_wrst_writes (hgo : Go 0x7C w s s1 uid key g)
    (hn : (s1.readSpecial uid ((s1.unit uid).siteOf key).cl (w.imm.toNat % 256)).isSome = true) :
    exec (.wrst w) s = .next (if w.dst = 0#2 then
        ((taken s1 uid key g).modUnit uid (fun u => u.writeSpecial (w.imm.toNat % 256) g.a.v)).sendOut uid key { g.tok with payload := 0#64, fmt := 1#4 }
      else (taken s1 uid key g).modUnit uid (fun u => u.writeSpecial (w.imm.toNat % 256) g.a.v)) := by
  unfold Go at hgo
  show execWrst w s = _
  simp only [execWrst, nextS, hgo, taken, Option.isNone_iff_eq_none, Option.isSome_iff_ne_none.1 hn, if_false]

theorem exec_wrst_unassigned (hgo : Go 0x7C w s s1 uid key g)
    (hn : s1.readSpecial uid ((s1.unit uid).siteOf key).cl (w.imm.toNat % 256) = none) :
    exec (.wrst w) s = .next (s1.faultAt uid key (raise 0x0E2 g.tok)) := by
  unfold Go at hgo
  show execWrst w s = _
  simp only [execWrst, nextS, hgo, hn, Option.isNone_none, if_true]

/-! ### Firings that raise a cause (R145, R152, R284) -/

theorem exec_trap (hgo : Go 0x78 w s s1 uid key g) : exec (.trap w) s = .next (s1.faultAt uid key (raise (0x120 + w.imm.toNat % 32) g.tok)) := by
  unfold Go at hgo
  show execTrap w s = _
  simp only [execTrap, nextS, hgo]

theorem exec_brk (hgo : Go 0x79 w s s1 uid key g) : exec (.brk w) s = .next (if s1.debugged (s1.unit uid).job
    then (taken s1 uid key g).haltJob (s1.unit uid).job 2 else s1.faultAt uid key (raise 0x140 g.tok)) := by
  unfold Go at hgo
  show execBrk w s = _
  simp only [execBrk, nextS, hgo, taken]

end

/-- A word without an operation raises 0x000 once its queues hold tokens of one tag. -/
theorem fireUnassigned_ready {w : PeWord} {s : State} {uid key : Nat} {toks : List (Nat × Token)} (hfocus : s.focusPe = some (uid, key))
    (hereg : eregReady w ((calm s uid key).pe key) = true) (hmatch : (calm s uid key).matchSet key (selQueues w) (fun _ => true) = some toks) :
    fireUnassigned w s = (calmed s uid key).faultAt uid key (raise 0x000 ((toks.map Prod.snd).headD {})) := by
  unfold calm at hereg hmatch
  simp only [fireUnassigned, hfocus, hereg, hmatch, Bool.not_true, Bool.false_eq_true, if_false, calmed, calm]

/-! ### The bits of USTAT (R281) -/

/-- Colour states and counters of USTAT: its fields from bit 10 on. -/
def ustatHigh (s : State) (u : UnitSt) : Nat :=
  let cnt (k : Nat) : Nat := Nat.min (s.colourCount u k) 0xFFFF
  u.col1 + 2 ^ 2 * u.col2 + 2 ^ 4 * u.col3 + 2 ^ 6 * cnt 1 + 2 ^ 22 * cnt 2 + 2 ^ 38 * cnt 3

theorem bit_eq_b2n (b : Bool) (n : Nat) : Nat.bit b n = b2n b + 2 * n := by cases b <;> simp [Nat.bit, b2n, Nat.add_comm]

/-- The flags of USTAT as a number, below `n`. -/
def flagBits (f : Sticky) (n : Nat) : Nat :=
  Nat.bit f.nx (Nat.bit f.uf (Nat.bit f.ofl (Nat.bit f.dz (Nat.bit f.nv (Nat.bit f.tblinex (Nat.bit f.narrow n))))))

/-- USTAT reads its seven flags, RM, and the colours above them. -/
theorem ustat_eq (s : State) (u : UnitSt) : s.ustat u = flagBits u.flags (u.rm.toNat + 2 ^ 3 * ustatHigh s u) := by
  simp only [State.ustat, ustatHigh, flagBits, bit_eq_b2n]
  omega

theorem flagBits_div (f : Sticky) (n : Nat) : flagBits f n / 2 ^ 7 = n := by
  rw [← Nat.shiftRight_eq_div_pow]
  simp only [flagBits, Nat.shiftRight_succ_inside, Nat.bit_div_two, Nat.shiftRight_zero]

theorem ustat_div_rm (s : State) (u : UnitSt) : s.ustat u / 2 ^ 7 = u.rm.toNat + 2 ^ 3 * ustatHigh s u := by rw [ustat_eq, flagBits_div]

/-! ### What a write of a special register leaves (R149, R280 to R283) -/

/-- The registers `lo` to `hi - 1` as a list, after a write of register `n`. -/
def putAt {w : Nat} (l : List (BitVec w)) (lo hi n : Nat) (v : BitVec w) : List (BitVec w) :=
  if lo ≤ n ∧ n < hi then lput 0#w l (n - lo) v else l

theorem putAt_in {w : Nat} {lo hi n : Nat} (h : lo ≤ n ∧ n < hi) (l : List (BitVec w)) (v : BitVec w) :
    putAt l lo hi n v = lput 0#w l (n - lo) v := if_pos h
theorem putAt_out {w : Nat} {lo hi n : Nat} (h : ¬ (lo ≤ n ∧ n < hi)) (l : List (BitVec w)) (v : BitVec w) : putAt l lo hi n v = l := if_neg h

theorem lget_putAt_self {w lo hi n : Nat} (hlo : lo ≤ n) (hhi : n < hi) (l : List (BitVec w)) (v : BitVec w) :
    lget (putAt l lo hi n v) (n - lo) 0#w = v := by
  rw [putAt_in ⟨hlo, hhi⟩, lget_lput, if_pos rfl]
theorem lget_putAt_other {w lo hi n k : Nat} (hlo : lo ≤ k) (hne : k ≠ n) (l : List (BitVec w)) (v : BitVec w) :
    lget (putAt l lo hi n v) (k - lo) 0#w = lget l (k - lo) 0#w := by
  by_cases h : lo ≤ n ∧ n < hi
  · rw [putAt_in h, lget_lput, if_neg (by omega)]
  · rw [putAt_out h]

/-- The unit after a write of register `n`, field by field: each field with the one number that writes it. -/
def written (u : UnitSt) (n : Nat) (v : Word) : UnitSt := { u with
  tvec := if n = 0x01 then v &&& codeMask else u.tvec
  tepc := if n = 0x02 then v &&& codeMask else u.tepc
  rm := if n = 0x08 then v.extractLsb' 7 3 else u.rm
  flags := if n = 0x08 then (u.setUstat v).flags else u.flags
  uctl := if n = 0x09 then (v &&& 0xF1F#64).setWidth 12 else u.uctl
  swz := if n = 0x2A then (v &&& 0xFF01#64).setWidth 16 else u.swz
  ovft := if n = 0x35 then v &&& 0x00FFFFFFFFFFFFF0#64 else u.ovft
  ixb := putAt u.ixb 0x10 0x14 n v
  ixs := putAt u.ixs 0x14 0x18 n v
  ixn := putAt u.ixn 0x18 0x1C n v
  lvl := putAt u.lvl 0x20 0x28 n (v.setWidth 9) }

theorem writeSpecial_eq_written (u : UnitSt) (n : Nat) (v : Word) : u.writeSpecial n v = written u n v := by
  unfold UnitSt.writeSpecial
  split
  case h_7 h1 h2 h8 h9 h2A h35 =>
    simp only [written, if_neg h1, if_neg h2, if_neg h8, if_neg h9, if_neg h2A, if_neg h35, Bool.and_eq_true, decide_eq_true_eq]
    split_ifs with hb hs hn hl
    · rw [putAt_in hb, putAt_out (by omega), putAt_out (by omega), putAt_out (by omega)]
    · rw [putAt_out (by omega), putAt_in hs, putAt_out (by omega), putAt_out (by omega)]
    · rw [putAt_out (by omega), putAt_out (by omega), putAt_in hn, putAt_out (by omega)]
    · rw [putAt_out (by omega), putAt_out (by omega), putAt_out (by omega), putAt_in hl]
    · rw [putAt_out hb, putAt_out hs, putAt_out hn, putAt_out hl]
  all_goals rfl

/-! ### What USTAT reads after a write -/

theorem ustat_written_other (s : State) (u : UnitSt) (v : Word) {n : Nat} (h : n ≠ 0x08) : s.ustat (written u n v) = s.ustat u := by
  rw [ustat_eq, ustat_eq]
  simp only [written, if_neg h]
  rfl

theorem ustat_written_div (s : State) (u : UnitSt) (v : Word) (n : Nat) : s.ustat (written u n v) / 2 ^ 10 = s.ustat u / 2 ^ 10 := by
  have hdiv (x : UnitSt) : s.ustat x / 2 ^ 10 = ustatHigh s x := by
    have := ustat_div_rm s x
    omega
  rw [hdiv, hdiv]
  rfl

/-- What a write of USTAT leaves there (R198, R281): RM and the flags written, a flag raised in this clock, and the colours as before. -/
theorem ustat_written_self (s : State) (u : UnitSt) (v : Word) : s.ustat (written u 0x08 v) =
    flagBits (u.setUstat v).flags ((v.extractLsb' 7 3).toNat + 2 ^ 3 * ustatHigh s u) := ustat_eq s (written u 0x08 v)

/-- A field read back as a word: what was written, if its mask has no bit above its width. -/
theorem setWidth_setWidth_and {k : Nat} {m : Word} (h : m.toNat < 2 ^ k) (v : Word) : ((v &&& m).setWidth k).setWidth 64 = v &&& m := by
  have hle : (v &&& m).toNat ≤ m.toNat := by rw [BitVec.toNat_and]; exact Nat.and_le_right
  apply BitVec.eq_of_toNat_eq
  rw [BitVec.toNat_setWidth, BitVec.toNat_setWidth, Nat.mod_eq_of_lt (Nat.lt_of_le_of_lt hle h), Nat.mod_eq_of_lt (v &&& m).isLt]

theorem setWidth_nine_setWidth (v : Word) : (v.setWidth 9).setWidth 64 = v &&& 0x1FF#64 := by
  apply BitVec.eq_of_toNat_eq
  have hmask : (v &&& 0x1FF#64).toNat = v.toNat % 2 ^ 9 := by
    rw [BitVec.toNat_and, ← Nat.and_two_pow_sub_one_eq_mod]
    rfl
  rw [hmask, BitVec.toNat_setWidth, BitVec.toNat_setWidth]
  omega

/-! ### What the special registers read after a write -/

section
variable {s : State} {uid : Nat} {u : UnitSt} (hu : aget s.units uid = some u) (cl : Nat) (v : Word)
include hu

theorem unit_writeSpecial (n : Nat) : (s.modUnit uid (fun u => u.writeSpecial n v)).unit uid = written u n v := by
  rw [State.unit_modUnit_self hu, writeSpecial_eq_written]

/-- Every register but the one written reads as before. -/
theorem readSpecial_write_other {n k : Nat} (h : k ≠ n) :
    (s.modUnit uid (fun u => u.writeSpecial n v)).readSpecial uid cl k = s.readSpecial uid cl k := by
  unfold State.readSpecial
  rw [unit_writeSpecial hu, State.unit_of_aget hu]
  split
  case h_2 | h_3 | h_8 | h_11 | h_22 => simp only [written, if_neg h.symm]
  case h_7 => exact congrArg (fun n => some (wd n)) (ustat_written_other s u v h.symm)
  case h_23 =>
    simp only [Bool.and_eq_true, decide_eq_true_eq]
    split_ifs with hb hs hn hl
    · exact congrArg some (lget_putAt_other hb.1 h _ _)
    · exact congrArg some (lget_putAt_other hs.1 h _ _)
    · exact congrArg some (lget_putAt_other hn.1 h _ _)
    · exact congrArg (fun x : BitVec 9 => some (x.setWidth 64)) (lget_putAt_other hl.1 h _ _)
    · rfl
  all_goals rfl

theorem readSpecial_write_code {n : Nat} (h : n = 0x01 ∨ n = 0x02) :
    (s.modUnit uid (fun u => u.writeSpecial n v)).readSpecial uid cl n = some (v &&& codeMask) := by
  unfold State.readSpecial
  rw [unit_writeSpecial hu]
  rcases h with rfl | rfl <;> rfl

theorem readSpecial_write_uctl : (s.modUnit uid (fun u => u.writeSpecial 0x09 v)).readSpecial uid cl 0x09 = some (v &&& 0xF1F#64) := by
  unfold State.readSpecial
  rw [unit_writeSpecial hu]
  exact congrArg some (setWidth_setWidth_and (k := 12) (by decide) v)

theorem readSpecial_write_swz : (s.modUnit uid (fun u => u.writeSpecial 0x2A v)).readSpecial uid cl 0x2A = some (v &&& 0xFF01#64) := by
  unfold State.readSpecial
  rw [unit_writeSpecial hu]
  exact congrArg some (setWidth_setWidth_and (k := 16) (by decide) v)

theorem readSpecial_write_ovft :
    (s.modUnit uid (fun u => u.writeSpecial 0x35 v)).readSpecial uid cl 0x35 = some (v &&& 0x00FFFFFFFFFFFFF0#64) := by
  unfold State.readSpecial
  rw [unit_writeSpecial hu]
  rfl

/-- The index registers take all bits (R282). -/
theorem readSpecial_write_index {n : Nat} (hlo : 0x10 ≤ n) (hhi : n < 0x1C) :
    (s.modUnit uid (fun u => u.writeSpecial n v)).readSpecial uid cl n = some v := by
  unfold State.readSpecial
  rw [unit_writeSpecial hu]
  split
  case h_23 =>
    simp only [Bool.and_eq_true, decide_eq_true_eq]
    split_ifs with hb hs hn
    · exact congrArg some (lget_putAt_self hb.1 hb.2 _ _)
    · exact congrArg some (lget_putAt_self hs.1 hs.2 _ _)
    · exact congrArg some (lget_putAt_self hn.1 hn.2 _ _)
    all_goals omega
  all_goals omega

/-- The level registers take nine bits. -/
theorem readSpecial_write_level {n : Nat} (hlo : 0x20 ≤ n) (hhi : n < 0x28) :
    (s.modUnit uid (fun u => u.writeSpecial n v)).readSpecial uid cl n = some (v &&& 0x1FF#64) := by
  unfold State.readSpecial
  rw [unit_writeSpecial hu]
  split
  case h_23 =>
    simp only [Bool.and_eq_true, decide_eq_true_eq]
    rw [if_neg (by omega), if_neg (by omega), if_neg (by omega), if_pos ⟨hlo, hhi⟩, ← setWidth_nine_setWidth]
    exact congrArg (fun x : BitVec 9 => some (x.setWidth 64)) (lget_putAt_self hlo hhi _ _)
  all_goals omega

/-- USTAT takes RM and the flags; flags raised in this clock stay, and the fields from bit 10 on are read-only (R198, R281). -/
theorem readSpecial_write_ustat : ∃ x y,
    s.readSpecial uid cl 0x08 = some x ∧ (s.modUnit uid (fun u => u.writeSpecial 0x08 v)).readSpecial uid cl 0x08 = some y ∧
      y >>> 10 = x >>> 10 ∧ y.extractLsb' 7 3 = v.extractLsb' 7 3 ∧
      y.getLsbD 0 = (v.getLsbD 0 || u.flagsNow.nx) ∧ y.getLsbD 1 = (v.getLsbD 1 || u.flagsNow.uf) ∧
      y.getLsbD 2 = (v.getLsbD 2 || u.flagsNow.ofl) ∧ y.getLsbD 3 = (v.getLsbD 3 || u.flagsNow.dz) ∧
      y.getLsbD 4 = (v.getLsbD 4 || u.flagsNow.nv) ∧ y.getLsbD 5 = (v.getLsbD 5 || u.flagsNow.tblinex) ∧
      y.getLsbD 6 = (v.getLsbD 6 || u.flagsNow.narrow) := by
  have hwrite : (s.modUnit uid (fun u => u.writeSpecial 0x08 v)).readSpecial uid cl 0x08 = some (wd (s.ustat (written u 0x08 v))) := by
    unfold State.readSpecial
    rw [unit_writeSpecial hu]
    rfl
  have hread : s.readSpecial uid cl 0x08 = some (wd (s.ustat u)) := by
    unfold State.readSpecial
    rw [State.unit_of_aget hu]
    rfl
  refine ⟨_, _, hread, hwrite, ?high, ?rm, ?flags⟩
  case high =>
    have hdiv := ustat_written_div s u v 0x08
    apply BitVec.eq_of_toNat_eq
    simp only [BitVec.toNat_ushiftRight, BitVec.toNat_ofNat, Nat.shiftRight_eq_div_pow]
    omega
  case rm =>
    have hdiv : s.ustat (written u 0x08 v) / 2 ^ 7 = (v.extractLsb' 7 3).toNat + 2 ^ 3 * ustatHigh s u := ustat_div_rm s (written u 0x08 v)
    have hlt := (v.extractLsb' 7 3).isLt
    apply BitVec.eq_of_toNat_eq
    rw [BitVec.extractLsb'_toNat, BitVec.toNat_ofNat, Nat.shiftRight_eq_div_pow]
    omega
  case flags =>
    simp only [ustat_written_self, flagBits, UnitSt.setUstat, BitVec.getLsbD_ofNat, Nat.testBit_bit_succ, Nat.testBit_bit_zero,
      Nat.reduceLT, decide_true, Bool.true_and, and_self]
end

theorem writeSpecial_readOnly {n : Nat}
    (h : n ∈ [0x00, 0x03, 0x04, 0x05, 0x28, 0x29, 0x2B, 0x2C, 0x2D, 0x2E, 0x2F, 0x30, 0x31, 0x32, 0x33, 0x34]) (u : UnitSt) (v : Word) :
    u.writeSpecial n v = u := by
  simp only [List.mem_cons, List.not_mem_nil, or_false] at h
  rcases h with rfl | rfl | rfl | rfl | rfl | rfl | rfl | rfl | rfl | rfl | rfl | rfl | rfl | rfl | rfl | rfl <;> rfl

/-! ### TTAG (R283) -/

theorem ttag_fields (t : Token) :
    (BitVec.ofNat 25 (ttagOf t)).extractLsb' 0 10 = t.wave ∧ (BitVec.ofNat 25 (ttagOf t)).extractLsb' 10 8 = t.itag ∧
    (BitVec.ofNat 25 (ttagOf t)).extractLsb' 18 3 = t.lvl ∧ (BitVec.ofNat 25 (ttagOf t)).extractLsb' 21 2 = t.col ∧
    (BitVec.ofNat 25 (ttagOf t)).extractLsb' 23 2 = t.ctx := by
  have hwave := t.wave.isLt
  have hitag := t.itag.isLt
  have hlvl := t.lvl.isLt
  have hcol := t.col.isLt
  have hctx := t.ctx.isLt
  refine ⟨?_, ?_, ?_, ?_, ?_⟩
  all_goals
    apply BitVec.eq_of_toNat_eq
    simp only [BitVec.extractLsb'_toNat, BitVec.toNat_ofNat, Nat.shiftRight_eq_div_pow, ttagOf]
    omega

/-! ### The statement -/

/-- Settles O26: each firing and each register by its own lemma above. -/
theorem specialRegistersAndTraps : Obligations.SpecialRegistersAndTraps := by
  unfold Obligations.SpecialRegistersAndTraps
  refine ⟨⟨fun w s s1 uid key g => exec_rdctr, fun w s s1 uid key g hgo => ⟨fun v => exec_rdst_reads hgo, exec_rdst_unassigned hgo⟩,
      fun w s s1 uid key g hgo => ⟨exec_wrst_writes hgo, exec_wrst_unassigned hgo⟩⟩,
    ⟨?registers, fun u n v h => writeSpecial_readOnly h u v, fun s uid cl => rfl, ttag_fields⟩,
    ?unassigned, fun w s s1 uid key g => exec_trap, fun w s s1 uid key g => exec_brk⟩
  case registers =>
    rintro s _ uid cl n u v hu rfl
    refine ⟨readSpecial_write_code hu cl v, ?_, ?_, readSpecial_write_index hu cl v, readSpecial_write_level hu cl v, ?_, ?_,
      fun k => readSpecial_write_other hu cl v⟩
    · rintro rfl
      exact readSpecial_write_ustat hu cl v
    · rintro rfl
      exact readSpecial_write_uctl hu cl v
    · rintro rfl
      exact readSpecial_write_swz hu cl v
    · rintro rfl
      exact readSpecial_write_ovft hu cl v
  case unassigned =>
    intro i w opc s uid key toks hi hfocus hereg hmatch
    simp only [List.mem_cons, List.not_mem_nil, or_false] at hi
    rcases hi with rfl | rfl <;> exact congrArg Host.Outcome.next (fireUnassigned_ready hfocus hereg hmatch)

end Sys2Proof.Proofs

/-! PROOFS. The other control words (R148, R278, R279): what each does to its unit, and words whose fields or opcode break the table. -/

namespace Sys2Proof.Proofs

open Sys2Proof Sys2Proof.Machine Sys2Proof.Laws Sys2Proof.Claims

/-! ### Words that complete -/

section
variable {c : CWord} {s : State} {u : UnitSt} (hs : Sequencing s u)
include hs

/-- A change of the unit whose turn it is gives the state in which the unit has become the changed one. -/
theorem modUnit_eq_unitBecomes (f : UnitSt → UnitSt) : s.modUnit s.curUnit f = unitBecomes s (f u) := State.modUnit_of_aget hs.1 f

theorem exec_gateo (hc : ctlFieldsOk 0x1B c = true) :
    exec (.gateo c) s = .next ((unitBecomes s { u.next with gates := u.gates ||| CWord.imm16 c }).releaseGates s.curUnit) := by
  rw [← modUnit_eq_unitBecomes hs (fun x => { x.next with gates := x.gates ||| CWord.imm16 c })]
  exact congrArg Host.Outcome.next (seqWord_acts hs hc _)

theorem exec_gatec (hc : ctlFieldsOk 0x1C c = true) :
    exec (.gatec c) s = .next (unitBecomes s { u.next with gates := u.gates &&& ~~~ CWord.imm16 c }) :=
  congrArg Host.Outcome.next ((seqWord_acts hs hc _).trans (modUnit_eq_unitBecomes hs _))

theorem exec_iset (hc : ctlFieldsOk 0x1D c = true) : exec (.iset c) s = .next (unitBecomes s { u.next with
    ixb := lput 0#64 u.ixb (c.lo.toNat % 4) (u.greg c.ga), ixn := lput 0#64 u.ixn (c.lo.toNat % 4) (u.greg c.gb)
    ixs := lput 0#64 u.ixs (c.lo.toNat % 4) (u.greg c.gd) }) :=
  congrArg Host.Outcome.next ((seqWord_acts hs hc _).trans (modUnit_eq_unitBecomes hs _))

theorem exec_nopc (hc : ctlFieldsOk 0x31 c = true) : exec (.nopc c) s = .next (unitBecomes s u.next) :=
  congrArg Host.Outcome.next ((seqWord_acts hs hc _).trans (modUnit_eq_unitBecomes hs _))

theorem exec_hoffs {q : Nat} (hc : ctlFieldsOk 0x22 c = true) (hq : q = (CWord.imm16 c).toNat % 16)
    (hclaim : handoffFault s s.curUnit u.lead 2 q = none) :
    exec (.hoffs c) s = .next (if s.canPush u.lead 2 q then (s.pushHandoff u.lead 2 q).nextWord s.curUnit else s) := by
  subst hq
  show execHoffs c s = _
  simp only [execHoffs, nextS, seqWord_acts hs hc, hclaim]

theorem exec_hwaits {q : Nat} (hc : ctlFieldsOk 0x23 c = true) (hq : q = (CWord.imm16 c).toNat % 16)
    (hclaim : handoffFault s s.curUnit u.lead 2 q = none) :
    exec (.hwaits c) s = .next (if s.canPop u.lead q 2 then (s.popHandoff u.lead q 2).nextWord s.curUnit else s) := by
  subst hq
  show execHwaits c s = _
  simp only [execHwaits, nextS, seqWord_acts hs hc, hclaim]

theorem exec_sendc_done {s1 : State} (hc : ctlFieldsOk 0x2D c = true) (hissued : u.issuedDone = true)
    (hsent : s.sendMessage s.curUnit u.lead (u.greg c.ga) { ctx := BitVec.ofNat 2 u.ctx } = (s1, .done)) :
    exec (.sendc c) s = .next (s1.nextWord s.curUnit) := by
  show execSendc c s = _
  simp only [execSendc, nextS, seqWord_acts hs hc, hissued, hsent, ctlSent, Bool.not_true, Bool.false_eq_true, if_false]

theorem exec_ttqc_done {s1 : State} (hc : ctlFieldsOk 0x2E c = true) (hissued : u.issuedDone = true)
    (hsent : s.submitRecord s.curUnit u.lead (u.greg c.ga) = (s1, .done)) : exec (.ttqc c) s = .next (s1.nextWord s.curUnit) := by
  show execTtqc c s = _
  simp only [execTtqc, nextS, seqWord_acts hs hc, hissued, hsent, ctlSent, Bool.not_true, Bool.false_eq_true, if_false]

theorem exec_cancl {level : Nat} (hc : ctlFieldsOk 0x25 c = true) (hlevel : level = (CWord.imm16 c).toNat % 8) :
    exec (.cancl c) s = .next (if ((s.cancelFrom s.curUnit level).unit s.curUnit).isEnded then s.cancelFrom s.curUnit level
      else (s.cancelFrom s.curUnit level).nextWord s.curUnit) := by
  subst hlevel
  exact congrArg Host.Outcome.next (seqWord_acts hs hc _)

/-- WFE begins to wait with the tag of the line last read by LDG, if there is one. -/
theorem exec_wfe (hc : ctlFieldsOk 0x27 c = true) (hwait : u.wait = .none) : ∃ tag, (∀ l, u.ldgLine = some l → tag = (s.dirOf l).tag.toNat) ∧
    exec (.wfe c) s = .next (unitBecomes s { u with wait := .wfe u.ldgLine tag (s.die (dieOf u.lead)).cyc.toNat }) := by
  cases hline : u.ldgLine with
  | none =>
    refine ⟨0, nofun, ?_⟩
    show execWfe c s = _
    simp only [execWfe, nextS, seqWord_acts hs hc, hwait, hline, modUnit_eq_unitBecomes hs]
  | some line =>
    refine ⟨(s.dirOf line).tag.toNat, fun l hl => by rw [Option.some.inj hl], ?_⟩
    show execWfe c s = _
    simp only [execWfe, nextS, seqWord_acts hs hc, hwait, hline, modUnit_eq_unitBecomes hs]

theorem exec_trapc (hc : ctlFieldsOk 0x28 c = true) : exec (.trapc c) s = .next (s.takeFault s.curUnit none
    { cause := 0x120 + (CWord.imm16 c).toNat % 32, ctl := true, tepc := nextCcnt u }) :=
  congrArg Host.Outcome.next (seqWord_acts hs hc _)

/-! ### MFS and MTS (R149, R279) -/

theorem exec_mfs_reads {v : Word} (hc : ctlFieldsOk 0x2A c = true) (hv : s.readSpecial s.curUnit u.lead ((CWord.imm16 c).toNat % 256) = some v) :
    exec (.mfs c) s = .next (unitBecomes s (u.setG c.gd v).next) := by
  show execMfs c s = _
  simp only [execMfs, nextS, seqWord_acts hs hc, hv, modUnit_eq_unitBecomes hs]

theorem exec_mfs_unassigned (hc : ctlFieldsOk 0x2A c = true) (hv : s.readSpecial s.curUnit u.lead ((CWord.imm16 c).toNat % 256) = none) :
    exec (.mfs c) s = .next (s.ctlFault s.curUnit 0x0E2) := by
  show execMfs c s = _
  simp only [execMfs, nextS, seqWord_acts hs hc, hv]

theorem exec_mts_writes {v : Word} (hc : ctlFieldsOk 0x2B c = true) (hv : s.readSpecial s.curUnit u.lead ((CWord.imm16 c).toNat % 256) = some v) :
    exec (.mts c) s = .next (unitBecomes s (u.writeSpecial ((CWord.imm16 c).toNat % 256) (u.greg c.ga)).next) := by
  show execMts c s = _
  simp only [execMts, nextS, seqWord_acts hs hc, hv, modUnit_eq_unitBecomes hs]

theorem exec_mts_unassigned (hc : ctlFieldsOk 0x2B c = true) (hv : s.readSpecial s.curUnit u.lead ((CWord.imm16 c).toNat % 256) = none) :
    exec (.mts c) s = .next (s.ctlFault s.curUnit 0x0E2) := by
  show execMts c s = _
  simp only [execMts, nextS, seqWord_acts hs hc, hv]

/-! ### Words that break the table (R148) -/

/-- A cause of a control word names the word at CCNT. -/
theorem ctlFault_eq (cause : Nat) : s.ctlFault s.curUnit cause = s.takeFault s.curUnit none { cause := cause, ctl := true, tepc := u.ccnt } := by
  rw [State.ctlFault, State.unit_of_aget hs.1]

theorem exec_reservedControlOpcode (op : BitVec 6) :
    exec (.reservedControlOpcode op c) s = .next (s.takeFault s.curUnit none { cause := 0x0E0, ctl := true, tepc := u.ccnt }) := by
  obtain ⟨hunit, hrunning⟩ := id hs
  rw [← ctlFault_eq hs]
  show execReservedControlOpcode op c s = _
  simp only [execReservedControlOpcode, nextS, hunit, UnitSt.isRunning, hrunning, if_true]
end

/-- A word that only writes GD is a control word. -/
theorem seqWord_of_seqCalc {op : Nat} {c : CWord} {s : State} {f : UnitSt → Word} {r : Host.Outcome State Fault Refusal}
    (h : r = .next (seqCalc op c s f)) : ∃ body, r = .next (seqWord op c s body) := ⟨_, h⟩

/-- Every control word with an opcode of the table is checked against the table before it acts. -/
theorem exec_ctlPart {i : Instr} {op : BitVec 6} {c : CWord} (h : i.ctlPart = some (op, c)) (hassigned : ∀ o x, i ≠ .reservedControlOpcode o x)
    (s : State) : ∃ body, exec i s = .next (seqWord op.toNat c s body) := by
  cases i with
  | reservedControlOpcode o x => exact absurd rfl (hassigned o x)
  | seqAdd _ | seqSub _ | seqAnd _ | seqOr _ | seqXor _ | seqShl _ | seqShr _ | seqSra _ | seqMul _ | seqMulh _ | seqDiv _ | seqRem _ | slt _
  | sltu _ | seqMin _ | seqMax _ | addi _ | andi _ | ori _ | xori _ | shli _ | shri _ | srai _ | ldhi _ | slti _ =>
    cases h
    exact seqWord_of_seqCalc rfl
  | _ => cases h <;> exact ⟨_, rfl⟩

/-- Settles O37: each word by its own lemma above. -/
theorem remainingControlWords : Obligations.RemainingControlWords := by
  unfold Obligations.RemainingControlWords
  refine ⟨?words, ?fields, fun op c s u hs => exec_reservedControlOpcode hs op⟩
  case words =>
    rintro c s u _ hs rfl
    exact ⟨exec_gateo hs, exec_gatec hs, fun hc => ⟨_, rfl, exec_iset hs hc⟩, exec_nopc hs, fun hc => exec_hoffs hs hc rfl,
      fun hc => exec_hwaits hs hc rfl, fun s1 => exec_sendc_done hs, fun s1 => exec_ttqc_done hs, fun hc => exec_cancl hs hc rfl, exec_wfe hs,
      exec_trapc hs, fun v => exec_mfs_reads hs, fun v => exec_mts_writes hs, exec_mfs_unassigned hs, exec_mts_unassigned hs⟩
  case fields =>
    intro i op c s u hpart hassigned hs hbad
    obtain ⟨body, hexec⟩ := exec_ctlPart hpart hassigned s
    rw [hexec, seqWord_bad hs hbad, ctlFault_eq hs]

end Sys2Proof.Proofs

/-! PROOFS. Integer lanes (R144, R165): rows whose result is a function of the lanes of their operands, and that each result fits its lane. -/

namespace Sys2Proof.Proofs

open Sys2Proof Sys2Proof.Machine Sys2Proof.Laws Sys2Proof.Claims

/-! ### Rows without flags, lane by lane -/

/-- A row that joins the values `G` of the lanes has in each lane the value `F`, if that is what `G` leaves of its own in the width of a lane. -/
theorem laneRow_of_calc {i : PeWord → Instr} {F G : PeWord → Nat → Nat → Nat → Nat → Nat} {opc : Nat} {f : CalcFn}
    (hrow : ∀ w, calcRow (i w) = some { opc := opc, f := f, w := w })
    (hcalc : ∀ w env a b c, (opRule opc w.sub.toNat).fmtMask.testBit w.fmt.toNat = true →
      f w env a b c = plain (joinW (laneW w.fmt.toNat) ((upFrom 0 (lanesOf w.fmt.toNat)).map (fun l =>
        G w (laneW w.fmt.toNat) (opLane a w.fmt.toNat l) (opLane b w.fmt.toNat l) (opLane c w.fmt.toNat l)))) w.fmt.toNat)
    (hval : ∀ w n x y z, x < 2 ^ n → y < 2 ^ n → z < 2 ^ n → G w n x y z % 2 ^ n = F w n x y z) : LaneRow i F := by
  intro w r s s1 uid key g hr hfires
  obtain rfl : _ = r := Option.some.inj ((hrow w).symm.trans hr)
  refine ⟨_, exec_plain hr hfires (hcalc w g.env g.a g.b g.c (fmtMask_of_go hfires)), fun l hl => ?_⟩
  rw [lane_joinW_map _ (laneW_mul_lanesOf _) hl]
  exact hval w _ _ _ _ (lane_lt ..) (lane_lt ..) (lane_lt ..)

/-- An operation of one operand. -/
theorem laneRow_of_laneInt1 {i : PeWord → Instr} {F : PeWord → Nat → Nat → Nat → Nat → Nat} {G : PeWord → Nat → Nat → Nat} {opc : Nat}
    (hrow : ∀ w, calcRow (i w) = some { opc := opc, f := fun w _ a _ _ => laneInt1 w (G w) a, w := w })
    (hval : ∀ w n x y z, x < 2 ^ n → y < 2 ^ n → z < 2 ^ n → G w n x % 2 ^ n = F w n x y z) : LaneRow i F :=
  laneRow_of_calc (G := fun w n x _ _ => G w n x) hrow (fun w _ a _ _ _ => by simp only [laneInt1, map_lanes, opLane]) hval

/-- An operation of two operands. -/
theorem laneRow_of_laneInt2 {i : PeWord → Instr} {F : PeWord → Nat → Nat → Nat → Nat → Nat} {G : PeWord → Nat → Nat → Nat → Nat} {opc : Nat}
    (hrow : ∀ w, calcRow (i w) = some { opc := opc, f := fun w _ a b _ => laneInt2 w (G w) a b, w := w })
    (hval : ∀ w n x y z, x < 2 ^ n → y < 2 ^ n → z < 2 ^ n → G w n x y % 2 ^ n = F w n x y z) : LaneRow i F :=
  laneRow_of_calc (G := fun w n x y _ => G w n x y) hrow (fun w _ a b _ _ => by simp only [laneInt2, zipWith_lanes, opLane]) hval

theorem calcMadd_eq (w : PeWord) (env : Env) (a b c : Opnd) :
    calcMadd w env a b c = plain (joinW (laneW w.fmt.toNat) ((upFrom 0 (lanesOf w.fmt.toNat)).map (fun l =>
      opLane a w.fmt.toNat l * opLane b w.fmt.toNat l + opLane c w.fmt.toNat l))) w.fmt.toNat := by
  simp only [calcMadd, lanes, List.zipWith_map, List.zipWith_self, opLane]

/-! ### Values in the range of a lane (R165) -/

theorem wrapNat_natCast (n m : Nat) : wrapNat n m = m % 2 ^ n := by rw [wrapNat, ← Int.natCast_mod, Int.toNat_natCast]

/-- The signed value of a lane of width 1 or more lies in the signed range. -/
theorem sextNat_range {n : Nat} (hn : n ≠ 0) (x : Nat) :
    -((2 ^ (n - 1) : Nat) : Int) ≤ sextNat n x ∧ sextNat n x < ((2 ^ (n - 1) : Nat) : Int) := by
  have hpow := Nat.two_pow_pred_mul_two (Nat.pos_of_ne_zero hn)
  have hlt : x % 2 ^ n < 2 ^ n := Nat.mod_lt _ (Nat.two_pow_pos n)
  simp only [sextNat, if_neg hn]
  split <;> omega

/-- Two values of lanes differ by less than the lane holds. -/
theorem natAbs_laneVal_sub_lt (u : Bool) {n x y : Nat} (hx : x < 2 ^ n) (hy : y < 2 ^ n) : (laneVal u n x - laneVal u n y).natAbs < 2 ^ n := by
  cases u with
  | true =>
    simp only [laneVal, if_true]
    omega
  | false =>
    by_cases hn : n = 0
    · subst hn
      simp [laneVal, sextNat]
    · have hpow := Nat.two_pow_pred_mul_two (Nat.pos_of_ne_zero hn)
      have hrx := sextNat_range hn x
      have hry := sextNat_range hn y
      simp only [laneVal, Bool.false_eq_true, if_false]
      omega

/-- One of two lanes is a lane. -/
theorem ite_mod_two_pow {c : Prop} [Decidable c] {n x y : Nat} (hx : x < 2 ^ n) (hy : y < 2 ^ n) :
    (if c then x else y) % 2 ^ n = if c then x else y := by
  rw [apply_ite (· % 2 ^ n), Nat.mod_eq_of_lt hx, Nat.mod_eq_of_lt hy]

/-! ### Division -/

theorem divRem_zero (u : Bool) (n x : Nat) : divRem u n x 0 = (2 ^ n - 1, x, 2) := if_pos rfl

theorem divRem_ne_zero (u : Bool) (n x : Nat) {y : Nat} (hy : y ≠ 0) :
    divRem u n x y = (wrapNat n ((laneVal u n x).tdiv (laneVal u n y)), wrapNat n ((laneVal u n x).tmod (laneVal u n y)), 0) := if_neg hy

/-- A lane of DIV: the quotient and the flags. -/
theorem divRem_quotient (u : Bool) (n x y : Nat) : ((divRem u n x y).1, (divRem u n x y).2.2) =
    if y = 0 then (2 ^ n - 1, 2) else (wrapNat n ((laneVal u n x).tdiv (laneVal u n y)), 0) := by
  split
  · next hy => rw [hy, divRem_zero]
  · next hy => rw [divRem_ne_zero u n x hy]

/-- A lane of REM: the remainder and the flags. -/
theorem divRem_remainder (u : Bool) (n x y : Nat) : ((divRem u n x y).2.1, (divRem u n x y).2.2) =
    if y = 0 then (x, 2) else (wrapNat n ((laneVal u n x).tmod (laneVal u n y)), 0) := by
  split
  · next hy => rw [hy, divRem_zero]
  · next hy => rw [divRem_ne_zero u n x hy]

/-! ### The statement -/

/-- Settles O12: each row is one function of its lanes, whose value is taken modulo 2^n or fits the lane already. -/
theorem integerLanes : Obligations.IntegerLanes := by
  unfold Obligations.IntegerLanes
  refine ⟨⟨?add, ?sub, ?neg, ?mul, ?mulh, ?madd, ?min, ?max, ?abs, ?absd, ?adds, ?subs⟩, ?div, ?rem⟩
  case add => exact laneRow_of_laneInt2 (fun _ => rfl) (fun _ _ _ _ _ _ _ _ => rfl)
  case sub => exact laneRow_of_laneInt2 (fun _ => rfl) (fun _ _ _ _ _ _ _ _ => rfl)
  case neg => exact laneRow_of_laneInt1 (fun _ => rfl) (fun _ _ _ _ _ _ _ _ => rfl)
  case mul => exact laneRow_of_laneInt2 (fun _ => rfl) (fun _ _ _ _ _ _ _ _ => rfl)
  case mulh => exact laneRow_of_laneInt2 (fun _ => rfl) (fun _ _ _ _ _ _ _ _ => wrapNat_mod _ _)
  case madd =>
    exact laneRow_of_calc (G := fun _ _ x y z => x * y + z) (fun _ => rfl) (fun w env a b c _ => calcMadd_eq w env a b c) (fun _ _ _ _ _ _ _ _ => rfl)
  case min => exact laneRow_of_laneInt2 (fun _ => rfl) (fun _ _ _ _ _ hx hy _ => ite_mod_two_pow hy hx)
  case max => exact laneRow_of_laneInt2 (fun _ => rfl) (fun _ _ _ _ _ hx hy _ => ite_mod_two_pow hy hx)
  case abs => exact laneRow_of_laneInt1 (fun _ => rfl) (fun _ _ _ _ _ _ _ _ => by rw [wrapNat_mod, wrapNat_natCast])
  case absd => exact laneRow_of_laneInt2 (fun _ => rfl) (fun _ _ _ _ _ hx hy _ => Nat.mod_eq_of_lt (natAbs_laneVal_sub_lt _ hx hy))
  case adds => exact laneRow_of_laneInt2 (fun _ => rfl) (fun _ _ _ _ _ _ _ _ => wrapNat_mod _ _)
  case subs => exact laneRow_of_laneInt2 (fun _ => rfl) (fun _ _ _ _ _ _ _ _ => wrapNat_mod _ _)
  case div => exact flagRow_of_fmt (fun _ => rfl) (fun w _ a b _ _ => by simp only [calcDiv, zipWith_lanes, divRem_quotient]; rfl)
  case rem => exact flagRow_of_fmt (fun _ => rfl) (fun w _ a b _ _ => by simp only [calcRem, zipWith_lanes, divRem_remainder]; rfl)

end Sys2Proof.Proofs

/-! PROOFS. Bitwise rows, shifts, counts, bit fields and CMP (R166 to R169): what each value is below, and the bits of a predicate. -/

namespace Sys2Proof.Proofs

open Sys2Proof Sys2Proof.Machine Sys2Proof.Laws Sys2Proof.Claims

/-! ### Counts and bit fields fit their lanes (R168, R169) -/

/-- A count of the bits of a lane fits the lane. -/
theorem mod_two_pow_of_le {k n : Nat} (h : k ≤ n) : k % 2 ^ n = k := Nat.mod_eq_of_lt (Nat.lt_of_le_of_lt h Nat.lt_two_pow_self)

theorem clzNat_le (n x : Nat) : clzNat n x ≤ n := by
  unfold clzNat
  split <;> omega

theorem ctzNat_le (n x : Nat) : ctzNat n x ≤ n := by
  rw [ctzNat]
  cases h : (upFrom 0 n).find? (fun i => x.testBit i) with
  | none => exact Nat.le_refl n
  | some k =>
    have hk := (mem_upFrom 0 n k).1 (List.mem_of_find?_eq_some h)
    rw [Option.getD_some]
    omega

/-- Each bit adds 1 at most. -/
theorem foldl_b2n_le (p : Nat → Bool) (l : List Nat) (a : Nat) : l.foldl (fun s i => s + b2n (p i)) a ≤ a + l.length := by
  induction l generalizing a with
  | nil => exact Nat.le_refl a
  | cons i r ih =>
    have hbit : b2n (p i) ≤ 1 := by cases p i <;> decide
    have hrest := ih (a + b2n (p i))
    simp only [List.foldl_cons, List.length_cons]
    omega

theorem popNat_le (n x : Nat) : popNat n x ≤ n := by
  have h := foldl_b2n_le (fun i => x.testBit i) (upFrom 0 n) 0
  rwa [length_upFrom, Nat.zero_add] at h

theorem bextLane_lt {n x : Nat} (hx : x < 2 ^ n) (y : Nat) : bextLane n x y < 2 ^ n := by
  unfold bextLane
  dsimp only
  split
  · exact Nat.two_pow_pos n
  · exact Nat.lt_of_le_of_lt (Nat.le_trans (Nat.mod_le _ _) (Nat.div_le_self _ _)) hx

/-- A number less its bits from `p` up to `p + k`, with `z` there, is one of as many bits. -/
theorem insert_bits_lt {n x p k : Nat} (hx : x < 2 ^ n) (h : p + k ≤ n) (z : Nat) :
    x / 2 ^ (p + k) * 2 ^ (p + k) + z % 2 ^ k * 2 ^ p + x % 2 ^ p < 2 ^ n := by
  have hfield : z % 2 ^ k * 2 ^ p + x % 2 ^ p < 2 ^ (p + k) := by
    have hz : z % 2 ^ k + 1 ≤ 2 ^ k := Nat.mod_lt _ (Nat.two_pow_pos k)
    calc z % 2 ^ k * 2 ^ p + x % 2 ^ p < z % 2 ^ k * 2 ^ p + 2 ^ p := Nat.add_lt_add_left (Nat.mod_lt _ (Nat.two_pow_pos p)) _
      _ = (z % 2 ^ k + 1) * 2 ^ p := (Nat.succ_mul _ _).symm
      _ ≤ 2 ^ k * 2 ^ p := Nat.mul_le_mul_right _ hz
      _ = 2 ^ (p + k) := by rw [Nat.pow_add, Nat.mul_comm]
  have hsplit : 2 ^ n = 2 ^ (n - (p + k)) * 2 ^ (p + k) := by rw [← Nat.pow_add]; congr 1; omega
  have hhigh : x / 2 ^ (p + k) + 1 ≤ 2 ^ (n - (p + k)) := Nat.div_lt_of_lt_mul (by rwa [Nat.mul_comm, ← hsplit])
  calc x / 2 ^ (p + k) * 2 ^ (p + k) + z % 2 ^ k * 2 ^ p + x % 2 ^ p
      < x / 2 ^ (p + k) * 2 ^ (p + k) + 2 ^ (p + k) := by rw [Nat.add_assoc]; exact Nat.add_lt_add_left hfield _
    _ = (x / 2 ^ (p + k) + 1) * 2 ^ (p + k) := (Nat.succ_mul _ _).symm
    _ ≤ 2 ^ (n - (p + k)) * 2 ^ (p + k) := Nat.mul_le_mul_right _ hhigh
    _ = 2 ^ n := hsplit.symm

theorem binsLane_lt {n x : Nat} (hx : x < 2 ^ n) (y z : Nat) : binsLane n x y z < 2 ^ n := by
  unfold binsLane
  dsimp only
  split
  · exact hx
  · next hpos =>
    simp only [Bool.or_eq_true, decide_eq_true_eq, not_or, Nat.not_le] at hpos
    have hmin : Nat.min (bits y 14 8) (n - bits y 5 0) ≤ n - bits y 5 0 := Nat.min_le_right _ _
    exact insert_bits_lt hx (by omega) z

theorem bextLane_eq (n x y : Nat) : bextLane n x y =
    if n ≤ bits y 5 0 ∨ bits y 14 8 = 0 then 0 else x / 2 ^ bits y 5 0 % 2 ^ Nat.min (bits y 14 8) (n - bits y 5 0) := by
  simp only [bextLane, Bool.or_eq_true, decide_eq_true_eq, beq_iff_eq]

theorem calcBins_eq (w : PeWord) (env : Env) (a b c : Opnd) :
    calcBins w env a b c = plain (joinW (laneW w.fmt.toNat) ((upFrom 0 (lanesOf w.fmt.toNat)).map (fun l =>
      binsLane (laneW w.fmt.toNat) (opLane a w.fmt.toNat l) (opLane b w.fmt.toNat l) (opLane c w.fmt.toNat l)))) w.fmt.toNat := by
  simp only [calcBins, lanes, List.zip, List.zipWith_map, List.zipWith_self, opLane]

/-! ### Predicates -/

theorem b2n_mod_two (p : Bool) : (b2n p % 2 ^ 1 == 1) = p := by cases p <;> rfl

/-- Lanes of one bit, at most 64 of them, are the bits of their payload, and the other bits are 0. -/
theorem getLsbD_joinW_one (p : Nat → Bool) {m : Nat} (hm : m ≤ 64) (l : Nat) :
    (joinW 1 ((upFrom 0 m).map (fun k => b2n (p k)))).getLsbD l = (decide (l < m) && p l) := by
  rw [getLsbD_eq_lane_one]
  by_cases hl : l < m
  · rw [lane_joinW_map _ (by omega) hl, b2n_mod_two, decide_eq_true hl, Bool.true_and]
  · rw [lane_joinW _ _ _ (by simpa using hm), lget_of_length_le _ _ _ (by simpa using hl), decide_eq_false hl, Bool.false_and]
    rfl

/-- The predicate of CMP (R166). -/
theorem calcCmp_eq (w : PeWord) (env : Env) (a b c : Opnd) :
    calcCmp w env a b c = plain (joinW 1 ((upFrom 0 (lanesOf w.fmt.toNat)).map (fun l =>
      b2n (cmpCond w.sub.toNat (laneW w.fmt.toNat) (opLane a w.fmt.toNat l) (opLane b w.fmt.toNat l))))) 13 := by
  simp only [calcCmp, zipWith_lanes, opLane]

/-! ### Bitwise rows (R167) -/

/-- A bitwise row computes its function of the whole payloads. -/
theorem calc_bitwise {w : PeWord} {f : Word → Word → Word} {i : Instr} {r : CalcRow}
    (hi : (i, f) ∈ [(Instr.and w, fun a b => a &&& b), (Instr.or w, fun a b => a ||| b), (Instr.xor w, fun a b => a ^^^ b),
      (Instr.andn w, fun a b => a &&& ~~~b), (Instr.not w, fun a _ => ~~~a)])
    (hrow : calcRow i = some r) (env : Env) (a b c : Opnd) : r.w = w ∧ r.f r.w env a b c = plain (f a.v b.v) w.fmt.toNat := by
  simp only [List.mem_cons, List.not_mem_nil, or_false, Prod.mk.injEq] at hi
  rcases hi with ⟨rfl, rfl⟩ | ⟨rfl, rfl⟩ | ⟨rfl, rfl⟩ | ⟨rfl, rfl⟩ | ⟨rfl, rfl⟩ <;> cases hrow <;> exact ⟨rfl, rfl⟩

/-! ### The statement -/

/-- Settles O13: each row is one function of its lanes or of the whole payloads, and a predicate has one bit for each lane. -/
theorem logicAndBitLanes : Obligations.LogicAndBitLanes := by
  unfold Obligations.LogicAndBitLanes
  refine ⟨⟨?shl, ?shr, ?sra, ?rot, ?clz, ?ctz, ?popc, ?bext, ?bins⟩, ?bitwise, ?cmp⟩
  case shl => exact laneRow_of_laneInt2 (fun _ => rfl) (fun _ _ _ _ _ _ _ _ => rfl)
  case shr =>
    exact laneRow_of_laneInt2 (fun _ => rfl) (fun _ _ _ _ _ hx _ _ => Nat.mod_eq_of_lt (Nat.lt_of_le_of_lt (Nat.div_le_self _ _) hx))
  case sra => exact laneRow_of_laneInt2 (fun _ => rfl) (fun _ _ _ _ _ _ _ _ => wrapNat_mod _ _)
  case rot => exact laneRow_of_laneInt2 (fun _ => rfl) (fun _ _ _ _ _ _ _ _ => Nat.mod_add_mod _ _ _)
  case clz => exact laneRow_of_laneInt1 (fun _ => rfl) (fun _ n x _ _ _ _ _ => mod_two_pow_of_le (clzNat_le n x))
  case ctz => exact laneRow_of_laneInt1 (fun _ => rfl) (fun _ n x _ _ _ _ _ => mod_two_pow_of_le (ctzNat_le n x))
  case popc => exact laneRow_of_laneInt1 (fun _ => rfl) (fun _ n x _ _ _ _ _ => mod_two_pow_of_le (popNat_le n x))
  case bext =>
    exact laneRow_of_laneInt2 (fun _ => rfl) (fun _ n x y _ hx _ _ => (Nat.mod_eq_of_lt (bextLane_lt hx y)).trans (bextLane_eq n x y))
  case bins =>
    exact laneRow_of_calc (G := fun _ n x y z => binsLane n x y z) (fun _ => rfl) (fun w env a b c _ => calcBins_eq w env a b c)
      (fun _ _ _ y z hx _ _ => Nat.mod_eq_of_lt (binsLane_lt hx y z))
  case bitwise =>
    intro w f i r s s1 uid key g hi hrow hfires
    obtain ⟨hw, hcalc⟩ := calc_bitwise hi hrow g.env g.a g.b g.c
    rw [exec_plain hrow hfires hcalc, hw]
  case cmp =>
    intro w s s1 uid key g hgo
    exact ⟨_, exec_plain (i := .cmp w) rfl hgo (calcCmp_eq w g.env g.a g.b g.c), fun l _ => getLsbD_joinW_one _ (lanesOf_le _) l⟩

end Sys2Proof.Proofs

/-! PROOFS. Extension, addresses, bounds, selection and lane moves (R170 to R174, R201, R219, R220). -/

namespace Sys2Proof.Proofs

open Sys2Proof Sys2Proof.Machine Sys2Proof.Laws Sys2Proof.Claims

/-! ### SEXT and ZEXT (R170) -/

/-- A word of SEXT or ZEXT that passes the checks of R145 has a source width of R144, no wider than its lanes. -/
theorem extWidth_of_wordFault {opc : Nat} (hopc : opc = 0x1E ∨ opc = 0x1F) {rm : BitVec 3} {w : PeWord} (h : wordFault opc rm w = none) :
    extWidth w = 8 * 2 ^ w.sub.toNat ∧ extWidth w ≤ laneW w.fmt.toNat := by
  have hsub : ∀ k < 8, Nat.testBit 0b111 k = true → k % 4 = k := by decide
  have hrule : (opRule opc w.sub.toNat).subMask = 0b111 := by rcases hopc with rfl | rfl <;> rfl
  have hext : (opc == 0x1E || opc == 0x1F) = true := by simpa using hopc
  unfold wordFault at h
  dsimp only at h
  split at h
  · cases h
  · next hfields =>
    split at h
    · cases h
    · split at h
      · cases h
      · next hwide =>
        rw [hext, Bool.true_and, decide_eq_true_eq, Nat.not_lt] at hwide
        simp only [fieldsOk, hrule, Bool.not_eq_true, Bool.not_eq_false', Bool.and_eq_true] at hfields
        obtain ⟨⟨⟨⟨⟨_, hmask⟩, _⟩, _⟩, _⟩, _⟩ := hfields
        have hwidth : extWidth w = 8 * 2 ^ w.sub.toNat := by rw [extWidth, hsub _ w.sub.isLt hmask]
        exact ⟨hwidth, hwidth ▸ hwide⟩

theorem opLane_mod_lt (o : Opnd) (t l m : Nat) : opLane o t l % m < 2 ^ laneW t := Nat.lt_of_le_of_lt (Nat.mod_le _ _) (lane_lt ..)

theorem calcSext_eq {w : PeWord} (env : Env) (a b c : Opnd) (h : extWidth w ≤ laneW w.fmt.toNat) :
    calcSext w env a b c = laneInt1 w (fun n x => wrapNat n (sextNat (extWidth w) x)) a := if_neg (Nat.not_lt.2 h)

theorem calcZext_eq {w : PeWord} (env : Env) (a b c : Opnd) (h : extWidth w ≤ laneW w.fmt.toNat) :
    calcZext w env a b c = laneInt1 w (fun _ x => x % 2 ^ extWidth w) a := if_neg (Nat.not_lt.2 h)

/-- A firing that computes each lane from the same lane of a. -/
theorem exec_laneInt1 {i : Instr} {r : CalcRow} {s s1 : State} {uid key : Nat} {g : Gathered} {f : Nat → Nat → Nat} (hrow : calcRow i = some r)
    (hfires : Fires r s s1 uid key g) (hcalc : r.f r.w g.env g.a g.b g.c = laneInt1 r.w f g.a) :
    ∃ v, exec i s = .next (afterCalc s1 uid key r.w g v r.w.fmt.toNat 0) ∧ ∀ l, l < lanesOf r.w.fmt.toNat →
      lane v (laneW r.w.fmt.toNat) l = f (laneW r.w.fmt.toNat) (opLane g.a r.w.fmt.toNat l) % 2 ^ laneW r.w.fmt.toNat := by
  rw [laneInt1, map_lanes] at hcalc
  exact ⟨_, exec_plain hrow hfires hcalc, fun l hl => lane_joinW_map _ (laneW_mul_lanesOf _) hl⟩

section
variable {w : PeWord} {s s1 : State} {uid key : Nat} {g : Gathered}

theorem extWidth_of_go {opc : Nat} (hopc : opc = 0x1E ∨ opc = 0x1F) (hgo : prepFire opc w s = .go s1 uid key g) :
    extWidth w = 8 * 2 ^ w.sub.toNat ∧ extWidth w ≤ laneW w.fmt.toNat := by
  obtain ⟨_, _, _, hword, _⟩ := prepFire_go hgo
  exact extWidth_of_wordFault hopc hword

theorem exec_sext (hgo : prepFire 0x1E w s = .go s1 uid key g) :
    ∃ v, exec (.sext w) s = .next (afterCalc s1 uid key w g v w.fmt.toNat 0) ∧ ∀ l, l < lanesOf w.fmt.toNat →
      lane v (laneW w.fmt.toNat) l = wrapNat (laneW w.fmt.toNat) (sextNat (8 * 2 ^ w.sub.toNat) (opLane g.a w.fmt.toNat l)) := by
  obtain ⟨hwidth, hfits⟩ := extWidth_of_go (.inl rfl) hgo
  obtain ⟨v, hexec, hlane⟩ := exec_laneInt1 (i := .sext w) rfl hgo (calcSext_eq g.env g.a g.b g.c hfits)
  exact ⟨v, hexec, fun l hl => by rw [hlane l hl, wrapNat_mod, hwidth]⟩

theorem exec_zext (hgo : prepFire 0x1F w s = .go s1 uid key g) :
    ∃ v, exec (.zext w) s = .next (afterCalc s1 uid key w g v w.fmt.toNat 0) ∧ ∀ l, l < lanesOf w.fmt.toNat →
      lane v (laneW w.fmt.toNat) l = opLane g.a w.fmt.toNat l % 2 ^ (8 * 2 ^ w.sub.toNat) := by
  obtain ⟨hwidth, hfits⟩ := extWidth_of_go (.inr rfl) hgo
  obtain ⟨v, hexec, hlane⟩ := exec_laneInt1 (i := .zext w) rfl hgo (calcZext_eq g.env g.a g.b g.c hfits)
  exact ⟨v, hexec, fun l hl => by rw [hlane l hl, Nat.mod_eq_of_lt (opLane_mod_lt ..), hwidth]⟩
end

/-! ### LEA (R58, R171) -/

/-- Address arithmetic changes the low 56 bits alone. -/
theorem addrAdd_shiftLeft (a b : Word) (k : Nat) :
    addrAdd a (b.toNat * 2 ^ k % 2 ^ 64) = a.extractLsb' 56 8 ++ (a.setWidth 56 + (b <<< k).setWidth 56) := by
  apply BitVec.eq_of_toNat_eq
  have hlow : ((a.setWidth 56 + (b <<< k).setWidth 56 : BitVec 56)).toNat = (a.toNat + b.toNat * 2 ^ k % 2 ^ 64) % 2 ^ 56 := by
    rw [BitVec.toNat_add, BitVec.toNat_setWidth, BitVec.toNat_setWidth, BitVec.toNat_shiftLeft, Nat.shiftLeft_eq, ← Nat.add_mod]
  have hhigh : (a.extractLsb' 56 8).toNat = a.toNat / 2 ^ 56 := by
    rw [BitVec.extractLsb'_toNat, Nat.shiftRight_eq_div_pow]
    have ha := a.isLt
    omega
  rw [BitVec.toNat_append, ← Nat.shiftLeft_add_eq_or_of_lt (BitVec.isLt _), hlow, hhigh, Nat.shiftLeft_eq, addrAdd, wd, BitVec.toNat_ofNat]
  have ha := a.isLt
  omega

theorem calcLea_eq (w : PeWord) (env : Env) (a b c : Opnd) : calcLea w env a b c = plain
    (if w.fmt = 14#4 then a.v.extractLsb' 56 8 ++ (a.v.setWidth 56 + (b.v <<< w.sub.toNat).setWidth 56) else a.v + (b.v <<< w.sub.toNat))
    w.fmt.toNat := by
  have hword : wd (a.v.toNat + b.v.toNat * 2 ^ w.sub.toNat % 2 ^ 64) = a.v + (b.v <<< w.sub.toNat) := by
    apply BitVec.eq_of_toNat_eq
    rw [BitVec.toNat_add, BitVec.toNat_shiftLeft, Nat.shiftLeft_eq, wd, BitVec.toNat_ofNat]
  unfold calcLea
  dsimp only
  split
  · next hfmt => rw [addrAdd_shiftLeft, hfmt]; rfl
  · rw [hword]

/-! ### BCHK (R172) -/

/-- Joined lanes are 0 exactly if each of them is. -/
theorem joinLanes_eq_zero (n : Nat) (l : List Nat) : joinLanes n l = 0 ↔ ∀ x ∈ l, x % 2 ^ n = 0 := by
  induction l with
  | nil => simp [joinLanes]
  | cons x r ih => simp [joinLanes, ih]

/-- Lane `l` of BCHK is out of its bounds. -/
def outOfBounds (w : PeWord) (a b c : Opnd) (l : Nat) : Bool :=
  !(decide (opLane c w.fmt.toNat l ≤ opLane a w.fmt.toNat l) && decide (opLane a w.fmt.toNat l < opLane b w.fmt.toNat l))

theorem outOfBounds_eq (w : PeWord) (a b c : Opnd) (l : Nat) : outOfBounds w a b c l =
    !decide (opLane c w.fmt.toNat l ≤ opLane a w.fmt.toNat l ∧ opLane a w.fmt.toNat l < opLane b w.fmt.toNat l) := by
  rw [outOfBounds, Bool.decide_and]

theorem outOfBounds_eq_false {w : PeWord} {a b c : Opnd} {l : Nat} : outOfBounds w a b c l = false ↔
    opLane c w.fmt.toNat l ≤ opLane a w.fmt.toNat l ∧ opLane a w.fmt.toNat l < opLane b w.fmt.toNat l := by
  rw [outOfBounds_eq, Bool.not_eq_false', decide_eq_true_iff]

theorem zip_lanes_lanes (x y : Word) (t : Nat) :
    (lanes x t).zip (lanes y t) = (upFrom 0 (lanesOf t)).map (fun l => (lane x (laneW t) l, lane y (laneW t) l)) := zipWith_lanes Prod.mk x y t

/-- The lanes of BCHK that are out of their bounds, as lanes of one bit. -/
def boundsMask (w : PeWord) (a b c : Opnd) : List Nat := (upFrom 0 (lanesOf w.fmt.toNat)).map (fun l => b2n (outOfBounds w a b c l))

theorem calcBchk_lanes {w : PeWord} (env : Env) (a b c : Opnd) (hfmt : w.fmt ≠ 14#4) : calcBchk w env a b c =
    if joinLanes 1 (boundsMask w a b c) = 0 then plain a.v w.fmt.toNat else .trap 0x048 (joinW 1 (boundsMask w a b c)) := by
  have h14 : w.fmt.toNat ≠ 14 := fun h => hfmt (BitVec.eq_of_toNat_eq h)
  simp only [calcBchk, if_neg h14, zip_lanes_lanes]
  rw [lanes, List.zipWith_map, List.zipWith_self]
  rfl

/-- The mask is empty when all lanes are within their bounds. -/
theorem joinLanes_boundsMask (w : PeWord) (a b c : Opnd) :
    joinLanes 1 (boundsMask w a b c) = 0 ↔ ∀ l, l < lanesOf w.fmt.toNat → outOfBounds w a b c l = false := by
  have hbit : ∀ p : Bool, b2n p % 2 ^ 1 = 0 ↔ p = false := by decide
  simp only [joinLanes_eq_zero, boundsMask, List.forall_mem_map, hbit, mem_upFrom, Nat.zero_le, true_and, Nat.zero_add]

/-- The answer to a check of one lane, whose mask is 0 or 1. -/
theorem trap_of_bit (v : Word) (t c : Nat) (p : Bool) :
    (if joinLanes 1 [b2n p] = 0 then plain v t else .trap c (wd (joinLanes 1 [b2n p]))) = if p then .trap c 1#64 else plain v t := by
  cases p <;> rfl

/-- BCHK of addresses compares their low 56 bits. -/
theorem calcBchk_addr {w : PeWord} (env : Env) (a b c : Opnd) (hfmt : w.fmt = 14#4) : calcBchk w env a b c =
    if c.v.toNat % 2 ^ 56 ≤ a.v.toNat % 2 ^ 56 ∧ a.v.toNat % 2 ^ 56 < b.v.toNat % 2 ^ 56 then plain a.v 14 else .trap 0x048 1#64 := by
  have h14 : w.fmt.toNat = 14 := congrArg BitVec.toNat hfmt
  simp only [calcBchk, h14, if_true, List.zip, List.zipWith, trap_of_bit, ← Bool.decide_and, Bool.not_eq_true', decide_eq_false_iff_not, ite_not]

section
variable {w : PeWord} {s s1 : State} {uid key : Nat} {g : Gathered}

theorem exec_bchk_within (hgo : prepFire 0x21 w s = .go s1 uid key g) (hfmt : w.fmt ≠ 14#4)
    (hin : ∀ l, l < lanesOf w.fmt.toNat → opLane g.c w.fmt.toNat l ≤ opLane g.a w.fmt.toNat l ∧ opLane g.a w.fmt.toNat l < opLane g.b w.fmt.toNat l) :
    exec (.bchk w) s = .next (afterCalc s1 uid key w g g.a.v w.fmt.toNat 0) := by
  have hzero := (joinLanes_boundsMask w g.a g.b g.c).2 (fun l hl => outOfBounds_eq_false.2 (hin l hl))
  exact exec_plain (i := .bchk w) rfl hgo ((calcBchk_lanes g.env g.a g.b g.c hfmt).trans (if_pos hzero))

theorem exec_bchk_outside (hgo : prepFire 0x21 w s = .go s1 uid key g) (hfmt : w.fmt ≠ 14#4)
    (hout : ∃ l, l < lanesOf w.fmt.toNat ∧
      ¬ (opLane g.c w.fmt.toNat l ≤ opLane g.a w.fmt.toNat l ∧ opLane g.a w.fmt.toNat l < opLane g.b w.fmt.toNat l)) :
    exec (.bchk w) s = .next (s1.faultAt uid key (raise 0x048 g.tok (joinW 1 (boundsMask w g.a g.b g.c)))) := by
  obtain ⟨l, hl, hbad⟩ := hout
  have hne : ¬ joinLanes 1 (boundsMask w g.a g.b g.c) = 0 := fun hzero =>
    hbad (outOfBounds_eq_false.1 ((joinLanes_boundsMask w g.a g.b g.c).1 hzero l hl))
  exact exec_calcTrap (i := .bchk w) rfl hgo ((calcBchk_lanes g.env g.a g.b g.c hfmt).trans (if_neg hne))

theorem exec_bchk_addr (hgo : prepFire 0x21 w s = .go s1 uid key g) (hfmt : w.fmt = 14#4) :
    exec (.bchk w) s = .next (if g.c.v.toNat % 2 ^ 56 ≤ g.a.v.toNat % 2 ^ 56 ∧ g.a.v.toNat % 2 ^ 56 < g.b.v.toNat % 2 ^ 56
      then afterCalc s1 uid key w g g.a.v 14 0 else s1.faultAt uid key (raise 0x048 g.tok 1#64)) := by
  have hcalc := calcBchk_addr g.env g.a g.b g.c hfmt
  split
  · next hin => exact exec_plain (i := .bchk w) rfl hgo (hcalc.trans (if_pos hin))
  · next hout => exact exec_calcTrap (i := .bchk w) rfl hgo (hcalc.trans (if_neg hout))
end

/-! ### SEL and MOVE (R173, R174) -/

/-- SEL with a predicate of lanes chooses lane by lane. -/
theorem calcSel_lanes {w : PeWord} (env : Env) {a : Opnd} (b c : Opnd) (ht : a.t = 13) : calcSel w env a b c =
    plain (joinW (laneW w.fmt.toNat) ((upFrom 0 (lanesOf w.fmt.toNat)).map (fun l =>
      if a.v.getLsbD l then opLane b w.fmt.toNat l else opLane c w.fmt.toNat l))) w.fmt.toNat := by
  simp only [calcSel, if_pos ht, zip_lanes_lanes, List.zipWith_map_right, List.zipWith_self, opLane]

theorem calcSel_word {w : PeWord} (env : Env) {a : Opnd} (b c : Opnd) (ht : a.t = 1) :
    calcSel w env a b c = plain (if a.v = 0#64 then c.v else b.v) w.fmt.toNat :=
  if_neg (by rw [ht]; decide)

theorem calcMove_eq (w : PeWord) (env : Env) (a b c : Opnd) :
    calcMove w env a b c = plain a.v (if w.sub.getLsbD 0 then w.fmt.toNat else a.t) :=
  (apply_ite (plain a.v) _ _ _).symm

/-! ### Signs (R201) -/

/-- On the formats of FABS and FNEG a code is as wide as a lane. -/
theorem width_ffmtOf : ∀ t < 16, fFlt11.testBit t = true → (ffmtOf t).width = laneW t := by decide

theorem calcFabs_eq (w : PeWord) (env : Env) (a b c : Opnd) (hmask : fFlt11.testBit w.fmt.toNat = true) : calcFabs w env a b c =
    plain (joinW (laneW w.fmt.toNat) ((upFrom 0 (lanesOf w.fmt.toNat)).map (fun l => opLane a w.fmt.toNat l % 2 ^ (laneW w.fmt.toNat - 1)))) w.fmt.toNat := by
  simp only [calcFabs, map_lanes, magOf, width_ffmtOf _ w.fmt.isLt hmask, opLane]

theorem calcFneg_eq (w : PeWord) (env : Env) (a b c : Opnd) (hmask : fFlt11.testBit w.fmt.toNat = true) : calcFneg w env a b c =
    plain (joinW (laneW w.fmt.toNat) ((upFrom 0 (lanesOf w.fmt.toNat)).map (fun l =>
      (if !bit (opLane a w.fmt.toNat l) (laneW w.fmt.toNat - 1) then 2 ^ (laneW w.fmt.toNat - 1) else 0) +
        opLane a w.fmt.toNat l % 2 ^ (laneW w.fmt.toNat - 1)))) w.fmt.toNat := by
  simp only [calcFneg, map_lanes, withSign, signOf, magOf, width_ffmtOf _ w.fmt.isLt hmask]
  rfl

/-- To invert the top bit is to add it. -/
theorem invert_top_bit_mod {n x : Nat} (hx : x < 2 ^ n) :
    ((if !bit x (n - 1) then 2 ^ (n - 1) else 0) + x % 2 ^ (n - 1)) % 2 ^ n = (x + 2 ^ (n - 1)) % 2 ^ n := by
  by_cases hn : n = 0
  · rw [hn, Nat.pow_zero, Nat.mod_one, Nat.mod_one]
  · have hpow := Nat.two_pow_pred_mul_two (Nat.pos_of_ne_zero hn)
    rcases Nat.lt_or_ge x (2 ^ (n - 1)) with hlow | hhigh
    · have hbit : bit x (n - 1) = false := by rw [bit, Nat.div_eq_of_lt hlow]; rfl
      rw [hbit, Nat.mod_eq_of_lt hlow, Nat.add_comm x]
      rfl
    · obtain ⟨r, rfl⟩ := Nat.exists_eq_add_of_le hhigh
      have hr : r < 2 ^ (n - 1) := by omega
      have hbit : bit (2 ^ (n - 1) + r) (n - 1) = true := by
        rw [bit, Nat.add_div_left _ (Nat.two_pow_pos _), Nat.div_eq_of_lt hr]
        rfl
      have hsum : 2 ^ (n - 1) + r + 2 ^ (n - 1) = 2 ^ n + r := by omega
      rw [hbit, Nat.add_mod_left, Nat.mod_eq_of_lt hr, hsum, Nat.add_mod_left]
      exact congrArg (· % 2 ^ n) (Nat.zero_add r)

/-! ### Lane moves (R219, R220) -/

/-- LINS replaces the lane that its index names. -/
theorem lane_lins (a b : Word) (c : Opnd) {t l : Nat} (hl : l < lanesOf t) :
    lane (joinW (laneW t) (lmod (lanes a t) (laneIdx c (lanesOf t)) (fun _ => lane b (laneW t) 0))) (laneW t) l =
      if l = laneIdx c (lanesOf t) then lane b (laneW t) 0 else lane a (laneW t) l := by
  have hidx : laneIdx c (lanesOf t) < (lanes a t).length := by rw [length_lanes]; exact Nat.mod_lt _ (lanesOf_pos t)
  have hsame : lget (lanes a t) l 0 = lane a (laneW t) l := by rw [lanes, lget_map_upFrom _ _ _ _ _ hl, Nat.zero_add]
  rw [lane_joinW _ _ _ (by simpa using laneW_mul_lanesOf t), lget_lmod, hsame]
  simp only [hidx, and_true]
  exact ite_mod_two_pow (lane_lt ..) (lane_lt ..)

/-! ### The statement -/

/-- Settles O14: what each function computes from its operands, and the end of a computing firing. -/
theorem selectionAndLaneMoves : Obligations.SelectionAndLaneMoves := by
  unfold Obligations.SelectionAndLaneMoves
  refine ⟨⟨?lea, fun w s s1 uid key g => exec_bchk_within, ?bchk, fun w s s1 uid key g => exec_bchk_addr, ?selWord, ?selLanes, ?move,
    fun w s s1 uid key g => exec_sext, fun w s s1 uid key g => exec_zext⟩, ?fabs, ?fneg, ?lbc, ?lext, ?lins, ?lshuf⟩
  case lea =>
    intro w s s1 uid key g hgo
    exact exec_plain (i := .lea w) rfl hgo (calcLea_eq w g.env g.a g.b g.c)
  case bchk =>
    intro w s s1 uid key g hgo hfmt hout
    refine ⟨_, exec_bchk_outside hgo hfmt hout, fun l _ => ?_⟩
    rw [boundsMask, getLsbD_joinW_one _ (lanesOf_le _), outOfBounds_eq]
  case selWord =>
    intro w s s1 uid key g hgo ht
    exact exec_plain (i := .sel w) rfl hgo (calcSel_word g.env g.b g.c ht)
  case selLanes =>
    intro w s s1 uid key g hgo ht
    refine ⟨_, exec_plain (i := .sel w) rfl hgo (calcSel_lanes g.env g.b g.c ht), fun l hl => ?_⟩
    rw [lane_joinW_map _ (laneW_mul_lanesOf _) hl]
    exact ite_mod_two_pow (lane_lt ..) (lane_lt ..)
  case move =>
    intro w s s1 uid key g hgo
    exact exec_plain (i := .move w) rfl hgo (calcMove_eq w g.env g.a g.b g.c)
  case fabs =>
    exact laneRow_of_calc (G := fun _ n x _ _ => x % 2 ^ (n - 1)) (fun _ => rfl) calcFabs_eq
      (fun _ _ _ _ _ hx _ _ => Nat.mod_eq_of_lt (Nat.lt_of_le_of_lt (Nat.mod_le _ _) hx))
  case fneg =>
    exact laneRow_of_calc (G := fun _ n x _ _ => (if !bit x (n - 1) then 2 ^ (n - 1) else 0) + x % 2 ^ (n - 1)) (fun _ => rfl) calcFneg_eq
      (fun _ _ _ _ _ hx _ _ => invert_top_bit_mod hx)
  case lbc =>
    intro w s s1 uid key g hgo
    exact ⟨_, exec_plain (i := .lbc w) rfl hgo rfl, fun l hl => (lane_splat _ (laneW_mul_lanesOf _) hl).trans (lane_mod ..)⟩
  case lext =>
    intro w s s1 uid key g hgo
    exact exec_plain (i := .lext w) rfl hgo rfl
  case lins =>
    intro w s s1 uid key g hgo
    exact ⟨_, exec_plain (i := .lins w) rfl hgo rfl, fun l hl => lane_lins g.a.v g.b.v g.c hl⟩
  case lshuf =>
    intro w s s1 uid key g hgo
    refine ⟨_, exec_plain (i := .lshuf w) rfl hgo rfl, fun l hl => ?_⟩
    rw [lane_joinW_map _ (laneW_mul_lanesOf _) hl]
    exact ite_mod_two_pow (lane_lt ..) (lane_lt ..)

end Sys2Proof.Proofs

/-! PROOFS. Steering, merging, gates and streams (R177, R178, R189 to R193): what each firing passes on, keeps or swallows. -/

namespace Sys2Proof.Proofs

open Sys2Proof Sys2Proof.Machine Sys2Proof.Laws Sys2Proof.Claims

/-! ### STEER (R177) -/

section
variable {w : PeWord} {s s1 : State} {uid key : Nat} {g : Gathered}

theorem exec_steer (h : Go 0x30 w s s1 uid key g) : exec (.steer w) s = .next
    (if predTrue g.b != w.sub.getLsbD 0 then (taken s1 uid key g).deliver uid key w (passed g) else taken s1 uid key g) := by
  unfold Go at h
  show execSteer w s = _
  simp only [execSteer, nextS, h, taken, passed]

/-! ### MERGE (R178) -/

/-- A token of an operand's queue passes the tag check unless its tag is 15 (R59). -/
theorem tagFault_untyped (p : Nat) {t : Token} (h : t.fmt ≠ 15#4) : tagFault p ⟨t.payload, t.fmt.toNat⟩ 0x7FFF = none := by
  have hmask : ∀ k < 16, k ≠ 15 → Nat.testBit 0x7FFF k = true := by decide
  have h15 : t.fmt.toNat ≠ 15 := fun h' => h (BitVec.eq_of_toNat_eq h')
  simp only [tagFault, if_neg h15, hmask _ t.fmt.isLt h15, if_true]

/-- The check of selector 7 in MERGE.p: neither the predicate nor the chosen arm reads an empty e[EI]. -/
theorem mergeReady {w : PeWord} {first full : Bool} (h : (w.sa ≠ 7#3 ∧ (if first then w.sb else w.sc) ≠ 7#3) ∨ full = true) :
    ((w.sa == 7#3 || (first && w.sb == 7#3) || (!first && w.sc == 7#3)) && !full) = false := by
  rcases h with ⟨ha, harm⟩ | hfull
  · cases first with
    | true => simp [ha, show w.sb ≠ 7#3 from harm]
    | false => simp [ha, show w.sc ≠ 7#3 from harm]
  · rw [hfull, Bool.not_true, Bool.and_false]

/-- MERGE.p passes the arm that its predicate chooses. -/
theorem exec_merge_predicate {toks : List (Nat × Token)} {a x : Opnd} {first : Bool} {col : BitVec 2} (hsub : w.sub.getLsbD 0 = false)
    (hfocus : s.focusPe = some (uid, key)) (hchoice : mergeChoice w (calm s uid key) key = some toks)
    (hword : wordFault 0x31 (calm s uid key).rm w = none) (ha : a = operandOf 0x31 w ((calm s uid key).pe key) toks w.sa 0x2002)
    (hfirst : first = predTrue a) (hx : x = operandOf 0x31 w ((calm s uid key).pe key) toks (if first then w.sb else w.sc) 0x7FFF)
    (hsel7 : (w.sa ≠ 7#3 ∧ (if first then w.sb else w.sc) ≠ 7#3) ∨ (((calm s uid key).pe key).reg w.ei.toNat).full = true)
    (hta : tagFault 0 a 0x2002 = none) (htx : tagFault (if first then 1 else 2) x 0x7FFF = none)
    (hcol : (calm s uid key).joinCol (toks.map Prod.snd) = some col) :
    exec (.merge w) s = .next (((calmed s uid key).commitFiring uid key toks).deliver uid key w
      { (toks.map Prod.snd).headD {} with ctx := BitVec.ofNat 2 (calm s uid key).ctx, payload := x.v, fmt := BitVec.ofNat 4 x.t, col := col
                                          last := toks.any (fun p => p.2.last) }) := by
  have hlast : joinLast (toks.map Prod.snd) = toks.any (fun p => p.2.last) := List.any_map
  have harm : (if first then operandOf 0x31 w ((calm s uid key).pe key) toks w.sb 0x7FFF
      else operandOf 0x31 w ((calm s uid key).pe key) toks w.sc 0x7FFF) = x :=
    (apply_ite (fun sel => operandOf 0x31 w ((calm s uid key).pe key) toks sel 0x7FFF) _ _ _).symm.trans hx.symm
  have hready := mergeReady hsel7
  show execMerge w s = _
  simp only [calm] at hchoice hword ha harm hready hcol
  simp only [execMerge, nextS, hsub, Bool.false_eq_true, if_false, fireMergeP, hfocus, hchoice, hword, ← ha, ← hfirst, harm, hready, hta, htx, hcol,
    hlast, calmed, calm]

/-- MERGE.any passes the oldest token of either arm. -/
theorem exec_merge_any {q : Nat} {t : Token} {arms : List Nat} (hsub : w.sub.getLsbD 0 = true) (hfocus : s.focusPe = some (uid, key))
    (harms : arms = [w.sa, w.sb].filterMap (fun x => if x.ult 4#3 then some x.toNat else none))
    (hold : (calm s uid key).oldest (arms.flatMap (fun q => (calm s uid key).avail key q)) = some t)
    (hq : arms.find? (fun q => ((calm s uid key).avail key q).contains t) = some q)
    (hword : wordFault 0x31 (calm s uid key).rm w = none) (htag : t.fmt ≠ 15#4) :
    exec (.merge w) s = .next (((calmed s uid key).commitFiring uid key [(q, t)]).deliver uid key w
      { t with ctx := BitVec.ofNat 2 (calm s uid key).ctx, col := (calm s uid key).effCol t.col }) := by
  show execMerge w s = _
  simp only [calm] at hold hq hword
  simp only [execMerge, nextS, hsub, if_true, fireMergeAny, hfocus, ← harms, hold, hq, hword, tagFault_untyped _ htag, Option.getD_some, calmed, calm]

/-! ### GATE, SINK and WAITF (R189 to R191) -/

theorem exec_gate (h : Go 0x3A w s s1 uid key g) : exec (.gate w) s = .next
    (if ((taken s1 uid key g).unit uid).gates.getLsbD (w.imm.toNat % 16) && !((taken s1 uid key g).unit uid).isDraining
      then (taken s1 uid key g).deliver uid key w (passed g) else (taken s1 uid key g).setNode uid key (.gateHold (passed g))) := by
  unfold Go at h
  show execGate w s = _
  simp only [execGate, nextS, h]
  rfl

/-- A discarding SINK consumes its operand. -/
theorem exec_sink_discard (h : Go 0x3B w s s1 uid key g) (hdiscard : w.imm.getLsbD 4 = true) : exec (.sink w) s = .next (taken s1 uid key g) := by
  unfold Go at h
  show execSink w s = _
  simp only [execSink, nextS, h, hdiscard, if_true, taken]

/-- A keeping SINK with room appends its operand to those kept. -/
theorem exec_sink_keep (h : Go 0x3B w s s1 uid key g) (hkeep : w.imm.getLsbD 4 = false)
    (hroom : (agetD (s1.unit uid).sinks (w.imm.toNat % 16) []).length < 4) :
    exec (.sink w) s = .next ((taken s1 uid key g).modUnit uid (fun u =>
      { u with sinks := aset u.sinks (w.imm.toNat % 16) (agetD u.sinks (w.imm.toNat % 16) [] ++ [passed g]) })) := by
  unfold Go at h
  show execSink w s = _
  simp only [execSink, nextS, h, hkeep, Bool.false_eq_true, if_false, ge_iff_le, Nat.not_le.2 hroom, taken, passed]

theorem exec_waitf (h : Go 0x3D w s s1 uid key g) : exec (.waitf w) s = .next
    (if g.tok.last then (taken s1 uid key g).deliver uid key w (passed g) else taken s1 uid key g) := by
  unfold Go at h
  show execWaitf w s = _
  simp only [execWaitf, nextS, h, taken, passed]

/-! ### SETE (R192) -/

/-- SETE sends the value that e[EI] holds, or operand b, and keeps operand a until LAST. -/
theorem exec_sete {e : EReg} (h : Go 0x3E w s s1 uid key g) (he : e = ((s1.unit uid).pe key).reg w.ei.toNat) :
    exec (.sete w) s = .next (((taken s1 uid key g).modUnit uid (fun u => u.modPe key (fun p =>
      p.setReg w.ei.toNat (if g.tok.last then {} else ⟨true, BitVec.ofNat 4 g.a.t, g.a.v⟩)))).sendOut uid key
        (if e.full then { g.tok with payload := e.val, fmt := BitVec.ofNat 4 e.tag.toNat }
         else { g.tok with payload := g.b.v, fmt := BitVec.ofNat 4 g.b.t })) := by
  unfold Go at h
  show execSete w s = _
  simp only [execSete, nextS, h, ← he, taken]
  cases e.full <;> rfl

/-! ### SCALETOK (R193) -/

/-- With e[EI] empty SCALETOK takes its constant. -/
theorem exec_scaletok_fill {t : Token} (hfocus : s.focusPe = some (uid, key)) (hempty : (((calm s uid key).pe key).reg w.ei.toNat).full = false)
    (hsb : w.sb.ult 4#3 = true) (hold : (calm s uid key).oldest ((calm s uid key).avail key w.sb.toNat) = some t)
    (hword : wordFault 0x3C (calm s uid key).rm w = none) (htag : t.fmt ≠ 15#4) :
    exec (.scaletok w) s = .next (((calmed s uid key).commitFiring uid key [(w.sb.toNat, t)]).modUnit uid (fun u =>
      u.modPe key (fun p => p.setReg w.ei.toNat ⟨true, t.fmt, t.payload⟩))) := by
  show execScaletok w s = _
  simp only [calm] at hempty hold hword
  simp only [execScaletok, nextS, hfocus, hempty, Bool.false_eq_true, if_false, hsb, Bool.not_true, Bool.not_false, if_true, hold, hword,
    tagFault_untyped _ htag, calmed, calm]

/-- With e[EI] full SCALETOK sends its constant for a token of the stream, and gives it up at the last. -/
theorem exec_scaletok_send {t : Token} {e : EReg} (hfocus : s.focusPe = some (uid, key)) (he : e = ((calm s uid key).pe key).reg w.ei.toNat)
    (hfull : e.full = true) (hsa : w.sa.ult 4#3 = true) (hold : (calm s uid key).oldest ((calm s uid key).avail key w.sa.toNat) = some t)
    (hword : wordFault 0x3C (calm s uid key).rm w = none) (htag : t.fmt ≠ 15#4) :
    exec (.scaletok w) s = .next ((if t.last then ((calmed s uid key).commitFiring uid key [(w.sa.toNat, t)]).modUnit uid (fun u =>
        u.modPe key (fun p => p.setReg w.ei.toNat {}))
      else (calmed s uid key).commitFiring uid key [(w.sa.toNat, t)]).sendOut uid key
      { t with ctx := BitVec.ofNat 2 (calm s uid key).ctx, payload := e.val, fmt := e.tag, col := (calm s uid key).effCol t.col }) := by
  show execScaletok w s = _
  simp only [calm] at he hold hword
  simp only [execScaletok, nextS, hfocus, ← he, hfull, if_true, hsa, Bool.not_true, Bool.false_eq_true, if_false, hold, hword,
    tagFault_untyped _ htag, calmed, calm]
end

/-! ### The statement -/

/-- Settles O18: each operation by its own lemma above; a predicate agrees with SUB or not, and an e[EI] is empty or full. -/
theorem steeringGatesAndStreams : Obligations.SteeringGatesAndStreams := by
  unfold Obligations.SteeringGatesAndStreams
  refine ⟨⟨?steer, fun w s uid key toks a x first col => exec_merge_predicate, fun w s uid key q t arms => exec_merge_any⟩,
    fun w s s1 uid key g => exec_gate, fun w s s1 uid key g h => ⟨exec_sink_discard h, exec_sink_keep h⟩, fun w s s1 uid key g => exec_waitf,
    fun w s s1 uid key g e => exec_sete, fun w s uid key t => exec_scaletok_fill, fun w s uid key t e => exec_scaletok_send⟩
  case steer =>
    intro w s s1 uid key g h
    exact ⟨fun hagrees => by rw [exec_steer h, if_pos (bne_iff_ne.2 hagrees)], fun hother => by rw [exec_steer h, hother, bne_self_eq_false]; rfl⟩

end Sys2Proof.Proofs

/-! PROOFS. Memory-class firings (R226, R227, R236, R248 to R255): addresses and their alignment, and the entries of LDLK and of the tile rows. -/

namespace Sys2Proof.Proofs

open Sys2Proof Sys2Proof.Machine Sys2Proof.Laws Sys2Proof.Claims

/-! ### Addresses and natural alignment (R226, R227) -/

/-- Address and displacement add modulo 2^56, also where the displacement takes the sum below 0. -/
theorem addDisp_eq_emod (a : Word) (d : Int) : (addDisp a d : Int) = (a.toNat + d) % 2 ^ 56 :=
  Int.toNat_of_nonneg (Int.emod_nonneg _ (by decide))

theorem memReq_aligned (ea n : Nat) :
    (if ea % n != 0 then MemReq.bad 0x060 ea 0#64 else .entry ea n) = if ea % n = 0 then .entry ea n else .bad 0x060 ea 0#64 := by
  by_cases h : ea % n = 0
  · rw [if_pos h, h]; rfl
  · rw [if_neg h, if_pos (bne_iff_ne.2 h)]

/-- Settles O22: the two address checks are one alignment test, on the sum modulo 2^56 or on the address modulo 2^56. -/
theorem gSpaceAccessesAreAligned : Obligations.GSpaceAccessesAreAligned := by
  unfold Obligations.GSpaceAccessesAreAligned
  exact ⟨fun _ _ w g => memReq_aligned (addDisp g.a.v (dispOf w)) (Machine.sizeOf w),
    fun _ _ n _ g _ => memReq_aligned (g.a.v.toNat % 2 ^ 56) n, addDisp_eq_emod⟩

/-! ### Firings that pass their checks -/

section
variable {w : PeWord} {s s1 : State} {uid key : Nat} {g : Gathered}

/-- LDLK makes its entry, and keeps its node busy unless it has nothing to load (R236). -/
theorem exec_ldlk {e : SbEntry} (hgo : GoColourless 0x62 w s s1 uid key g) (hroom : (s1.unit uid).sbFull .ldlk g.tok.col = false)
    (hown : (s1.unit uid).badOwn w g.tok = false)
    (he : e = { id := 0, site := (s1.unit uid).siteOf key, op := .ldlk, opc := 0x62#7, w := w, tok := g.tok, a := g.a.v, b := g.b.v
                ea := addDisp g.a.v (dispOf w), n := 8 }) :
    exec (.ldlk w) s = .next (if g.b.v = 0#64 then s1.enterBuffer uid key g.toks e
      else (s1.enterBuffer uid key g.toks e).setNode uid key (.ldlk (s1.unit uid).nextId)) := by
  have hgo' : prepFire 0x62 w s colour0 = .go s1 uid key g := hgo
  subst he
  show execLdlk w s = _
  simp only [execLdlk, nextS, hgo', hroom, hown, Bool.false_eq_true, if_false]

/-- A memory-class word of format T enters the buffer when there is room and its own check and its sequence number pass (R101, R227). -/
theorem fireMemT_enters {opc : Nat} {op : MemOp} {check : State → Nat → Nat → PeWord → Gathered → Option Nat} {ea n : PeWord → Gathered → Nat}
    {c : Gathered → Word} (hgo : prepFireT opc w s = .go s1 uid key g) (hroom : (s1.unit uid).sbFull op g.tok.col = false)
    (hcheck : check s1 uid ((s1.unit uid).siteOf key).cl w g = none) (hown : (s1.unit uid).badOwn w g.tok = false) :
    fireMemT opc op check ea n c w s = s1.enterBuffer uid key g.toks
      { id := 0, site := (s1.unit uid).siteOf key, op := op, opc := BitVec.ofNat 7 opc, w := w, tok := g.tok, a := g.a.v, c := c g, ea := ea w g
        n := n w g, swz := (s1.unit uid).swz, uctl := (s1.unit uid).uctl, rm := (s1.unit uid).rm } := by
  simp only [fireMemT, hgo, hroom, hcheck, hown, Bool.false_eq_true, if_false]

/-- With AE = 0, or a source that is not empty, STXS raises no 0x02B (R130, R250). -/
theorem emptySource_allowed {ae : Bool} {t : BitVec 4} (h : ae = false ∨ t ≠ 0#4) : (ae && t == 0#4) = false := by
  rcases h with h | h <;> simp [h]

end

/-! ### The statement -/

/-- Settles O23: LDLK by its own lemma; each tile row passes its check (claim, banks, handoff codes, alignment) and enters. -/
theorem linkAndTileRowsEnterTheStoreBuffer : Obligations.LinkAndTileRowsEnterTheStoreBuffer := by
  unfold Obligations.LinkAndTileRowsEnterTheStoreBuffer
  refine ⟨fun w s s1 uid key g e => exec_ldlk, ?ldxs, ?stxs, ?mdrnMem, ?mbld⟩
  case ldxs =>
    intro w s s1 uid key g hgo hroom hclaim hbank hplace hown
    exact congrArg Host.Outcome.next (fireMemT_enters hgo hroom (by simp [hclaim, hbank, hplace]) hown)
  case stxs =>
    intro w s s1 uid key g hgo hroom hclaim hbank hsource hplace hown
    exact congrArg Host.Outcome.next (fireMemT_enters hgo hroom (by simp only [hclaim, hbank, emptySource_allowed hsource, hplace]; rfl) hown)
  case mdrnMem =>
    intro w s s1 uid key g hgo hroom hmat haligned hown
    exact congrArg Host.Outcome.next (fireMemT_enters hgo hroom (by simp [hmat, haligned]) hown)
  case mbld =>
    intro w s s1 uid key g hgo hroom hmat haligned hown
    exact congrArg Host.Outcome.next (fireMemT_enters hgo hroom (by simp [hmat, haligned]) hown)

end Sys2Proof.Proofs

/-! PROOFS. Arithmetic control words, branches, LDG and STG (R148, R275 to R277): values, targets, and accesses that perform. -/

namespace Sys2Proof.Proofs

open Sys2Proof Sys2Proof.Machine Sys2Proof.Laws Sys2Proof.Claims

/-! ### Values of 64 bits (R275) -/

/-- An integer modulo 2^64, as a word. -/
theorem wd_wrapNat (i : Int) : wd (wrapNat 64 i) = BitVec.ofInt 64 i := by
  apply BitVec.eq_of_toNat_eq
  rw [wrapNat, BitVec.toNat_ofNat, BitVec.toNat_ofInt]
  omega

/-- A word as a signed lane. -/
theorem laneVal_word (a : Word) : laneVal false 64 a.toNat = a.toInt := by
  have ha := a.isLt
  rw [laneVal, BitVec.toInt_eq_toNat_cond]
  simp only [sextNat, Bool.false_eq_true, if_false]
  rw [Nat.mod_eq_of_lt ha]
  split <;> split <;> omega

theorem wd_quotient (a b : Word) : wd (divRem false 64 a.toNat b.toNat).1 = if b = 0#64 then BitVec.allOnes 64 else a.sdiv b := by
  split
  · next hb =>
    subst hb
    rfl
  · next hb =>
    have hn : b.toNat ≠ 0 := fun h => hb (BitVec.eq_of_toNat_eq h)
    rw [divRem_ne_zero false 64 _ hn, wd_wrapNat, laneVal_word, laneVal_word]
    exact BitVec.eq_of_toInt_eq (by rw [BitVec.toInt_ofInt, BitVec.toInt_sdiv])

theorem wd_remainder (a b : Word) : wd (divRem false 64 a.toNat b.toNat).2.1 = if b = 0#64 then a else a.srem b := by
  split
  · next hb =>
    subst hb
    exact BitVec.eq_of_toNat_eq (Nat.mod_eq_of_lt a.isLt)
  · next hb =>
    have hn : b.toNat ≠ 0 := fun h => hb (BitVec.eq_of_toNat_eq h)
    rw [divRem_ne_zero false 64 _ hn, wd_wrapNat, laneVal_word, laneVal_word, ← BitVec.toInt_srem, BitVec.ofInt_toInt]

/-! ### Arithmetic words (R275) -/

/-- The amount of an immediate shift is below 64. -/
theorem shift_in_range {c : CWord} {op : Nat} (hop : op = 0x06 ∨ op = 0x07 ∨ op = 0x08) (hc : ctlFieldsOk op c = true) :
    (CWord.imm16 c).toNat % 64 = (CWord.imm16 c).toNat := by
  refine Nat.mod_eq_of_lt ?_
  rcases hop with rfl | rfl | rfl <;> exact of_decide_eq_true hc

/-- A word of R275 only writes its value to gd. -/
theorem exec_aluValue {i : Instr} {op : Nat} {c : CWord} {f : UnitSt → Word} (h : aluValue i = some (op, c, f)) (hc : ctlFieldsOk op c = true)
    (s : State) : exec i s = .next (seqCalc op c s f) := by
  cases i with
  | seqMulh c' =>
    cases h
    exact congrArg (fun g => Host.Outcome.next (seqCalc _ c s g)) (funext fun u => wd_wrapNat _)
  | seqDiv c' =>
    cases h
    exact congrArg (fun g => Host.Outcome.next (seqCalc _ c s g)) (funext fun u => wd_quotient _ _)
  | seqRem c' =>
    cases h
    exact congrArg (fun g => Host.Outcome.next (seqCalc _ c s g)) (funext fun u => wd_remainder _ _)
  | shli c' =>
    cases h
    exact congrArg (fun n => Host.Outcome.next (seqCalc _ c s fun u => u.greg c.ga <<< n)) (shift_in_range (by decide) hc)
  | shri c' =>
    cases h
    exact congrArg (fun n => Host.Outcome.next (seqCalc _ c s fun u => u.greg c.ga >>> n)) (shift_in_range (by decide) hc)
  | srai c' =>
    cases h
    exact congrArg (fun n => Host.Outcome.next (seqCalc _ c s fun u => (u.greg c.ga).sshiftRight n)) (shift_in_range (by decide) hc)
  | _ => cases h <;> rfl

theorem next_setG (u : UnitSt) (d : BitVec 5) (v : Word) :
    (u.setG d v).next = { u.setG d v with ccnt := nextCcnt u, wait := .none, watchdog := 0 } := by
  rw [UnitSt.next, UnitSt.setG_ccnt]
  rfl

theorem jump_setG (u : UnitSt) (d : BitVec 5) (v t : Word) :
    (u.setG d v).jump t = { u.setG d v with ccnt := t &&& codeMask, cameFrom := some u.ccnt, wait := .none, watchdog := 0 } := by
  rw [UnitSt.jump, UnitSt.setG_ccnt]

theorem greg_setG (u : UnitSt) (v : Word) {d r : BitVec 5} (hd : d ≠ 0#5) : (u.setG d v).greg r = if r = d then v else u.greg r := by
  rw [UnitSt.setG, if_neg hd]
  by_cases hr : r = 0#5
  · subst hr
    simp only [UnitSt.greg, if_true, if_neg hd.symm]
  · simp only [UnitSt.greg, if_neg hr, lget_lput, BitVec.toNat_inj]

/-- Settles O30: every word is one calculation, after which gd holds its value and CCNT names the next word. -/
theorem sequencerArithmetic : Obligations.SequencerArithmetic := by
  unfold Obligations.SequencerArithmetic
  refine ⟨fun i op c f s u hval hs hc => ?_, fun u v r => ⟨if_pos rfl, by rw [UnitSt.setG_zero]⟩, fun u v d r hd => greg_setG u v hd⟩
  rw [exec_aluValue hval hc, seqCalc, seqWord_acts hs hc, modUnit_eq_unitBecomes hs, next_setG]

/-! ### Branches (R277) -/

section
variable {c : CWord} {s : State} {u : UnitSt} (hs : Sequencing s u)
include hs

theorem seqBranch_goes {op : Nat} (p : Word → Word → Bool) (hc : ctlFieldsOk op c = true) :
    seqBranch op p c s = unitBecomes s (if p (u.greg c.gd) (u.greg c.ga) then u.jump (u.ccnt + (sx16 c <<< 2)) else u.next) := by
  rw [seqBranch, seqWord_acts hs hc, apply_ite (unitBecomes s), State.nextWord, modUnit_eq_unitBecomes hs, modUnit_eq_unitBecomes hs]

theorem exec_jal (hc : ctlFieldsOk 0x16 c = true) : exec (.jal c) s = .next (unitBecomes s
    ((u.setG c.gd (u.ccnt + 4#64)).jump (u.ccnt + ((CWord.off21 c).signExtend 64 <<< 2)))) :=
  congrArg Host.Outcome.next ((seqWord_acts hs hc _).trans (modUnit_eq_unitBecomes hs _))

variable {t : Word} (ht : t = u.greg c.ga + (sx16 c <<< 2)) (hc : ctlFieldsOk 0x17 c = true)
include ht hc

theorem exec_jr : exec (.jr c) s = .next (if t.toNat % 4 ≠ 0 then s.ctlFault s.curUnit 0x0E4 (t.toNat % 2 ^ 56) 0x82#64 0x30#64
    else unitBecomes s ((u.setG c.gd (u.ccnt + 4#64)).jump t)) := by
  show execJr c s = _
  simp only [execJr, nextS, seqWord_acts hs hc, ← ht, bne_iff_ne, modUnit_eq_unitBecomes hs]
end

theorem exec_branchCond {i : Instr} {op : Nat} {c : CWord} {p : Word → Word → Bool} (h : branchCond i = some (op, c, p)) (s : State) :
    exec i s = .next (seqBranch op p c s) := by
  cases i with
  | bne c' =>
    cases h
    exact congrArg (fun p => Host.Outcome.next (seqBranch _ p c s)) (funext fun a => funext fun b => (decide_not (p := a = b)).symm)
  | _ => cases h <;> rfl

/-- A target is 4-byte aligned when its two low bits are 0. -/
theorem and_three_eq_zero (t : Word) : t &&& 3#64 = 0#64 ↔ t.toNat % 4 = 0 := by
  rw [← BitVec.toNat_inj, BitVec.toNat_and]
  exact iff_of_eq (congrArg (· = 0) (Nat.and_two_pow_sub_one_eq_mod t.toNat 2))

/-- An address register keeps 56 bits of a target. -/
theorem wd_mod_56 (t : Word) : wd (t.toNat % 2 ^ 56) = t &&& 0x00FFFFFFFFFFFFFF#64 := by
  apply BitVec.eq_of_toNat_eq
  rw [BitVec.toNat_and, BitVec.toNat_ofNat]
  refine Eq.trans ?_ (Nat.and_two_pow_sub_one_eq_mod t.toNat 56).symm
  omega

/-- Settles O31: the branches share one shape; JR checks its target before it links. -/
theorem branchesGoWhereTheySay : Obligations.BranchesGoWhereTheySay := by
  unfold Obligations.BranchesGoWhereTheySay
  refine ⟨fun i op c p s u hcond hs hc => ?_, fun c s u hs hc => ?_, fun c s u t hs hc ht => ⟨fun haligned => ?_, fun hmisaligned => ?_⟩⟩
  · rw [exec_branchCond hcond, seqBranch_goes hs p hc]
    rfl
  · rw [exec_jal hs hc, jump_setG]
  · rw [exec_jr hs ht hc, if_neg (not_not.2 ((and_three_eq_zero t).1 haligned)), jump_setG]
  · have hexec := exec_jr hs ht hc
    rw [if_pos (mt (and_three_eq_zero t).2 hmisaligned), State.ctlFault] at hexec
    exact ⟨_, rfl, rfl, wd_mod_56 t, congrArg UnitSt.ccnt (State.unit_of_aget hs.1), hexec⟩

/-! ### LDG and STG (R276) -/

/-- A word whose access is neither held nor asked for makes it. -/
theorem ctlAccess_fresh {u : UnitSt} (hfresh : Fresh u) (s : State) (uid va : Nat) (go : State → CtlMem) (fin : State → Word → State)
    (ans : State → Word × BitVec 16 × Option (Nat × Nat) → CtlMem) : ctlAccess s uid u va go fin ans = (go s).settle uid u fin := by
  obtain ⟨hheld, hasked⟩ := hfresh
  simp only [ctlAccess, hheld, hasked]

theorem ctlTranslate_misaligned {va n : Nat} (h : va % n ≠ 0) (s : State) (u : UnitSt) (k : Acc5) (acc : Nat)
    (cont : State → Nat → Nat → Nat → CtlMem) : ctlTranslate s u va n k acc cont = .fault s 0x060 va 0#64 0#64 := by
  rw [ctlTranslate, if_pos (bne_iff_ne.2 h)]

theorem ctlTranslate_ok {va n xa mt sc acc : Nat} {k : Acc5} {s s1 : State} {u : UnitSt} (h : va % n = 0)
    (ht : translateReady s u.lead u.job va n k acc = (s1, .ok xa mt sc)) (cont : State → Nat → Nat → Nat → CtlMem) :
    ctlTranslate s u va n k acc cont = cont s1 xa mt sc := by
  simp only [ctlTranslate, h, ht, bne_self_eq_false, Bool.false_eq_true, if_false]

/-- The line that a translated read names for WFE. -/
def lineRead : TrRes → Option Nat
  | .ok xa _ _ => some (xa / 128)
  | _ => none

section
variable {c : CWord} {s : State} {u : UnitSt} (hs : Sequencing s u) (hfresh : Fresh u)
include hs hfresh

/-- An LDG that reads its bytes goes on, with the line that a translation of its address names for WFE. -/
theorem exec_ldg_reads {s1 s2 : State} {e : SbEntry} {xa mt sc : Nat} {bs : List Byte} (hc : ctlFieldsOk 0x0B c = true) (haligned : ctlEa u c % 8 = 0)
    (htr : translateReady (s.modUnit s.curUnit (fun x => { x with ldgLine := none })) u.lead u.job (ctlEa u c) 8 .load 0 = (s1, .ok xa mt sc))
    (he : e = { ctlEntry u .ld 0#3 0#64 (ctlEa u c) 8 with xa := xa, mt := mt }) (hpends : u.readPends e = false)
    (hread : s1.readNearXa u.lead xa 8 mt = (s2, .ok bs)) :
    ∃ l : Option Nat, (∀ xa mt sc, (translate (s2.fillEntry e) u.lead u.job (ctlEa u c) .load 0).2 = .ok xa mt sc → l = some (xa / 128)) ∧
      exec (.ldg c) s = .next ((((s2.fillEntry e).modUnit s.curUnit (fun x => { x with ldgLine := l })).modUnit s.curUnit
        (fun x => x.setG c.gd (wd (leNat bs)))).nextWord s.curUnit) := by
  subst he
  refine ⟨lineRead (translate (s2.fillEntry { ctlEntry u .ld 0#3 0#64 (ctlEa u c) 8 with xa := xa, mt := mt }) u.lead u.job (ctlEa u c) .load 0).2,
    fun xa mt sc h => by rw [h, lineRead], ?_⟩
  show execLdg c s = _
  simp only [execLdg, nextS, seqWord_acts hs hc, ctlAccess_fresh hfresh, ctlTranslate_ok haligned htr, hpends, hread, CtlMem.settle,
    Bool.false_eq_true, if_false]
  rfl

theorem exec_ldg_misaligned (hc : ctlFieldsOk 0x0B c = true) (hmisaligned : ctlEa u c % 8 ≠ 0) :
    exec (.ldg c) s = .next ((s.modUnit s.curUnit (fun x => { x with ldgLine := none })).ctlFault s.curUnit 0x060 (ctlEa u c)) := by
  show execLdg c s = _
  simp only [execLdg, nextS, seqWord_acts hs hc, ctlAccess_fresh hfresh, ctlTranslate_misaligned hmisaligned, CtlMem.settle]

/-- An STG whose line is at home here writes there and goes on. -/
theorem exec_stg_writes {s1 : State} {xa mt sc : Nat} (hc : ctlFieldsOk 0x0C c = true) (haligned : ctlEa u c % 8 = 0)
    (htr : translateReady s u.lead u.job (ctlEa u c) 8 .store 1 = (s1, .ok xa mt sc)) (hhere : isFabXa xa = false) :
    exec (.stg c) s = .next ((s1.homeWrite xa (leBytes 8 (u.greg c.gd).toNat)).nextWord s.curUnit) := by
  show execStg c s = _
  simp only [execStg, nextS, seqWord_acts hs hc, ctlAccess_fresh hfresh, ctlTranslate_ok haligned htr, hhere, CtlMem.settle, Bool.false_eq_true,
    if_false]

theorem exec_stg_misaligned (hc : ctlFieldsOk 0x0C c = true) (hmisaligned : ctlEa u c % 8 ≠ 0) :
    exec (.stg c) s = .next (s.ctlFault s.curUnit 0x060 (ctlEa u c)) := by
  show execStg c s = _
  simp only [execStg, nextS, seqWord_acts hs hc, ctlAccess_fresh hfresh, ctlTranslate_misaligned hmisaligned, CtlMem.settle]
end

/-- The address is the sum of ga and the signed immediate, modulo 2^56. -/
theorem ctlEa_eq (u : UnitSt) (c : CWord) : (ctlEa u c : Int) = ((u.greg c.ga).toNat + (CWord.imm16 c).toInt) % 2 ^ 56 := by
  have hsigned : (sx16 c).toInt = (CWord.imm16 c).toInt := BitVec.toInt_signExtend_of_le (by decide)
  rw [BitVec.toInt_eq_toNat_cond] at hsigned
  rw [ctlEa, BitVec.toNat_add]
  split at hsigned <;> omega

/-- Settles O32: LDG and STG by the lemmas above, and the address that both form. -/
theorem sequencerLoadsAndStores : Obligations.SequencerLoadsAndStores := by
  unfold Obligations.SequencerLoadsAndStores
  refine ⟨?load, ?store, fun c s u hs hc hfresh => exec_ldg_misaligned hs hfresh hc,
    fun c s u hs hc hfresh => exec_stg_misaligned hs hfresh hc, ctlEa_eq⟩
  case load =>
    rintro c s _ s1 s2 u e xa mt sc bs hs hc hfresh haligned rfl htr he hpends hread
    exact exec_ldg_reads hs hfresh hc haligned htr he hpends hread
  case store =>
    intro c s s1 u xa mt sc hs hc hfresh haligned htr hhere
    exact exec_stg_writes hs hfresh hc haligned htr hhere

end Sys2Proof.Proofs

/-! PROOFS. ERET (R51, R164, R279, R351, R352): what a return from the handler retries, and which waiting fault it takes. -/

namespace Sys2Proof.Proofs

open Sys2Proof Sys2Proof.Machine Sys2Proof.Laws Sys2Proof.Claims

/-! ### The order of waiting faults (R351) -/

theorem nextPending_cons_none {p : Option Nat × Raised} {l : List (Option Nat × Raised)} (h : nextPending l = none) :
    nextPending (p :: l) = some (p, []) := by
  rw [nextPending, h]

theorem nextPending_cons_some {p q : Option Nat × Raised} {l rest : List (Option Nat × Raised)} (h : nextPending l = some (q, rest)) :
    nextPending (p :: l) = if (!p.2.ctl && (q.2.ctl || decide (q.1.getD 0 < p.1.getD 0))) = true then some (q, p :: rest) else some (p, l) := by
  rw [nextPending, h]

theorem nextPending_eq_none {l : List (Option Nat × Raised)} (h : nextPending l = none) : l = [] := by
  cases l with
  | nil => rfl
  | cons p l =>
    cases hl : nextPending l with
    | none => rw [nextPending_cons_none hl] at h; cases h
    | some x => rw [nextPending_cons_some hl] at h; split at h <;> cases h

/-- The fault that is taken next is one of those that wait, the others stay, and only if it is of no control word is it the first in the order
of the PEs. -/
theorem nextPending_spec {l rest : List (Option Nat × Raised)} {f : Option Nat × Raised} (h : nextPending l = some (f, rest)) :
    f ∈ l ∧ (∀ x ∈ rest, x ∈ l) ∧ rest.length + 1 = l.length ∧ (f.2.ctl = false → ∀ x ∈ l, x.2.ctl = false ∧ f.1.getD 0 ≤ x.1.getD 0) := by
  induction l generalizing f rest with
  | nil => cases h
  | cons p l ih =>
    cases hl : nextPending l with
    | none =>
      obtain rfl := nextPending_eq_none hl
      cases h
      simp
    | some x =>
      obtain ⟨q, others⟩ := x
      obtain ⟨hmem, hothers, hlength, hfirst⟩ := ih hl
      rw [nextPending_cons_some hl] at h
      split at h
      · next hbefore =>
        obtain ⟨rfl, rfl⟩ := Prod.mk.inj (Option.some.inj h)
        refine ⟨List.mem_cons_of_mem p hmem, ?_, by simpa using hlength, fun hq => ?_⟩
        · exact List.forall_mem_cons.2 ⟨List.mem_cons_self, fun x hx => List.mem_cons_of_mem p (hothers x hx)⟩
        · have hp : p.2.ctl = false ∧ q.1.getD 0 < p.1.getD 0 := by simpa [hq] using hbefore
          exact List.forall_mem_cons.2 ⟨⟨hp.1, hp.2.le⟩, hfirst hq⟩
      · next hbefore =>
        obtain ⟨rfl, rfl⟩ := Prod.mk.inj (Option.some.inj h)
        refine ⟨List.mem_cons_self, fun x hx => List.mem_cons_of_mem p hx, rfl, fun hp => List.forall_mem_cons.2 ⟨⟨hp, le_rfl⟩, fun x hx => ?_⟩⟩
        have hq : q.2.ctl = false ∧ p.1.getD 0 ≤ q.1.getD 0 := by simpa [hp] using hbefore
        obtain ⟨hxctl, hle⟩ := hfirst hq.1 x hx
        exact ⟨hxctl, hq.2.trans hle⟩

/-! ### What a return retries (R51, R164, R352) -/

/-- A PE whose firing is held by the fault `r` no longer holds it. -/
def freeFiring (r : Raised) (p : PeCtx) : PeCtx := { p with held := if p.held == some r then none else p.held }
/-- An entry as it tries again, with the enables and the rounding mode that its unit has now. -/
def freeEntry (u : UnitSt) (e : SbEntry) : SbEntry :=
  if e.phase == .faulted then { e with scopeStop := false, phase := .waiting, uctl := u.uctl, rm := u.rm } else { e with scopeStop := false }
/-- The unit after each of the two. -/
def withoutHeldFiring (key : Option Nat) (r : Raised) (u : UnitSt) : UnitSt :=
  match key with
  | some k => u.modPe k (freeFiring r)
  | none => u
def withoutHeldEntry (r : Raised) (u : UnitSt) : UnitSt := if r.entry = 0 then u else u.modEntry r.entry (freeEntry u)
/-- The unit whose firing and entry, held by a fault, are free again. -/
def released (key : Option Nat) (r : Raised) (u : UnitSt) : UnitSt := withoutHeldEntry r (withoutHeldFiring key r u)

theorem freeEntry_id (u : UnitSt) (e : SbEntry) : (freeEntry u e).id = e.id := by
  unfold freeEntry
  split <;> rfl

theorem released_eq (key : Option Nat) (r : Raised) (u : UnitSt) : ∃ pes sb, released key r u = { u with pes := pes, sb := sb } := by
  unfold released withoutHeldEntry
  cases key <;> split <;> exact ⟨_, _, rfl⟩

theorem pe_released {u : UnitSt} {key : Nat} {r : Raised} (h : (u.pe key).held = some r) : ((released (some key) r u).pe key).held = none := by
  have hpe : (released (some key) r u).pe key = (u.modPe key (freeFiring r)).pe key := by
    unfold released withoutHeldEntry
    split <;> rfl
  rw [hpe, UnitSt.pe_modPe_self, freeFiring, h]
  exact if_pos (beq_self_eq_true _)

theorem entry?_modEntry (u : UnitSt) (id : Nat) {f : SbEntry → SbEntry} (hf : ∀ e, (f e).id = e.id) :
    (u.modEntry id f).entry? id = (u.entry? id).map f := by
  have hid : ((fun e : SbEntry => e.id == id) ∘ fun e => if e.id == id then f e else e) = fun e => e.id == id := by
    funext e
    simp only [Function.comp_apply]
    split <;> simp only [hf]
  rw [UnitSt.entry?, UnitSt.modEntry, List.find?_map, hid]
  exact Option.map_congr fun e he => if_pos (List.find?_some he)

theorem entry?_released {u : UnitSt} {key : Option Nat} {r : Raised} {e : SbEntry} (hr : r.entry ≠ 0) (he : u.entry? r.entry = some e) :
    (released key r u).entry? r.entry = some (freeEntry u e) := by
  rw [released, withoutHeldEntry, if_neg hr, entry?_modEntry _ _ (freeEntry_id _)]
  cases key <;> exact congrArg (Option.map _) he

theorem aset_of_aget {κ α : Type} [DecidableEq κ] {l : List (κ × α)} {k : κ} {v : α} (h : aget l k = some v) : aset l k v = l := by
  induction l with
  | nil => cases h
  | cons p l ih =>
    obtain ⟨k', v'⟩ := p
    by_cases hk : k' = k
    · rw [aget, if_pos hk] at h
      rw [aset, if_pos hk, hk, Option.some.inj h]
    · rw [aget, if_neg hk] at h
      rw [aset, if_neg hk, ih h]

theorem modUnit_eq_self {s : State} {uid : Nat} {u : UnitSt} (hu : aget s.units uid = some u) {f : UnitSt → UnitSt} (hf : f u = u) :
    s.modUnit uid f = s := by
  rw [State.modUnit_of_aget hu, hf, aset_of_aget hu]

/-- The state with other clusters. -/
def withClusters (s : State) (cl : List (Nat × Cluster)) : State := { s with clusters := cl }

theorem foldl_modCluster_eq (f : Cluster → Cluster) (l : List Nat) (s : State) :
    ∃ cl, l.foldl (fun t c => t.modCluster c f) s = withClusters s cl := by
  induction l generalizing s with
  | nil => exact ⟨s.clusters, rfl⟩
  | cons c l ih => exact ih (s.modCluster c f)

/-- Operations of a unit in queue M after the retry of a fault: the one that it held stands behind the others. -/
def againMat (uid : Nat) (r : Raised) (u : UnitSt) (l : List MatOp) : List MatOp :=
  l.filter (fun o => !(o.unit == uid && o.id == r.mat && o.held)) ++
    (l.filter (fun o => o.unit == uid && o.id == r.mat && o.held)).map (fun o => { o with held := false, uctl := u.uctl, rm := u.rm })

/-- The state after the retry of a matrix operation, which stands in a cluster of the unit or with its saved work. -/
def retryMat (s : State) (uid : Nat) (r : Raised) : State :=
  ((s.unit uid).clusterList.foldl (fun t c => t.modCluster c (fun k => { k with mq := againMat uid r (s.unit uid) k.mq })) s).modUnit uid
    (fun x => { x with savedMq := againMat uid r (s.unit uid) x.savedMq })

/-- What a retry does: the firing and the entry, then the matrix operation if there is one. -/
theorem retryHeld_split {s : State} {uid : Nat} {u : UnitSt} (hu : aget s.units uid = some u) (key : Option Nat) (r : Raised) :
    s.retryHeld uid (key, r) = if r.mat = 0 then s.modUnit uid (released key r) else retryMat (s.modUnit uid (released key r)) uid r := by
  have hentry : (if r.entry = 0 then s.modUnit uid (withoutHeldFiring key r)
      else (s.modUnit uid (withoutHeldFiring key r)).modUnit uid (fun u => u.modEntry r.entry (freeEntry u))) = s.modUnit uid (released key r) := by
    unfold released withoutHeldEntry
    split
    · rfl
    · exact State.modUnit_modUnit ..
  rw [← hentry]
  cases key with
  | none =>
    rw [modUnit_eq_self hu rfl]
    rfl
  | some k => rfl

/-- So the firing and the entry are free in the unit, and nothing but it and the clusters is touched. -/
theorem retryHeld_eq {s : State} {uid : Nat} {u : UnitSt} (hu : aget s.units uid = some u) (key : Option Nat) (r : Raised) :
    ∃ mq cl, s.retryHeld uid (key, r) = withClusters (s.setUnit uid { released key r u with savedMq := mq }) cl := by
  have hfree : s.modUnit uid (released key r) = s.setUnit uid (released key r u) := State.modUnit_of_aget hu _
  rw [retryHeld_split hu, hfree]
  split
  · exact ⟨_, s.clusters, rfl⟩
  · unfold retryMat
    rw [State.unit_setUnit_self]
    obtain ⟨cl, hcl⟩ := foldl_modCluster_eq (fun k => { k with mq := againMat uid r (released key r u) k.mq }) (released key r u).clusterList
      (s.setUnit uid (released key r u))
    refine ⟨againMat uid r (released key r u) (released key r u).savedMq, cl, ?_⟩
    have hset : aget (withClusters (s.setUnit uid (released key r u)) cl).units uid = some (released key r u) := aget_aset_self ..
    rw [hcl, State.modUnit_of_aget hset]
    simp only [withClusters, State.setUnit, aset_aset]

/-! ### The return (R279, R351, R352) -/

/-- A unit leaves its handler. -/
def leaveHandler (u : UnitSt) : UnitSt := { u with ccnt := u.tepc, handler := false, curFault := none }

/-- `v` is a unit `u` whose fault in the handler, if there is one, has been retried. -/
structure Retried (u v : UnitSt) : Prop where
  rest : ∃ pes sb mq, v = { u with pes := pes, sb := sb, savedMq := mq }
  firing : ∀ key r, u.curFault = some (some key, r) → (u.pe key).held = some r → (v.pe key).held = none
  entry : ∀ key r e, u.curFault = some (key, r) → r.entry ≠ 0 → u.entry? r.entry = some e → v.entry? r.entry = some (freeEntry u e)

theorem Retried.refl {u : UnitSt} (h : u.curFault = none) : Retried u u :=
  ⟨⟨_, _, _, rfl⟩, fun key r hf => by simp [h] at hf, fun key r e hf => by simp [h] at hf⟩

theorem retried_released {u : UnitSt} {key : Option Nat} {r : Raised} (h : u.curFault = some (key, r)) (mq : List MatOp) :
    Retried u { released key r u with savedMq := mq } where
  rest := by
    obtain ⟨pes, sb, h⟩ := released_eq key r u
    rw [h]
    exact ⟨_, _, _, rfl⟩
  firing key' r' hf hheld := by
    rw [h] at hf
    cases hf
    exact pe_released hheld
  entry key' r' e hf hne he := by
    rw [h] at hf
    cases hf
    exact entry?_released hne he

/-- The state in which the fault in the handler has been retried. -/
def retryCurrent (s : State) (uid : Nat) : State :=
  match (s.unit uid).curFault with
  | some f => s.retryHeld uid f
  | none => s

theorem retryCurrent_eq {s : State} {uid : Nat} {u : UnitSt} (hu : aget s.units uid = some u) :
    ∃ v cl, Retried u v ∧ retryCurrent s uid = withClusters (s.setUnit uid v) cl := by
  unfold retryCurrent
  rw [State.unit_of_aget hu]
  cases hf : u.curFault with
  | none => exact ⟨u, s.clusters, .refl hf, by simp only [State.setUnit, aset_of_aget hu]; rfl⟩
  | some f =>
    obtain ⟨mq, cl, h⟩ := retryHeld_eq hu f.1 f.2
    exact ⟨_, cl, retried_released hf mq, h⟩

/-- A return retries, leaves the handler, and takes the next of the faults that wait. -/
theorem returnFault_eq {s : State} {uid : Nat} {u : UnitSt} (hu : aget s.units uid = some u) : s.returnFault uid =
    match nextPending u.pend with
    | none => (retryCurrent s uid).modUnit uid leaveHandler
    | some (f, rest) => (((retryCurrent s uid).modUnit uid leaveHandler).modUnit uid (fun x => { x with pend := rest })).takeFault uid f.1 f.2 := by
  rw [← State.unit_of_aget hu]
  rfl

theorem returnFault_resumes {s : State} {uid : Nat} {u : UnitSt} (hu : aget s.units uid = some u) (hpend : u.pend = []) :
    s.returnFault uid = (retryCurrent s uid).modUnit uid leaveHandler := by
  rw [returnFault_eq hu, hpend, nextPending]

/-- A fault of class T enters the handler of a running unit that has one and is not in it. -/
theorem takeFault_enters {s : State} {uid : Nat} {u : UnitSt} (hu : aget s.units uid = some u) (hrunning : u.status = .running)
    (houtside : u.handler = false) (hvec : u.tvec ≠ 0#64) {r : Raised} (hcause : isStopCause r.cause = false) (key : Option Nat) :
    s.takeFault uid key r = s.setUnit uid (u.enterHandler key r) := by
  simp only [State.takeFault, State.unit_of_aget hu, hrunning, houtside, hvec, hcause, Bool.false_eq_true, if_false, State.modUnit_of_aget hu]
  rfl

section
variable {c : CWord} {s : State} {u : UnitSt} (hs : Sequencing s u) (hc : ctlFieldsOk 0x29 c = true)
include hs hc

theorem exec_eret_outside (hhandler : u.handler = false) : exec (.eret c) s = .next (s.ctlFault s.curUnit 0x0E7) := by
  show execEret c s = _
  simp only [execEret, nextS, seqWord_acts hs hc, hhandler, Bool.false_eq_true, if_false]

variable (hhandler : u.handler = true)
include hhandler

theorem exec_eret_returns : exec (.eret c) s = .next ((s.returnFault s.curUnit).progress s.curUnit) := by
  show execEret c s = _
  simp only [execEret, nextS, seqWord_acts hs hc, hhandler, if_true]

/-- With no fault waiting, the unit goes on at TEPC. -/
theorem exec_eret_resumes (hpend : u.pend = []) : ∃ v cl, Retried u v ∧
    exec (.eret c) s = .next (withClusters (s.setUnit s.curUnit { leaveHandler v with watchdog := 0 }) cl) := by
  obtain ⟨v, cl, hv, hretry⟩ := retryCurrent_eq hs.1
  refine ⟨v, cl, hv, ?_⟩
  have hset : aget (withClusters (s.setUnit s.curUnit v) cl).units s.curUnit = some v := aget_aset_self ..
  rw [exec_eret_returns hs hc hhandler, returnFault_resumes hs.1 hpend, hretry, State.progress, State.modUnit_modUnit, State.modUnit_of_aget hset]
  simp only [withClusters, State.setUnit, aset_aset]

/-- A fault that waits enters the handler in its turn. -/
theorem exec_eret_next {f : Option Nat × Raised} {rest : List (Option Nat × Raised)} (hpend : nextPending u.pend = some (f, rest))
    (hcause : isStopCause f.2.cause = false) (hvec : u.tvec ≠ 0#64) : ∃ v cl, Retried u v ∧
    exec (.eret c) s = .next (withClusters
      (s.setUnit s.curUnit { ({ leaveHandler v with pend := rest } : UnitSt).enterHandler f.1 f.2 with watchdog := 0 }) cl) := by
  obtain ⟨v, cl, hv, hretry⟩ := retryCurrent_eq hs.1
  refine ⟨v, cl, hv, ?_⟩
  have hset : aget (withClusters (s.setUnit s.curUnit v) cl).units s.curUnit = some v := aget_aset_self ..
  have hunit : aget (((withClusters (s.setUnit s.curUnit v) cl).modUnit s.curUnit leaveHandler).modUnit s.curUnit
      (fun x => { x with pend := rest })).units s.curUnit = some { leaveHandler v with pend := rest } := by
    simp only [State.aget_modUnit, hset, if_true, Option.map_some]
  obtain ⟨pes, sb, mq, hv⟩ := hv.rest
  subst hv
  rw [exec_eret_returns hs hc hhandler, returnFault_eq hs.1, hpend, hretry]
  dsimp only
  rw [takeFault_enters hunit hs.2 rfl hvec hcause, State.modUnit_modUnit, State.modUnit_of_aget hset]
  rw [State.progress, State.modUnit_of_aget (aget_aset_self ..)]
  simp only [withClusters, State.setUnit, aset_aset]
end

/-- Settles O29: the return by its two cases, the order of the faults that wait by induction on them. -/
theorem eretReturnsFromTheHandler : Obligations.EretReturnsFromTheHandler := by
  unfold Obligations.EretReturnsFromTheHandler
  refine ⟨?quick, ?resumes, ?next, fun l rest f => nextPending_spec, fun c s u => exec_eret_outside⟩
  case quick =>
    intro c s u hs hc hhandler hpend hfault
    have hretry : retryCurrent s s.curUnit = s := by
      unfold retryCurrent
      rw [State.unit_of_aget hs.1, hfault]
    rw [exec_eret_returns hs hc hhandler, returnFault_resumes hs.1 hpend, hretry, State.progress, State.modUnit_modUnit, modUnit_eq_unitBecomes hs]
    rfl
  case resumes =>
    intro c s u hs hc hhandler hpend
    obtain ⟨v, cl, hv, hexec⟩ := exec_eret_resumes hs hc hhandler hpend
    have hunit : (withClusters (s.setUnit s.curUnit { leaveHandler v with watchdog := 0 }) cl).unit s.curUnit =
      { leaveHandler v with watchdog := 0 } := State.unit_setUnit_self ..
    refine ⟨_, hexec, ?_⟩
    rw [hunit]
    obtain ⟨pes, sb, mq, heq⟩ := hv.rest
    exact ⟨by rw [heq]; rfl, rfl, rfl, by rw [heq]; rfl, rfl, rfl, fun w hw => aget_aset_other _ _ (Ne.symm hw), hv.firing, hv.entry⟩
  case next =>
    intro c s u f rest hs hc hhandler hpend hcause hvec
    obtain ⟨v, cl, hv, hexec⟩ := exec_eret_next hs hc hhandler hpend hcause hvec
    have hunit : (withClusters (s.setUnit s.curUnit { ({ leaveHandler v with pend := rest } : UnitSt).enterHandler f.1 f.2 with watchdog := 0 }) cl).unit
      s.curUnit = { ({ leaveHandler v with pend := rest } : UnitSt).enterHandler f.1 f.2 with watchdog := 0 } := State.unit_setUnit_self ..
    refine ⟨_, hexec, ?_⟩
    rw [hunit]
    obtain ⟨pes, sb, mq, heq⟩ := hv.rest
    exact ⟨rfl, by rw [heq]; rfl, rfl, rfl, rfl, by rw [heq]; rfl⟩

end Sys2Proof.Proofs

/-! PROOFS. Engine commands up to their operands, and the matrix commands (R260, R261, R265): the checks in their order, what holds a command
back, and what joins queue M. -/

namespace Sys2Proof.Proofs

open Sys2Proof Sys2Proof.Machine Sys2Proof.Laws Sys2Proof.Claims

/-! ### The first check that fails -/

/-- The cause of the first check that fails. -/
def firstCause (l : List (Bool × Nat)) : Option Nat := (l.find? (fun p => p.1)).map (fun p => p.2)

theorem firstCause_nil : firstCause [] = none := rfl
theorem firstCause_cons (b : Bool) (c : Nat) (l : List (Bool × Nat)) : firstCause ((b, c) :: l) = if b = true then some c else firstCause l := by
  cases b <;> rfl
theorem firstCause_of_find {l : List (Bool × Nat)} {p : Bool × Nat} (h : l.find? (fun p => p.1) = some p) : firstCause l = some p.2 := by
  rw [firstCause, h, Option.map_some]
theorem firstCause_of_all {l : List (Bool × Nat)} (h : l.all (fun p => !p.1) = true) : firstCause l = none := by
  rw [firstCause, List.find?_eq_none.2 (by simpa using h), Option.map_none]

/-! ### The steps of R261 -/

/-- Every command is a message of its opcode and number of words that meets the steps of R261 before its own effect. -/
theorem exec_command {i : Instr} {opc N : Nat} {msg : Message} (h : cmdOf i = some (opc, N, msg)) :
    ∃ body, ∀ s, exec i s = .next (runCommand opc N msg s body) := by
  cases i <;> cases h <;> exact ⟨_, fun _ => rfl⟩

/-- The steps that the message `m` at the head of the inbox meets. -/
def commandSteps (opc N : Nat) (s : State) (m : InMsg) (rest : List InMsg) (body : State → InMsg → (Nat → Word) → CmdRes) : State :=
  match (if m.checked then none else messageCause s.curEng m.msg), s.handlerEntry s.curEng m.msg.handler.toNat with
  | some c, _ => (s.setInbox s.curEng rest).nack s.curEng m c 0#64
  | none, none => (s.setInbox s.curEng rest).nack s.curEng m 0x0C2 0#64
  | none, some (ea, h) =>
    if !s.hostReady ea 64 false then s.sendSnoops ea 64 false
    else if m.checked then s.acceptMessage s.curEng m rest ea (wd h) body
    else if s.bad.contains (ea / 128) then (s.setInbox s.curEng rest).nackF s.curEng m ⟨0x160, 0#64, wd (ea / 128 * 128)⟩ m.addr
    else
      match s.entryCause s.curEng opc N m h with
      | some c => (s.setInbox s.curEng rest).nack s.curEng m c (wd h)
      | none =>
        if bit h 62 then
          (if m.busySince.isSome then s else s.setInbox s.curEng ({ m with busySince := some (s.die (dieOf m.cl)).cyc.toNat } :: rest))
        else s.acceptMessage s.curEng m rest ea (wd h) body

theorem entryCause_ne_busy (s : State) (e : EngineId) (opc N : Nat) (m : InMsg) (h : Nat) : s.entryCause e opc N m h ≠ some 0x0C3 := by
  unfold State.entryCause
  split_ifs <;> simp

/-- The checks of an entry: BUSY stands among the causes of steps 4 to 9, behind that of an entry that is not valid. -/
theorem firstCause_commandChecks {opc N ea h : Nat} {s : State} {m : InMsg} (hline : s.bad.contains (ea / 128) = false) :
    firstCause (commandChecks opc N s m ea h) = if (bit h 63 && bit h 62) = true then some 0x0C3 else s.entryCause s.curEng opc N m h := by
  simp only [commandChecks, firstCause_cons, firstCause_nil, hline, State.entryCause]
  cases bit h 63 <;> cases bit h 62 <;> simp

section
variable {i : Instr} {opc N : Nat} {s : State} {m : InMsg} {rest : List InMsg} (hhead : AtHead i opc N s m rest)
include hhead

/-- A message at the head of its engine's inbox, of a unit that goes on, meets the steps. -/
theorem exec_atHead : ∃ body, exec i s = .next (commandSteps opc N s m rest body) := by
  obtain ⟨hcmd, hin, hopc, heng, hended, hoverrun⟩ := hhead
  obtain ⟨body, hexec⟩ := exec_command hcmd
  have hmatches : (m.opc.toNat != opc || m.msg != m.msg || engineOf opc m.cl != some s.curEng) = false := by
    simp only [hopc, heng, bne_self_eq_false, Bool.or_self]
  refine ⟨body, (hexec s).trans (congrArg Host.Outcome.next ?_)⟩
  rw [runCommand, hin]
  show (if (m.opc.toNat != opc || m.msg != m.msg || engineOf opc m.cl != some s.curEng) = true then s
    else if (s.unit m.unit).isEnded = true then s.setInbox s.curEng rest
    else if (s.unit m.unit).overrun = true then s else commandSteps opc N s m rest body) = _
  rw [hmatches, hended, hoverrun, if_neg Bool.false_ne_true, if_neg Bool.false_ne_true, if_neg Bool.false_ne_true]

theorem exec_messageCause {c : Nat} (hchecked : m.checked = false) (hcause : messageCause s.curEng m.msg = some c) :
    exec i s = .next ((s.setInbox s.curEng rest).nack s.curEng m c 0#64) := by
  obtain ⟨body, hexec⟩ := exec_atHead hhead
  simp only [hexec, commandSteps, hchecked, hcause, Bool.false_eq_true, if_false]

variable (hmessage : messageCause s.curEng m.msg = none)
include hmessage

theorem exec_noEntry (hentry : s.handlerEntry s.curEng m.msg.handler.toNat = none) :
    exec i s = .next ((s.setInbox s.curEng rest).nack s.curEng m 0x0C2 0#64) := by
  obtain ⟨body, hexec⟩ := exec_atHead hhead
  simp only [hexec, commandSteps, hmessage, ite_self, hentry]

variable {ea h : Nat} (hentry : s.handlerEntry s.curEng m.msg.handler.toNat = some (ea, h))
include hentry

theorem exec_entryHeld (hheld : s.hostReady ea 64 false = false) : exec i s = .next (s.sendSnoops ea 64 false) := by
  obtain ⟨body, hexec⟩ := exec_atHead hhead
  simp only [hexec, commandSteps, hmessage, ite_self, hentry, hheld, Bool.not_false, if_true]

variable (hready : s.hostReady ea 64 false = true)
include hready

/-- A command whose entry has been read once, or passes its checks, goes on to the steps that wait. -/
theorem exec_accepts_message (hpass : m.checked = true ∨ (commandChecks opc N s m ea h).all (fun p => !p.1) = true) :
    ∃ body, exec i s = .next (s.acceptMessage s.curEng m rest ea (wd h) body) := by
  obtain ⟨body, hexec⟩ := exec_atHead hhead
  refine ⟨body, ?_⟩
  cases hchecked : m.checked with
  | true => simp only [hexec, commandSteps, hchecked, hentry, hready, Bool.not_true, Bool.false_eq_true, if_false, if_true]
  | false =>
    have hall := hpass.resolve_left (by simp [hchecked])
    have hline : s.bad.contains (ea / 128) = false := by
      have := List.all_eq_true.1 hall _ List.mem_cons_self
      simpa using this
    have hbusy : bit h 62 = false := by
      have := List.all_eq_true.1 hall (bit h 62, 0x0C3) (by simp [commandChecks])
      simpa using this
    have hcause := firstCause_commandChecks (opc := opc) (N := N) (h := h) (m := m) hline
    rw [firstCause_of_all hall, hbusy, Bool.and_false, if_neg Bool.false_ne_true] at hcause
    simp only [hexec, commandSteps, hchecked, hmessage, hentry, hready, hline, ← hcause, hbusy, Bool.not_true,
      Bool.false_eq_true, if_false]

variable (hchecked : m.checked = false)
include hchecked

theorem exec_entryUnreadable (hline : s.bad.contains (ea / 128) = true) :
    exec i s = .next ((s.setInbox s.curEng rest).nackF s.curEng m ⟨0x160, 0#64, wd (ea / 128 * 128)⟩ m.addr) := by
  obtain ⟨body, hexec⟩ := exec_atHead hhead
  simp only [hexec, commandSteps, hchecked, hmessage, hentry, hready, hline, Bool.not_true, Bool.false_eq_true, if_false,
    if_true]

variable (hline : s.bad.contains (ea / 128) = false)
include hline

theorem exec_entryCause {c : Nat} (hcause : firstCause (commandChecks opc N s m ea h) = some c) (hc : c ≠ 0x0C3) :
    exec i s = .next ((s.setInbox s.curEng rest).nack s.curEng m c (wd h)) := by
  obtain ⟨body, hexec⟩ := exec_atHead hhead
  rw [firstCause_commandChecks hline] at hcause
  split at hcause
  · exact absurd (Option.some.inj hcause).symm hc
  · simp only [hexec, commandSteps, hchecked, hmessage, hentry, hready, hline, hcause, Bool.not_true,
      Bool.false_eq_true, if_false]

/-- A BUSY entry holds the message, which notes when it first met it. -/
theorem exec_entryBusy (hcause : firstCause (commandChecks opc N s m ea h) = some 0x0C3) :
    exec i s = .next (if m.busySince = none then s.setInbox s.curEng ({ m with busySince := some (s.die (dieOf m.cl)).cyc.toNat } :: rest) else s) := by
  obtain ⟨body, hexec⟩ := exec_atHead hhead
  rw [firstCause_commandChecks hline] at hcause
  split at hcause
  · next hbits =>
    obtain ⟨hvalid, hbusy⟩ := Bool.and_eq_true_iff.1 hbits
    have hnone : s.entryCause s.curEng opc N m h = none := by
      simp only [State.entryCause, hvalid, hbusy, Bool.not_true, Bool.false_eq_true, if_false, if_true]
    simp only [hexec, commandSteps, hchecked, hmessage, hentry, hready, hline, hnone, hbusy, Bool.not_true,
      Bool.false_eq_true, if_false, if_true]
    cases m.busySince <;> rfl
  · exact absurd hcause (entryCause_ne_busy s s.curEng opc N m h)
end

/-- A full set of runs, or an empty FIFO, holds a command. -/
theorem acceptMessage_holds {s : State} {e : EngineId} {m : InMsg} (rest : List InMsg) (ea : Nat) (hw : Word) (body : State → InMsg → (Nat → Word) → CmdRes)
    (h : 8 ≤ s.runsOf e ∧ e.kind ≠ .matrix ∧ e.kind ≠ .collective ∨
      m.msg.hpop ≠ 0#4 ∧ m.popped = false ∧ s.canPop m.cl m.msg.hpop.toNat (engineCode e.kind) = false) :
    s.acceptMessage e m rest ea hw body = s.setInbox e ({ m with checked := true, busySince := none } :: rest) := by
  unfold State.acceptMessage
  rcases h with ⟨hfull, hmatrix, hcollective⟩ | ⟨hpop, hpopped, hempty⟩
  · simp only [hfull, bne_iff_ne.2 hmatrix, bne_iff_ne.2 hcollective, decide_true, Bool.and_self, if_true]
  · simp only [bne_iff_ne.2 hpop, hpopped, hempty, Bool.not_false, Bool.and_self, if_true, ite_self]

theorem messageCause_eq (e : EngineId) (msg : Message) : messageCause e msg =
    if 6 < msg.nptr.toNat then some 0x0C4 else if (badEngineCode e msg.hpop.toNat || badEngineCode e msg.hpush.toNat) = true then some 0x0C9 else none := rfl

theorem messageCause_none {e : EngineId} {msg : Message} (hwords : msg.nptr.toNat ≤ 6) (hpop : badEngineCode e msg.hpop.toNat = false)
    (hpush : badEngineCode e msg.hpush.toNat = false) : messageCause e msg = none := by
  rw [messageCause_eq, if_neg (by omega), hpop, hpush]
  rfl

/-! ### The matrix commands (R265) -/

/-- The bits of a union of two fields. -/
theorem and_or_ne_zero (v a b : Word) : (v &&& (a ||| b) != 0#64) = (v &&& a != 0#64 || v &&& b != 0#64) := by
  rw [BitVec.and_or_distrib_left, Bool.eq_iff_iff]
  simp only [bne_iff_ne, Bool.or_eq_true, ne_eq, BitVec.or_eq_zero_iff, not_and_or]

/-- One bit. -/
theorem and_twoPow_ne_zero (v : Word) {i : Nat} (hi : i < 64) : (v &&& BitVec.twoPow 64 i != 0#64) = v.getLsbD i := by
  have hne : BitVec.twoPow 64 i ≠ 0#64 := by
    rw [ne_eq, ← BitVec.toNat_inj, BitVec.toNat_twoPow_eq_ite, if_pos hi]
    exact (Nat.two_pow_pos i).ne'
  rw [BitVec.and_twoPow]
  cases v.getLsbD i
  · rfl
  · exact bne_iff_ne.2 hne

/-- The bits from `k` on. -/
theorem and_high_ne_zero (v : Word) {k : Nat} {mask : Word} (hk : k < 64) (hmask : mask = BitVec.allOnes 64 <<< k) :
    (v &&& mask != 0#64) = (wbits v 63 k != 0) := by
  subst hmask
  have hdiv : v.toNat / 2 ^ k < 2 ^ (64 - k) := by
    rw [Nat.div_lt_iff_lt_mul (Nat.two_pow_pos k), ← Nat.pow_add, Nat.sub_add_cancel hk.le]
    exact v.isLt
  have hback : v.toNat / 2 ^ k * 2 ^ k < 2 ^ 64 := (Nat.div_mul_le_self ..).trans_lt v.isLt
  have hnat : (v &&& (BitVec.allOnes 64 <<< k)).toNat = v.toNat / 2 ^ k * 2 ^ k := by
    rw [← BitVec.shiftLeft_ushiftRight, BitVec.toNat_shiftLeft, BitVec.toNat_ushiftRight, Nat.shiftLeft_eq, Nat.shiftRight_eq_div_pow,
      Nat.mod_eq_of_lt hback]
  rw [Bool.eq_iff_iff, bne_iff_ne, bne_iff_ne, ne_eq, ← BitVec.toNat_inj, hnat, wbits, bits, Nat.mod_eq_of_lt hdiv]
  simp

/-- Two bits next to each other. -/
theorem wbits_pair_ne_zero (v : Word) (k : Nat) : (wbits v (k + 1) k != 0) = (v.getLsbD k || v.getLsbD (k + 1)) := by
  have htwo : k + 1 + 1 - k = 2 := by omega
  have hnext : v.toNat / 2 ^ (k + 1) = v.toNat / 2 ^ k / 2 := by rw [Nat.pow_succ, Nat.div_div_eq_div_mul]
  rw [wbits, bits, htwo, BitVec.getLsbD, BitVec.getLsbD, Nat.testBit_eq_decide_div_mod_eq, Nat.testBit_eq_decide_div_mod_eq, hnext, Bool.eq_iff_iff]
  simp only [bne_iff_ne, Bool.or_eq_true, decide_eq_true_eq]
  omega

/-- What a matrix command does on the first of its checks that fails; without one it joins queue M with its words `a` and `b`. -/
def matrixAnswer (s : State) (im : InMsg) (a b : Word) : Option Nat → CmdRes
  | none => s.queueMat im a b
  | some c => if c = 0x025 then .fail s (tagCause 0x025 (wbits a 11 8) 5) im.addr else .nack s c

theorem matrixAnswer_nil (s : State) (im : InMsg) (a b : Word) : matrixAnswer s im a b (firstCause []) = s.queueMat im a b := rfl
theorem matrixAnswer_cons (s : State) (im : InMsg) (a b : Word) (t : Bool) (c : Nat) (l : List (Bool × Nat)) :
    matrixAnswer s im a b (firstCause ((t, c) :: l)) =
      if t = true then (if c = 0x025 then .fail s (tagCause 0x025 (wbits a 11 8) 5) im.addr else .nack s c) else matrixAnswer s im a b (firstCause l) := by
  cases t <;> rfl

/-- The reserved bits of the operand words. -/
theorem mmul_reserved (v : Word) : (v &&& 0xFFFFFFFFFFF80008#64 != 0#64) = (v.getLsbD 3 || wbits v 63 19 != 0) := by
  rw [← and_twoPow_ne_zero v (by decide : 3 < 64), ← and_high_ne_zero v (by decide : 19 < 64) rfl, ← and_or_ne_zero]
  rfl
theorem macc_reserved (v : Word) : (v &&& 0xFFFFFFFFFF080008#64 != 0#64) = (v.getLsbD 3 || v.getLsbD 19 || wbits v 63 24 != 0) := by
  rw [← and_twoPow_ne_zero v (by decide : 3 < 64), ← and_twoPow_ne_zero v (by decide : 19 < 64), ← and_high_ne_zero v (by decide : 24 < 64) rfl,
    ← and_or_ne_zero, ← and_or_ne_zero]
  rfl
theorem mdrn_reserved (v : Word) : (v &&& 0xFFFFFFFFFFC000C8#64 != 0#64) = (v.getLsbD 3 || wbits v 7 6 != 0 || wbits v 63 22 != 0) := by
  rw [wbits_pair_ne_zero v 6, ← and_twoPow_ne_zero v (by decide : 3 < 64), ← and_twoPow_ne_zero v (by decide : 6 < 64),
    ← and_twoPow_ne_zero v (by decide : 7 < 64), ← and_high_ne_zero v (by decide : 22 < 64) rfl, ← and_or_ne_zero, ← and_or_ne_zero, ← and_or_ne_zero]
  rfl

/-- The effect of a matrix command is the answer to its checks. -/
theorem exec_matrixCommand {i : Instr} {opc N : Nat} {msg : Message} (hq : isQueueM i = true) (h : cmdOf i = some (opc, N, msg)) :
    ∃ body, (∀ s, exec i s = .next (runCommand opc N msg s body)) ∧
      ∀ s im w, body s im w = matrixAnswer s im (w 0) (secondWord w i) (firstCause (matrixChecks s im w i)) := by
  have h17 := fun v => and_high_ne_zero v (mask := 0xFFFFFFFFFFFE0000#64) (by decide : 17 < 64) rfl
  have h8 := fun v => and_high_ne_zero v (mask := 0xFFFFFFFFFFFFFF00#64) (by decide : 8 < 64) rfl
  have h19 := fun v => and_high_ne_zero v (mask := 0xFFFFFFFFFFF80000#64) (by decide : 19 < 64) rfl
  cases i with
  | cmdMbld _ | cmdMmul _ | macc _ | cmdMdrn _ | mqnt _ | mzer _ | mcbt _ =>
    cases h
    refine ⟨_, fun _ => rfl, fun s im w => ?_⟩
    simp only [matrixChecks, matrixAnswer_cons, matrixAnswer_nil, mmul_reserved, macc_reserved, mdrn_reserved, h17, h8, h19]
    rfl
  | _ => cases hq

section
variable {i : Instr} {opc h : Nat} {s s1 : State} {im : InMsg} {w : Nat → Word} (hq : isQueueM i = true) (haccepts : Accepts i opc s s1 im h w)
include hq haccepts

/-- A check that fails refuses the command; only the tag of MQNT has a detail of its own. -/
theorem exec_matrixRefused {c : Nat} (hcause : firstCause (matrixChecks s1 im w i) = some c) : exec i s = .next (if c = 0x025 then
    (s1.setInbox s.curEng ((s1.inbox s.curEng).drop 1)).nackF s.curEng im (tagCause 0x025 (wbits (w 0) 11 8) 5) im.addr
    else commandRefused s.curEng s1 im c (wd h)) := by
  obtain ⟨N, hcmd, hrun⟩ := runCommand_accepts haccepts
  obtain ⟨body, hexec, hbody⟩ := exec_matrixCommand hq hcmd
  rw [hexec, hrun, hbody, hcause, matrixAnswer]
  by_cases hc : c = 0x025
  · rw [if_pos hc, if_pos hc]
  · rw [if_neg hc, if_neg hc]

/-- A command that passes its checks stands behind the operations of queue M. -/
theorem exec_matrixQueued (hcause : firstCause (matrixChecks s1 im w i) = none) : ∃ o : MatOp, o.opc = im.opc ∧ o.msg = some im ∧ o.unit = im.unit ∧
    o.a = w 0 ∧ o.b = secondWord w i ∧ o.rm = im.rm ∧ o.issued = false ∧
    exec i s = .next (commandTaken s.curEng (s1.modCluster im.cl (fun c => { c with mq := c.mq ++ [o] }))) := by
  obtain ⟨N, hcmd, hrun⟩ := runCommand_accepts haccepts
  obtain ⟨body, hexec, hbody⟩ := exec_matrixCommand hq hcmd
  rw [hexec, hrun, hbody, hcause, matrixAnswer]
  exact ⟨_, rfl, rfl, rfl, rfl, rfl, rfl, rfl, rfl⟩
end

/-- Settles O38: the steps by the lemmas above, with the first cause of each list of checks. -/
theorem commandsAreCheckedInOrder : Obligations.CommandsAreCheckedInOrder := by
  unfold Obligations.CommandsAreCheckedInOrder
  refine ⟨⟨?message, ?entry, ?checks, ?holds, ?mgrp⟩, ?matrix⟩
  case message =>
    intro i opc N s m rest hhead hchecked
    refine ⟨fun hwords => exec_messageCause hhead hchecked (if_pos hwords), fun hwords hcode => exec_messageCause hhead hchecked ?_⟩
    rw [messageCause_eq, if_neg (by omega), if_pos (Bool.or_eq_true_iff.2 hcode)]
  case entry =>
    intro i opc N s m rest hhead hwords hpop hpush
    have hmessage := messageCause_none hwords hpop hpush
    exact ⟨exec_noEntry hhead hmessage, fun ea h => exec_entryHeld hhead hmessage⟩
  case checks =>
    rintro i opc N ea h s m rest hhead ⟨hwords, hpop, hpush, hentry, hready⟩ hchecked
    have hmessage := messageCause_none hwords hpop hpush
    have hline : ∀ c, (commandChecks opc N s m ea h).find? (fun p => p.1) = some (true, c) → c ≠ 0x160 → s.bad.contains (ea / 128) = false := by
      intro c hfind hc
      by_contra hbad
      rw [Bool.not_eq_false] at hbad
      have hfirst := firstCause_of_find hfind
      rw [commandChecks, hbad, firstCause_cons, if_pos rfl] at hfirst
      exact hc (Option.some.inj hfirst).symm
    exact ⟨exec_entryUnreadable hhead hmessage hentry hready hchecked,
      fun c hfind hc hbusy => exec_entryCause hhead hmessage hentry hready hchecked (hline c hfind hc) (firstCause_of_find hfind) hbusy,
      fun hfind => exec_entryBusy hhead hmessage hentry hready hchecked (hline _ hfind (by decide)) (firstCause_of_find hfind)⟩
  case holds =>
    rintro i opc N ea h s m rest hhead ⟨hwords, hpop, hpush, hentry, hready⟩ hpass hhold
    obtain ⟨body, hexec⟩ := exec_accepts_message hhead (messageCause_none hwords hpop hpush) hentry hready hpass
    rw [hexec, acceptMessage_holds rest ea (wd h) body hhold]
  case mgrp =>
    rintro x ea h s m rest hhead ⟨hwords, hpop, hpush, hentry, hready⟩ hchecked hline hvalid hbusy hjob
    refine exec_entryCause hhead (messageCause_none hwords hpop hpush) hentry hready hchecked hline ?_ (by decide)
    simp only [commandChecks, firstCause_cons, hline, hvalid, hbusy, hjob, Bool.not_true, bne_self_eq_false, beq_self_eq_true, Bool.or_true,
      Bool.false_eq_true, if_false, if_true]
  case matrix =>
    intro i opc h s s1 im w hq haccepts
    refine ⟨fun c hfind hc => ?_, fun hfind => ?_, fun hall => exec_matrixQueued hq haccepts (firstCause_of_all hall)⟩
    · rw [exec_matrixRefused hq haccepts (firstCause_of_find hfind), if_neg hc]
    · rw [exec_matrixRefused hq haccepts (firstCause_of_find hfind), if_pos rfl]

end Sys2Proof.Proofs

/-! PROOFS. Copy and gather commands (R98, R126, R135, R263, R266 to R268): which commands run and with what parts, and how a part moves. -/

namespace Sys2Proof.Proofs

open Sys2Proof Sys2Proof.Machine Sys2Proof.Laws Sys2Proof.Claims

/-! ### Commands that are accepted -/

section
variable {i : Instr} {opc N h : Nat} {msg : Message} {s s1 s2 : State} {im : InMsg} {w : Nat → Word} {body : State → InMsg → (Nat → Word) → CmdRes}
  (haccepts : Accepts i opc s s1 im h w) (hcmd : cmdOf i = some (opc, N, msg)) (hexec : exec i s = .next (runCommand opc N msg s body))
include haccepts hcmd hexec

/-- A command that passes R261 does what its own effect answers there. -/
theorem exec_refused {c : Nat} (hbody : body s1 im w = .nack s2 c) : exec i s = .next (commandRefused s.curEng s2 im c (wd h)) := by
  obtain ⟨N', hcmd', hrun⟩ := runCommand_accepts haccepts
  cases hcmd.symm.trans hcmd'
  rw [hexec, hrun, hbody]

theorem exec_done (hbody : body s1 im w = .done s2) : exec i s = .next (commandRuns s.curEng s2 im []) := by
  obtain ⟨N', hcmd', hrun⟩ := runCommand_accepts haccepts
  cases hcmd.symm.trans hcmd'
  rw [hexec, hrun, hbody]

theorem exec_runs {plan : List EngAcc} (hbody : body s1 im w = .run s2 plan) : exec i s = .next (commandRuns s.curEng s2 im plan) := by
  obtain ⟨N', hcmd', hrun⟩ := runCommand_accepts haccepts
  cases hcmd.symm.trans hcmd'
  rw [hexec, hrun, hbody]

theorem exec_taken (hbody : body s1 im w = .taken s2) : exec i s = .next (commandTaken s.curEng s2) := by
  obtain ⟨N', hcmd', hrun⟩ := runCommand_accepts haccepts
  cases hcmd.symm.trans hcmd'
  rw [hexec, hrun, hbody]
end

/-- A command whose accesses are all possible runs. -/
theorem accept_runs {s s1 : State} {m : InMsg} {l : List SAcc} (h : s.checkAll m l = (s1, none)) (plan : List EngAcc) :
    accept s m l plan = .run s1 plan := by
  rw [accept, h]

/-! ### CPY, CPY2D, FILL and WSFL (R266) -/

section
variable {x : Message} {h : Nat} {s s1 s2 : State} {im : InMsg} {w : Nat → Word}

theorem exec_cpy_refused (haccepts : Accepts (.cpy x) 0x20 s s1 im h w)
    (hbad : addrOk 0b11 (w 0) = false ∨ addrOk 0b11 (w 1) = false ∨ wbits (w 2) 63 32 ≠ 0 ∨
      wbits (w 2) 31 0 ≠ 0 ∧ spaceOf (w 0) = spaceOf (w 1) ∧ overlap (addrOf (w 0)) (wbits (w 2) 31 0) (addrOf (w 1)) (wbits (w 2) 31 0) = true) :
    exec (.cpy x) s = .next (commandRefused s.curEng s1 im 0x0CA (wd h)) := by
  refine exec_refused haccepts rfl rfl ?_
  dsimp only
  split
  · rfl
  · next hok =>
    simp only [Bool.not_eq_true, Bool.or_eq_false_iff, Bool.not_eq_false', bne_eq_false_iff_eq] at hok
    obtain ⟨⟨hdst, hsrc⟩, hzero⟩ := hok
    rcases hbad with hbad | hbad | hbad | ⟨hn, hspace, hover⟩
    · exact absurd hdst (by simp [hbad])
    · exact absurd hsrc (by simp [hbad])
    · exact absurd hzero hbad
    · rw [if_neg hn, hspace, hover]
      exact if_pos (by simp)

theorem exec_cpy_runs (haccepts : Accepts (.cpy x) 0x20 s s1 im h w) (hdst : addrOk 0b11 (w 0) = true) (hsrc : addrOk 0b11 (w 1) = true)
    (hzero : wbits (w 2) 63 32 = 0) (hn : wbits (w 2) 31 0 ≠ 0)
    (happart : spaceOf (w 0) ≠ spaceOf (w 1) ∨ overlap (addrOf (w 0)) (wbits (w 2) 31 0) (addrOf (w 1)) (wbits (w 2) 31 0) = false)
    (hcheck : s1.checkAll im [⟨spaceOf (w 1), addrOf (w 1), wbits (w 2) 31 0, .load⟩, ⟨spaceOf (w 0), addrOf (w 0), wbits (w 2) 31 0, .store⟩] = (s2, none)) :
    exec (.cpy x) s = .next (commandRuns s.curEng s2 im
      (byteParts (spaceOf (w 1)) (addrOf (w 1)) (spaceOf (w 0)) (addrOf (w 0)) (wbits (w 2) 31 0))) := by
  have hover : (spaceOf (w 0) == spaceOf (w 1) && overlap (addrOf (w 0)) (wbits (w 2) 31 0) (addrOf (w 1)) (wbits (w 2) 31 0)) = false := by
    rcases happart with happart | happart <;> simp [happart]
  refine exec_runs haccepts rfl rfl ?_
  simp only [hdst, hsrc, hzero, hn, hover, Bool.not_true, bne_self_eq_false, Bool.or_self, Bool.false_eq_true, if_false]
  exact accept_runs hcheck _

theorem exec_cpy_empty (haccepts : Accepts (.cpy x) 0x20 s s1 im h w) (hdst : addrOk 0b11 (w 0) = true) (hsrc : addrOk 0b11 (w 1) = true)
    (hzero : wbits (w 2) 63 32 = 0) (hn : wbits (w 2) 31 0 = 0) : exec (.cpy x) s = .next (commandRuns s.curEng s1 im []) := by
  refine exec_done haccepts rfl rfl ?_
  simp only [hdst, hsrc, hzero, hn, Bool.not_true, bne_self_eq_false, Bool.or_self, Bool.false_eq_true, if_false, if_true]

theorem exec_cpy2d_runs (haccepts : Accepts (.cpy2d x) 0x21 s s1 im h w) {pairs : List (Nat × Nat)} (hn : wbits (w 2) 31 0 ≠ 0)
    (hrows : wbits (w 2) 47 32 ≠ 0) (hdst : addrOk 0b11 (w 0) = true) (hsrc : addrOk 0b11 (w 1) = true) (hzero : wbits (w 2) 63 48 = 0)
    (hpairs : pairs = (upFrom 0 (wbits (w 2) 47 32)).map (fun k => (addrOf (w 1) + k * wbits (w 3) 31 0, addrOf (w 0) + k * wbits (w 3) 63 32)))
    (happart : spaceOf (w 0) ≠ spaceOf (w 1) ∨
      pairs.any (fun p => pairs.any (fun q => overlap p.1 (wbits (w 2) 31 0) q.2 (wbits (w 2) 31 0))) = false)
    (hcheck : s1.checkAll im (pairs.flatMap (fun p => [⟨spaceOf (w 1), p.1, wbits (w 2) 31 0, .load⟩, ⟨spaceOf (w 0), p.2, wbits (w 2) 31 0, .store⟩])) =
      (s2, none)) :
    exec (.cpy2d x) s = .next (commandRuns s.curEng s2 im
      (pairs.flatMap (fun p => byteParts (spaceOf (w 1)) p.1 (spaceOf (w 0)) p.2 (wbits (w 2) 31 0)))) := by
  have hover : (spaceOf (w 0) == spaceOf (w 1) &&
      pairs.any (fun p => pairs.any (fun q => overlap p.1 (wbits (w 2) 31 0) q.2 (wbits (w 2) 31 0)))) = false := by
    rcases happart with happart | happart <;> simp only [happart, Bool.and_false, beq_eq_false_iff_ne.2, ne_eq, not_false_eq_true, Bool.false_and]
  refine exec_runs haccepts rfl rfl ?_
  simp only [hdst, hsrc, hzero, hn, hrows, ← hpairs, hover, Bool.not_true, bne_self_eq_false, Bool.or_self, decide_false, Bool.false_eq_true, if_false]
  exact accept_runs hcheck _

theorem exec_fill_runs (haccepts : Accepts (.fill x) 0x22 s s1 im h w) (hn : wbits (w 1) 31 0 ≠ 0) (hdst : addrOk 0b11 (w 0) = true)
    (hzero : wbits (w 1) 63 32 = 0) (hcheck : s1.checkAll im [⟨spaceOf (w 0), addrOf (w 0), wbits (w 1) 31 0, .store⟩] = (s2, none)) :
    exec (.fill x) s = .next (commandRuns s.curEng s2 im ((byteParts 0 0 (spaceOf (w 0)) (addrOf (w 0)) (wbits (w 1) 31 0)).map (fun p =>
      { p with got := (upFrom p.d p.n).map (fun x => BitVec.ofNat 8 ((w 2).toNat / 256 ^ (x % 8))) }))) := by
  refine exec_runs haccepts rfl rfl ?_
  simp only [hdst, hzero, hn, Bool.not_true, bne_self_eq_false, Bool.or_self, Bool.false_eq_true, if_false]
  exact accept_runs hcheck _

/-- A die of the job's current phase has its weights loaded by that job. -/
theorem wsJob_of_phaseDie {s : State} {job k : Nat} (h : s.phaseDie job k = true) : (s.die k).wsJob = some job := by
  unfold State.phaseDie at h
  split at h
  · cases h
  · exact beq_iff_eq.1 (Bool.and_eq_true_iff.1 h).1

theorem exec_wsfl_runs (haccepts : Accepts (.wsfl x) 0x23 s s1 im h w) {d n : Nat} {dies : List Nat} (hn : wbits (w 2) 31 0 = n) (hd : addrOf (w 0) = d)
    (hpos : n ≠ 0) (hdst : addrOk 0b100 (w 0) = true) (hsrc : addrOk 0b11 (w 1) = true) (hzero : wbits (w 2) 63 32 = 0) (hd8 : d % 8 = 0)
    (hn8 : n % 8 = 0) (hfits : d + n ≤ 2 ^ 30) (hdies : dies = upFrom (d / 2 ^ 28) ((d + n - 1) / 2 ^ 28 + 1 - d / 2 ^ 28))
    (hphase : ∀ k ∈ dies, s1.phaseDie im.job k = true ∧ (s1.die k).run = false)
    (hcheck : s1.checkAll im [⟨spaceOf (w 1), addrOf (w 1), n, .load⟩] = (s2, none)) :
    exec (.wsfl x) s = .next (commandRuns s.curEng s2 im (byteParts (spaceOf (w 1)) (addrOf (w 1)) 2 d n)) := by
  have hinside : (decide (2 ^ 30 < d + n) || decide (2 ^ 30 ≤ d)) = false := by
    rw [Bool.or_eq_false_iff, decide_eq_false_iff_not, decide_eq_false_iff_not]
    omega
  have hjob : dies.any (fun k => (s1.die k).wsJob.any (fun j => j != im.job)) = false := by
    rw [List.any_eq_false]
    intro k hk
    rw [wsJob_of_phaseDie (hphase k hk).1]
    simp
  have hcurrent : dies.all (fun k => s1.phaseDie im.job k) = true := List.all_eq_true.2 fun k hk => (hphase k hk).1
  have hfill : dies.any (fun k => (s1.die k).run) = false := by
    rw [List.any_eq_false]
    intro k hk
    rw [(hphase k hk).2]
    exact Bool.false_ne_true
  refine exec_runs haccepts rfl rfl ?_
  simp only [hn, hd, hpos, hdst, hsrc, hzero, hd8, hn8, if_false, ← hdies, hjob, hcurrent, hfill, Bool.not_true, bne_self_eq_false, Bool.or_self,
    Bool.false_eq_true]
  rw [hinside, if_neg Bool.false_ne_true]
  exact accept_runs hcheck _
end

/-! ### Parts that move (R98, R126) -/

theorem length_readL (s : State) (m : InMsg) (a n : Nat) : (s.readL m a n).length = n := by
  induction n generalizing a with
  | zero => rfl
  | succ n ih => rw [State.readL, List.length_cons, ih]

theorem lmod_congr {α : Type} {l : List α} {i : Nat} {x : α} (h : l[i]? = some x) {f g : α → α} (hfg : f x = g x) : lmod l i f = lmod l i g := by
  induction l generalizing i with
  | nil => rfl
  | cons y l ih =>
    cases i with
    | zero =>
      obtain rfl : y = x := Option.some.inj h
      rw [lmod, lmod, hfg]
    | succ i => rw [lmod, lmod, ih h]

/-- Two changes that agree on the run there are one. -/
theorem modRun_congr {s : State} {i : Nat} {r : Run} (hr : s.runs[i]? = some r) {f g : Run → Run} (h : f r = g r) : s.modRun i f = s.modRun i g := by
  rw [State.modRun, State.modRun, lmod_congr hr h]

theorem performAccess_idle {s : State} {i : Nat} {r : Run} (hr : s.runs[i]? = some r) (hidle : r.plan = [] ∨ (s.unit r.m.unit).overrun = true)
    (ks : List Nat) : s.performAccess i ks = s := by
  unfold State.performAccess
  rw [hr]
  cases ks with
  | nil => rfl
  | cons k ks =>
    dsimp only [List.head?_cons]
    cases hk : r.plan[k]? with
    | none => rfl
    | some p =>
      rcases hidle with hplan | hoverrun
      · simp [hplan] at hk
      · exact if_pos hoverrun

section
variable {s : State} {i : Nat} {r : Run} {p : EngAcc} {rest : List EngAcc} (hr : s.runs[i]? = some r) (hplan : r.plan = p :: rest)
  (htile : p.tile = false)
include hplan

/-- A first part that is performed alone leaves the plan. -/
theorem plan_did_first : (r.did [0] 0).plan = rest := by
  have hindices : upFrom 0 r.plan.length = 0 :: upFrom 1 rest.length := by rw [hplan]; rfl
  have hrest : ((upFrom 1 rest.length).zip rest).filter (fun x => !([0] : List Nat).contains x.1) = (upFrom 1 rest.length).zip rest := by
    rw [List.filter_eq_self]
    intro x hx
    have hpos := (mem_upFrom 1 rest.length x.1).1 (List.of_mem_zip hx).1
    simp
    omega
  rw [Run.did, hindices, hplan]
  dsimp only
  rw [List.zip_cons_cons, List.filter_cons_of_neg (by simp), hrest, List.map_snd_zip (by simp)]

include hr htile
variable (hgoes : (s.unit r.m.unit).overrun = false)
include hgoes

/-- A part that has not been read is read. -/
theorem performAccess_reads (hread : p.read = false) : s.performAccess i [0] = s.loadPart i r p := by
  have hfirst : r.plan[0]? = some p := by rw [hplan]; rfl
  have hfind : r.plan.find? (fun q => p.sameUnit q && !q.read) = some p := by
    rw [hplan]
    exact List.find?_cons_of_pos (by simp [EngAcc.sameUnit, htile, hread])
  simp only [State.performAccess, hr, hgoes, hfirst, htile, hfind, hread, List.head?_cons, Bool.false_eq_true, if_false]

/-- A part that has been read, and that no other shares its destination with, is stored alone. -/
theorem performAccess_stores (hread : p.read = true) (hothers : ∀ q ∈ rest, p.sameUnit q = false) :
    s.performAccess i [0] = s.storeGroup i r p (r.group p [0]) := by
  have hfirst : r.plan[0]? = some p := by rw [hplan]; rfl
  have hfind : r.plan.find? (fun q => p.sameUnit q && !q.read) = none := by
    rw [hplan, List.find?_cons_of_neg (by simp [hread]), List.find?_eq_none]
    intro q hq
    simp [hothers q hq]
  simp only [State.performAccess, hr, hgoes, hfirst, htile, hfind, List.head?_cons, Bool.false_eq_true, if_false]
end

/-- The parts of a command that are read together with `p`: those of its aligned 8-byte unit of the source. -/
def readTogether (p q : EngAcc) : Bool := !q.tile && !q.read && q.ss == p.ss && q.a / 8 == p.a / 8

/-- Part `q` after the bytes `b` from `lo` on have been read with `p`. -/
def withBytes (p : EngAcc) (lo : Nat) (b : List Byte) (q : EngAcc) : EngAcc :=
  if readTogether p q then { q with got := (b.drop (q.a - lo)).take q.n } else q

/-- A unit of the L space is read at once. -/
theorem loadPart_local {s : State} {r : Run} {p : EngAcc} {lo n : Nat} (hlocal : p.ss = 1)
    (hlo : lo = ((r.plan.filter (readTogether p)).map EngAcc.a).foldl Nat.min p.a)
    (hn : n = ((r.plan.filter (readTogether p)).map (fun q => q.a + q.n)).foldl Nat.max 0 - lo) (i : Nat) :
    s.loadPart i r p = s.modRun i (fun x => { x with plan := x.plan.map (withBytes p lo (s.readL r.m lo n)) }) := by
  subst hn hlo
  exact if_pos hlocal

/-- A part of the L space that is read alone has its own bytes. -/
theorem loadPart_alone {s : State} {i : Nat} {r : Run} {p : EngAcc} {rest : List EngAcc} (hr : s.runs[i]? = some r) (hplan : r.plan = p :: rest)
    (hlocal : p.ss = 1) (hp : readTogether p p = true) (hothers : ∀ q ∈ rest, readTogether p q = false) :
    s.loadPart i r p = s.modRun i (fun x => { x with plan := { p with got := s.readL r.m p.a p.n } :: rest }) := by
  have hfilter : r.plan.filter (readTogether p) = [p] := by
    rw [hplan, List.filter_cons_of_pos hp, List.filter_eq_nil_iff.2 (fun q hq => by simp [hothers q hq])]
  have hlo : p.a = ((r.plan.filter (readTogether p)).map EngAcc.a).foldl Nat.min p.a := by
    rw [hfilter]
    exact (Nat.min_self p.a).symm
  have hn : p.n = ((r.plan.filter (readTogether p)).map (fun q => q.a + q.n)).foldl Nat.max 0 - p.a := by
    rw [hfilter]
    show p.n = max 0 (p.a + p.n) - p.a
    omega
  have hfirst : withBytes p p.a (s.readL r.m p.a p.n) p = { p with got := s.readL r.m p.a p.n } := by
    rw [withBytes, if_pos hp, Nat.sub_self, List.drop_zero, List.take_of_length_le (length_readL ..).le]
  have hrest : rest.map (withBytes p p.a (s.readL r.m p.a p.n)) = rest :=
    (List.map_congr_left fun q hq => by rw [withBytes, hothers q hq]; rfl).trans (List.map_id rest)
  rw [loadPart_local hlocal hlo hn]
  refine modRun_congr hr ?_
  rw [hplan, List.map_cons, hfirst, hrest]

theorem sameUnit_self {p : EngAcc} (htile : p.tile = false) : p.sameUnit p = true := by simp [EngAcc.sameUnit, htile]

/-- A part with a destination of its own is stored alone. -/
theorem group_alone {r : Run} {p : EngAcc} {rest : List EngAcc} (hplan : r.plan = p :: rest) (htile : p.tile = false)
    (hothers : ∀ q ∈ rest, q.tile = true ∨ q.ds ≠ p.ds ∨ q.d / 8 ≠ p.d / 8) : r.group p [0] = [0] := by
  have hindices : upFrom 0 r.plan.length = 0 :: upFrom 1 rest.length := by rw [hplan]; rfl
  have hfirst : r.plan[0]? = some p := by rw [hplan]; rfl
  rw [Run.group, hindices, List.filter_cons_of_pos, List.filter_eq_nil_iff.2]
  · intro j hj
    obtain ⟨k, rfl⟩ : ∃ k, j = k + 1 := ⟨j - 1, by have := (mem_upFrom _ _ _).1 hj; omega⟩
    have hnext : r.plan[k + 1]? = rest[k]? := by rw [hplan, List.getElem?_cons_succ]
    rw [hnext]
    cases hq : rest[k]? with
    | none => exact Bool.false_ne_true
    | some q =>
      have hany : ([0] : List Nat).any (fun k => r.plan[k]?.any q.sameUnit) = q.sameUnit p := by simp [hfirst]
      have hrest := hothers q (List.mem_of_getElem? hq)
      dsimp only
      rw [hany]
      rcases hrest with h | h | h
      · simp [EngAcc.sameUnit, h]
      · simp [EngAcc.sameUnit, h]
      · simp [EngAcc.sameUnit, h, Ne.symm h]
  · rw [hfirst]
    simp [sameUnit_self htile]

section
variable {s : State} {i : Nat} {r : Run} {p : EngAcc} {rest : List EngAcc} (hplan : r.plan = p :: rest)
include hplan

theorem storeGroup_local (hlocal : p.ds = 1) (hadd : p.add = false) :
    s.storeGroup i r p [0] = (s.writeL r.m p.d p.got).modRun i (fun r => r.did [0] 0) := by
  have hfirst : r.plan[0]? = some p := by rw [hplan]; rfl
  have hnot : ¬ (1 : Nat) = 2 := by decide
  simp only [State.storeGroup, List.filterMap_cons, List.filterMap_nil, hfirst, hlocal, hnot, hadd, List.foldl_cons, List.foldl_nil, Bool.false_eq_true,
    if_false, if_true]

theorem storeGroup_weights (hweights : p.ds = 2) (hrefreshed : s.refreshedRange p.d p.n = true) :
    s.storeGroup i r p [0] = ({ s with wst := s.wst.wrBytes p.d p.got } : State).modRun i (fun r => r.did [0] 0) := by
  have hfirst : r.plan[0]? = some p := by rw [hplan]; rfl
  simp only [State.storeGroup, List.filterMap_cons, List.filterMap_nil, hfirst, hweights, hrefreshed, List.all_cons, List.all_nil, Bool.and_self,
    List.foldl_cons, List.foldl_nil, if_true]
end

/-! ### CPYXS and GTHXS (R266 to R268) -/

section
variable {x : Message} {h : Nat} {s s1 s2 s3 : State} {im : InMsg} {w : Nat → Word}

theorem exec_cpyxs_runs (haccepts : Accepts (.cpyxs x) 0x24 s s1 im h w) {n ss ds sst dst : Nat} {places : Nat → Nat → Nat → List Nat}
    {plan : List EngAcc} (hn : n = wbits (w 2) 7 0 + 1) (hds : ds = spaceOf (w 0)) (hss : ss = spaceOf (w 1))
    (hsst : sst = if ss = 3 then 1 else 128 * wbits (w 2) 31 16) (hdst : dst = if ds = 3 then 1 else 128 * wbits (w 2) 47 32)
    (hplaces : places = fun sp a st => (upFrom 0 n).map (fun i => if sp = 3 then a + i else (a + i * st) % 2 ^ 56))
    (hok0 : addrOk 0b1001 (w 0) = true) (hok1 : addrOk 0b1001 (w 1) = true) (hzero : wbits (w 2) 15 9 = 0) (hzero' : wbits (w 2) 63 48 = 0)
    (hslots : s1.slotCause im ds (addrOf (w 0)) n = none) (hslots' : s1.slotCause im ss (addrOf (w 1)) n = none)
    (hmove : s1.moveImages im ss ds (places ss (addrOf (w 1)) sst) (places ds (addrOf (w 0)) dst)
      (ss == ds && addrOf (w 0) == addrOf (w 1) && sst == dst) ((w 2).getLsbD 8) = .run s2 plan) :
    exec (.cpyxs x) s = .next (commandRuns s.curEng s2 im plan) := by
  subst hn hds hss hsst hdst hplaces
  refine exec_runs haccepts rfl rfl ?_
  simp only [hok0, hok1, hzero, hzero', hslots, hslots', Bool.not_true, bne_self_eq_false, Bool.or_self, Bool.false_eq_true, if_false]
  exact hmove

/-- The index list of a command that may read it; the command then goes on with the indices. -/
theorem withIndices_reads {m : InMsg} {w2 w3 : Word} {n k : Nat} {is : List Int} (hn : n = wbits w3 31 0) (hk : k = if w3.getLsbD 34 then 8 else 4)
    (haligned : addrOf w2 % k = 0) (hcheck : s.checkAll m [⟨spaceOf w2, addrOf w2, n * k, .load⟩] = (s1, none))
    (his : is = (cutBytes k n (s1.readS m (spaceOf w2) (addrOf w2) (n * k)).2).map (idxOf (w3.getLsbD 34) (w3.getLsbD 35)))
    (run : State → List Int → CmdRes) :
    withIndices s m w2 w3 run = run (s1.readS m (spaceOf w2) (addrOf w2) (n * k)).1 is := by
  subst hn hk his
  simp only [withIndices, haligned, hcheck, bne_self_eq_false, Bool.and_false, Bool.false_eq_true, if_false]

theorem exec_gthxs_runs (haccepts : Accepts (.gthxs x) 0x33 s s1 im h w) {n ds k : Nat} {is : List Int} {plan : List EngAcc}
    (hn : n = wbits (w 3) 31 0) (hpos : n ≠ 0) (hds : ds = spaceOf (w 0)) (hok0 : addrOk 0b1001 (w 0) = true) (hok1 : addrOk 0b1 (w 1) = true)
    (hok2 : addrOk 0b11 (w 2) = true) (hzero : wbits (w 3) 33 32 = 0) (hzero' : wbits (w 3) 63 36 = 0)
    (hslots : s1.slotCause im ds (addrOf (w 0)) n = none) (hk : k = if (w 3).getLsbD 34 then 8 else 4) (haligned : addrOf (w 2) % k = 0)
    (hcheck : s1.checkAll im [⟨spaceOf (w 2), addrOf (w 2), n * k, .load⟩] = (s2, none))
    (his : is = (cutBytes k n (s2.readS im (spaceOf (w 2)) (addrOf (w 2)) (n * k)).2).map (idxOf ((w 3).getLsbD 34) ((w 3).getLsbD 35)))
    (hmove : (s2.readS im (spaceOf (w 2)) (addrOf (w 2)) (n * k)).1.moveImages im 0 ds (is.map (fun i => wrapNat 56 ((addrOf (w 1) : Int) + i * 4096)))
      ((upFrom 0 n).map (fun k => if ds = 3 then addrOf (w 0) + k else (addrOf (w 0) + 4096 * k) % 2 ^ 56)) true false = .run s3 plan) :
    exec (.gthxs x) s = .next (commandRuns s.curEng s3 im plan) := by
  subst hds
  refine exec_runs haccepts rfl rfl ?_
  simp only [hok0, hok1, hok2, hzero, hzero', ← hn, hslots, hpos, Bool.not_true, bne_self_eq_false, Bool.or_self, Bool.false_eq_true, if_false]
  rw [withIndices_reads hn hk haligned hcheck his]
  exact hmove

/-! ### GTH, SCT and SCTA (R268) -/

/-- Elements that are aligned and accessible move, each between its place in the list and its indexed place. -/
theorem moveElems_runs {m : InMsg} {gather add : Bool} {n k z : Nat} {is : List Int} {l : List (Nat × Nat)} (hn : n = wbits (w 3) 31 0)
    (hk : k = if (w 3).getLsbD 34 then 8 else 4) (haligned : addrOf (w 2) % k = 0)
    (hcheck : s.checkAll m [⟨spaceOf (w 2), addrOf (w 2), n * k, .load⟩] = (s1, none))
    (his : is = (cutBytes k n (s1.readS m (spaceOf (w 2)) (addrOf (w 2)) (n * k)).2).map (idxOf ((w 3).getLsbD 34) ((w 3).getLsbD 35)))
    (hz : z = 2 ^ wbits (w 3) 33 32) (hl : l = elemPairs (addrOf (w 0)) (addrOf (w 1)) (wbits (w 3) 33 32) is) (helems : unaligned z l = none)
    (part : Nat × Nat → EngAcc) (hpart : part = fun p => if gather then { ss := spaceOf (w 1), a := p.2, ds := spaceOf (w 0), d := p.1, n := z }
      else { ss := spaceOf (w 0), a := p.1, ds := spaceOf (w 1), d := p.2, n := z, add := add })
    (haccess : (s1.readS m (spaceOf (w 2)) (addrOf (w 2)) (n * k)).1.checkAll m (l.flatMap (fun p =>
      [⟨(part p).ss, (part p).a, z, .load⟩, ⟨(part p).ds, (part p).d, z, if add then .atomic else .store⟩])) = (s2, none)) :
    moveElems s m w gather add = .run s2 (l.map part) := by
  rw [moveElems, withIndices_reads hn hk haligned hcheck his]
  subst hz hl hpart
  simp only [helems]
  exact accept_runs haccess _
end

theorem opcode_of_accepts {i : Instr} {o opc N h : Nat} {msg : Message} {s s1 : State} {im : InMsg} {w : Nat → Word} (hcmd : cmdOf i = some (o, N, msg))
    (haccepts : Accepts i opc s s1 im h w) : opc = o := by
  obtain ⟨N', hcmd', -⟩ := runCommand_accepts haccepts
  cases hcmd.symm.trans hcmd'
  rfl

/-- Settles O39: the commands by their own lemmas; a first part is read, or stored, alone. -/
theorem dataCommandsMoveTheirBytes : Obligations.DataCommandsMoveTheirBytes := by
  unfold Obligations.DataCommandsMoveTheirBytes
  refine ⟨⟨?cpy, ?cpy2d, ?fill, ?wsfl⟩, ⟨?read, ?store, fun r p rest => plan_did_first, fun s i ks r hr hidle => performAccess_idle hr hidle ks⟩,
    ?cpyxs, ?gthxs, ?gather⟩
  case cpy =>
    rintro x h _ _ _ s s1 im w haccepts rfl rfl rfl
    exact ⟨exec_cpy_refused haccepts, fun s2 => exec_cpy_runs haccepts, exec_cpy_empty haccepts⟩
  case cpy2d =>
    rintro x h _ _ s s1 s2 im w pairs _ haccepts rfl rfl hn hrows hdst hsrc hzero hpairs happart rfl hcheck
    exact exec_cpy2d_runs haccepts hn hrows hdst hsrc hzero hpairs happart hcheck
  case fill =>
    rintro x h _ _ s s1 s2 im w haccepts rfl rfl hn hdst hzero hcheck
    exact exec_fill_runs haccepts hn hdst hzero hcheck
  case wsfl =>
    intro x h n d s s1 s2 im w dies haccepts hn hd hpos hdst hsrc hzero hd8 hn8 hfits hdies hphase hcheck
    exact exec_wsfl_runs haccepts hn.symm hd.symm hpos hdst hsrc hzero hd8 hn8 hfits hdies hphase hcheck
  case read =>
    intro s i r p rest hr hplan htile hgoes hgot hpos hlocal _ hothers
    have hread : p.read = false := by
      rw [EngAcc.read, hgot, List.length_nil]
      exact beq_eq_false_iff_ne.2 hpos.ne
    rw [performAccess_reads hr hplan htile hgoes hread]
    refine loadPart_alone hr hplan hlocal (by simp [readTogether, htile, hread]) fun q hq => ?_
    rcases hothers q hq with h | h | h <;> simp [readTogether, h, hlocal]
  case store =>
    intro s i r p rest hr hplan htile hgoes hadd hgot _ hothers
    have hapart : ∀ q ∈ rest, p.sameUnit q = false := by
      intro q hq
      rcases hothers q hq with h | h | h <;> simp [EngAcc.sameUnit, h]
    rw [performAccess_stores hr hplan htile hgoes (beq_iff_eq.2 hgot) hapart, group_alone hplan htile hothers]
    exact ⟨fun hlocal => storeGroup_local hplan hlocal hadd, storeGroup_weights hplan⟩
  case cpyxs =>
    intro x h n s s1 s2 im w places ss ds sst dst plan haccepts hn hds hss hsst hdst hplaces
    exact exec_cpyxs_runs haccepts hn hds hss hsst hdst hplaces
  case gthxs =>
    intro x h n ds s s1 s2 s3 im w is k plan haccepts hn hpos hds
    exact exec_gthxs_runs haccepts hn hpos hds
  case gather =>
    rintro i x opc h n k z s s1 s2 s3 im w is l _ hi haccepts hn hok hk haligned hcheck his hz hl helems rfl haccess
    have hmove := fun gather add => moveElems_runs (s := s1) (s1 := s2) (s2 := s3) (m := im) (gather := gather) (add := add) hn hk haligned hcheck his hz hl
      helems _ rfl
    simp only [List.mem_cons, List.not_mem_nil, or_false] at hi
    rcases hi with rfl | rfl | rfl
    · obtain rfl := opcode_of_accepts rfl haccepts
      exact exec_runs haccepts rfl rfl ((if_neg (by simpa using hok)).trans (hmove true false haccess))
    · obtain rfl := opcode_of_accepts rfl haccepts
      exact exec_runs haccepts rfl rfl ((if_neg (by simpa using hok)).trans (hmove false false haccess))
    · obtain rfl := opcode_of_accepts rfl haccepts
      exact exec_runs haccepts rfl rfl ((if_neg (by simpa using hok)).trans (hmove false true haccess))

end Sys2Proof.Proofs

/-! PROOFS. Collective commands (R112, R269): which contributions join a round, and which rounds are refused. -/

namespace Sys2Proof.Proofs

open Sys2Proof Sys2Proof.Machine Sys2Proof.Laws Sys2Proof.Claims

/-! ### The collective commands -/

/-- A command whose opcode is one of the collective engine runs as a collective. -/
theorem exec_collective {i : Instr} {opc N : Nat} {msg : Message} (hcmd : cmdOf i = some (opc, N, msg)) (hopc : 0x40 ≤ opc) (s : State) :
    exec i s = .next (runCollective opc msg s) := by
  cases i with
  | cred _ | cagt _ | crsc _ | cbcs _ | cbar _ => cases hcmd; rfl
  | _ => cases hcmd <;> exact absurd hopc (by decide)

/-- A group whose participants are all here has no other devices. -/
theorem otherDevs_local {s : State} {l : List (Nat × Nat)} (h : ∀ p ∈ l, p.1 = s.devNum.toNat) : s.otherDevs l = [] := by
  rw [State.otherDevs, List.filter_eq_nil_iff]
  intro d hd
  rw [List.mem_eraseDups, List.mem_map] at hd
  obtain ⟨p, hp, rfl⟩ := hd
  simp [h p hp]

/-- The form of the operands of a collective command. -/
def CollForm (opc : Nat) (w : Nat → Word) : Prop :=
  wbits (w 0) 15 13 = 0 ∧ wbits (w 0) 63 56 = 0 ∧ collOp (w 0) ≠ 3 ∧ collFmt (w 0) ≤ 3 ∧ (opc = 0x44 ∨ addrOk 0b1 (w 1) = true ∧ addrOk 0b1 (w 2) = true)

/-- The operands of a command of that form pass their check. -/
theorem CollForm.passes {opc : Nat} {w : Nat → Word} (h : CollForm opc w) :
    (wbits (w 0) 15 13 != 0 || wbits (w 0) 63 56 != 0 || decide (collOp (w 0) = 3) || decide (3 < collFmt (w 0)) ||
      (opc != 0x44 && (!addrOk 0b1 (w 1) || !addrOk 0b1 (w 2)))) = false := by
  obtain ⟨hzero, hzero', hop, hfmt, haddr⟩ := h
  rcases haddr with haddr | haddr <;> simp [hzero, hzero', hop, hfmt, haddr]

section
variable {opc h ph : Nat} {s s1 s2 : State} {i : Instr} {im : InMsg} {w : Nat → Word} {l : List (Nat × Nat)}
  (hcmd : cmdOf i = some (opc, if opc = 0x44 then 1 else 3, im.msg)) (hopc : 0x40 ≤ opc) (haccepts : Accepts i opc s s1 im h w) (hform : CollForm opc w)
include hcmd hopc haccepts hform

theorem exec_collective_noGroup (hgroup : s1.collGroup (s1.unit im.unit) (collGrp (w 0)) = none) :
    exec i s = .next (commandRefused s.curEng s1 im 0x0CB (wd h)) := by
  refine exec_refused haccepts hcmd (exec_collective hcmd hopc s) ?_
  simp only [hform.passes, hgroup, Bool.false_eq_true, if_false]

variable (hgroup : s1.collGroup (s1.unit im.unit) (collGrp (w 0)) = some (ph, l))
include hgroup

/-- A sender outside a group whose participants are all here has the round refused, and then its own command. -/
theorem exec_collective_outside (hrank : rankOf l s1.devNum.toNat (s1.unit im.unit).unitid.toNat = none) (hlocal : ∀ p ∈ l, p.1 = s1.devNum.toNat) :
    exec i s = .next (commandRefused s.curEng (s1.refuseRound ph (collGrp (w 0))) im 0x0CB (wd h)) := by
  refine exec_refused haccepts hcmd (exec_collective hcmd hopc s) ?_
  simp only [hform.passes, hgroup, hrank, otherDevs_local hlocal, List.foldl_nil, Bool.false_eq_true, if_false]

/-- A contribution that passes its checks joins the round with its source elements. -/
theorem exec_collective_joins {rank z n : Nat} {t : State} {vals : List Nat}
    (hrank : rankOf l s1.devNum.toNat (s1.unit im.unit).unitid.toNat = some rank) (hroot : opc = 0x43 → collRoot (w 0) < l.length)
    (hreleased : s1.unitReleased im.unit 3 = true)
    (hfree : s1.colls.any (fun r => r.phase == ph && r.grp == collGrp (w 0) && r.parts.any (fun p => p.rank == rank)) = false)
    (hz : z = collSize (w 0)) (haligned : opc = 0x44 ∨ addrOf (w 1) % z = 0 ∧ addrOf (w 2) % z = 0)
    (hn : n = collSrc opc (w 0) l.length rank * z)
    (hcheck : s1.checkAll im ([⟨0, addrOf (w 2), n, .load⟩, ⟨0, addrOf (w 1), collDst opc (w 0) l.length * z, .store⟩].filter (fun a => a.n != 0)) =
      (s2, none))
    (hread : (t, vals) = (if n = 0 then (s2, []) else ((s2.readRange im.cl im.job (addrOf (w 2)) n).1,
      (cutBytes z (n / z) (s2.readRange im.cl im.job (addrOf (w 2)) n).2).map leNat))) (hlocal : ∀ p ∈ l, p.1 = t.devNum.toNat) :
    exec i s = .next (commandTaken s.curEng { t.addPart im.job ph (collGrp (w 0))
        { rank := rank, m := some im, opc := opc, ctl := w 0, dst := w 1, src := vals, total := vals.length } with
      runs := t.runs ++ [{ m := im, eng := t.curEng, done := false, scope := 3 }] }) := by
  subst hz hn
  have hinside : (opc = 0x43 && decide (l.length ≤ collRoot (w 0))) = false := by
    by_cases h43 : opc = 0x43
    · simpa [h43] using hroot h43
    · simp [h43]
  have hdst : (collDst opc (w 0) l.length * collSize (w 0) != 0 && addrOf (w 1) % collSize (w 0) != 0) = false := by
    rcases haligned with h44 | ⟨haligned, -⟩
    · simp [h44, collDst]
    · simp [haligned]
  have hsrc : (collSrc opc (w 0) l.length rank * collSize (w 0) != 0 && addrOf (w 2) % collSize (w 0) != 0) = false := by
    rcases haligned with h44 | ⟨-, haligned⟩
    · simp [h44, collSrc]
    · simp [haligned]
  have hsource : ((if collSrc opc (w 0) l.length rank * collSize (w 0) = 0 then (s2, [])
      else s2.readS im 0 (addrOf (w 2)) (collSrc opc (w 0) l.length rank * collSize (w 0))).1 = t) ∧
      (cutBytes (collSize (w 0)) (collSrc opc (w 0) l.length rank * collSize (w 0) / collSize (w 0))
        (if collSrc opc (w 0) l.length rank * collSize (w 0) = 0 then (s2, [])
          else s2.readS im 0 (addrOf (w 2)) (collSrc opc (w 0) l.length rank * collSize (w 0))).2).map leNat = vals := by
    by_cases hempty : collSrc opc (w 0) l.length rank * collSize (w 0) = 0
    · rw [if_pos hempty] at hread
      cases hread
      rw [if_pos hempty, hempty, Nat.zero_div]
      exact ⟨rfl, rfl⟩
    · rw [if_neg hempty] at hread
      cases hread
      rw [if_neg hempty]
      exact ⟨rfl, rfl⟩
  have hothers : ∀ q : CollPart, (t.addPart im.job ph (collGrp (w 0)) q).otherDevs l = [] := fun q => otherDevs_local hlocal
  refine exec_taken haccepts hcmd (exec_collective hcmd hopc s) ?_
  simp only [hform.passes, hgroup, hrank, hinside, hreleased, hfree, hdst, hsrc, hcheck, hsource.1, hsource.2, hothers, List.foldl_nil, Bool.not_true,
    Bool.false_eq_true, if_false]
  rfl
end

/-! ### Results -/

theorem refuseRound_of_find {s : State} {ph g : Nat} {c : CollRound} (h : s.colls.find? (fun c => c.phase == ph && c.grp == g) = some c) :
    s.refuseRound ph g = c.parts.foldl State.refusePart (s.dropColl ph g) := by
  rw [State.refuseRound, h]

/-- Settles O40: the three answers of a collective command, and what a round leaves. -/
theorem collectiveCommandsJoinTheirRound : Obligations.CollectiveCommandsJoinTheirRound := by
  unfold Obligations.CollectiveCommandsJoinTheirRound
  refine ⟨?joins, ?refused, fun s ph g c => refuseRound_of_find, fun wd0 P r ps _ => ⟨rfl, rfl, rfl⟩⟩
  case joins =>
    intro i opc h ph rank z n s s1 s2 t im w l vals hcmd hopc haccepts hzero hzero' hop hfmt haddr hgroup
    exact exec_collective_joins hcmd hopc haccepts ⟨hzero, hzero', hop, hfmt, haddr⟩ hgroup
  case refused =>
    intro i opc h s s1 im w hcmd hopc haccepts hzero hzero' hop hfmt haddr
    have hform : CollForm opc w := ⟨hzero, hzero', hop, hfmt, haddr⟩
    exact ⟨exec_collective_noGroup hcmd hopc haccepts hform, fun ph l => exec_collective_outside hcmd hopc haccepts hform⟩

end Sys2Proof.Proofs

/-! PROOFS. Restore (R363), the watchdog, WFE and errors in a unit's state (R279, R368, R370). -/

namespace Sys2Proof.Proofs

open Sys2Proof Sys2Proof.Machine Sys2Proof.Laws Sys2Proof.Claims

/-! ### Restore (R363) -/

/-- The state in which the engine state of a saved unit has been returned, on clusters whose CIM slots and tables are empty. -/
def enginesReturned (s : State) (uid : Nat) (u : UnitSt) : State :=
  if u.claim then u.clusterList.foldl (fun t c => t.restoreCluster uid c (agetD u.savedEng (c - u.lead) {})) (u.clusterList.foldl State.emptyCim s)
  else u.clusterList.foldl State.emptyCim s

/-- The state in which the sequencer of a saved unit has started, with the PEs `pes`. -/
def restarted (s : State) (uid : Nat) (u : UnitSt) (pes : List (Nat × PeCtx)) : State :=
  ((enginesReturned s uid u).returnWork u).startSequencer uid (fun x => { x with
    pes := pes, ms := [], sb := x.sb.map (enginesReturned s uid u).relocateL, savedEng := [], savedMsgs := [], savedRuns := [], savedMq := []
    haltRanks := [], overrun := false })

/-- The restore of a unit: its halts, matching store, replies and gates after the start, and the faults that wait. -/
def restored (s : State) (uid : Nat) (u : UnitSt) (pes : List (Nat × PeCtx)) : State :=
  ((((((restarted s uid u pes).returnHalts u).returnMs uid u.ms).returnReplies uid).releaseGates uid).takePending uid).endStranded uid

section
variable {s : State} {u : UnitSt} (hu : aget s.units s.ev.u = some u) (hst : u.status = .placed (some none)) (hok : s.startOk u.die = true)
  (hbefore : s.placedBefore u = false) (hready : s.readyBefore u = false)
include hu hst hok hbefore hready

/-- A line of the save area that fails its check ends the unit. -/
theorem exec_unitRestore_badLine {l : Nat} (hbad : (upFrom (u.saveArea / 128) (u.saveLen / 128)).find? (fun l => s.bad.contains l) = some l) :
    exec .unitRestore s = .next ((s.endFaulted s.ev.u 0x161 0 0#64 (wd (l * 128))).modCluster u.lead (fun c => { c with pending := true })) := by
  show execUnitRestore s = _
  simp only [execUnitRestore, nextS, hu, hst, hok, hbefore, hready, hbad, bne_self_eq_false, Bool.not_true, Bool.or_self, Bool.false_eq_true, if_false]

variable (hgood : (upFrom (u.saveArea / 128) (u.saveLen / 128)).any (fun l => s.bad.contains l) = false)
include hgood

/-- A unit without an image returns with its own PEs. -/
theorem exec_unitRestore_noImage (himage : u.active = none) : exec .unitRestore s = .next (restored s s.ev.u u u.pes) := by
  have hfind : (upFrom (u.saveArea / 128) (u.saveLen / 128)).find? (fun l => s.bad.contains l) = none := by
    rw [List.find?_eq_none]
    exact List.any_eq_false.1 hgood
  show execUnitRestore s = _
  simp only [execUnitRestore, nextS, hu, hst, hok, hbefore, hready, hfind, himage, bne_self_eq_false, Bool.not_true, Bool.or_self, Bool.false_eq_true,
    if_false]
  rfl

/-- A unit with an image returns with the image's PEs, once it has been streamed again. -/
theorem exec_unitRestore_image {s1 : State} {a img : Image} (himage : u.active = some a) (hload : s.loadImage u a.addr.toNat = (s1, .ok img)) :
    exec .unitRestore s = .next (restored s1 s.ev.u u (u.restoredPes img)) := by
  have hfind : (upFrom (u.saveArea / 128) (u.saveLen / 128)).find? (fun l => s.bad.contains l) = none := by
    rw [List.find?_eq_none]
    exact List.any_eq_false.1 hgood
  show execUnitRestore s = _
  simp only [execUnitRestore, nextS, hu, hst, hok, hbefore, hready, hfind, himage, hload, bne_self_eq_false, Bool.not_true, Bool.or_self,
    Bool.false_eq_true, if_false]
  rfl
end

theorem cluster_emptyCim (s : State) (cl : Nat) : ((s.emptyCim cl).cluster cl).cim = [] ∧ ((s.emptyCim cl).cluster cl).tables = [] := by
  rw [State.emptyCim, State.cluster_modCluster_self]
  exact ⟨rfl, rfl⟩

/-- A map that keeps the keys changes each value. -/
theorem aget_map_of_fst {κ α : Type} [DecidableEq κ] {l : List (κ × α)} {f : κ × α → κ × α} (hf : ∀ p, (f p).1 = p.1) {k : κ} {v : α}
    (h : aget l k = some v) : aget (l.map f) k = some (f (k, v)).2 := by
  induction l with
  | nil => cases h
  | cons p l ih =>
    obtain ⟨k', v'⟩ := p
    have hmap : aget (((k', v') :: l).map f) k = if k' = k then some (f (k', v')).2 else aget (l.map f) k := by
      show (if (f (k', v')).1 = k then some (f (k', v')).2 else aget (l.map f) k) = _
      rw [hf]
    rw [hmap]
    by_cases hk : k' = k
    · subst hk
      rw [aget, if_pos rfl] at h
      rw [if_pos rfl, Option.some.inj h]
    · rw [aget, if_neg hk] at h
      rw [if_neg hk, ih h]

/-- A restored PE has the word of the image and the saved record of its node. -/
theorem aget_restoredPes {u : UnitSt} {img : Image} {k : Nat} {o n : PeCtx} (ho : aget u.pes k = some o) (hn : aget img.pes k = some n) :
    aget (u.restoredPes img) k = some { n with
      ereg := o.ereg, q := o.q, node := o.node, out := o.out, held := o.held, constFired := o.constFired, halted := o.haltSaved } := by
  rw [UnitSt.restoredPes, aget_map_of_fst _ hn, ho]
  intro p
  split <;> rfl

/-! ### The watchdog, WFE and errors (R279, R368, R370) -/

theorem exec_watchdogExpiry {s : State} (hrunning : (s.unit s.ev.u).isRunning = true) (hfree : (s.job (s.unit s.ev.u).job).debugHold = false) :
    exec .watchdogExpiry s = .next (if 2 ^ 28 ≤ (s.unit s.ev.u).watchdog then s.takeFault s.ev.u none { cause := 0x111, tepc := (s.unit s.ev.u).ccnt }
      else s) := by
  show execWatchdogExpiry s = _
  simp only [execWatchdogExpiry, nextS, hrunning, hfree, Bool.true_and, Bool.not_false, Bool.and_true, decide_eq_true_eq]

section
variable {s : State} {line : Option Nat} {tag since : Nat} (hwait : (s.unit s.ev.u).wait = .wfe line tag since)
  (hrunning : (s.unit s.ev.u).isRunning = true)
include hwait hrunning

/-- A WFE ends by a write to its line, by the time, or by an end of its own. -/
theorem exec_wfeWake : exec .wfeWake s = .next (if (line.any (fun l => (s.dirOf l).tag.toNat != tag) ||
    decide (2 ^ 16 ≤ ((s.die (dieOf (s.unit s.ev.u).lead)).cyc - wd since).toNat) || s.ev.flag) = true then s.nextWord s.ev.u else s) := by
  show execWfeWake s = _
  simp only [execWfeWake, nextS, hwait, hrunning, Bool.true_and]

theorem exec_wfeWake_ends (h : (∃ l, line = some l ∧ (s.dirOf l).tag.toNat ≠ tag) ∨
      2 ^ 16 ≤ ((s.die (dieOf (s.unit s.ev.u).lead)).cyc - wd since).toNat ∨ s.ev.flag = true) : exec .wfeWake s = .next (s.nextWord s.ev.u) := by
  rw [exec_wfeWake hwait hrunning, if_pos]
  rcases h with ⟨l, rfl, hwrote⟩ | hlate | hflag
  · simp [hwrote]
  · rw [decide_eq_true hlate, Bool.or_true, Bool.true_or]
  · rw [hflag, Bool.or_true]

theorem exec_wfeWake_waits (hline : ∀ l, line = some l → (s.dirOf l).tag.toNat = tag)
    (hearly : ((s.die (dieOf (s.unit s.ev.u).lead)).cyc - wd since).toNat < 2 ^ 16) (hflag : s.ev.flag = false) : exec .wfeWake s = .next s := by
  have hunwritten : line.any (fun l => (s.dirOf l).tag.toNat != tag) = false := by
    cases line with
    | none => rfl
    | some l => simp [hline l rfl]
  rw [exec_wfeWake hwait hrunning, hunwritten, hflag, decide_eq_false (not_le.2 hearly)]
  rfl
end

theorem exec_unitStateError {s : State} {uid : Nat} (h : s.unitAt s.ev.site.cl s.ev.site.ctx = some uid) :
    exec .unitStateError s = .next (((s.endFaulted uid (if s.ev.flag then 0x162 else 0x161) 0 6#64).count 18 1).modCluster s.ev.site.cl
      (fun c => { c with pending := true })) := by
  show execUnitStateError s = _
  simp only [execUnitStateError, nextS, h]

/-- Settles O50: restore by its cases, and the three events that watch a unit. -/
theorem unitsAreRestoredAndWatched : Obligations.UnitsAreRestoredAndWatched := by
  unfold Obligations.UnitsAreRestoredAndWatched
  refine ⟨⟨?noImage, ?image, fun s u l hu hst hok hbefore hready => exec_unitRestore_badLine hu hst hok hbefore hready, cluster_emptyCim, ?pes⟩,
    fun s => exec_watchdogExpiry, fun s line tag since hwait hrunning => ⟨exec_wfeWake_ends hwait hrunning, exec_wfeWake_waits hwait hrunning⟩,
    fun s uid => exec_unitStateError⟩
  case noImage =>
    rintro s _ _ _ u hu hst hok hbefore hready hgood himage rfl rfl rfl
    exact exec_unitRestore_noImage hu hst hok hbefore hready hgood himage
  case image =>
    rintro s s1 _ _ _ u a img hu hst hok hbefore hready hgood himage hload rfl rfl rfl
    exact exec_unitRestore_image hu hst hok hbefore hready hgood himage hload
  case pes =>
    intro u img k o n ho hn
    exact ⟨_, aget_restoredPes ho hn, rfl, rfl, rfl, rfl, rfl, rfl, rfl⟩

end Sys2Proof.Proofs

/-! PROOFS. Steps (R148, R153, R261, R274, R302): the head of the agenda takes its turn, and what it holds is decoded and executed. -/

namespace Sys2Proof.Proofs

open Sys2Proof Sys2Proof.Machine Sys2Proof.Laws Sys2Proof.Claims

/-! ### The head of the agenda -/

theorem step_cons {s : State} {p : Pick} {rest : List Pick} (h : s.agenda = p :: rest) : step s = State.runPick { s with agenda := rest } p := by
  simp only [step, h]

/-! ### PEs (R302) -/

theorem peInstr_consumes {s : State} {cl x y c uid : Nat} {p : PeCtx} (hunit : s.unitAt cl c = some uid)
    (hp : p = (s.unit uid).pe ((s.unit uid).keyOf ⟨cl, x, y, c⟩)) (hc : p.consumes = true) :
    s.peInstr cl x y c = decodePe p.op p.seq p.imm := by
  subst hp
  simp only [State.peInstr, hunit, Option.bind_some, hc, if_true]

theorem runPe_chosen {s : State} {cl x y c : Nat} {i : Instr} (hturn : s.peTurn cl x y = true) (hc : s.choosePe cl x y = some c)
    (hi : s.peInstr cl x y c = some i) : s.runPe cl x y = exec i { s.takeTurn cl x y with focus := ⟨cl, x, y, c⟩ } := by
  simp only [State.runPe, hturn, Bool.not_true, Bool.false_eq_true, if_false, hc, hi]

theorem runPe_unready {s : State} {cl x y : Nat} (hturn : s.peTurn cl x y = true) (hc : s.choosePe cl x y = none) :
    s.runPe cl x y = .next (s.takeTurn cl x y) := by
  simp only [State.runPe, hturn, Bool.not_true, Bool.false_eq_true, if_false, hc]

theorem runPe_turnless {s : State} {cl x y : Nat} (hturn : s.peTurn cl x y = false) : s.runPe cl x y = .next s := by
  simp only [State.runPe, hturn, Bool.not_false, if_true]

/-! ### Sequencers (R148, R274) -/

theorem runWord_fetched {s s1 : State} {uid : Nat} {u : UnitSt} {bs : List Byte} (hu : aget s.units uid = some u) (hseq : s.sequences u = true)
    (hread : readG s u.lead u.job u.ccnt.toNat 4 .fetch 3 = (s1, .ok bs)) :
    s.runWord uid = exec (decodeCtl (BitVec.ofNat 32 (leNat bs))) { s1.modUnit uid (fun u => { u with cameFrom := none }) with curUnit := uid } := by
  simp only [State.runWord, hu, hseq, Bool.not_true, Bool.false_eq_true, if_false, hread]

theorem runWord_faulted {s s1 : State} {uid : Nat} {u : UnitSt} {f : TFault} (hu : aget s.units uid = some u) (hseq : s.sequences u = true)
    (hread : readG s u.lead u.job u.ccnt.toNat 4 .fetch 3 = (s1, .error (.fault f))) : s.runWord uid = .next (s1.fetchFault uid f) := by
  simp only [State.runWord, hu, hseq, Bool.not_true, Bool.false_eq_true, if_false, hread]

/-! ### Engines (R153, R261) -/

/-- The head of an inbox, where its cluster is not halted or its unit drains (R367), acts as its opcode says. -/
theorem runMsg_head {s : State} {e : EngineId} {m : InMsg} {l : List InMsg} (hbox : s.inbox e = m :: l)
    (hgo : s.clusterHalted m.cl m.job = false ∨ (s.unit m.unit).isDraining = true) :
    (∀ i, cmdRow m.opc m.msg = some i → s.runMsg e = exec i { s with curEng := e }) ∧
    (cmdRow m.opc m.msg = none → s.runMsg e = .next ((s.setInbox e l).nack e m 0x0C1 0#64)) := by
  have hno : (s.clusterHalted m.cl m.job && !(s.unit m.unit).isDraining) = false := by
    rcases hgo with h | h <;> simp [h]
  refine ⟨fun i hi => ?_, fun hn => ?_⟩
  · simp only [State.runMsg, hbox, hno, Bool.false_eq_true, if_false, hi]
  · simp only [State.runMsg, hbox, hno, Bool.false_eq_true, if_false, hn]

/-! ### The statement -/

/-- Settles O4: a step is the turn of the head of the agenda, and each kind of turn by its own lemma above. -/
theorem stepsRunTheDecodedInstruction : Obligations.StepsRunTheDecodedInstruction := by
  unfold Obligations.StepsRunTheDecodedInstruction
  refine ⟨?pe, ?word, ?msg, ?event⟩
  case pe =>
    intro s s0 cl x y rest hag hs0
    have hstep : step s = s0.runPe cl x y := by rw [step_cons hag, hs0, State.runPick]
    have hsame : ∀ uid, s.unit uid = s0.unit uid := fun uid => by rw [hs0]; rfl
    simp only [hstep, hsame]
    refine ⟨fun c uid p i hturn hc hunit hp hcons hdec => ?_, runPe_unready, runPe_turnless⟩
    exact runPe_chosen hturn hc ((peInstr_consumes hunit hp hcons).trans hdec)
  case word =>
    intro s uid u rest hag hu hseq
    simp only [step_cons hag, State.runPick]
    exact ⟨fun s1 bs hread => runWord_fetched hu hseq hread, fun s1 f hread => runWord_faulted hu hseq hread⟩
  case msg =>
    intro s e m l rest hag hbox hgo
    simp only [step_cons hag, State.runPick]
    exact runMsg_head hbox hgo
  case event =>
    intro s i a rest hag
    rw [step_cons hag, State.runPick, State.runEvent]

end Sys2Proof.Proofs

/-! PROOFS. Faults that the handler does not take (R298, R341, R345, R351, R353): what writing a record leaves, stop handles, and escalation. -/

namespace Sys2Proof.Proofs

open Sys2Proof Sys2Proof.Machine Sys2Proof.Laws Sys2Proof.Claims

/-! ### What a write of the device's own machinery leaves (R85, R94, R117, R341) -/

/-- The state without what memory traffic and records change: memories, copies of lines, requests to hosts and devices, and rings. -/
def exceptTraffic (s : State) : State :=
  { s with mem := [], hmem := [], dir := [], clusters := [], net := [], fleet := {}, fyOut := [], hostAsk := [], hostHalf := []
           devPend := [], rings := [], msix := [] }

theorem exceptTraffic_foldl {α : Type} {f : State → α → State} (hf : ∀ s a, exceptTraffic (f s a) = exceptTraffic s) (l : List α) (s : State) :
    exceptTraffic (l.foldl f s) = exceptTraffic s := by
  induction l generalizing s with
  | nil => rfl
  | cons a r ih => rw [List.foldl_cons, ih, hf]

theorem exceptTraffic_asked {s t : State} (h : Asked s t) : exceptTraffic t = exceptTraffic s := by
  obtain ⟨_, _, _, _, rfl⟩ := h
  rfl

@[simp] theorem exceptTraffic_modDir (s : State) (l : Nat) (f : DirEntry → DirEntry) : exceptTraffic (s.modDir l f) = exceptTraffic s := rfl
@[simp] theorem exceptTraffic_bumpTag (s : State) (l : Nat) : exceptTraffic (s.bumpTag l) = exceptTraffic s := rfl
@[simp] theorem exceptTraffic_modCluster (s : State) (c : Nat) (f : Cluster → Cluster) : exceptTraffic (s.modCluster c f) = exceptTraffic s := rfl
@[simp] theorem exceptTraffic_sendSnoops (s : State) (xa n : Nat) (w : Bool) : exceptTraffic (s.sendSnoops xa n w) = exceptTraffic s :=
  exceptTraffic_asked (asked_sendSnoops s xa n w)
@[simp] theorem exceptTraffic_invRemote (s : State) (l : Nat) : exceptTraffic (s.invRemote l) = exceptTraffic s :=
  exceptTraffic_asked (asked_invRemote s l)

@[simp] theorem exceptTraffic_putHome (s : State) (xa : Nat) (b : Byte) : exceptTraffic (s.putHome xa b) = exceptTraffic s := by
  unfold State.putHome
  split_ifs <;> rfl

@[simp] theorem exceptTraffic_putHomeBytes (s : State) (xa : Nat) (bs : List Byte) : exceptTraffic (s.putHomeBytes xa bs) = exceptTraffic s := by
  induction bs generalizing s xa with
  | nil => rfl
  | cons b r ih => rw [State.putHomeBytes, ih, exceptTraffic_putHome]

@[simp] theorem exceptTraffic_writeWords (s : State) (region : Nat) (l : List (Nat × Word32)) :
    exceptTraffic (s.writeWords region l) = exceptTraffic s := by
  induction l generalizing s with
  | nil => rfl
  | cons p r ih => rw [State.writeWords, ih, exceptTraffic_putHomeBytes]

@[simp] theorem exceptTraffic_writeBack (s : State) (line : Nat) (l : List Span) : exceptTraffic (s.writeBack line l) = exceptTraffic s := by
  unfold State.writeBack
  dsimp only
  split
  · rfl
  · rw [exceptTraffic_bumpTag, exceptTraffic_writeWords]

@[simp] theorem exceptTraffic_splitLine (s : State) (cl line : Nat) (back : Bool) : exceptTraffic (s.splitLine cl line back).1 = exceptTraffic s := by
  simp only [State.splitLine, apply_ite Prod.fst, apply_ite exceptTraffic]
  exact ite_self _

@[simp] theorem exceptTraffic_shareLineOf (s : State) (cl line : Nat) : exceptTraffic (s.shareLineOf cl line) = exceptTraffic s := by
  simp only [State.shareLineOf, apply_ite exceptTraffic]
  exact ite_self _

@[simp] theorem exceptTraffic_takeLine (s : State) (cl line : Nat) (keep : Bool) : exceptTraffic (s.takeLine cl line keep) = exceptTraffic s := by
  simp only [State.takeLine, apply_ite exceptTraffic, exceptTraffic_writeBack, exceptTraffic_shareLineOf, exceptTraffic_splitLine, ite_self]

@[simp] theorem exceptTraffic_flushPuts (s : State) (line : Nat) : exceptTraffic (s.flushPuts line) = exceptTraffic s := by
  unfold State.flushPuts
  exact exceptTraffic_foldl (fun s m => by simp) _ _

@[simp] theorem exceptTraffic_recall (s : State) (line : Nat) (keep : Bool) : exceptTraffic (s.recall line keep) = exceptTraffic s := by
  have htake := exceptTraffic_foldl (fun s cl => exceptTraffic_takeLine s cl line keep) (s.clusters.map Prod.fst) (s.flushPuts line)
  simp only [State.recall, State.recallBut, apply_ite exceptTraffic, exceptTraffic_modDir, htake, exceptTraffic_flushPuts, ite_self]

theorem exceptTraffic_hostHalf (s : State) (l : List (Nat × Mesi)) : exceptTraffic { s with hostHalf := l } = exceptTraffic s := rfl

@[simp] theorem exceptTraffic_dirtyHalves (s : State) (xa n : Nat) : exceptTraffic (s.dirtyHalves xa n) = exceptTraffic s := by
  unfold State.dirtyHalves
  split
  · rfl
  · exact exceptTraffic_hostHalf s _

/-- A write performed at its home (R94). -/
@[simp] theorem exceptTraffic_devWrite (s : State) (pa : Nat) (bs : List Byte) : exceptTraffic (s.devWrite pa bs) = exceptTraffic s := by
  unfold State.devWrite State.homeWrite
  dsimp only
  rw [exceptTraffic_dirtyHalves, exceptTraffic_foldl exceptTraffic_bumpTag, exceptTraffic_putHomeBytes, exceptTraffic_foldl]
  intro s l
  rw [exceptTraffic_invRemote, exceptTraffic_recall]

/-- A record goes into its ring, is counted as lost, or waits (R341). -/
@[simp] theorem exceptTraffic_writeRecord (s : State) (ring : Nat) (r : FaultRec) : exceptTraffic (s.writeRecord ring r) = exceptTraffic s := by
  have hput : exceptTraffic (s.putRecord ring r.bytes) = exceptTraffic s := by
    unfold State.putRecord
    dsimp only
    split
    · rfl
    · exact exceptTraffic_devWrite s _ _
  unfold State.writeRecord State.writeRecordBytes
  dsimp only
  split
  · exact exceptTraffic_sendSnoops s _ 64 true
  · exact hput

@[simp] theorem units_writeRecord (s : State) (ring : Nat) (r : FaultRec) : (s.writeRecord ring r).units = s.units :=
  (congrArg State.units (exceptTraffic_writeRecord s ring r) :)
@[simp] theorem units_unitRecord (s : State) (uid : Nat) (r : FaultRec) : (s.unitRecord uid r).units = s.units := units_writeRecord ..
@[simp] theorem nextHandle_unitRecord (s : State) (uid : Nat) (r : FaultRec) : (s.unitRecord uid r).nextHandle = s.nextHandle :=
  (congrArg State.nextHandle (exceptTraffic_writeRecord s _ r) :)

/-! ### Stop handles (R353) -/

/-- The handles tried in turn: one more than are in use. -/
def handleCandidates (s : State) : List Nat :=
  (upFrom 0 (s.usedHandles.length + 1)).map (fun i => (Config.freeHandle s.nextHandle + i) % 65535 + 1)

theorem newHandle_eq (s : State) : s.newHandle = ((handleCandidates s).find? (fun h => !s.usedHandles.contains h)).getD 1 := rfl

theorem newHandle_range (s : State) : 1 ≤ s.newHandle ∧ s.newHandle < 65536 := by
  rw [newHandle_eq]
  cases hfind : (handleCandidates s).find? (fun h => !s.usedHandles.contains h) with
  | none => exact ⟨le_refl 1, by decide⟩
  | some h =>
    obtain ⟨i, -, rfl⟩ := List.mem_map.1 (List.mem_of_find?_eq_some hfind)
    exact ⟨Nat.le_add_left 1 _, Nat.succ_lt_succ (Nat.mod_lt _ (by decide))⟩

/-- As long as a handle is free, the candidates differ from each other. -/
theorem nodup_handleCandidates {s : State} (h : s.usedHandles.length < 65535) : (handleCandidates s).Nodup := by
  rw [handleCandidates, upFrom_eq_range']
  refine List.Nodup.map_on (fun i hi j hj hij => ?_) List.nodup_range'
  rw [← upFrom_eq_range', mem_upFrom] at hi hj
  omega

/-- More candidates than handles in use: one of them is free. -/
theorem newHandle_unused {s : State} (h : s.usedHandles.length < 65535) : s.newHandle ∉ s.usedHandles := by
  rw [newHandle_eq]
  cases hfind : (handleCandidates s).find? (fun h => !s.usedHandles.contains h) with
  | none =>
    have hsub : handleCandidates s ⊆ s.usedHandles := fun x hx => by simpa using List.find?_eq_none.1 hfind x hx
    have hlen := ((nodup_handleCandidates h).subperm hsub).length_le
    rw [handleCandidates, List.length_map, length_upFrom] at hlen
    omega
  | some x => simpa using List.find?_some hfind

/-! ### Escalation (R345, R351, R353) -/

section
variable {s : State} {uid : Nat} {u : UnitSt} {key : Option Nat} {r : Raised} (hu : aget s.units uid = some u)
include hu

theorem takeFault_escalates (hst : u.status = .running)
    (hwhy : isStopCause r.cause = true ∨ u.handler = false ∧ u.tvec = 0#64 ∨ u.handler = true ∧ r.ctl = true) :
    s.takeFault uid key r = s.escalate uid key r := by
  simp only [State.takeFault, State.unit_of_aget hu, hst]
  rcases hwhy with hstop | ⟨hout, hvec⟩ | ⟨hin, hctl⟩
  · rw [if_pos hstop]
  · simp only [hout, hvec, Bool.false_eq_true, if_false, if_true, ite_self]
  · simp only [hin, hctl, if_true, ite_self]

/-- A fabric fault in handler mode waits behind the one being handled. -/
theorem takeFault_waits (hst : u.status = .running) (hin : u.handler = true) (hctl : r.ctl = false) (hcause : isStopCause r.cause = false) :
    s.takeFault uid key r = s.modUnit uid (fun u => { u with pend := u.pend ++ [(key, r)] }) := by
  simp only [State.takeFault, State.unit_of_aget hu, hst, hin, hctl, hcause, Bool.false_eq_true, if_false, if_true]

theorem escalate_stops (hst : u.status = .running) : ((s.escalate uid key r).unit uid).status = .stopped s.newHandle ∧
    ((s.escalate uid key r).unit uid).lead = u.lead ∧ (s.escalate uid key r).nextHandle = s.nextHandle + 1 := by
  have hgo : u.isDraining = false := by simp only [UnitSt.isDraining, hst]
  simp only [State.escalate, State.unit_of_aget hu, hgo, Bool.false_eq_true, if_false]
  rw [State.unit_modUnit_self (x := u) (by rw [units_unitRecord]; exact hu), State.modUnit_nextHandle, nextHandle_unitRecord]
  exact ⟨rfl, rfl, rfl⟩

theorem takeFault_draining {since : Nat} {stop : Option Nat} (hst : u.status = .draining since stop) :
    s.takeFault uid key r = (s.unitRecord uid { faultRec u key r with uend := true }).endUnit uid 3 := by
  have hdrain : u.isDraining = true := by simp only [UnitSt.isDraining, hst]
  simp only [State.takeFault, State.escalate, State.unit_of_aget hu, hst, hdrain, if_true]
end

/-- Settles O28: escalation with its stop handle, the fault that waits, and the end of a draining unit, by the lemmas above. -/
theorem otherFaultsWaitStopOrEnd : Obligations.OtherFaultsWaitStopOrEnd := by
  unfold Obligations.OtherFaultsWaitStopOrEnd
  refine ⟨?stops, fun s uid u key r hu hst hin hctl hcause => takeFault_waits hu hst hin hctl hcause,
    fun s uid since stop u key r hu hst => takeFault_draining hu hst⟩
  intro s uid u key r hu hst hwhy
  obtain ⟨hstatus, hlead, hnext⟩ := escalate_stops (key := key) (r := r) hu hst
  obtain ⟨hlow, hhigh⟩ := newHandle_range s
  rw [takeFault_escalates hu hst hwhy]
  exact ⟨hstatus, hlead, hnext, hlow, hhigh, newHandle_unused⟩

end Sys2Proof.Proofs

/-! PROOFS. Pre-emption (R296 to R298, R361, R362): quanta, requests, drains that end or overrun, and deadlines that are missed. -/

namespace Sys2Proof.Proofs

open Sys2Proof Sys2Proof.Machine Sys2Proof.Laws Sys2Proof.Claims

/-! ### Quanta and deadlines (R296 to R298) -/

theorem exec_quantumExpiry {s : State} (hrunning : (s.unit s.ev.u).isRunning = true) (hcls : (s.job (s.unit s.ev.u).job).cls ≠ 0)
    (hlen : quantumLen ≤ (s.unit s.ev.u).quantum) :
    exec .quantumExpiry s = .next (if s.displaced (s.unit s.ev.u) true then s.requestPreempt s.ev.u true
      else s.modUnit s.ev.u (fun x => { x with quantum := x.quantum - quantumLen })) := by
  have hno : (!(s.unit s.ev.u).isRunning || (s.job (s.unit s.ev.u).job).cls == 0 || decide ((s.unit s.ev.u).quantum < quantumLen)) = false := by
    simp only [hrunning, beq_eq_false_iff_ne.2 hcls, decide_eq_false (not_lt.2 hlen), Bool.not_true, Bool.or_self]
  show execQuantumExpiry s = _
  simp only [execQuantumExpiry, nextS, hno, Bool.false_eq_true, if_false]

/-- The first deadline unit of a die without a region drains the units it picks, and their clusters are reserved for it (R297). -/
theorem exec_preemptRequest {s : State} {r : Ready} {die b : Nat} {us : List UnitSt}
    (hfirst : s.firstServed s.ev.die (s.ready.filter (fun r => (s.job r.job).cls == 0 && r.waitsOn s.ev.die && (s.bestRegion s.ready r).isNone &&
      !s.reserved.any (fun p => p.2 == (r.inst, r.node, r.idx)) && (s.pickVictims r s.ready).isSome)) = some r)
    (hpick : s.pickVictims r s.ready = some (die, b, us)) {t : State} (ht : t = (us.map UnitSt.id).foldl (fun s u => s.requestPreempt u true) s) :
    exec .preemptRequest s =
      .next { t with reserved := t.reserved ++ (regionClusters r.d.rshape die b).map (fun c => (c, (r.inst, r.node, r.idx))) } := by
  subst ht
  show execPreemptRequest s = _
  simp only [execPreemptRequest, nextS, hfirst, hpick]

theorem exec_deadlineMissed {s : State} {j : Job} (hj : aget s.jobs s.ev.job = some j) (hcls : j.cls = 0) (hlive : j.ended = false)
    (hnew : j.missed = false) :
    exec .deadlineMissed s = .next (if s.hub.toNat ≤ j.deadline then s
      else (s.modJob s.ev.job (fun x => { x with missed := true })).jobRecord s.ev.job 0x110 2 0 0 0) := by
  show execDeadlineMissed s = _
  simp only [execDeadlineMissed, nextS, hj, hcls, hlive, hnew, bne_self_eq_false, Bool.false_or, decide_eq_true_eq]

/-! ### Requests (R361) -/

/-- A unit that halts are lifted from stays present. -/
theorem aget_liftHalts {s : State} {uid : Nat} {u : UnitSt} (hu : aget s.units uid = some u) (v : Nat) (reason : Bool) :
    ∃ x, aget (s.liftHalts v reason).units uid = some x := by
  unfold State.liftHalts
  dsimp only
  split
  · exact ⟨u, hu⟩
  · simp only [State.modJob_units, State.aget_modUnit]
    split
    · next hv => exact ⟨_, by rw [hv, hu]; rfl⟩
    · exact ⟨u, hu⟩

section
variable {s : State} {uid : Nat} {u : UnitSt} (hu : aget s.units uid = some u)
include hu

/-- A request leaves a running unit draining. -/
theorem unit_requestPreempt_running (hst : u.status = .running) (recorded : Bool) :
    ((s.requestPreempt uid recorded).unit uid).status = .draining s.hub.toNat none := by
  simp only [State.requestPreempt, State.unit_of_aget hu, hst]
  have hrec : aget ((if recorded then s.unitRecord uid (unitRec u 0x100 2) else s).journal .unitPreempted).units uid = some u := by
    cases recorded
    · exact hu
    · exact (congrArg (aget · uid) (units_unitRecord s uid _)).trans hu
  obtain ⟨x, hx⟩ := aget_liftHalts hrec uid true
  rw [State.unit_modUnit_self (s := State.count _ 23 1) hx]

/-- A unit that has not started gives its place back at once. -/
theorem unit_requestPreempt_placed (hst : u.status = .placed none) : ((s.requestPreempt uid true).unit uid).status = .ready := by
  simp only [State.requestPreempt, State.unit_of_aget hu, hst, if_true]
  exact unit_giveUpPlace ((congrArg (aget · uid) (units_unitRecord s uid _)).trans hu) hst
end

/-! ### Drains (R361, R362) -/

section
variable {s : State} {u : UnitSt} {since : Nat} {stop : Option Nat} (hu : aget s.units s.ev.u = some u) (hst : u.status = .draining since stop)
include hu hst

theorem exec_drainComplete_waits (hd : s.drained s.ev.u u stop.isSome = false) : exec .drainComplete s = .next s := by
  show execDrainComplete s = _
  simp only [execDrainComplete, nextS, hu, hst, hd, Bool.not_false, if_true]

/-- The save of a drained unit waits until no host holds a part of its area. -/
theorem exec_drainComplete_drained (hd : s.drained s.ev.u u stop.isSome = true) {ls : List Nat}
    (hls : ls = s.areaHeld (if u.saveArea = 0 then s.saveNext else u.saveArea) u.saveLen) :
    exec .drainComplete s = .next (if ls = [] then s.saveUnit s.ev.u stop else ls.foldl (fun s l => s.sendSnoops (l * 128) 128 true) s) := by
  show execDrainComplete s = _
  simp only [execDrainComplete, nextS, hu, hst, hd, ← hls, Bool.not_true, Bool.false_eq_true, if_false]
  cases ls <;> rfl

theorem exec_drainOverrun : exec .drainOverrun s = .next (if u.overrun || decide ((s.hub - wd since).toNat < 200000) then s
    else (s.unitRecord s.ev.u (unitRec u 0x101 2)).modUnit s.ev.u (fun u => { u with overrun := true })) := by
  show execDrainOverrun s = _
  simp only [execDrainOverrun, nextS, hu, hst]
end

/-- In a drained unit no migration is under way, every issued operation has performed but those that a fault holds (log 41), and, unless the
unit was stopped, no PE would fire and no token would move into the matching store. -/
theorem drained_rests {s : State} {uid : Nat} {u : UnitSt} {stop : Bool} (h : s.drained uid u stop = true) :
    (∀ p ∈ u.pes, p.2.stub = none) ∧ (∀ e ∈ u.sb, e.outstanding = true → s.heldEntry uid e = true) ∧
    (stop = false → ∀ p ∈ u.pes, s.wouldFire uid p.1 = false ∧ s.headMoves uid p.1 = false) := by
  simp only [State.drained, Bool.and_eq_true, Bool.or_eq_true, Bool.not_eq_true', List.any_eq_false] at h
  obtain ⟨⟨⟨⟨⟨-, hsb⟩, -⟩, hfire⟩, -⟩, hstub⟩ := h
  refine ⟨fun p hp => by simpa using hstub p hp, fun e he hout => by simpa [hout] using hsb e he, fun hstop p hp => ?_⟩
  simpa using (hfire.resolve_left (by simp [hstop])).1 p hp

/-! ### The statement -/

/-- Settles O49: each event and each request by its own lemma above. -/
theorem unitsArePreempted : Obligations.UnitsArePreempted := by
  unfold Obligations.UnitsArePreempted
  refine ⟨fun s => exec_quantumExpiry, fun s r die b us t hfirst hpick => exec_preemptRequest hfirst hpick, ?drains,
    fun s uid u hu hst => unit_requestPreempt_placed hu hst, ?completes, fun s uid u stop => drained_rests,
    fun s u since stop hu hst => exec_drainOverrun hu hst, fun s j hj hcls hlive hnew => exec_deadlineMissed hj hcls hlive hnew⟩
  case drains =>
    intro s uid u hu hst
    have hdrains := unit_requestPreempt_running hu hst true
    exact ⟨hdrains, by simp only [UnitSt.isRunning, hdrains]⟩
  case completes =>
    intro s u since stop hu hst
    exact ⟨exec_drainComplete_waits hu hst, fun ls hd hls => exec_drainComplete_drained hu hst hd hls⟩

end Sys2Proof.Proofs

/-! PROOFS. Jasper (R289 to R293): the evaluation of nodes, the pending-launch pool, and phases. -/

namespace Sys2Proof.Proofs

open Sys2Proof Sys2Proof.Machine Sys2Proof.Laws Sys2Proof.Claims

/-! ### A node is looked at (R289, R290) -/

section
variable {s : State} {inst : Instance} (hinst : s.inst? s.ev.inst = some inst) (hlive : inst.status = none) (hn : s.ev.node < inst.nodes.length)
include hinst hlive hn

/-- A host that holds an object is waited for (log 9); otherwise the node is looked at. -/
theorem exec_nodeEvaluate : exec .nodeEvaluate s = .next (s.anyObjectWaits.getD (s.evalNode inst s.ev.node)) := by
  show execNodeEvaluate s = _
  simp only [execNodeEvaluate, nextS, hinst, hlive, Option.isSome_none, decide_eq_false (not_le.2 hn), Bool.or_self, Bool.false_eq_true, if_false]
  cases s.anyObjectWaits <;> rfl
end

section
variable {s : State} {inst : Instance} {n : Nat} (hst : (lget inst.nodes n {}).st = .waiting)
include hst

/-- A node waits for its graph and for the ends of its dependences. -/
theorem evalNode_waits (h : s.graphRuns inst n = false ∨ ∃ k ∈ nodeDeps s inst.job inst.base.toNat n, (lget inst.nodes k {}).ended? = none) :
    s.evalNode inst n = s := by
  have hwaits : (!s.graphRuns inst n ||
      ((nodeDeps s inst.job inst.base.toNat n).map (fun k => (lget inst.nodes k {}).ended?)).any Option.isNone) = true := by
    rcases h with hgraph | ⟨k, hk, hnone⟩
    · rw [hgraph, Bool.not_false, Bool.true_or]
    · rw [Bool.or_eq_true, List.any_map, List.any_eq_true]
      exact .inr ⟨k, hk, by simp only [Function.comp_apply, hnone, Option.isNone_none]⟩
  simp only [State.evalNode, hst, hwaits, if_true]

/-- When all of them have ended, it is evaluated unless one failed. -/
theorem evalNode_ready (hgraph : s.graphRuns inst n = true)
    (hdeps : ∀ k ∈ nodeDeps s inst.job inst.base.toNat n, (lget inst.nodes k {}).ended? ≠ none) :
    s.evalNode inst n = if (nodeDeps s inst.job inst.base.toNat n).any (fun k => (lget inst.nodes k {}).ended? != some 1) then s.endUnrun inst n 2 2
      else (s.journal .nodeEligible).eligibleNode inst n (nodeDesc s inst.job inst.base.toNat n) := by
  have hgo : (!s.graphRuns inst n ||
      ((nodeDeps s inst.job inst.base.toNat n).map (fun k => (lget inst.nodes k {}).ended?)).any Option.isNone) = false := by
    rw [hgraph, Bool.not_true, Bool.false_or, List.any_map, List.any_eq_false]
    intro k hk hnone
    exact hdeps k hk (Option.isNone_iff_eq_none.1 hnone)
  simp only [State.evalNode, hst, hgo, Bool.false_eq_true, if_false]
  rw [List.any_map, Function.comp_def]
end

/-- A node on hold is evaluated when it is due or has been nudged. -/
theorem evalNode_held {s : State} {inst : Instance} {n : Nat} (hst : (lget inst.nodes n {}).st = .eligible)
    (hheld : (lget inst.nodes n {}).held = true) :
    s.evalNode inst n = if (lget inst.nodes n {}).due || s.nudged inst (lget inst.nodes n {}) (nodeDesc s inst.job inst.base.toNat n)
      then s.eligibleNode inst n (nodeDesc s inst.job inst.base.toNat n) else s.setNodes inst.id [n] (fun r => { r with nudges := [] }) := by
  simp only [State.evalNode, hst, hheld, Bool.not_true, Bool.false_eq_true, if_false]

/-- A while whose body nodes have all ended reads its word again. -/
theorem evalNode_passEnded {s : State} {inst : Instance} {n : Nat} {d : NodeDesc} (hd : d = nodeDesc s inst.job inst.base.toNat n)
    (hst : (lget inst.nodes n {}).st = .running) (hkind : d.kind = 2)
    (hbody : ∀ b ∈ bodyOf d, (lget inst.nodes b {}).ended?.isSome = true) : s.evalNode inst n = s.nextPass inst n d := by
  have hall : (bodyOf d).all (fun b => (lget inst.nodes b {}).ended?.isSome) = true := List.all_eq_true.2 hbody
  simp only [State.evalNode, hst, ← hd, hkind, hall, decide_true, Bool.and_self, if_true]

/-! ### Evaluation and the pool (R289, R291, R292) -/

theorem eligibleNode_tooDeep {s : State} {d : NodeDesc} (h : s.w2.poolD ≤ d.depth) (inst : Instance) (n : Nat) :
    s.eligibleNode inst n d = (s.nodeRecord inst d 0x0E9 0 0 0).endUnrun inst n 3 2 := by
  simp only [State.eligibleNode, if_pos h]

theorem eligibleNode_noHold {s : State} {d : NodeDesc} (h : d.depth < s.w2.poolD) (hhold : d.hold = false) (inst : Instance) (n : Nat) :
    s.eligibleNode inst n d = s.evaluate inst n d := by
  simp only [State.eligibleNode, if_neg (not_le.2 h), hhold, Bool.false_eq_true, if_false]

theorem evaluate_launch {d : NodeDesc} (h : d.kind = 0) (s : State) (inst : Instance) (n : Nat) :
    s.evaluate inst n d = s.admitNode inst n d.depth := by
  simp only [State.evaluate, h]

theorem exec_launchPoolAdmit {s : State} {inst : Instance} {d : NodeDesc} (hinst : s.inst? s.ev.inst = some inst)
    (hd : d = nodeDesc s inst.job inst.base.toNat s.ev.node) (hlive : inst.status = none) (hwait : s.anyObjectWaits = none) (hkind : d.kind = 0)
    (hst : (lget inst.nodes s.ev.node {}).st = .eligible) (hheld : (lget inst.nodes s.ev.node {}).held = false) :
    exec .launchPoolAdmit s = .next (s.admitNode inst s.ev.node d.depth) := by
  subst hd
  show execLaunchPoolAdmit s = _
  simp only [execLaunchPoolAdmit, nextS, hinst, hst, hlive, hheld, hwait, hkind, Option.isSome_none, Bool.or_self, Bool.false_eq_true, if_false,
    beq_self_eq_true, if_true]

/-! ### Phases (R293) -/

section
variable {s : State} {p : Phase} (hp : s.phase? s.ev.ph = some p)
include hp

section
variable (hst : p.st = .waiting)
include hst

/-- A phase with dies takes them and enters FILL. -/
theorem exec_phaseCurrent_fills (hfree : ∀ d ∈ diesOf p.dies, (s.die d).freeFor p.job = true) (hdies : diesOf p.dies ≠ []) :
    exec .phaseCurrent s = .next
      (((diesOf p.dies).foldl (fun s d => s.modDie d (fun x => { x with wsJob := some p.job, wsPhase := some p.id, run := false }))
        ((s.journal .phaseChanged).releaseDies p.job)).modPhase p.id (fun x => { x with st := .fill })) := by
  have hall : (diesOf p.dies).all (fun d => (s.die d).freeFor p.job) = true := List.all_eq_true.2 hfree
  show execPhaseCurrent s = _
  simp only [execPhaseCurrent, nextS, hp, hst, hall, bne_self_eq_false, Bool.not_true, Bool.or_self, Bool.false_eq_true, if_false,
    List.isEmpty_iff, hdies]

/-- A phase without dies enters RUN. -/
theorem exec_phaseCurrent_runs (hdies : diesOf p.dies = []) (hgroups : s.groupsWait p.job p.groupTable.toNat = none) :
    exec .phaseCurrent s = .next ((s.releaseDies p.job).enterRun p) := by
  show execPhaseCurrent s = _
  simp only [execPhaseCurrent, nextS, hp, hst, hdies, hgroups, bne_self_eq_false, List.all_nil, Bool.not_true, Bool.or_self, Bool.false_eq_true,
    if_false, List.isEmpty_nil, if_true, Option.getD_none]
end

/-- A die that a phase of another job holds is waited for. -/
theorem exec_phaseCurrent_waits {d j : Nat} (hd : d ∈ diesOf p.dies) (hj : (s.die d).wsJob = some j) (hne : j ≠ p.job) :
    exec .phaseCurrent s = .next s := by
  have hheld : (s.die d).freeFor p.job = false := by
    simp only [Die.freeFor, hj, Option.isNone_some, Bool.false_or, beq_eq_false_iff_ne, ne_eq, Option.some.injEq, hne, not_false_eq_true]
  have hall : (diesOf p.dies).all (fun d => (s.die d).freeFor p.job) = false := List.all_eq_false.2 ⟨d, hd, by simp [hheld]⟩
  show execPhaseCurrent s = _
  simp only [execPhaseCurrent, nextS, hp, hall, Bool.not_false, Bool.or_true, if_true]

/-- A phase in FILL waits for its fill launches and for the WSFL commands of its job. -/
theorem exec_phaseRun_waits (h : s.fillPending p = true ∨ s.fillRunning p.job = true) : exec .phaseRun s = .next s := by
  have hwaits : (p.st != .fill || s.fillPending p || s.fillRunning p.job) = true := by rcases h with h | h <;> simp [h]
  show execPhaseRun s = _
  simp only [execPhaseRun, nextS, hp, hwaits, if_true]

/-- Then, when no host holds its table of groups, it enters RUN. -/
theorem exec_phaseRun_enters (hst : p.st = .fill) (hpending : s.fillPending p = false) (hrunning : s.fillRunning p.job = false)
    (hgroups : s.groupsWait p.job p.groupTable.toNat = none) : exec .phaseRun s = .next (s.enterRun p) := by
  show execPhaseRun s = _
  simp only [execPhaseRun, nextS, hp, hst, hpending, hrunning, hgroups, bne_self_eq_false, Bool.or_self, Bool.false_eq_true, if_false]

theorem exec_phaseEnd_ends (hst : p.st ≠ .ended) (hbegun : p.closed = true ∨ s.begun p = true)
    (hinsts : ∀ i ∈ s.insts, i.phase = some p.id → i.status.isSome = true) : exec .phaseEnd s = .next ((s.endPhase p.id).endJob p.job) := by
  have hnone : s.insts.any (fun i => i.phase == some p.id && i.status.isNone) = false := by
    refine List.any_eq_false.2 fun i hi hlive => ?_
    obtain ⟨hphase, hrunning⟩ := Bool.and_eq_true_iff.1 hlive
    have hended := hinsts i hi (beq_iff_eq.1 hphase)
    rw [Option.isNone_iff_eq_none.1 hrunning] at hended
    exact Bool.false_ne_true hended
  have hgo : (p.closed || s.begun p) = true := Bool.or_eq_true_iff.2 hbegun
  show execPhaseEnd s = _
  simp only [execPhaseEnd, nextS, hp, beq_eq_false_iff_ne.2 hst, hgo, hnone, Bool.not_true, Bool.or_self, Bool.false_eq_true, if_false]

theorem exec_phaseEnd_waits {i : Instance} (hi : i ∈ s.insts) (hphase : i.phase = some p.id) (hlive : i.status = none) :
    exec .phaseEnd s = .next s := by
  have hsome : s.insts.any (fun i => i.phase == some p.id && i.status.isNone) = true :=
    List.any_eq_true.2 ⟨i, hi, by simp only [hphase, hlive, beq_self_eq_true, Option.isNone_none, Bool.and_self]⟩
  show execPhaseEnd s = _
  simp only [execPhaseEnd, nextS, hp, hsome, Bool.or_true, if_true]
end

/-! ### The statement -/

/-- Settles O51: a node by its state, a launch by the pool, and a phase by its events, by the lemmas above. -/
theorem nodesAndPhasesProceed : Obligations.NodesAndPhasesProceed := by
  unfold Obligations.NodesAndPhasesProceed
  refine ⟨⟨?objects, ?waiting, ?hold,
      fun s inst n d => ⟨fun h => eligibleNode_tooDeep h inst n, fun h hhold => eligibleNode_noHold h hhold inst n,
        fun h => evaluate_launch h s inst n⟩,
      fun s inst d hinst hd hlive hwait hkind hst hheld => exec_launchPoolAdmit hinst hd hlive hwait hkind hst hheld⟩,
    ?current, fun s p d j hp hd hj => exec_phaseCurrent_waits hp hd hj,
    fun s p hp hst => ⟨exec_phaseRun_waits hp, exec_phaseRun_enters hp hst⟩, fun s p hp hst => exec_phaseEnd_ends hp hst,
    fun s p i hp hi => exec_phaseEnd_waits hp hi⟩
  case objects =>
    intro s s1 inst hinst hlive hn hwait
    rw [exec_nodeEvaluate hinst hlive hn, hwait, Option.getD_some]
  case waiting =>
    rintro s inst n d hinst rfl rfl hlive hn hwait hst
    rw [exec_nodeEvaluate hinst hlive hn, hwait, Option.getD_none]
    refine ⟨fun h => by rw [evalNode_waits hst h], fun hgraph hok => ?_, fun hgraph hended hfailed => ?_⟩
    · have hnone : (nodeDeps s inst.job inst.base.toNat s.ev.node).any (fun k => (lget inst.nodes k {}).ended? != some 1) = false :=
        List.any_eq_false.2 fun k hk => by simp [hok k hk]
      rw [evalNode_ready hst hgraph fun k hk => by simp [hok k hk], hnone, if_neg Bool.false_ne_true]
    · have hsome : (nodeDeps s inst.job inst.base.toNat s.ev.node).any (fun k => (lget inst.nodes k {}).ended? != some 1) = true := by
        simpa using hfailed
      rw [evalNode_ready hst hgraph hended, if_pos hsome]
  case hold =>
    rintro s inst n d hinst rfl rfl hlive hn hwait
    rw [exec_nodeEvaluate hinst hlive hn, hwait, Option.getD_none]
    exact ⟨fun hst hheld => by rw [evalNode_held hst hheld], fun hst hkind hbody => by rw [evalNode_passEnded rfl hst hkind hbody]⟩
  case current =>
    rintro s t p hp hst hfree rfl
    exact ⟨exec_phaseCurrent_fills hp hst hfree, exec_phaseCurrent_runs hp hst⟩

end Sys2Proof.Proofs

/-! PROOFS. Garnet and Spinel (R322, R338 to R340, R389): whose events act, commit points, the heartbeat, takeover and handover. -/

namespace Sys2Proof.Proofs

open Sys2Proof Sys2Proof.Machine Sys2Proof.Laws Sys2Proof.Claims

/-! ### Whose events act (R338, R339) -/

/-- The former core, and Garnet while its standby lags the whole ring behind, do nothing. -/
theorem garnet_stands {s : State} (h : s.ev.former = true ∨ s.fw.nostby = false ∧ s.fw.replayed + 8192 ≤ s.fw.jserial) (body : State → State) :
    s.garnet body = s := by
  unfold State.garnet
  rcases h with hformer | ⟨hstandby, hlag⟩
  · rw [hformer, Bool.true_or, if_pos rfl]
  · rw [hstandby, decide_eq_true hlag, Bool.not_false, Bool.and_self, Bool.or_true, if_pos rfl]

theorem garnet_acts {s : State} (hformer : s.ev.former = false) (hlag : s.fw.nostby = true ∨ s.fw.jserial < s.fw.replayed + 8192)
    (body : State → State) : s.garnet body = body s := by
  have hgo : (!s.fw.nostby && decide (s.fw.replayed + 8192 ≤ s.fw.jserial)) = false := by
    rcases hlag with h | h
    · rw [h, Bool.not_true, Bool.false_and]
    · rw [decide_eq_false (not_le.2 h), Bool.and_false]
  simp only [State.garnet, hformer, hgo, Bool.or_self, Bool.false_eq_true, if_false]

/-- A thread waits for the replay that follows a takeover. -/
theorem thread_replays {s : State} (h : s.fw.replayed < s.fw.resumeAt) (body : State → State) : s.thread body = s := if_pos h

theorem thread_eq_garnet {s : State} (h : s.fw.resumeAt ≤ s.fw.replayed) (body : State → State) : s.thread body = s.garnet body :=
  if_neg (not_lt.2 h)

theorem thread_stands {s : State} (h : s.ev.former = true ∨ s.fw.nostby = false ∧ s.fw.replayed + 8192 ≤ s.fw.jserial) (body : State → State) :
    s.thread body = s := by
  rw [State.thread, garnet_stands h, ite_self]

theorem thread_acts {s : State} (h : ThreadRuns s) (body : State → State) : s.thread body = body s := by
  obtain ⟨hformer, hlag, hreplayed⟩ := h
  rw [thread_eq_garnet hreplayed, garnet_acts hformer hlag]

theorem thread_idle {s : State} (h : ¬ ThreadRuns s) (body : State → State) : s.thread body = s := by
  by_cases hreplays : s.fw.replayed < s.fw.resumeAt
  · exact thread_replays hreplays body
  · refine thread_stands ?_ body
    by_contra hstands
    simp only [not_or, not_and, Bool.not_eq_true, not_le] at hstands
    obtain ⟨hformer, hlag⟩ := hstands
    refine h ⟨hformer, ?_, not_lt.1 hreplays⟩
    cases hstandby : s.fw.nostby
    · exact .inr (hlag hstandby)
    · exact .inl rfl

/-! ### Commit points (R338) -/

theorem getLast_ringPush (l : List JournalRec) (r : JournalRec) : (ringPush l r).getLast? = some r := by
  unfold ringPush
  split_ifs <;> exact List.getLast?_concat

/-- A change of the firmware complex leaves the rest of the device. -/
theorem modFw_frame (s : State) (f : Firmware → Firmware) (fw : Firmware) : { s.modFw f with fw := fw } = { s with fw := fw } := rfl

theorem commitPoint_frame (s : State) (fw : Firmware) : { s.commitPoint with fw := fw } = { s with fw := fw } := rfl

theorem exec_commitPointRecord (s : State) : exec .commitPointRecord s = .next (s.garnet fun s => if s.mayCommit then s.commitPoint else s) := rfl

theorem queue_not_partWay (q : Queue) : q.partWay = false ↔ q.waiting = none ∧ q.holding = none ∧ q.unreg = none := by
  simp only [Queue.partWay, Bool.or_eq_false_iff, Option.isSome_eq_false_iff, Option.isNone_iff_eq_none, and_assoc]

theorem mayCommit_iff (s : State) : s.mayCommit = true ↔ s.fw.committedAt ≠ some s.hub.toNat ∧
    ((∀ q ∈ s.queues, q.waiting = none ∧ q.holding = none ∧ q.unreg = none) ∨
      s.fw.handing = true ∧ 10000 ≤ s.hubSince (s.fw.committedAt.getD s.fw.hgo)) := by
  simp only [State.mayCommit, Bool.and_eq_true, Bool.or_eq_true, bne_iff_ne, decide_eq_true_eq, Bool.not_eq_true', List.any_eq_false,
    Bool.not_eq_true, queue_not_partWay]

/-! ### The heartbeat, replay and takeover (R339) -/

theorem exec_garnetHeartbeat_former {s : State} (h : s.ev.former = true) : exec .garnetHeartbeat s = .next s := by
  show execGarnetHeartbeat s = _
  simp only [execGarnetHeartbeat, nextS, h, Bool.true_or, if_true]

theorem exec_garnetHeartbeat {s : State} (howner : s.fw.owner = false) (hformer : s.ev.former = false) :
    exec .garnetHeartbeat s = .next (if s.hubSince s.fw.heartbeat < 1024 then s else s.modFw (fun f => { f with heartbeat := s.hub.toNat })) := by
  show execGarnetHeartbeat s = _
  simp only [execGarnetHeartbeat, nextS, howner, hformer, Bool.or_self, Bool.false_or, decide_eq_true_eq]

theorem replay_eq (s : State) : s.replay = if s.fw.replayed < s.fw.jserial ∧ (s.fw.nostby = false ∨ s.fw.replayed < s.fw.resumeAt) then
    s.modFw (fun f => { f with replayed := f.replayed + 1 }) else s := by
  simp only [State.replay, Bool.and_eq_true, Bool.or_eq_true, Bool.not_eq_true', decide_eq_true_eq]

theorem exec_spinelTakeover {s : State} (howner : s.fw.owner = false) (hstandby : s.fw.nostby = false) (hsilent : 4096 ≤ s.hubSince s.fw.heartbeat) :
    exec .spinelTakeover s = .next (((if s.fw.handing then s.abortHandover else s).devRecord 0x168 2).modFw
      (fun f => { f with owner := true, nostby := true, resumeAt := f.jserial, verActive := f.verStandby, verStandby := f.verActive })) := by
  show execSpinelTakeover s = _
  simp only [execSpinelTakeover, nextS, howner, hstandby, decide_eq_false (not_lt.2 hsilent), Bool.or_self, Bool.false_eq_true, if_false]

/-! ### Handover (R340) -/

theorem exec_firmwareReady {s : State} (h : s.fw.mstate = 1) :
    ∃ t : State, exec .firmwareReady s = .next t ∧ t.fw.mstate = 2 ∧ t.fw.heartbeat = s.hub.toNat ∧ t.devNum = s.ev.v.setWidth 10 ∧ t.mem = s.mem := by
  show ∃ t : State, execFirmwareReady s = .next t ∧ _
  simp only [execFirmwareReady, nextS, h, bne_self_eq_false, Bool.false_eq_true, if_false]
  exact ⟨_, rfl, rfl, rfl, rfl, rfl⟩

/-- A host that owns no mapped queue starts no handover (log 53). -/
theorem exec_handoverGo_foreign {s : State} (h : s.ownsAny s.ev.host = false) :
    exec .handoverGo s = .next (s.writeRecord 32 { cause := 0x11D, src := 3 }) := by
  show execHandoverGo s = _
  rw [State.ownsAny] at h
  simp only [execHandoverGo, nextS, h, Bool.not_false, if_true, State.devRecord]

theorem exec_handoverGo {s : State} (h : s.ownsAny s.ev.host = true) (hgo : s.ev.v.getLsbD 0 = true) (hfree : s.fw.handing = false) :
    exec .handoverGo s = .next (s.modFw (fun f => { f with hstate := 1, hgo := s.hub.toNat, hovr := true })) := by
  show execHandoverGo s = _
  rw [State.ownsAny] at h
  simp only [execHandoverGo, nextS, h, hgo, hfree, Bool.not_true, Bool.or_self, Bool.false_eq_true, if_false]

theorem exec_handoverMeasured {s : State} (h : s.fw.hstate = 1) :
    exec .handoverMeasured s = .next (s.modFw (fun f => { f with hstate := 2, verStaged := s.ev.v &&& 0xFFFFFFFF#64 })) := by
  show execHandoverMeasured s = _
  simp only [execHandoverMeasured, nextS, h, bne_self_eq_false, Bool.false_eq_true, if_false]

theorem exec_handoverImageLoaded {s : State} (h : s.fw.hstate = 2) :
    exec .handoverImageLoaded s = .next (s.modFw (fun f => { f with hstate := 3 })) := by
  show execHandoverImageLoaded s = _
  simp only [execHandoverImageLoaded, nextS, h, bne_self_eq_false, Bool.false_eq_true, if_false]

/-- The commit is a commit point at which the owner bit passes. -/
theorem exec_handoverCommit {s : State} (hst : s.fw.hstate = 3) (htime : s.hubSince s.fw.hgo < 1000000) (hformer : s.ev.former = false)
    (hreplayed : s.fw.jserial ≤ s.fw.replayed) (hcommit : s.mayCommit = true) (hsampled : s.fw.sampledAt ≠ some s.hub.toNat) :
    exec .handoverCommit s = .next (s.commitPoint.modFw (fun f => { f with
      hstate := 4, hovr := false, owner := !f.owner, nostby := true, replayed := f.jserial, verActive := f.verStaged, verStandby := f.verActive })) := by
  show execHandoverCommit s = _
  simp only [execHandoverCommit, nextS, hst, hformer, hcommit, decide_eq_false (not_le.2 htime), decide_eq_false (not_lt.2 hreplayed),
    beq_eq_false_iff_ne.2 hsampled, bne_self_eq_false, Bool.not_true, Bool.or_self, Bool.false_eq_true, if_false]

theorem exec_handoverCommit_former {s : State} (h : s.ev.former = true) : exec .handoverCommit s = .next s := by
  show execHandoverCommit s = _
  simp only [execHandoverCommit, nextS, h, Bool.true_or, if_true]

/-- It waits for the standby's replay, for a clock without a sample of Topaz (R389), and for a commit point. -/
theorem exec_handoverCommit_waits {s : State} (h : s.fw.jserial > s.fw.replayed ∨ s.fw.sampledAt = some s.hub.toNat ∨ s.mayCommit = false) :
    exec .handoverCommit s = .next s := by
  refine congrArg Host.Outcome.next (if_pos ?_)
  rcases h with hreplay | hsampled | hcommit
  · simp only [decide_eq_true hreplay, Bool.or_true, Bool.true_or]
  · simp only [hsampled, beq_self_eq_true, Bool.or_true]
  · simp only [hcommit, Bool.not_false, Bool.or_true, Bool.true_or]

theorem exec_handoverAbort {s : State} (h : s.fw.handing = true) (hlate : 1000000 ≤ s.hubSince s.fw.hgo) :
    exec .handoverAbort s = .next
      (State.writeRecord (s.modFw (fun f => { f with hstate := 5, hovr := false })) 32 { cause := 0x169, src := 2 }) := by
  show execHandoverAbort s = _
  simp only [execHandoverAbort, nextS, h, decide_eq_false (not_lt.2 hlate), Bool.not_true, Bool.or_self, Bool.false_eq_true, if_false,
    State.abortHandover, State.devRecord]

theorem exec_standbyReload {s : State} (h : s.fw.nostby = true) :
    exec .standbyReload s = .next (s.modFw (fun f => { f with
      nostby := false, replayed := f.jserial, resumeAt := 0, verStandby := f.verActive, verStaged := if f.hstate = 4 then 0#64 else f.verStaged })) := by
  show execStandbyReload s = _
  simp only [execStandbyReload, nextS, h, Bool.not_true, Bool.false_eq_true, if_false]

/-! ### The statement -/

/-- Settles O57: whose events act, commit points, and each event of the firmware by its own lemma above. -/
theorem firmwareProceeds : Obligations.FirmwareProceeds := by
  unfold Obligations.FirmwareProceeds
  refine ⟨fun s => exec_firmwareReady, fun s => exec_garnetHeartbeat, fun s h => ⟨exec_garnetHeartbeat_former h, exec_handoverCommit_former h⟩,
    fun s hformer hlag => ?point, fun s body => ⟨fun h => ?stands, fun h => thread_replays h body, fun hformer hlag =>
      ⟨garnet_acts hformer hlag body, fun h => thread_acts ⟨hformer, hlag, h⟩ body⟩⟩,
    mayCommit_iff, replay_eq, fun s => exec_spinelTakeover, fun s => exec_handoverGo_foreign, fun s => exec_handoverGo,
    fun s => ⟨exec_handoverMeasured, exec_handoverImageLoaded, fun hst htime hformer hreplayed hcommit hsampled => ?commit,
      exec_handoverCommit_waits, exec_handoverAbort, exec_standbyReload⟩⟩
  case point =>
    rw [exec_commitPointRecord, garnet_acts hformer hlag]
    refine ⟨fun h => ?_, fun h => by rw [h, if_neg Bool.false_ne_true]⟩
    rw [if_pos h]
    exact ⟨_, rfl, rfl, rfl, rfl, getLast_ringPush _ _, commitPoint_frame s s.fw⟩
  case stands =>
    exact ⟨garnet_stands h body, thread_stands h body, congrArg Host.Outcome.next (garnet_stands h _)⟩
  case commit =>
    exact ⟨_, exec_handoverCommit hst htime hformer hreplayed hcommit hsampled, rfl, rfl, rfl, rfl, rfl, rfl, rfl, rfl, rfl, rfl,
      (modFw_frame _ _ _).trans (commitPoint_frame s s.fw)⟩

end Sys2Proof.Proofs

/-! PROOFS. The kick registers and the queue threads (R287, R325, R332 to R339): writes of hosts, the entries of a thread, and what it does
beside them. -/

namespace Sys2Proof.Proofs

open Sys2Proof Sys2Proof.Machine Sys2Proof.Laws Sys2Proof.Claims

/-! ### The kick registers (R325) -/

section
variable {s : State} (hq : s.ev.q < 32)
include hq

section
variable (hown : (s.queue s.ev.q).host = s.ev.host + 1)
include hown

/-- A write of the width of an entry, at its place, is an entry when there is room. -/
theorem exec_kickRegisterWrite_entry (hoff : s.ev.off = 0) (hlen : s.ev.bytes.length = 64) :
    exec .kickRegisterWrite s = .next (if 16 ≤ (s.queue s.ev.q).entries.length then s.modQueue s.ev.q (fun x => { x with ovf := true })
      else s.modQueue s.ev.q (fun x => { x with entries := x.entries ++ [s.ev.bytes] })) := by
  show execKickRegisterWrite s = _
  simp [execKickRegisterWrite, nextS, hown, hoff, hlen, not_le.2 hq]

theorem exec_kickRegisterWrite_narrow (h : s.ev.off ≠ 0 ∨ s.ev.bytes.length ≠ 64 ∧ s.ev.bytes.length ≠ 8) :
    exec .kickRegisterWrite s = .next (s.modQueue s.ev.q (fun x => { x with short := true })) := by
  have hentry : ¬ (s.ev.off = 0 ∧ s.ev.bytes.length = 8) := by omega
  have hnarrow : (s.ev.off != 0 || s.ev.bytes.length != 64) = true := by
    rcases h with h | ⟨h, _⟩ <;> simp [h]
  show execKickRegisterWrite s = _
  simp [execKickRegisterWrite, nextS, hown, hentry, hnarrow, not_le.2 hq]

theorem exec_kickStatusClear_owner : exec .kickStatusClear s = .next (s.modQueue s.ev.q (fun x => { x with
      ovf := x.ovf && !s.ev.v.getLsbD 30, foreign := x.foreign && !s.ev.v.getLsbD 29, short := x.short && !s.ev.v.getLsbD 28 })) := by
  show execKickStatusClear s = _
  simp only [execKickStatusClear, nextS, hown, not_le.2 hq, bne_self_eq_false, Bool.false_eq_true, if_false]
end

section
variable (hforeign : (s.queue s.ev.q).host ≠ s.ev.host + 1)
include hforeign

theorem exec_kickRegisterWrite_foreign (h : ¬ (s.ev.off = 0 ∧ s.ev.bytes.length = 8)) :
    exec .kickRegisterWrite s = .next
      ((s.modQueue s.ev.q (fun x => { x with short := x.short || (s.ev.off != 0 || s.ev.bytes.length != 64) })).foreignW1 s.ev.q) := by
  show execKickRegisterWrite s = _
  simp [execKickRegisterWrite, nextS, hforeign, h, not_le.2 hq]

theorem exec_kickStatusClear_foreign : exec .kickStatusClear s = .next (s.foreignW1 s.ev.q) := by
  show execKickStatusClear s = _
  simp only [execKickStatusClear, nextS, bne_iff_ne.2 hforeign, not_le.2 hq, if_true, if_false]
end
end

/-- Settles O52: a write of the owner by its width and place, one of another host, and the status bits, by the lemmas above. -/
theorem kickRegistersTakeEntries : Obligations.KickRegistersTakeEntries := by
  unfold Obligations.KickRegistersTakeEntries
  refine ⟨fun s hq hown => ⟨fun hoff hlen hroom => ?_, fun hoff hlen hfull => ?_, exec_kickRegisterWrite_narrow hq hown,
    exec_kickStatusClear_owner hq hown⟩,
    fun s hq hforeign => ⟨exec_kickRegisterWrite_foreign hq hforeign, exec_kickStatusClear_foreign hq hforeign⟩, fun s q => rfl⟩
  · rw [exec_kickRegisterWrite_entry hq hown hoff hlen, if_neg (not_le.2 hroom)]
  · rw [exec_kickRegisterWrite_entry hq hown hoff hlen, if_pos hfull]

/-! ### The entry at the head (R333) -/

/-- What the effect of an entry leaves: the entry is done with, or it waits. -/
def entryAfter (q : Nat) : EntryRes → State
  | .done s => entryDone q s
  | .wait s => s

section
variable {s : State} {kind job : Nat} {e : List Byte} {l : List (List Byte)}

/-- A thread that runs and is idle looks at the form of the entry at its head, then at its SEQ, and then carries it out. -/
theorem threadEntry_head (hruns : ThreadRuns s) (hjob : (s.queue s.ev.q).job = some job) (hentries : (s.queue s.ev.q).entries = e :: l)
    (hidle : (s.queue s.ev.q).idle = true) (hkind : entryKind e = kind) (body : State → Nat → Nat → List Byte → EntryRes) :
    threadEntry kind s body =
      if malformed e then (s.refuseEntry s.ev.q job 0x11C e).modQueue s.ev.q (fun q => { q with entries := q.entries.drop 1 })
      else if entrySeq e = (s.queue s.ev.q).eseq.toNat then entryAfter s.ev.q (body s s.ev.q job e)
      else if entrySeq e = ((s.queue s.ev.q).eseq - 1#16).toNat then s.modQueue s.ev.q (fun q => { q with entries := q.entries.drop 1 })
      else (s.refuseEntry s.ev.q job 0x118 e).modQueue s.ev.q (fun q => { q with entries := q.entries.drop 1 }) := by
  simp only [threadEntry, thread_acts hruns, hjob, hentries, hidle, hkind, bne_self_eq_false, Bool.not_true, Bool.false_and, Bool.or_self,
    Bool.false_eq_true, if_false]
  cases body s s.ev.q job e <;> rfl

section
variable {t : State} {body : State → Nat → Nat → List Byte → EntryRes} (h : Taking s kind job e l)
include h

theorem threadEntry_takes : threadEntry kind s body = entryAfter s.ev.q (body s s.ev.q job e) := by
  obtain ⟨hruns, hjob, hentries, hidle, -, hkind, hform, hseq⟩ := h
  rw [threadEntry_head hruns hjob hentries hidle hkind, hform, if_neg Bool.false_ne_true, if_pos hseq]

theorem threadEntry_done (hbody : body s s.ev.q job e = .done t) : threadEntry kind s body = entryDone s.ev.q t := by
  rw [threadEntry_takes h, hbody, entryAfter]

theorem threadEntry_wait (hbody : body s s.ev.q job e = .wait t) : threadEntry kind s body = t := by
  rw [threadEntry_takes h, hbody, entryAfter]
end
end

/-- The operations that only take an entry of their kind. -/
theorem exec_takesEntry {x : Instr} {kind : Nat}
    (hx : (x, kind) ∈ [(Instr.kick, 0), (Instr.waitEntry, 1), (Instr.registerEntry, 3), (Instr.phaseEntry, 5)]) :
    ∃ body, ∀ s, exec x s = .next (threadEntry kind s body) := by
  simp only [List.mem_cons, Prod.mk.injEq, List.not_mem_nil, or_false] at hx
  rcases hx with ⟨rfl, rfl⟩ | ⟨rfl, rfl⟩ | ⟨rfl, rfl⟩ | ⟨rfl, rfl⟩ <;> exact ⟨_, fun s => rfl⟩

/-! ### Kicks (R287, R334) -/

section
variable {s s1 : State} {q job : Nat} {e : List Byte} {o : GObject} {ps : List (Nat × Nat)}

section
variable (hps : s.kickPatches job e = (s1, .ok ps))
include hps

theorem takeKick_bad (hbad : badPatches o.base.toNat (patchUses s1 job o.base.toNat) ps = true) :
    s.takeKick q job e o = .done (s1.refuseEntry q job 0x11B e) := by
  simp only [State.takeKick, hps, hbad, if_true]

section
variable {s2 : State} {vs : List (Nat × Nat × Nat)} (hs2 : s2 = if entryCanprev e then s1.cancelPrevious q job else s1)
  (hvs : vs = useValues o.base.toNat (patchUses s1 job o.base.toNat) ps)
  (hok : badPatches o.base.toNat (patchUses s1 job o.base.toNat) ps = false)
include hs2 hvs hok

/-- Values that the object holds already need no write. -/
theorem takeKick_same (hsame : vs.all (fun v => peekG s2 job v.1 v.2.1 == v.2.2) = true) :
    s.takeKick q job e o = .done (s2.createInstance q job o e s.hub.toNat) := by
  simp only [State.takeKick, hps, hok, ← hs2, ← hvs, hsame, Bool.false_eq_true, if_false, if_true]

section
variable (hdiff : vs.all (fun v => peekG s2 job v.1 v.2.1 == v.2.2) = false)
include hdiff

theorem takeKick_holds (hlive : s2.objectLive job o.handle = true) :
    s.takeKick q job e o = .done (s2.modQueue q (fun x => { x with holding := some (e, ps, s.hub.toNat) })) := by
  simp only [State.takeKick, hps, hok, ← hs2, ← hvs, hdiff, hlive, Bool.false_eq_true, if_false, if_true]

theorem takeKick_writes {s3 : State} (hlive : s2.objectLive job o.handle = false) (hwrite : s2.writePatches job vs = (s3, true)) :
    s.takeKick q job e o = .done (s3.createInstance q job o e s.hub.toNat) := by
  simp only [State.takeKick, hps, hok, ← hs2, ← hvs, hdiff, hlive, hwrite, Bool.false_eq_true, if_false]
end
end
end
end

theorem barrier_false {s : State} {q : Nat} {e : List Byte} (h : entryBarrier e = false ∨ entryCanprev e = true ∨ s.queueLive q = false) :
    (entryBarrier e && !entryCanprev e && s.queueLive q) = false := by
  rcases h with h | h | h <;> simp [h]

section
variable {s : State} {job : Nat} {e : List Byte} {l : List (List Byte)} (h : Taking s 0 job e l)
include h

/-- A barrier waits for the earlier instances of its queue (log 11). -/
theorem exec_kick_barrier (hbarrier : entryBarrier e = true) (hprev : entryCanprev e = false) (hlive : s.queueLive s.ev.q = true) :
    exec .kick s = .next s := by
  refine congrArg Host.Outcome.next (threadEntry_wait h ?_)
  simp only [hbarrier, hprev, hlive, Bool.not_false, Bool.and_self, if_true]

section
variable (hgo : entryBarrier e = false ∨ entryCanprev e = true ∨ s.queueLive s.ev.q = false)
include hgo

theorem exec_kick_unknown (hnone : s.object? job (entryHandle e) = none) :
    exec .kick s = .next (entryDone s.ev.q (s.refuseEntry s.ev.q job 0x119 e)) := by
  refine congrArg Host.Outcome.next (threadEntry_done h ?_)
  simp only [barrier_false hgo, hnone, Bool.false_eq_true, if_false]

theorem exec_kick_takes {o : GObject} {t : State} (hobj : s.object? job (entryHandle e) = some o) (hread : s.objectWaits job o.base.toNat = none)
    (htake : s.takeKick s.ev.q job e o = .done t) : exec .kick s = .next (entryDone s.ev.q t) := by
  refine congrArg Host.Outcome.next (threadEntry_done h ?_)
  simp only [barrier_false hgo, hobj, hread, htake, Bool.false_eq_true, if_false]
end
end

/-! ### The other entries (R335, R336) -/

theorem exec_waitEntry {s : State} {job : Nat} {e : List Byte} {l : List (List Byte)} (h : Taking s 1 job e l) : exec .waitEntry s = .next (entryDone s.ev.q
    ((s.modQueue s.ev.q (fun x => { x with waiting := some (e, false), blocked := true })).pollWait s.ev.q job)) :=
  congrArg Host.Outcome.next (threadEntry_done h rfl)

theorem exec_registerEntry {s : State} {job : Nat} {e : List Byte} {l : List (List Byte)} (h : Taking s 3 job e l)
    (hresult : s.resultWaits job e = none) (hobj : s.objectWaits job (efield e 8 8) = none) (htargets : s.targetsWait job (efield e 8 8) = none) :
    exec .registerEntry s = .next (entryDone s.ev.q (
      if (s.object? job (entryHandle e)).isSome then (s.refuseEntry s.ev.q job 0x119 e).resultWord s.ev.q job e 0x119
      else if s.objectOk job (efield e 8 8) then
        (({ s with objects := s.objects ++ [⟨job, entryHandle e, wd (efield e 8 8)⟩] } : State).journal .objectRegistered).resultWord s.ev.q job e 1
      else (s.refuseEntry s.ev.q job 0x11A e).resultWord s.ev.q job e 0x11A)) := by
  refine congrArg Host.Outcome.next (threadEntry_done h ?_)
  simp only [hresult, hobj, htargets, Option.none_or]
  cases hused : (s.object? job (entryHandle e)).isSome with
  | true => rfl
  | false =>
    cases hok : s.objectOk job (efield e 8 8) with
    | true => rfl
    | false => rfl

theorem exec_unregisterEntry {s : State} {job : Nat} {e : List Byte} {l : List (List Byte)} (h : Taking s 4 job e l) :
    exec .unregisterEntry s = .next (entryDone s.ev.q (s.unregister s.ev.q job e)) := by
  obtain ⟨-, hjob, -, -, hunreg, -⟩ := id h
  show execUnregisterEntry s = _
  simp only [execUnregisterEntry, nextS, hjob, hunreg]
  exact congrArg Host.Outcome.next (threadEntry_done h rfl)

/-- The phase that a phase entry opens (R293, R336). -/
def phaseOfEntry (s : State) (job : Nat) (e : List Byte) : Phase :=
  { id := s.nextPhase, job := job, dies := efield e 8 2, kseq := entrySeq e, groupTable := wd (efield e 16 8), cdone := wd (efield e 48 8) }

/-- What it makes of its job: the phase is the current one. -/
def openPhase (id : Nat) (j : Job) : Job := { j with curPhase := some id, openPhases := j.openPhases + 1, ended := false }

/-- A phase entry closes the phase before it (`s1`) and opens its own. -/
theorem exec_phaseEntry {s : State} {job : Nat} {e : List Byte} {l : List (List Byte)} (h : Taking s 5 job e l) :
    ∃ s1 : State, s1.jobs = s.jobs ∧ exec .phaseEntry s = .next (entryDone s.ev.q
      (({ s1 with phases := s1.phases ++ [phaseOfEntry s job e], nextPhase := s.nextPhase + 1 } : State).modJob job (openPhase s.nextPhase))) := by
  cases hcur : (s.job job).curPhase with
  | none =>
    refine ⟨s.journal .phaseChanged, rfl, congrArg Host.Outcome.next (threadEntry_done h ?_)⟩
    simp only [hcur]
    rfl
  | some p =>
    refine ⟨(s.modPhase p (fun x => { x with closed := true })).journal .phaseChanged, rfl, congrArg Host.Outcome.next (threadEntry_done h ?_)⟩
    simp only [hcur]
    rfl

/-- Settles O53: the form and the place of an entry, and each kind of entry that is taken, by the lemmas above. -/
theorem queueThreadsTakeEntries : Obligations.QueueThreadsTakeEntries := by
  unfold Obligations.QueueThreadsTakeEntries
  refine ⟨?form, ?kick, fun s job e l => exec_kick_barrier, fun s job e l h hgo => exec_kick_unknown h (hgo.imp_right .inr),
    fun s job e l => exec_waitEntry, fun s job e l => exec_registerEntry, fun s job e l => exec_unregisterEntry, fun s job e l h => ?phase⟩
  case form =>
    intro x kind job s e l hx hruns hjob hentries hidle hkind
    obtain ⟨body, hbody⟩ := exec_takesEntry hx
    rw [hbody, threadEntry_head hruns hjob hentries hidle hkind]
    refine ⟨fun hform => by rw [if_pos hform], fun hform hseq hrep => ?_, fun hform hseq hrep => ?_⟩
    · rw [hform, if_neg Bool.false_ne_true, if_neg hseq, if_pos hrep]
    · rw [hform, if_neg Bool.false_ne_true, if_neg hseq, if_neg hrep]
  case kick =>
    intro s s1 s2 job e l o ps vs h hgo hobj hread hps hs2 hvs
    have htakes {t : State} := exec_kick_takes (t := t) h hgo hobj hread
    exact ⟨fun hbad => htakes (takeKick_bad hps hbad), fun hok hsame => htakes (takeKick_same hps hs2 hvs hok hsame),
      fun hok hdiff hlive => htakes (takeKick_holds hps hs2 hvs hok hdiff hlive),
      fun s3 hok hdiff hlive hwrite => htakes (takeKick_writes hps hs2 hvs hok hdiff hlive hwrite)⟩
  case phase =>
    obtain ⟨s1, hjobs, hexec⟩ := exec_phaseEntry h
    refine ⟨_, phaseOfEntry s job e, hexec, rfl, rfl, rfl, List.mem_append_right _ (List.mem_singleton_self _), fun hknown => ?_⟩
    obtain ⟨j, hj⟩ := Option.ne_none_iff_exists'.1 hknown
    rw [job_modJob_self (j := j) (by rw [← hj, ← hjobs])]
    rfl

/-! ### Held kicks (R334) -/

section
variable {s : State} {job taken : Nat} {e : List Byte} {ps : List (Nat × Nat)} {o : GObject} (hruns : ThreadRuns s)
  (hjob : (s.queue s.ev.q).job = some job) (hhold : (s.queue s.ev.q).holding = some (e, ps, taken))
  (hobj : s.object? job (entryHandle e) = some o)
include hruns hjob hhold hobj

theorem exec_kickPatchApply_waits (hlive : s.objectLive job o.handle = true) : exec .kickPatchApply s = .next s := by
  show execKickPatchApply s = _
  simp only [execKickPatchApply, nextS, thread_acts hruns, hjob, hhold, hobj, hlive, if_true]

theorem exec_kickPatchApply_creates {s1 : State} (hlive : s.objectLive job o.handle = false) (hread : s.objectWaits job o.base.toNat = none)
    (hwrite : s.writePatches job (useValues o.base.toNat (patchUses s job o.base.toNat) ps) = (s1, true)) :
    exec .kickPatchApply s = .next ((s1.modQueue s.ev.q (fun x => { x with holding := none })).createInstance s.ev.q job o e taken) := by
  show execKickPatchApply s = _
  simp only [execKickPatchApply, nextS, thread_acts hruns, hjob, hhold, hobj, hlive, hread, hwrite, Bool.false_eq_true, if_false]
end

/-! ### Waits (R335) -/

theorem exec_waitReread {s : State} {job : Nat} (hruns : ThreadRuns s) (hjob : (s.queue s.ev.q).job = some job) :
    exec .waitReread s = .next (s.pollWait s.ev.q job) := by
  show execWaitReread s = _
  simp only [execWaitReread, nextS, thread_acts hruns, hjob]

section
variable {s : State} {q job : Nat} {e : List Byte} {told : Bool}

/-- A wait of source 1 ends when nothing of its queue with its KSEQ runs. -/
theorem pollWait_instance (hwait : (s.queue q).waiting = some (e, told)) (hsource : efield e 33 1 = 1) :
    s.pollWait q job = if s.insts.any (fun i => i.queue == q && i.kseq == efield e 48 2 && i.status.isNone) then s
      else s.modQueue q (fun x => { x with waiting := none, blocked := false }) := by
  simp only [State.pollWait, hwait, hsource, if_true]

section
variable (hsource : efield e 33 1 ≠ 1)
include hsource

theorem pollWait_word {s1 : State} {b : List Byte} (hwait : (s.queue q).waiting = some (e, told)) (halign : efield e 8 8 % 8 = 0)
    (hread : readG s 0 job (efield e 8 8 % 2 ^ 56) 8 .load 0 = (s1, .ok b)) :
    s.pollWait q job = if waitMet e (leNat b) then s1.modQueue q (fun x => { x with waiting := none, blocked := false }) else s1 := by
  simp only [State.pollWait, State.readWait, hwait, hsource, halign, hread, bne_self_eq_false, Bool.false_eq_true, if_false]

/-- The fault of a misaligned word is recorded once (R81). -/
theorem pollWait_misaligned (hwait : (s.queue q).waiting = some (e, false)) (halign : efield e 8 8 % 8 ≠ 0) :
    s.pollWait q job = (s.writeRecord q { cause := 0x060, src := 3, job := job, kseq := entrySeq e, addr := efield e 8 8 }).modQueue q
      (fun x => { x with waiting := some (e, true) }) := by
  simp only [State.pollWait, State.readWait, hwait, hsource, bne_iff_ne.2 halign, Bool.false_eq_true, if_true, if_false]
  rfl
end
end

/-! ### Cancels (R333) -/

section
variable {s s1 : State} {job k : Nat} {e : List Byte} (hruns : ThreadRuns s) (hjob : (s.queue s.ev.q).job = some job)
  (hfind : lfind (fun e => entryKind e == 2) (s.queue s.ev.q).entries = some k) (he : e = lget (s.queue s.ev.q).entries k [])
  (hs1 : s1 = s.modQueue s.ev.q (fun x => { x with entries := ldel x.entries k }))
include hruns hjob hfind he hs1

theorem exec_cancelEntry_malformed (hform : malformed e = true) : exec .cancelEntry s = .next (s1.refuseEntry s.ev.q job 0x11C e) := by
  show execCancelEntry s = _
  simp only [execCancelEntry, nextS, thread_acts hruns, hjob, hfind, ← he, ← hs1, hform, if_true]

section
variable (hform : malformed e = false)
include hform

theorem exec_cancelEntry_instance {i : Instance} (hlevel : efield e 8 1 = 2)
    (hi : s1.insts.find? (fun i => i.queue == s.ev.q && i.kseq == entrySeq e && i.status.isNone) = some i) :
    exec .cancelEntry s = .next (((s1.journal .entryAccepted).cancelRecord job 2 { cause := 0, kseq := i.kseq }).cancelInst i.id) := by
  have hinst : s.insts.find? (fun i => i.queue == s.ev.q && i.kseq == entrySeq e && i.status.isNone) = some i := by rw [← hi, hs1]; rfl
  show execCancelEntry s = _
  simp only [execCancelEntry, nextS, thread_acts hruns, hjob, hfind, ← he, ← hs1, hform, hlevel, hinst, Bool.false_eq_true, if_true, if_false]

/-- A cancel of the job also empties its queue and ends what its thread waits for and holds (log 11). -/
theorem exec_cancelEntry_job (hlevel : efield e 8 1 ≠ 2) (hlive : (s.job job).ended = false) :
    exec .cancelEntry s = .next ((((s1.modQueue s.ev.q (fun x => { x with entries := [], blocked := false, waiting := none, holding := none })).journal
      .entryAccepted).cancelRecord job 4 { cause := 0, kseq := entrySeq e }).cancelJob job) := by
  show execCancelEntry s = _
  simp only [execCancelEntry, nextS, thread_acts hruns, hjob, hfind, ← he, ← hs1, hform, hlevel, hlive, Bool.false_eq_true, if_false]
end
end

theorem exec_unregisterEntry_waiting {s : State} {job : Nat} {e : List Byte} (hruns : ThreadRuns s) (hjob : (s.queue s.ev.q).job = some job)
    (hunreg : (s.queue s.ev.q).unreg = some e) : exec .unregisterEntry s = .next (s.unregister s.ev.q job e) := by
  show execUnregisterEntry s = _
  simp only [execUnregisterEntry, nextS, hjob, hunreg, thread_acts hruns]

/-- What a thread does, in its entries and beside them. -/
theorem exec_onThread (s : State) {x : Instr}
    (hx : x ∈ [Instr.kick, .waitEntry, .registerEntry, .unregisterEntry, .phaseEntry, .kickPatchApply, .waitReread, .cancelEntry]) :
    ∃ body, exec x s = .next (s.thread body) := by
  simp only [List.mem_cons, List.not_mem_nil, or_false] at hx
  rcases hx with rfl | rfl | rfl | rfl | rfl | rfl | rfl | rfl
  case inr.inr.inr.inl =>
    show ∃ body, execUnregisterEntry s = _
    unfold execUnregisterEntry
    split <;> exact ⟨_, rfl⟩
  all_goals exact ⟨_, rfl⟩

/-! ### Binding (R337) -/

section
variable {s : State} {jid : Nat} (hq : s.ev.q < 32) (hlen : s.ev.bytes.length = 64) (hempty : (s.queue s.ev.q).entries = [])
  (hlive : s.queueLive s.ev.q = false) (hidle : (s.queue s.ev.q).idle = true) (hjid : jid = efield s.ev.bytes 0 4)
  (hfree : ∀ j, aget s.jobs jid = some j → j.queue = s.ev.q)
include hq hlen hempty hlive hidle hjid hfree

/-- An idle queue is bound: the job that it had leaves, and that of the descriptor comes. -/
theorem exec_queueBind {s1 : State} (hs1 : s1 = (s.queue s.ev.q).job.elim s s.dropJob) :
    exec .queueBind s = .next (State.modQueue { s1 with jobs := aset s1.jobs jid (jobOf s.ev.q (s.ev.host + 1) s.ev.bytes) } s.ev.q
      (fun x => { x with job := some jid, eseq := 1#16, host := s.ev.host + 1 })) := by
  subst hs1 hjid
  show execQueueBind s = _
  cases hj : aget s.jobs (efield s.ev.bytes 0 4) with
  | none =>
    simp only [execQueueBind, nextS, hlen, hempty, hlive, hidle, hj, decide_eq_false (not_le.2 hq), bne_self_eq_false, List.isEmpty_nil,
      Bool.not_true, Bool.or_self, Bool.false_eq_true, if_false]
    cases (s.queue s.ev.q).job <;> rfl
  | some j =>
    simp only [execQueueBind, nextS, hlen, hempty, hlive, hidle, hj, hfree j hj, decide_eq_false (not_le.2 hq), bne_self_eq_false, List.isEmpty_nil,
      Bool.not_true, Bool.or_self, Bool.false_eq_true, if_false]
    cases (s.queue s.ev.q).job <;> rfl
end

/-- Settles O54: each of the thread's operations by its own lemmas above, and the binding of a queue with and without a job. -/
theorem queueThreadsGoOn : Obligations.QueueThreadsGoOn := by
  unfold Obligations.QueueThreadsGoOn
  refine ⟨fun s job taken e ps o hruns hjob hhold hobj => ⟨exec_kickPatchApply_waits hruns hjob hhold hobj, fun s1 =>
      exec_kickPatchApply_creates hruns hjob hhold hobj⟩,
    fun s s1 job e told b hruns hjob hwait hsource halign hread => ?word, fun s job e hruns hjob hwait hsource halign => ?misaligned,
    fun s job e told hruns hjob hwait hsource => ?ended,
    fun s s1 job k e hruns hjob hfind he hs1 => ⟨exec_cancelEntry_malformed hruns hjob hfind he hs1, fun i hform =>
      exec_cancelEntry_instance hruns hjob hfind he hs1 hform, fun hform => exec_cancelEntry_job hruns hjob hfind he hs1 hform⟩,
    fun s job e => exec_unregisterEntry_waiting, fun x s hx hidle => ?idle,
    fun s jid hq hlen hempty hlive hidle hjid hfree hnone => ?first, fun s jid old hq hlen hempty hlive hidle hjid hfree hold => ?again⟩
  case word => rw [exec_waitReread hruns hjob, pollWait_word hsource hwait halign hread]
  case misaligned => rw [exec_waitReread hruns hjob, pollWait_misaligned hsource hwait halign]
  case ended => rw [exec_waitReread hruns hjob, pollWait_instance hwait hsource]
  case idle =>
    obtain ⟨body, hbody⟩ := exec_onThread s hx
    rw [hbody, thread_idle hidle]
  case first => exact exec_queueBind hq hlen hempty hlive hidle hjid hfree (by rw [hnone, Option.elim_none])
  case again => exact exec_queueBind hq hlen hempty hlive hidle hjid hfree (by rw [hold, Option.elim_some])

end Sys2Proof.Proofs

/-! PROOFS. No step stops the machine (R345): every meaning answers a state, and so does every turn of the agenda. -/

namespace Sys2Proof.Proofs

open Sys2Proof Sys2Proof.Machine

/-! ### Instructions -/

/-- The outcome is a next state: neither a fault that stops the machine nor a refusal. -/
def GoesOn (o : Host.Outcome State Fault Refusal) : Prop := ∃ t, o = .next t

theorem goesOn_next (s : State) : GoesOn (.next s) := ⟨s, rfl⟩
theorem goesOn_ite {c : Prop} [Decidable c] {o o' : Host.Outcome State Fault Refusal} (h : GoesOn o) (h' : GoesOn o') :
    GoesOn (if c then o else o') := by
  split
  · exact h
  · exact h'

theorem goesOn_execCntrSourceEmit (s : State) : GoesOn (execCntrSourceEmit s) := by
  unfold execCntrSourceEmit
  dsimp only
  split
  · exact goesOn_ite (goesOn_next _) (goesOn_next s)
  · exact goesOn_next s

theorem goesOn_execConstFreeFire (s : State) : GoesOn (execConstFreeFire s) := by
  unfold execConstFreeFire
  dsimp only
  split
  · exact goesOn_ite (goesOn_next _) (goesOn_next s)
  · exact goesOn_next s

/-- Every meaning is written as a next state; only the two events that hand over to a PE row ask first whether that row stands there. -/
theorem goesOn_exec (i : Instr) (s : State) : GoesOn (exec i s) := by
  cases i with
  | cntrSourceEmit => exact goesOn_execCntrSourceEmit s
  | constFreeFire => exact goesOn_execConstFreeFire s
  | _ => exact goesOn_next _

/-! ### Turns of the agenda (log 2) -/

theorem goesOn_runPe (s : State) (cl x y : Nat) : GoesOn (s.runPe cl x y) := by
  refine goesOn_ite (goesOn_next s) ?_
  dsimp only
  split
  · exact goesOn_next _
  · split
    · exact goesOn_next _
    · exact goesOn_exec ..

/-- A fetch that faults is a fault of the unit, and one that is not answered yet leaves its requests. -/
theorem goesOn_runWord (s : State) (uid : Nat) : GoesOn (s.runWord uid) := by
  unfold State.runWord
  split
  · exact goesOn_next s
  · refine goesOn_ite (goesOn_next s) ?_
    split
    · exact goesOn_exec ..
    · exact goesOn_next _
    · exact goesOn_next _

theorem goesOn_runMsg (s : State) (e : EngineId) : GoesOn (s.runMsg e) := by
  unfold State.runMsg
  split
  · exact goesOn_next s
  · refine goesOn_ite (goesOn_next s) ?_
    split
    · exact goesOn_next _
    · exact goesOn_exec ..

theorem goesOn_runEvent (s : State) (i : Instr) (a : EvArgs) : GoesOn (s.runEvent i a) :=
  goesOn_ite (goesOn_exec ..) (goesOn_next s)

theorem goesOn_hostCxl (s : State) (i : Instr) (addr : Nat) (a : EvArgs) : GoesOn (s.runPick (.hostCxl i addr a)) := by
  refine goesOn_ite (goesOn_next s) ?_
  split
  · exact goesOn_runEvent ..
  · exact goesOn_next s

theorem goesOn_busWrite (s : State) (h a n v : Nat) : GoesOn (s.runPick (.busWrite h a n v)) := by
  rw [State.runPick]
  split
  · exact goesOn_runEvent ..
  · exact goesOn_next s

theorem goesOn_runPick (s : State) (p : Pick) : GoesOn (s.runPick p) := by
  cases p with
  | pe cl x y => exact goesOn_runPe s cl x y
  | word u => exact goesOn_runWord s u
  | msg e => exact goesOn_runMsg s e
  | event i a => exact goesOn_runEvent s i a
  | hostCxl i addr a => exact goesOn_hostCxl s i addr a
  | busWrite h a n v => exact goesOn_busWrite s h a n v
  | _ => exact goesOn_next _

/-- Settles O3: an empty agenda leaves the state, and every turn answers a state by the lemmas above. -/
theorem everyStepContinues : Obligations.EveryStepContinues := by
  unfold Obligations.EveryStepContinues
  intro s
  show GoesOn (step s)
  cases hag : s.agenda with
  | nil => simp only [step, hag, goesOn_next]
  | cons p rest =>
    rw [step_cons hag]
    exact goesOn_runPick _ p

end Sys2Proof.Proofs

/-! PROOFS. Taking a class T fault (R350): when the handler is entered, and what escalation and the end of a unit leave of its handler mode. -/

namespace Sys2Proof.Proofs

open Sys2Proof Sys2Proof.Machine Sys2Proof.Laws Sys2Proof.Claims

/-! ### The completion words of a unit that ends leave the units (R43, R44) -/

@[simp] theorem units_sendSnoops (s : State) (xa n : Nat) (w : Bool) : (s.sendSnoops xa n w).units = s.units :=
  (congrArg State.units (exceptTraffic_sendSnoops s xa n w) :)
@[simp] theorem units_devWrite (s : State) (pa : Nat) (bs : List Byte) : (s.devWrite pa bs).units = s.units :=
  (congrArg State.units (exceptTraffic_devWrite s pa bs) :)
@[simp] theorem units_fySend (s : State) (d k : Nat) (pl : FyPayload) : (s.fySend d k pl).units = s.units :=
  (congrArg State.units (exceptTraffic_asked (asked_fySend s d k pl)) :)
@[simp] theorem units_tlbFill (s : State) (holder job va e l cap : Nat) : (s.tlbFill holder job va e l cap).units = s.units := rfl

/-- A walk may write A and D in the table and fill the caches (R357, R359). -/
@[simp] theorem units_translate (s : State) (cl job va : Nat) (k : Acc5) (acc : Nat) :
    (Machine.translate s cl job va k acc).1.units = s.units := by
  unfold Machine.translate
  extract_lets vpage use hit
  have huse : ∀ t e l, (use t e l).1 = t := fun t e l => by
    dsimp only [use]
    split
    · rfl
    · simp only [apply_ite Prod.fst, ite_self]
  split
  · rw [huse]
  · split
    · exact units_sendSnoops ..
    · rfl
    · split
      · rfl
      · extract_lets e1 s1
        have hwritten : s1.units = s.units := by
          simp only [s1, apply_ite State.units, units_devWrite, ite_self]
        split
        · exact units_sendSnoops ..
        · rw [huse, units_tlbFill, units_tlbFill, hwritten]

@[simp] theorem units_translateReady (s : State) (cl job va n : Nat) (k : Acc5) (acc : Nat) :
    (translateReady s cl job va n k acc).1.units = s.units := by
  have h := units_translate s cl job va k acc
  unfold translateReady
  split
  · next s1 xa mt sc heq =>
    rw [heq] at h
    split
    · exact h
    · exact (units_sendSnoops ..).trans h
  · exact h

@[simp] theorem units_writeXa (s : State) (who : Nat × Nat) (xa : Nat) (bs : List Byte) : (s.writeXa who xa bs).units = s.units := by
  unfold State.writeXa
  split
  · exact units_fySend ..
  · exact units_devWrite s xa bs

theorem units_garnetWrite (s : State) (job va n v : Nat) (k : Acc5) (rel : State → Nat → Bool) :
    (s.garnetWrite job va n v k rel).1.units = s.units := by
  have h := units_translateReady s 0 job va n k 4
  unfold State.garnetWrite
  split
  · next s1 xa mt sc heq =>
    rw [heq] at h
    simp only [apply_ite Prod.fst, apply_ite State.units, units_writeXa, ite_self]
    exact h
  · next s1 r _ heq =>
    rw [heq] at h
    exact h

theorem units_putWord (s : State) (job va v : Nat) (l : LevelId) : (s.putWord job va v l).units = s.units := by
  have h := units_garnetWrite s job va 8 v .store (fun s sc => s.levelReleased job sc)
  unfold State.putWord
  dsimp only
  split
  · rfl
  · split <;> rename_i heq <;> rw [heq] at h
    · exact (units_writeRecord ..).trans h
    · exact h
    · exact h

@[simp] theorem units_completionWord (s : State) (job : Nat) (l : LevelId) (va : Word) (ndone nfail level status : Nat) :
    (s.completionWord job l va ndone nfail level status).units = s.units := by
  unfold State.completionWord
  split
  · rfl
  · exact units_putWord ..

@[simp] theorem units_modInst (s : State) (i : Nat) (f : Instance → Instance) : (s.modInst i f).units = s.units := rfl
@[simp] theorem units_countPhase (s : State) (ph : Option Nat) (status : Nat) : (s.countPhase ph status).units = s.units := by
  cases ph <;> rfl

@[simp] theorem units_settleInst (s : State) (i : Nat) : (s.settleInst i).units = s.units := by
  unfold State.settleInst
  split
  · rfl
  · dsimp only
    split
    · rfl
    · rw [units_countPhase, units_completionWord, units_modInst]

@[simp] theorem units_settleParents (s : State) (i fuel : Nat) : (s.settleParents i fuel).units = s.units := by
  induction fuel generalizing s with
  | zero => rfl
  | succ fuel ih =>
    unfold State.settleParents
    split
    · rfl
    · dsimp only
      split
      · rfl
      · rw [ih, units_modInst]

@[simp] theorem units_endNode (s : State) (i n status : Nat) : (s.endNode i n status).units = s.units := by
  rw [State.endNode, units_settleInst, units_settleParents, units_modInst]

theorem units_countUnit (s : State) (i n status : Nat) : (s.countUnit i n status).units = s.units := by
  unfold State.countUnit
  split
  · rfl
  · simp only [apply_ite State.units, units_endNode, units_completionWord, units_modInst, ite_self]

/-! ### The handler mode of a unit that stops or ends (R353) -/

theorem handler_modUnit (s : State) (uid : Nat) (f : UnitSt → UnitSt) (hf : ∀ u, (f u).handler = u.handler) :
    ((s.modUnit uid f).unit uid).handler = (s.unit uid).handler := by
  cases hu : aget s.units uid with
  | none => simp only [State.unit, agetD, State.aget_modUnit, hu, if_true, Option.map_none]
  | some u => rw [State.unit_modUnit_self hu, State.unit_of_aget hu, hf]

theorem unit_congr {s t : State} (h : t.units = s.units) (uid : Nat) : t.unit uid = s.unit uid := by
  rw [State.unit, State.unit, h]

theorem handler_liftHalts (s : State) (uid : Nat) (reason : Bool) : ((s.liftHalts uid reason).unit uid).handler = (s.unit uid).handler := by
  unfold State.liftHalts
  dsimp only
  split
  · rfl
  · rw [unit_congr (State.modJob_units ..), unit_congr (State.modJob_units ..), handler_modUnit]
    exact fun _ => rfl

theorem handler_endUnit (s : State) (uid status : Nat) : ((s.endUnit uid status).unit uid).handler = (s.unit uid).handler := by
  unfold State.endUnit
  extract_lets s0 u s1 s2 s3 s4
  have hclusters : s3.units = s0.units := units_foldl (fun t c => State.modCluster_units t c _) _ s1
  calc ((s4.journal .unitEnded).countUnit u.inst u.node status |>.unit uid).handler
    _ = (s4.unit uid).handler := congrArg UnitSt.handler (unit_congr (units_countUnit ..) uid)
    _ = (s3.unit uid).handler := handler_modUnit s3 uid _ (fun _ => rfl)
    _ = (s0.unit uid).handler := congrArg UnitSt.handler (unit_congr hclusters uid)
    _ = (s.unit uid).handler := handler_liftHalts ..

theorem handler_escalate (s : State) (uid : Nat) (key : Option Nat) (r : Raised) :
    ((s.escalate uid key r).unit uid).handler = (s.unit uid).handler := by
  unfold State.escalate
  dsimp only
  split
  · rw [handler_endUnit, unit_congr (units_unitRecord ..)]
  · rw [handler_modUnit, unit_congr (units_unitRecord ..)]
    · rfl
    · exact fun _ => rfl

/-- Only a fault that the handler takes (R350) changes whether the unit is in it. -/
theorem handler_takeFault {s : State} {uid : Nat} {u : UnitSt} {r : Raised} (hu : aget s.units uid = some u)
    (hwhy : u.tvec = 0#64 ∨ isStopCause r.cause = true ∨ u.status ≠ .running) (key : Option Nat) :
    ((s.takeFault uid key r).unit uid).handler = u.handler := by
  rw [← State.unit_of_aget hu] at hwhy ⊢
  unfold State.takeFault
  dsimp only
  split
  · next hrun =>
    split_ifs with hstop hin hctl hvec
    · exact handler_escalate ..
    · exact handler_escalate ..
    · rw [handler_modUnit]
      exact fun _ => rfl
    · exact handler_escalate ..
    · exact absurd hwhy (by simp [hstop, hvec, hrun])
  · exact handler_escalate ..
  · rw [handler_modUnit]
    exact fun _ => rfl
  · rfl

/-! ### What the handler takes (R350) -/

theorem pe_enterHandler (u : UnitSt) (key : Option Nat) (r : Raised) (k : Nat) : (u.enterHandler key r).pe k = u.pe k := rfl

/-- A fault at a firing that the handler takes: the firing is held at its PE. -/
theorem faultAt_enters {s : State} {uid key : Nat} {u : UnitSt} {r : Raised} (hu : aget s.units uid = some u) (hrun : u.status = .running)
    (houtside : u.handler = false) (hvec : u.tvec ≠ 0#64) (hcause : isStopCause r.cause = false) :
    (s.faultAt uid key r).unit uid = (u.modPe key (fun p => { p with held := some r })).enterHandler (some key) r := by
  have hheld : aget (s.modUnit uid (fun u => u.modPe key (fun p => { p with held := some r }))).units uid =
      some (u.modPe key (fun p => { p with held := some r })) := by
    rw [State.aget_modUnit, if_pos rfl, hu, Option.map_some]
  rw [State.faultAt, takeFault_enters hheld hrun houtside hvec hcause, State.unit_setUnit_self]

theorem exec_qwait_waits {c : CWord} {s : State} {u : UnitSt} (hs : Sequencing s u) (hc : ctlFieldsOk 0x1A c = true) (hbusy : ¬ AtRest s u) :
    exec (.qwait c) s = .next s := by
  show execQwait c s = _
  rw [execQwait, seqWord_acts hs hc, whenQuiet, if_neg]
  rwa [Bool.and_eq_true]

theorem exec_extr_waits {c : CWord} {s : State} {u : UnitSt} (hs : Sequencing s u) (hc : ctlFieldsOk 0x1F c = true)
    (hempty : u.oldest (agetD u.sinks ((CWord.imm16 c).toNat % 16) []) = none) (hbusy : ¬ AtRest s u) : exec (.extr c) s = .next s := by
  rw [exec_extr_empty hs hc rfl hempty, if_neg]
  rwa [Bool.and_eq_true]

/-- Settles O27: a fault that the handler takes, one that it does not take, and the words that wait, by the lemmas above. -/
theorem handlerTakesAFault : Obligations.HandlerTakesAFault := by
  unfold Obligations.HandlerTakesAFault
  refine ⟨fun s uid u key r hu hrun houtside hvec hcause => takeFault_enters hu hrun houtside hvec hcause key,
    fun s uid u key r hu houtside hwhy => (handler_takeFault hu hwhy key).trans houtside, ?pending, ?held,
    fun c s u hs => exec_trapc hs,
    fun c s u hs hbusy => ⟨fun hc => exec_qwait_waits hs hc hbusy, fun hc hempty => exec_extr_waits hs hc hempty hbusy⟩⟩
  case pending =>
    intro s uid u key r hu hrun hin hctl hcause
    rw [takeFault_waits hu hrun hin hctl hcause, State.unit_modUnit_self hu]
    exact ⟨rfl, rfl⟩
  case held =>
    intro s uid key u r hu hrun houtside hvec hcause
    rw [faultAt_enters hu hrun houtside hvec hcause]
    have hfires : u.fires = true := by rw [UnitSt.fires, hrun]
    simp only [pe_enterHandler, UnitSt.pe_modPe_self, true_and]
    exact ⟨hfires, fun k hk => UnitSt.pe_modPe_other u _ hk.symm⟩

end Sys2Proof.Proofs

/-! PROOFS. The rows that fill the store buffer (R101, R104, R227, R246). -/

namespace Sys2Proof.Proofs

open Sys2Proof Sys2Proof.Machine Sys2Proof.Laws Sys2Proof.Claims

/-! ### What a memory-class firing comes to -/

/-- The firing of a row of 09 once its operands are there (R101, R104, R227): a full buffer holds it back, its request is refused, its sequence
number is taken (last: log 61), or it enters. -/
def memOutcome (r : MemRow) (s1 : State) (uid key : Nat) (g : Gathered) : State :=
  if (s1.unit uid).sbFull r.op g.tok.col then s1
  else
    match r.req s1 uid r.w g with
    | .bad c a d => s1.faultAt uid key { cause := c, addr := wd a, tag := g.tok, d0 := d }
    | .entry ea n =>
      if (s1.unit uid).badOwn r.w g.tok then s1.faultAt uid key (raise 0x0AA g.tok)
      else s1.enterBuffer uid key g.toks (memEntry r (s1.unit uid) key g ea n)

section
variable {i : Instr} {r : MemRow} {s s1 : State} {uid key : Nat} {g : Gathered} (hgo : prepFire r.opc r.w s r.ok = .go s1 uid key g)
include hgo

theorem fireMem_outcome : fireMem r.opc r.op r.ok r.req r.w s = memOutcome r s1 uid key g := by
  rw [fireMem, hgo]
  rfl

/-- A row of 09 fires as its record says; only a RED may find its contributor busy, and waits in its node (R115, R246). -/
theorem exec_memRow (hrow : memRow i = some r) : exec i s = .next (if redWaits i s uid = true then s else memOutcome r s1 uid key g) := by
  have hfocus := (prepFire_go hgo).1
  rw [← fireMem_outcome hgo]
  unfold memRow at hrow
  split at hrow
  case h_10 w =>
    cases hrow
    show execRed w s = _
    rw [execRed, hfocus]
    rfl
  all_goals cases hrow
  all_goals rfl
end

/-- Settles O21: a row that does not wait comes to its outcome, in the order of its checks. -/
theorem memoryRowsFire : Obligations.MemoryRowsFire := by
  unfold Obligations.MemoryRowsFire
  refine ⟨fun i r s s1 uid key ea n g hrow hgo hroom hreq hown hred => ?_, fun i r s s1 uid key g hrow hgo => ?_⟩
  · rw [exec_memRow hgo hrow]
    simp only [hred, memOutcome, hroom, hreq, hown, Bool.false_eq_true, if_false]
  · rw [exec_memRow hgo hrow]
    refine ⟨fun hred => if_pos hred ▸ rfl, fun hred => ⟨fun hfull => ?_, fun c a d hroom hreq => ?_, fun ea n hroom hreq hown => ?_⟩⟩
    · simp only [hred, memOutcome, hfull, Bool.false_eq_true, if_false, if_true]
    · simp only [hred, memOutcome, hroom, hreq, Bool.false_eq_true, if_false]
    · simp only [hred, memOutcome, hroom, hreq, hown, Bool.false_eq_true, if_false, if_true]

end Sys2Proof.Proofs

/-! PROOFS. AMOG, POST, GNUDGE and FENCEG (R97, R109, R276). -/

namespace Sys2Proof.Proofs

open Sys2Proof Sys2Proof.Machine Sys2Proof.Laws Sys2Proof.Claims

/-! ### The synchronising words (R276) -/

/-- A synchronising word makes its access at the home, then writes gd or wakes the graph and goes on. -/
theorem exec_syncWord {i : Instr} {op : BitVec 6} {c : CWord} {s : State} {u : UnitSt} {n : Nat} {e : SbEntry} {rel : Bool}
    (hword : syncWord u i = some (n, e, rel)) (hpart : i.ctlPart = some (op, c)) (hs : Sequencing s u) (hc : ctlFieldsOk op.toNat c = true)
    (hfresh : Fresh u) : ∃ fin : State → Word → State, exec i s = .next ((ctlSync s s.curUnit u e rel).settle s.curUnit u fin) ∧
      ∀ s1 v, s1.curUnit = s.curUnit → fin s1 v = syncAfter u s1 v i := by
  unfold syncWord at hword
  split at hword
  case h_1 _ c =>
    cases hword
    cases hpart
    refine ⟨fun s1 v => s1.modUnit s.curUnit (fun x => x.setG c.gd v), ?_, fun s1 v hcur => by simp only [syncAfter, hcur]⟩
    have hc : ctlFieldsOk 0x0D c = true := hc
    show execAmog c s = _
    simp only [execAmog, nextS, seqWord_acts hs hc, ctlAccess_fresh hfresh]
  case h_2 _ c =>
    cases hword
    cases hpart
    refine ⟨fun s1 _ => s1, ?_, fun s1 v _ => rfl⟩
    have hc : ctlFieldsOk 0x24 c = true := hc
    show execPost c s = _
    simp only [execPost, nextS, seqWord_acts hs hc, ctlAccess_fresh hfresh]
  case h_3 _ c =>
    cases hword
    cases hpart
    refine ⟨fun s1 _ => s1.nudge (· == u.job) (true, (u.greg c.ga).toNat % 2 ^ 56), ?_, fun s1 v _ => rfl⟩
    have hc : ctlFieldsOk 0x2F c = true := hc
    show execGnudge c s = _
    simp only [execGnudge, nextS, seqWord_acts hs hc, ctlAccess_fresh hfresh]
  case h_4 => cases hword

theorem ctlSync_misaligned {e : SbEntry} (h : e.ea % e.n ≠ 0) (s : State) (uid : Nat) (u : UnitSt) (rel : Bool) :
    ctlSync s uid u e rel = .fault s 0x060 e.ea 0#64 0#64 := ctlTranslate_misaligned h ..

/-! ### FENCEG (R109, R276) -/

section
variable {c : CWord} {s s1 s2 : State} {u : UnitSt} {xa mt sc k : Nat} (hs : Sequencing s u) (hc : ctlFieldsOk 0x2C c = true) (hfresh : Fresh u)
  (hnew : ∀ o, u.wait ≠ .fence o) (hk : k = (CWord.imm16 c).toNat % 4)
  (htr : translate s u.lead u.job ((u.greg c.ga).toNat % 2 ^ 56) .fence 0 = (s1, .ok xa mt sc))
  (hs2 : s2 = s1.modUnit s.curUnit (fun x => { x with wait := .fence u.ordCtr }))
include hs hc hfresh hnew hk htr hs2

/-- A FENCEG that begins counts the accesses issued before it. While one of them is not done, or a release of fabric scope is not complete on
every device, it waits; else the owner of its line or the home takes it. -/
theorem exec_fenceg : exec (.fenceg c) s = .next (CtlMem.settle s.curUnit u (fun s _ => s) (
    if !s2.fencegDone s.curUnit u k u.ordCtr then .wait s2
    else if k != 0 && decide (3 ≤ (scopeCheck (s2.dirOf (xa / 128)).scopeRec sc u.lead).1) && !s2.fabricReleased s.curUnit then .wait s2
    else if isFabXa xa then ctlAsk s2 s.curUnit u xa (fun t => .memSync (xa % 2 ^ 40) 8 .fence sc 0#64 0#64 t)
    else if (s2.dirOf (xa / 128)).lock.isSome then .wait s2
    else ctlScope (s2.syncEffect { ctlEntry u .fence 0#3 0#64 ((u.greg c.ga).toNat % 2 ^ 56) 8 with xa := xa, scope := sc } []).1 s.curUnit u
      { ctlEntry u .fence 0#3 0#64 ((u.greg c.ga).toNat % 2 ^ 56) 8 with xa := xa, scope := sc } (s2.dirOf (xa / 128)).scopeRec 0#64)) := by
  subst hk hs2
  show execFenceg c s = _
  simp only [execFenceg, nextS, seqWord_acts hs hc, ctlAccess_fresh hfresh, htr]
end

/-- The release that a FENCEG of kind k is, if it is one, is complete as far as its scope asks (R108, R109). -/
theorem release_complete {k eff : Nat} {released : Bool} (h : k = 0 ∨ eff < 3 ∨ released = true) : (k != 0 && decide (3 ≤ eff) && !released) = false := by
  rcases h with rfl | h | rfl
  · rfl
  · rw [decide_eq_false (by omega), Bool.and_false, Bool.false_and]
  · rw [Bool.not_true, Bool.and_false]

/-- Settles O34: the access of a synchronising word is one function; FENCEG waits or is taken by the lemma above. -/
theorem sequencerSynchronises : Obligations.SequencerSynchronises := by
  unfold Obligations.SequencerSynchronises
  refine ⟨?performs, ?misaligned, ?fence⟩
  case performs =>
    intro i op c s s1 u n e rel v hword hpart hs hc hfresh hsync hcur
    obtain ⟨fin, hexec, hfin⟩ := exec_syncWord hword hpart hs hc hfresh
    rw [hexec, hsync, CtlMem.settle, hfin s1 v hcur]
  case misaligned =>
    intro i op c s u n e rel hword hpart hs hc hfresh hmisaligned
    obtain ⟨fin, hexec, _⟩ := exec_syncWord hword hpart hs hc hfresh
    rw [hexec, ctlSync_misaligned hmisaligned, CtlMem.settle]
  case fence =>
    rintro c s s1 s2 u xa mt sc k ord hs hc hfresh hnew rfl hk htr hs2
    rw [exec_fenceg hs hc hfresh hnew hk htr hs2]
    refine ⟨fun hbusy => ?_, fun hdone hrel => ⟨fun s3 hfab hask => ?_, fun s3 v e he hhere hfree hscope => ?_⟩⟩
    · simp only [hbusy, Bool.not_false, if_true, CtlMem.settle]
    · simp only [hdone, release_complete hrel, hfab, hask, Bool.not_true, Bool.false_eq_true, if_false, if_true, CtlMem.settle]
    · subst he
      simp only [hdone, release_complete hrel, hhere, hfree, Option.isSome_none, hscope, Bool.not_true, Bool.false_eq_true, if_false, CtlMem.settle]

end Sys2Proof.Proofs

/-! PROOFS. What a write at its home leaves (R85, R94, R117): a frame for every operation of the home slices. -/

namespace Sys2Proof.Proofs

open Sys2Proof Sys2Proof.Machine Sys2Proof.Laws Sys2Proof.Claims

/-! ### The frame of the home slices -/

/-- `t` is `s` after the home slices have worked: bytes of device and host memory, copies of lines and what is noted of them, messages, and
what hosts and other devices are asked for. -/
def HomesWorked (s t : State) : Prop :=
  ∃ mem hmem dir clusters net out ask fleet half, t = { s with
    mem := mem, hmem := hmem, dir := dir, clusters := clusters, net := net, fyOut := out, hostAsk := ask, fleet := fleet, hostHalf := half }

theorem HomesWorked.refl (s : State) : HomesWorked s s := ⟨_, _, _, _, _, _, _, _, _, rfl⟩
theorem HomesWorked.trans {s t r : State} (h : HomesWorked s t) (h' : HomesWorked t r) : HomesWorked s r := by
  obtain ⟨_, _, _, _, _, _, _, _, _, rfl⟩ := h
  obtain ⟨_, _, _, _, _, _, _, _, _, rfl⟩ := h'
  exact ⟨_, _, _, _, _, _, _, _, _, rfl⟩
theorem HomesWorked.foldl {α : Type} {f : State → α → State} (hf : ∀ s a, HomesWorked s (f s a)) (l : List α) (s : State) :
    HomesWorked s (l.foldl f s) := by
  induction l generalizing s with
  | nil => exact .refl s
  | cons a r ih => exact (hf s a).trans (ih (f s a))
theorem HomesWorked.ite {c : Prop} [Decidable c] {s t r : State} (ht : HomesWorked s t) (hr : HomesWorked s r) : HomesWorked s (if c then t else r) := by
  split
  · exact ht
  · exact hr
theorem HomesWorked.of_asked {s t : State} (h : Asked s t) : HomesWorked s t := by
  obtain ⟨_, _, _, _, rfl⟩ := h
  exact ⟨_, _, _, _, _, _, _, _, _, rfl⟩

theorem homesWorked_modDir (s : State) (l : Nat) (f : DirEntry → DirEntry) : HomesWorked s (s.modDir l f) := ⟨_, _, _, _, _, _, _, _, _, rfl⟩
theorem homesWorked_modCluster (s : State) (c : Nat) (f : Cluster → Cluster) : HomesWorked s (s.modCluster c f) := ⟨_, _, _, _, _, _, _, _, _, rfl⟩
theorem homesWorked_net (s : State) (l : List CohMsg) : HomesWorked s { s with net := l } := ⟨_, _, _, _, _, _, _, _, _, rfl⟩
theorem homesWorked_hostHalf (s : State) (l : List (Nat × Mesi)) : HomesWorked s { s with hostHalf := l } := ⟨_, _, _, _, _, _, _, _, _, rfl⟩

theorem homesWorked_putHome (s : State) (xa : Nat) (b : Byte) : HomesWorked s (s.putHome xa b) := by
  unfold State.putHome
  split_ifs
  · exact .refl s
  · exact ⟨_, _, _, _, _, _, _, _, _, rfl⟩
  · exact ⟨_, _, _, _, _, _, _, _, _, rfl⟩
theorem homesWorked_putHomeBytes (s : State) (xa : Nat) (bs : List Byte) : HomesWorked s (s.putHomeBytes xa bs) := by
  induction bs generalizing s xa with
  | nil => exact .refl s
  | cons b r ih => exact (homesWorked_putHome s xa b).trans (ih _ _)
theorem homesWorked_writeWords (s : State) (region : Nat) (l : List (Nat × Word32)) : HomesWorked s (s.writeWords region l) := by
  induction l generalizing s with
  | nil => exact .refl s
  | cons p r ih => exact (homesWorked_putHomeBytes s _ _).trans (ih _)
theorem homesWorked_writeBack (s : State) (line : Nat) (l : List Span) : HomesWorked s (s.writeBack line l) := by
  unfold State.writeBack
  dsimp only
  split
  · exact .refl s
  · exact (homesWorked_writeWords s _ _).trans (homesWorked_modDir _ _ _)
theorem homesWorked_splitLine (s : State) (cl line : Nat) (back : Bool) : HomesWorked s (s.splitLine cl line back).1 := by
  simp only [State.splitLine, apply_ite Prod.fst]
  exact .ite (homesWorked_modCluster s _ _) ((homesWorked_modCluster s _ _).trans (homesWorked_net _ _))
theorem homesWorked_shareLineOf (s : State) (cl line : Nat) : HomesWorked s (s.shareLineOf cl line) := by
  unfold State.shareLineOf
  dsimp only
  split
  · exact homesWorked_modCluster s _ _
  · exact (homesWorked_modCluster s _ _).trans (homesWorked_net _ _)
theorem homesWorked_takeLine (s : State) (cl line : Nat) (keep : Bool) : HomesWorked s (s.takeLine cl line keep) := by
  unfold State.takeLine
  dsimp only
  split_ifs
  · exact .refl s
  · exact (homesWorked_shareLineOf s _ _).trans (homesWorked_writeBack _ _ _)
  · exact .refl s
  · exact (homesWorked_splitLine s _ _ _).trans (homesWorked_writeBack _ _ _)
theorem homesWorked_flushPuts (s : State) (line : Nat) : HomesWorked s (s.flushPuts line) :=
  (homesWorked_net s _).trans (HomesWorked.foldl (fun s m =>
    ((homesWorked_writeWords s _ (CohMsg.words m)).trans (homesWorked_modDir _ _ _)).trans (homesWorked_modDir _ _ _)) _ _)
theorem homesWorked_recallBut (s : State) (line : Nat) (keep : Nat → Bool) : HomesWorked s (s.recallBut line keep) := by
  have htaken := (homesWorked_flushPuts s line).trans
    (HomesWorked.foldl (fun s cl => homesWorked_takeLine s cl line (keep cl)) (s.clusters.map Prod.fst) _)
  unfold State.recallBut
  dsimp only
  split
  · exact htaken
  · exact htaken.trans (homesWorked_modDir _ _ _)
theorem homesWorked_dirtyHalves (s : State) (xa n : Nat) : HomesWorked s (s.dirtyHalves xa n) := by
  unfold State.dirtyHalves
  split
  · exact .refl s
  · exact homesWorked_hostHalf s _
/-- A write performed at its home changes nothing else (R94). -/
theorem homesWorked_homeWrite (s : State) (xa : Nat) (bs : List Byte) : HomesWorked s (s.homeWrite xa bs) :=
  (((HomesWorked.foldl (fun s l => (homesWorked_recallBut s l _).trans (.of_asked (asked_invRemote _ l))) _ s).trans
    (homesWorked_putHomeBytes _ _ _)).trans (HomesWorked.foldl (fun s l => homesWorked_modDir s l _) _ _)).trans (homesWorked_dirtyHalves _ _ _)

/-! ### The bytes at the homes -/

theorem homeByte_congr {s t : State} (hL2 : t.fyL2 = s.fyL2) (hhmem : t.hmem = s.hmem) (hmem : t.mem = s.mem) (a : Nat) :
    t.homeByte a = s.homeByte a := by
  simp only [State.homeByte, hL2, hhmem, hmem]

/-- Device and host memory are in canonical form. -/
def HomesCanonical (s : State) : Prop := s.mem.wf ∧ s.hmem.wf

theorem HomesCanonical.putHome {s : State} (h : HomesCanonical s) (xa : Nat) (b : Byte) : HomesCanonical (s.putHome xa b) := by
  obtain ⟨hmem, hhmem⟩ := h
  unfold State.putHome
  split_ifs
  · exact ⟨hmem, hhmem⟩
  · exact ⟨hmem, wf_wr hhmem _ _⟩
  · exact ⟨wf_wr hmem _ _, hhmem⟩

/-- A byte put at its home stands there, and every other byte as before. -/
theorem homeByte_putHome {s : State} (h : HomesCanonical s) {xa : Nat} (hhere : xa < fabBase) (b : Byte) (a : Nat) :
    (s.putHome xa b).homeByte a = if a = xa then b else s.homeByte a := by
  obtain ⟨hmem, hhmem⟩ := h
  have hfab : isFabXa xa = false := decide_eq_false (by omega)
  cases hhost : isHostXa xa with
  | true =>
    have hxa : hostBase ≤ xa := by simpa [isHostXa, hhere] using hhost
    simp only [State.putHome, State.homeByte, hfab, hhost, Bool.false_eq_true, if_false, if_true, rd_wr hhmem]
    by_cases ha : a = xa
    · subst ha; simp only [hfab, hhost, Bool.false_eq_true, if_false, if_true]
    · simp only [if_neg ha]
      split
      · rfl
      · split
        · next hah =>
          have hage : hostBase ≤ a := by simp only [isHostXa, Bool.and_eq_true, decide_eq_true_eq] at hah; exact hah.1
          rw [if_neg (by omega)]
        · rfl
  | false =>
    simp only [State.putHome, State.homeByte, hfab, hhost, Bool.false_eq_true, if_false, rd_wr hmem]
    by_cases ha : a = xa
    · subst ha; simp only [hfab, hhost, Bool.false_eq_true, if_false, if_true]
    · simp only [if_neg ha]

theorem homeByte_putHomeBytes {s : State} (h : HomesCanonical s) {xa : Nat} {bs : List Byte} (hhere : xa + bs.length ≤ fabBase) (a : Nat) :
    (s.putHomeBytes xa bs).homeByte a = if xa ≤ a ∧ a < xa + bs.length then lget bs (a - xa) 0#8 else s.homeByte a := by
  induction bs generalizing s xa with
  | nil => rw [State.putHomeBytes, if_neg (by simp only [List.length_nil]; omega)]
  | cons b r ih =>
    rw [List.length_cons] at hhere ⊢
    rw [State.putHomeBytes, ih (h.putHome xa b) (by omega), homeByte_putHome h (by omega)]
    by_cases ha : a = xa
    · subst ha
      rw [if_neg (by omega), if_pos rfl, if_pos (by omega), Nat.sub_self, lget]
    · by_cases hin : xa + 1 ≤ a ∧ a < xa + 1 + r.length
      · obtain ⟨k, rfl⟩ : ∃ k, a = xa + 1 + k := ⟨a - (xa + 1), by omega⟩
        rw [if_pos hin, if_pos (by omega), show xa + 1 + k - (xa + 1) = k by omega, show xa + 1 + k - xa = k + 1 by omega, lget]
      · rw [if_neg hin, if_neg ha, if_neg (by omega)]

/-! ### Lines that are at home -/

theorem lineAtHome_of_asked {s t : State} {l : Nat} (h : LineAtHome s l) (ht : Asked s t) : LineAtHome t l := by
  obtain ⟨_, _, _, _, rfl⟩ := ht
  exact h

theorem mem_of_aget {κ α : Type} [DecidableEq κ] {l : List (κ × α)} {k : κ} {v : α} (h : aget l k = some v) : (k, v) ∈ l := by
  induction l with
  | nil => cases h
  | cons p r ih =>
    rw [aget] at h
    split at h
    · next hk => cases h; cases hk; exact List.mem_cons_self ..
    · exact List.mem_cons_of_mem _ (ih h)

theorem touches_cluster_of_home {s : State} {l : Nat} (h : LineAtHome s l) (cl : Nat) : (s.cluster cl).spans.any (fun sp => sp.touches l) = false := by
  unfold State.cluster agetD
  split
  · next c hc => exact h.1 _ (mem_of_aget hc)
  · rfl

theorem flushPuts_of_home {s : State} {l : Nat} (h : LineAtHome s l) : s.flushPuts l = s := by
  have hnone : ∀ m ∈ s.net, (m.kind == .putM && m.line == l) = false := fun m hm => by simp [h.2 m hm]
  have hkeep : s.net.filter (fun m => !(m.kind == .putM && m.line == l)) = s.net :=
    List.filter_eq_self.2 fun m hm => by rw [hnone m hm]; rfl
  have hgone : s.net.filter (fun m => m.kind == .putM && m.line == l) = [] :=
    List.filter_eq_nil_iff.2 fun m hm => by rw [hnone m hm]; exact Bool.false_ne_true
  simp only [State.flushPuts, hkeep, hgone, List.foldl_nil]

theorem takeLine_of_home {s : State} {l : Nat} (h : LineAtHome s l) (cl : Nat) (keep : Bool) : s.takeLine cl l keep = s := by
  simp only [State.takeLine, touches_cluster_of_home h cl, Bool.not_false, if_true]

/-- `t` is `s` after copies that nobody holds have been given up: what hosts and other devices are asked for, and no write event. -/
def NothingGivenUp (s t : State) : Prop := Asked s t ∧ ∀ k, (t.dirOf k).tag = (s.dirOf k).tag

theorem tag_modDir (s : State) (l k : Nat) {f : DirEntry → DirEntry} (hf : ∀ d, (f d).tag = d.tag) : ((s.modDir l f).dirOf k).tag = (s.dirOf k).tag := by
  by_cases hk : l = k
  · rw [hk, State.dirOf_modDir_self, hf]
  · rw [State.dirOf_modDir_other s f hk]

theorem nothingGivenUp_modDir (s : State) (l : Nat) {f : DirEntry → DirEntry} (hf : ∀ d, (f d).tag = d.tag) : NothingGivenUp s (s.modDir l f) :=
  ⟨(Asked.refl s).modDir l f, fun k => tag_modDir s l k hf⟩
theorem NothingGivenUp.refl (s : State) : NothingGivenUp s s := ⟨.refl s, fun _ => rfl⟩
theorem NothingGivenUp.trans {s t r : State} (h : NothingGivenUp s t) (h' : NothingGivenUp t r) : NothingGivenUp s r :=
  ⟨h.1.trans h'.1, fun k => (h'.2 k).trans (h.2 k)⟩

theorem nothingGivenUp_recall {s : State} {l : Nat} (h : LineAtHome s l) (keep : Bool) : NothingGivenUp s (s.recall l keep) := by
  have hsame : ∀ cls : List Nat, cls.foldl (fun s cl => s.takeLine cl l keep) s = s := fun cls => by
    induction cls with
    | nil => rfl
    | cons cl r ih => rw [List.foldl_cons, takeLine_of_home h, ih]
  simp only [State.recall, State.recallBut, flushPuts_of_home h, hsame]
  split
  · exact .refl s
  · exact nothingGivenUp_modDir s l fun _ => rfl

theorem dir_fySend (s : State) (d k : Nat) (pl : FyPayload) : (s.fySend d k pl).dir = s.dir := by
  unfold State.fySend
  generalize fyFragments pl = ps
  induction ps generalizing s with
  | nil => rfl
  | cons p r ih => rw [List.foldl_cons, ih]; rfl

theorem nothingGivenUp_invRemote (s : State) (l : Nat) : NothingGivenUp s (s.invRemote l) := by
  refine ⟨asked_invRemote s l, fun k => ?_⟩
  have hdir : ∀ ds : List Nat, (ds.foldl (fun s d => s.fySend d 2 (.invalidate (l * 128))) s).dir = s.dir := fun ds => by
    induction ds generalizing s with
    | nil => rfl
    | cons d r ih => rw [List.foldl_cons, ih, dir_fySend]
  unfold State.invRemote
  split
  · rfl
  · dsimp only
    rw [tag_modDir]
    · rw [State.dirOf, hdir, State.dirOf]
    · exact fun _ => rfl

theorem nothingGivenUp_foldl {ls : List Nat} {s : State} (h : ∀ l ∈ ls, LineAtHome s l) :
    NothingGivenUp s (ls.foldl (fun s l => (s.recall l false).invRemote l) s) := by
  induction ls generalizing s with
  | nil => exact .refl s
  | cons l r ih =>
    rw [List.forall_mem_cons] at h
    have hline := (nothingGivenUp_recall h.1 false).trans (nothingGivenUp_invRemote _ l)
    exact hline.trans (ih fun k hk => lineAtHome_of_asked (h.2 k hk) hline.1)

/-! ### Write events -/

theorem tag_foldl_bumpTag {ls : List Nat} (hnd : ls.Nodup) (s : State) (k : Nat) :
    ((ls.foldl (fun s l => s.bumpTag l) s).dirOf k).tag = if k ∈ ls then (s.dirOf k).tag + 1#16 else (s.dirOf k).tag := by
  induction ls generalizing s with
  | nil => rfl
  | cons l r ih =>
    obtain ⟨hl, hr⟩ := List.nodup_cons.1 hnd
    rw [List.foldl_cons, ih hr, State.bumpTag]
    by_cases hk : l = k
    · subst hk
      rw [if_neg hl, State.dirOf_modDir_self, if_pos (List.mem_cons_self ..)]
    · simp only [State.dirOf_modDir_other s _ hk, List.mem_cons, Ne.symm hk, false_or]

theorem foldl_bumpTag_dir (ls : List Nat) (s : State) : ∃ dir, ls.foldl (fun s l => s.bumpTag l) s = { s with dir := dir } := by
  induction ls generalizing s with
  | nil => exact ⟨_, rfl⟩
  | cons l r ih =>
    obtain ⟨dir, hdir⟩ := ih (s.bumpTag l)
    exact ⟨dir, by rw [List.foldl_cons, hdir]; rfl⟩

theorem dirtyHalves_hostHalf (s : State) (xa n : Nat) : ∃ half, s.dirtyHalves xa n = { s with hostHalf := half } := by
  unfold State.dirtyHalves
  split <;> exact ⟨_, rfl⟩

theorem dir_putHomeBytes (s : State) (xa : Nat) (bs : List Byte) : (s.putHomeBytes xa bs).dir = s.dir := by
  induction bs generalizing s xa with
  | nil => rfl
  | cons b r ih =>
    rw [State.putHomeBytes, ih, State.putHome]
    split_ifs <;> rfl

theorem nodup_touchedLines (xa n : Nat) : (touchedLines xa n).Nodup := by
  unfold touchedLines
  split
  · exact List.nodup_nil
  · exact nodup_upFrom _ _

/-- Settles O33: nothing is given up, the bytes are put, and each line's tag goes up once, since no line is touched twice. -/
theorem homeWritesStoreTheirBytesOnly : Obligations.HomeWritesStoreTheirBytesOnly := by
  unfold Obligations.HomeWritesStoreTheirBytesOnly
  intro s xa bs hmem hhmem hhere _ hhome
  obtain ⟨hasked, htag⟩ := nothingGivenUp_foldl hhome
  set s1 := (touchedLines xa bs.length).foldl (fun s l => (s.recall l false).invRemote l) s with hs1
  obtain ⟨dir, hbump⟩ := foldl_bumpTag_dir (touchedLines xa bs.length) (s1.putHomeBytes xa bs)
  obtain ⟨half, hhalf⟩ := dirtyHalves_hostHalf ((touchedLines xa bs.length).foldl (fun s l => s.bumpTag l) (s1.putHomeBytes xa bs)) xa bs.length
  have hwrite : s.homeWrite xa bs = { (touchedLines xa bs.length).foldl (fun s l => s.bumpTag l) (s1.putHomeBytes xa bs) with hostHalf := half } := hhalf
  have hbytes : ∀ a, (s.homeWrite xa bs).homeByte a = (s1.putHomeBytes xa bs).homeByte a := fun a => by
    rw [hwrite, hbump]
    exact homeByte_congr rfl rfl rfl a
  have hbefore : HomesCanonical s1 ∧ ∀ a, s1.homeByte a = s.homeByte a := by
    obtain ⟨_, _, _, _, h⟩ := hasked
    rw [h]
    exact ⟨⟨hmem, hhmem⟩, homeByte_congr rfl rfl rfl⟩
  obtain ⟨_, _, _, _, _, _, _, _, _, hframe⟩ := homesWorked_homeWrite s xa bs
  refine ⟨fun a => ⟨fun ha => ?_, fun ha => ?_⟩, by rw [hframe], by rw [hframe], fun l hl => ?_⟩
  · rw [hbytes, homeByte_putHomeBytes hbefore.1 hhere, if_pos ha]
  · rw [hbytes, homeByte_putHomeBytes hbefore.1 hhere, if_neg ha, hbefore.2]
  · rw [← htag l, hwrite]
    calc (((touchedLines xa bs.length).foldl (fun s l => s.bumpTag l) (s1.putHomeBytes xa bs)).dirOf l).tag
        = ((s1.putHomeBytes xa bs).dirOf l).tag + 1#16 := by rw [tag_foldl_bumpTag (nodup_touchedLines xa _), if_pos hl]
      _ = (s1.dirOf l).tag + 1#16 := by rw [State.dirOf, dir_putHomeBytes, State.dirOf]

end Sys2Proof.Proofs

/-! PROOFS. Records of the fault queues (R108, R117, R341, R346). -/

namespace Sys2Proof.Proofs

open Sys2Proof Sys2Proof.Machine Sys2Proof.Laws Sys2Proof.Claims

/-! ### The form of a record (R346) -/

theorem length_recordBytes (r : FaultRec) : r.bytes.length = 64 := by
  simp only [FaultRec.bytes, List.length_append, length_leBytes]

/-! ### Records that wait (R108, R117, R341) -/

/-- A request before request `tag` is open, one for a read-only copy aside (R85, R341). -/
theorem openBefore_eq_false_iff (s : State) (tag : Nat) :
    s.openBefore tag = false ↔ ∀ w ∈ s.fyWait ++ s.fyOpen, w.1 < tag → w.2.1 = 0 ∧ w.2.2 ≠ 0 := by
  simp only [State.openBefore, List.any_eq_false, Bool.and_eq_true, decide_eq_true_eq, Bool.not_eq_true', beq_eq_false_iff_ne, Bool.and_eq_false_iff,
    bne_eq_false_iff_eq, not_and, not_or, not_not, ne_eq]

theorem recordWaits_eq_false_iff (s : State) (k tag : Nat) (lines : List Nat) : s.recordWaits k tag lines = false ↔
    (∀ w ∈ s.fyWait ++ s.fyOpen, w.1 < tag → w.2.1 = 0 ∧ w.2.2 ≠ 0) ∧ (∀ l ∈ lines, s.remotePending l = false) ∧
      s.hostReady (lget s.rings k {}).slot 64 true = true := by
  simp only [State.recordWaits, Bool.or_eq_false_iff, openBefore_eq_false_iff, List.any_eq_false, Bool.not_eq_true, Bool.not_eq_false', and_assoc]

theorem lget_modRing {rings : List FaultRing} {k : Nat} (hk : k < rings.length) (f : FaultRing → FaultRing) :
    lget (lmod rings k f) k {} = f (lget rings k {}) ∧ ∀ j, j ≠ k → lget (lmod rings k f) j {} = lget rings j {} :=
  ⟨by rw [lget_lmod, if_pos ⟨rfl, hk⟩], fun j hj => by rw [lget_lmod, if_neg fun h => hj h.1]⟩

section
variable {s : State} {k : Nat} {r : FaultRec}

theorem writeRecord_waits {lines : List Nat} (hlines : lines = (s.dir.map Prod.fst).filter s.remotePending)
    (h : s.devPend.any DevOp.isOwn = true ∨ s.recordWaits k s.fyTag lines = true) :
    ∃ t : State, s.writeRecord k r = t ∧ t.rings = s.rings ∧ t.mem = s.mem ∧ t.msix = s.msix ∧ t.devPend = s.devPend ++ [.record k r.bytes t.fyTag lines] := by
  subst hlines
  obtain ⟨_, _, _, _, hsnoops⟩ := asked_sendSnoops s (lget s.rings k {}).slot 64 true
  refine ⟨_, rfl, ?_⟩
  rw [State.writeRecord, State.writeRecordBytes, if_pos (by simpa only [Bool.or_eq_true] using h)]
  simp only [hsnoops, and_self]

/-! ### Records that are put into their ring (R341) -/

variable (hown : s.devPend.any DevOp.isOwn = false) (hready : s.recordWaits k s.fyTag ((s.dir.map Prod.fst).filter s.remotePending) = false)
include hown hready

theorem writeRecord_puts : s.writeRecord k r = s.putRecord k r.bytes := by
  rw [State.writeRecord, State.writeRecordBytes, hown, hready]
  rfl

/-- A ring that is full, or has no size, counts the record as lost. -/
theorem writeRecord_lost (hfull : (lget s.rings k {}).size < 4 ∨ ((lget s.rings k {}).head - (lget s.rings k {}).tail).toNat = 2 ^ (lget s.rings k {}).size) :
    s.writeRecord k r = { s with rings := lmod s.rings k (fun q => { q with lost := q.lost + 1#32 }) } := by
  rw [writeRecord_puts hown hready, State.putRecord]
  exact if_pos (by simpa only [Bool.or_eq_true, decide_eq_true_eq] using hfull)

/-- A ring with room takes the record and sends its vector. -/
theorem writeRecord_entered (hsize : 4 ≤ (lget s.rings k {}).size)
    (hroom : ((lget s.rings k {}).head - (lget s.rings k {}).tail).toNat ≠ 2 ^ (lget s.rings k {}).size) :
    s.writeRecord k r = { s.devWrite (lget s.rings k {}).slot r.bytes with
      rings := lmod s.rings k (fun q => { q with head := q.head + 1#32 }), msix := s.msix ++ [k] } := by
  have hnot : ¬ (decide ((lget s.rings k {}).size < 4) ||
      decide (((lget s.rings k {}).head - (lget s.rings k {}).tail).toNat = 2 ^ (lget s.rings k {}).size)) = true := by
    simp only [Bool.or_eq_true, decide_eq_true_eq, hroom, or_false]
    omega
  obtain ⟨_, _, _, _, _, _, _, _, _, hwrite⟩ := homesWorked_homeWrite s (lget s.rings k {}).slot r.bytes
  rw [writeRecord_puts hown hready, State.putRecord]
  dsimp only
  rw [if_neg hnot, State.devWrite, hwrite]
end

/-- Settles O60: a record waits, is lost or enters by the lemmas above; the place that it is written to is the ring's slot. -/
theorem recordsEnterTheirRing : Obligations.RecordsEnterTheirRing := by
  unfold Obligations.RecordsEnterTheirRing
  refine ⟨fun s k r lines hlines h => writeRecord_waits hlines h, recordWaits_eq_false_iff, fun s k r hk hown hready => ?_⟩
  refine ⟨length_recordBytes r, fun hfull => ?_, fun hsize hroom => ?_⟩
  · obtain ⟨hself, hother⟩ := lget_modRing hk (fun q => { q with lost := q.lost + 1#32 })
    exact ⟨_, writeRecord_lost hown hready hfull, hself, hother, rfl, rfl, rfl, rfl, rfl⟩
  · obtain ⟨hself, hother⟩ := lget_modRing hk (fun q => { q with head := q.head + 1#32 })
    exact ⟨_, writeRecord_entered hown hready hsize hroom, hself, hother, rfl, units_devWrite s _ _, rfl⟩

end Sys2Proof.Proofs

/-! PROOFS. Line grants, lines given up, and the responses (R89, R93 to R95, R99, R320). -/

namespace Sys2Proof.Proofs

open Sys2Proof Sys2Proof.Machine Sys2Proof.Laws Sys2Proof.Claims

/-! ### GETS at the home (R93) -/

theorem filter_ne_eq_nil {l : List Nat} {c : Nat} (h : ∀ x ∈ l, x = c) : l.filter (· != c) = [] :=
  List.filter_eq_nil_iff.2 fun x hx => by simp [h x hx]

section
variable {s : State} {i : Nat} {m : CohMsg}

section
variable (hpick : s.pickMsg .getS = some (i, m))
include hpick

theorem exec_gets_hostWaits (h : s.hostReady (m.line / 32 * 4096 + m.w0 * 4) ((m.w1 + 1 - m.w0) * 4) false = false) :
    exec .gets s = .next (s.sendSnoops (m.line / 32 * 4096 + m.w0 * 4) ((m.w1 + 1 - m.w0) * 4) false) := by
  show execGets s = _
  simp only [execGets, nextS, hpick, h, Bool.not_false, if_true]

variable (hready : s.hostReady (m.line / 32 * 4096 + m.w0 * 4) ((m.w1 + 1 - m.w0) * 4) false = true)
include hready

theorem exec_gets_asksHolder {c : Nat}
    (h : (s.dirOf m.line).sharers.find? (fun c => c != m.cl && ((s.dirOf m.line).mesi == .E || (s.dirOf m.line).mesi == .M)) = some c) :
    exec .gets s = .next (s.sendActions i m [{ kind := .fwdS, line := m.line, cl := c }]) := by
  show execGets s = _
  simp only [execGets, nextS, hpick, hready, h, Bool.not_true, Bool.false_eq_true, if_false]

variable (hfree : (s.dirOf m.line).sharers.find? (fun c => c != m.cl && ((s.dirOf m.line).mesi == .E || (s.dirOf m.line).mesi == .M)) = none)
include hfree

/-- A load that keeps no copy is answered (R91). -/
theorem exec_gets_uncached (h : m.mesi = .I) : exec .gets s = .next (s.replaceMsg i [{ m with kind := .data }]) := by
  show execGets s = _
  simp only [execGets, nextS, hpick, hready, hfree, h, beq_self_eq_true, Bool.not_true, Bool.false_eq_true, if_false, if_true]

theorem exec_gets_grants {s1 s2 : State} {own : Bool} (h : m.mesi ≠ .I) (hs1 : s1 = (s.replaceMsg i []).flushPuts m.line)
    (hown : own = ((s1.dirOf m.line).sharers.all (· == m.cl) && !(s1.dirOf m.line).halfHeld && (s1.dirOf m.line).remote.isEmpty &&
      s1.hostReady (m.line * 128) 128 true && ((s1.dirOf m.line).sharers.isEmpty || (s1.dirOf m.line).mesi != .S)))
    (hs2 : s2 = s1.modDir m.line (fun d => { d with mesi := if own then (if d.mesi == .M then .M else .E) else .S
                                                    sharers := if d.sharers.contains m.cl then d.sharers else d.sharers ++ [m.cl] })) :
    exec .gets s = .next { s2 with net := s2.net ++ [{ m with kind := .data, mesi := if own then .E else .S }] } := by
  subst hs1 hown hs2
  show execGets s = _
  simp only [execGets, nextS, hpick, hready, hfree, beq_eq_false_iff_ne.2 h, Bool.not_true, Bool.false_eq_true, if_false]
end

/-! ### GETM and UPG at the home (R93, R320) -/

section
variable {x : Instr} {k : MsgKind} {e : SbEntry} (hrow : (x, k) ∈ [(Instr.getm, MsgKind.getM), (Instr.upg, MsgKind.upg)])
  (hpick : s.pickMsg k = some (i, m))
include hrow hpick

theorem exec_grantM : exec x s = .next (s.grantM i m) ∧ m.kind = k := by
  have hkind : m.kind = k := by
    unfold State.pickMsg at hpick
    split at hpick
    · split at hpick
      · next hk => cases hpick; exact eq_of_beq (Bool.and_eq_true_iff.1 hk).1
      · cases hpick
    · cases hpick
  refine ⟨?_, hkind⟩
  simp only [List.mem_cons, Prod.mk.injEq, List.not_mem_nil, or_false] at hrow
  rcases hrow with ⟨rfl, rfl⟩ | ⟨rfl, rfl⟩
  · show execGetm s = _
    simp only [execGetm, nextS, hpick]
  · show execUpg s = _
    simp only [execUpg, nextS, hpick]

variable (he : s.msgEntry m = some e) (hop : e.op ≠ .stxs) (hlock : (s.dirOf m.line).lock = none)
include he hop hlock

/-- A line of which a host holds a half is not granted: the home performs the store (R320). -/
theorem exec_grantM_halfHeld (h : (s.dirOf m.line).halfHeld = true) : exec x s = .next (s.replaceMsg i [{ m with kind := .homeStore }]) := by
  rw [(exec_grantM hrow hpick).1]
  simp only [State.grantM, he, beq_eq_false_iff_ne.2 hop, hlock, h, Option.isSome_none, Bool.false_eq_true, if_false, if_true]

variable (hhalf : (s.dirOf m.line).halfHeld = false)
include hhalf

theorem exec_grantM_hostWaits (hhost : isHostXa (m.line * 128) = true) (h : s.hostReady (m.line * 128) 128 true = false) :
    exec x s = .next (s.sendSnoops (m.line * 128) 128 true) := by
  rw [(exec_grantM hrow hpick).1]
  simp only [State.grantM, he, beq_eq_false_iff_ne.2 hop, hlock, hhalf, hhost, h, Option.isSome_none, Bool.not_false, Bool.and_self, Bool.false_eq_true,
    if_false, if_true]

variable (hhost : isHostXa (m.line * 128) = false ∨ s.hostReady (m.line * 128) 128 true = true)
include hhost

/-- An Upg whose sender has lost its copy is asked again. -/
theorem exec_grantM_lost (hk : k = .upg) (h : (s.dirOf m.line).sharers.contains m.cl = false) :
    exec x s = .next ((s.replaceMsg i []).modUnit m.unit (fun u => u.modEntry e.id (fun x => { x with phase := .issued }))) := by
  have hready : (isHostXa (m.line * 128) && !s.hostReady (m.line * 128) 128 true) = false := by rcases hhost with h | h <;> simp [h]
  obtain ⟨hexec, hkind⟩ := exec_grantM hrow hpick
  rw [hexec]
  simp only [State.grantM, he, beq_eq_false_iff_ne.2 hop, hlock, hhalf, hready, hkind, hk, h, Option.isSome_none, beq_self_eq_true, Bool.not_false,
    Bool.and_self, Bool.false_eq_true, if_false, if_true]

variable (hheld : k = .upg → (s.dirOf m.line).sharers.contains m.cl = true)
include hheld

/-- A request that stands is granted M, or the other holders are asked to give their copies up. -/
theorem grantM_stands : s.grantM i m = (match (s.dirOf m.line).sharers.filter (· != m.cl) with
    | [] =>
      let s2 := (((s.replaceMsg i []).flushPuts m.line).invRemote m.line).modDir m.line (fun d => { d with mesi := .M, sharers := [m.cl] })
      { s2 with net := s2.net ++ [{ m with kind := if m.kind == .upg then .ack else .data, mesi := .M }] }
    | cs => s.sendActions i m (cs.map (fun c =>
        { kind := if (s.dirOf m.line).mesi == .S then .inv else .fwdM, line := m.line, cl := c, mesi := .I }))) := by
  have hready : (isHostXa (m.line * 128) && !s.hostReady (m.line * 128) 128 true) = false := by rcases hhost with h | h <;> simp [h]
  have hstands : (m.kind == .upg && !(s.dirOf m.line).sharers.contains m.cl) = false := by
    rw [(exec_grantM hrow hpick).2]
    by_cases hk : k = .upg
    · rw [hheld hk, Bool.not_true, Bool.and_false]
    · rw [beq_eq_false_iff_ne.2 hk, Bool.false_and]
  rw [State.grantM, he]
  dsimp only
  rw [if_neg (by simpa using hop), hlock, hhalf, hready, hstands]
  rfl

theorem exec_grantM_grants {s1 s2 : State} (halone : ∀ c ∈ (s.dirOf m.line).sharers, c = m.cl)
    (hs1 : s1 = ((s.replaceMsg i []).flushPuts m.line).invRemote m.line) (hs2 : s2 = s1.modDir m.line (fun d => { d with mesi := .M, sharers := [m.cl] })) :
    exec x s = .next { s2 with net := s2.net ++ [{ m with kind := if k = .upg then .ack else .data, mesi := .M }] } := by
  subst hs1 hs2
  obtain ⟨hexec, hkind⟩ := exec_grantM hrow hpick
  rw [hexec, grantM_stands hrow hpick he hop hlock hhalf hhost hheld, filter_ne_eq_nil halone, hkind]
  simp only [beq_iff_eq]

theorem exec_grantM_asks {c : Nat} {cs : List Nat} (h : (s.dirOf m.line).sharers.filter (· != m.cl) = c :: cs) :
    exec x s = .next (s.sendActions i m ((c :: cs).map (fun d =>
      { kind := if (s.dirOf m.line).mesi == .S then .inv else .fwdM, line := m.line, cl := d, mesi := .I }))) := by
  rw [(exec_grantM hrow hpick).1, grantM_stands hrow hpick he hop hlock hhalf hhost hheld, h]
end

/-! ### The lines of an STXS (R99) -/

theorem exec_getm_stxs {s1 : State} {e : SbEntry} (hpick : s.pickMsg .getM = some (i, m)) (he : s.msgEntry m = some e) (hop : e.op = .stxs)
    (hready : s.hostReady (m.line * 128) 128 true = true) (halone : ∀ c ∈ (s.dirOf m.line).sharers, c = m.cl)
    (hs1 : s1 = (((s.replaceMsg i []).flushPuts m.line).takeLine m.cl m.line false).modDir m.line (fun d =>
      { d with mesi := .M, sharers := [m.cl], lock := some (m.unit, m.id) })) :
    exec .getm s = .next (if m.line < (e.xa + e.n - 1) / 128 then { s1 with net := s1.net ++ [{ m with line := m.line + 1 }] }
      else (((touchedLines e.xa e.n).foldl (fun s l => s.modDir l (fun d => { d with mesi := .I, sharers := [], lock := none })) s1).homeWrite e.xa
        (storedImage e.tile.tag.toNat e.tile.img)).retire m.unit m.id) := by
  subst hs1
  rw [(exec_grantM (List.mem_cons_self ..) hpick).1]
  simp only [State.grantM, he, hop, beq_self_eq_true, if_true, State.lockLine, hready, filter_ne_eq_nil halone, Bool.not_true, Bool.false_eq_true, if_false]

/-! ### PUTM, PUTE and PUTS (R89, R93, R94) -/

theorem not_isEmpty_filter {α : Type} (p : α → Bool) (l : List α) : (!(l.filter p).isEmpty) = l.any p := by
  rw [Bool.eq_iff_iff]
  simp

theorem all_filter_eq {α : Type} (p q : α → Bool) (l : List α) : (l.filter p).all q = !l.any (fun x => p x && !q x) := by
  rw [List.all_filter, List.not_any_eq_all_not]
  congr 1
  funext x
  cases p x <;> cases q x <;> rfl

theorem any_of_any_and {α : Type} {p q : α → Bool} {l : List α} (h : l.any (fun x => p x && q x) = true) : l.any p = true := by
  obtain ⟨x, hx, hpq⟩ := List.any_eq_true.1 h
  exact List.any_eq_true.2 ⟨x, hx, (Bool.and_eq_true_iff.1 hpq).1⟩

/-- What a Put that has reached its home leaves of its sender's hold (R89): a sender with another span of the line shares it at the least. -/
def afterPut (s : State) (m : CohMsg) : State :=
  if (s.cluster m.cl).spans.any (fun sp => sp.touches m.line) then
    (if !(s.cluster m.cl).spans.any (fun sp => sp.touches m.line && sp.mesi != .S) then
      s.modDir m.line (fun d => { d with mesi := if d.mesi == .I then .I else .S })
     else s)
  else s.modDir m.line (fun d =>
    { d with sharers := d.sharers.filter (· != m.cl), mesi := if (d.sharers.filter (· != m.cl)).isEmpty then .I else d.mesi })

theorem exec_put {x : Instr} {k : MsgKind} {s2 : State}
    (hrow : (x, k) ∈ [(Instr.putm, MsgKind.putM), (Instr.pute, MsgKind.putE), (Instr.puts, MsgKind.putS)]) (hpick : s.pickMsg k = some (i, m))
    (hs2 : s2 = (if m.words = [] then s.replaceMsg i [] else ((s.replaceMsg i []).writeWords (lineRegion m.line) m.words).bumpTag m.line)) :
    exec x s = .next (afterPut s2 m) := by
  have hput : exec x s = .next (s.putAtHome k) := by
    simp only [List.mem_cons, Prod.mk.injEq, List.not_mem_nil, or_false] at hrow
    rcases hrow with ⟨rfl, rfl⟩ | ⟨rfl, rfl⟩ | ⟨rfl, rfl⟩ <;> rfl
  subst hs2
  rw [hput, State.putAtHome, hpick]
  simp only [not_isEmpty_filter, all_filter_eq, List.isEmpty_iff, afterPut, ← bne.eq_def]
end

/-! ### INV, FWDS and FWDM at a cluster (R89) -/

section
variable {s : State} {m : CohMsg}

theorem exec_homeAction {x : Instr} {k : MsgKind} {keep : Bool}
    (hrow : (x, k, keep) ∈ [(Instr.inv, MsgKind.inv, false), (Instr.fwds, MsgKind.fwdS, true), (Instr.fwdm, MsgKind.fwdM, false)])
    (hm : s.net[s.ev.i]? = some m) (hk : m.kind = k) :
    exec x s = .next ((s.takeLine m.cl m.line keep).replaceMsg s.ev.i [{ kind := .ack, line := m.line, cl := m.cl, mesi := if keep then .S else .I }]) := by
  have hact : exec x s = .next (s.homeAction k keep) := by
    simp only [List.mem_cons, Prod.mk.injEq, List.not_mem_nil, or_false] at hrow
    rcases hrow with ⟨rfl, rfl, rfl⟩ | ⟨rfl, rfl, rfl⟩ | ⟨rfl, rfl, rfl⟩ <;> rfl
  simp only [hact, State.homeAction, hm, hk, bne_self_eq_false, Bool.false_eq_true, if_false]

/-! ### DATA, ACK and WACK (R90, R93, R95) -/

variable {e : SbEntry} (hm : s.net[s.ev.i]? = some m)
include hm

/-- A grant brings its line unless it keeps no copy or no longer stands; then the load has its value, and the store is written. -/
theorem exec_data {s1 : State} (hk : m.kind = .data) (hs1 : s1 = s.replaceMsg s.ev.i []) (he : s1.msgEntry m = some e) (hasked : e.phase = .asked) :
    exec .data s = .next (if e.op = .ld then
      (match badLine s1 e.xa e.n with
       | some f => s1.sbFault m.unit e f.cause e.ea f.d0 f.d1
       | none => (if m.mesi = .I ∨ s1.grantStands m = false then s1 else s1.fill m).loadDone m.unit e
          ((if m.mesi = .I ∨ s1.grantStands m = false then s1 else s1.fill m).cohN e.xa e.n) 0#2)
      else s1.storeGranted m e) := by
  subst hs1
  show execData s = _
  simp only [execData, nextS, hm, hk, he, hasked, bne_self_eq_false, Bool.false_eq_true, if_false, Bool.or_eq_true, beq_iff_eq, Bool.not_eq_true']
    <;> rfl

theorem exec_ack_home (hk : m.kind = .ack) (hunit : m.unit = 0) :
    exec .ack s = .next ((s.replaceMsg s.ev.i []).modDir m.line (fun d => if m.mesi == .S then { d with mesi := .S }
      else { d with sharers := d.sharers.filter (· != m.cl), mesi := if (d.sharers.filter (· != m.cl)).isEmpty then .I else d.mesi })) := by
  show execAck s = _
  simp only [execAck, nextS, hm, hk, hunit, bne_self_eq_false, Bool.false_eq_true, if_false, if_true]

theorem exec_ack_granted (hk : m.kind = .ack) (hunit : m.unit ≠ 0) (he : (s.replaceMsg s.ev.i []).msgEntry m = some e) (hasked : e.phase = .asked) :
    exec .ack s = .next ((s.replaceMsg s.ev.i []).storeGranted m e) := by
  show execAck s = _
  simp only [execAck, nextS, hm, hk, hunit, he, hasked, bne_self_eq_false, Bool.false_eq_true, if_false, if_true]

/-- A write ack lets its access retire; a result held under SCOPESTOP stays, and a release that waits for other devices' copies (R85, R97). -/
theorem exec_wack (hk : m.kind = .wack) (he : s.msgEntry m = some e) :
    exec .wack s = .next (if e.scopeStop || ((e.op == .stl || e.op == .amx || e.op == .fence) && s.remotePending m.line) then s
      else (s.replaceMsg s.ev.i []).retire m.unit e.id) := by
  show execWack s = _
  simp only [execWack, nextS, hm, hk, he, bne_self_eq_false, Bool.false_eq_true, if_false]
end

/-- Settles O44: one lemma for each answer of the home, of a cluster, and of the one that asked. -/
theorem linesAreGrantedAndMoved : Obligations.LinesAreGrantedAndMoved := by
  unfold Obligations.LinesAreGrantedAndMoved
  refine ⟨⟨?gets, ?grant, ?stxs⟩, ?put, ?action, ?data, ?ack, ?wack⟩
  case gets =>
    rintro s i _ _ m hpick rfl rfl
    exact ⟨exec_gets_hostWaits hpick, fun c hready h => exec_gets_asksHolder hpick hready h, fun hready hfree =>
      ⟨exec_gets_uncached hpick hready hfree, fun s1 s2 d1 own h hs1 hd1 hown hs2 =>
        exec_gets_grants hpick hready hfree h hs1 (hd1 ▸ hown) hs2⟩⟩
  case grant =>
    intro x k s i m e hrow hpick he hop hlock
    exact ⟨exec_grantM_halfHeld hrow hpick he hop hlock, exec_grantM_hostWaits hrow hpick he hop hlock,
      exec_grantM_lost hrow hpick he hop hlock,
      fun s1 s2 hhalf hhost hheld halone hs1 hs2 => exec_grantM_grants hrow hpick he hop hlock hhalf hhost hheld halone hs1 hs2,
      fun c cs hhalf hhost hheld h => exec_grantM_asks hrow hpick he hop hlock hhalf hhost hheld h⟩
  case stxs =>
    intro s s1 i m e hpick he hop hready halone hs1
    rw [exec_getm_stxs hpick he hop hready halone hs1]
    exact ⟨fun h => by rw [if_pos h], fun h => by rw [if_neg (Nat.not_lt.2 h)]⟩
  case put =>
    intro x k s s2 i m hrow hpick hs2
    rw [exec_put hrow hpick hs2, afterPut]
    exact ⟨fun h => by rw [h]; rfl, fun h => by rw [any_of_any_and h, h]; rfl, fun h h' => by rw [h, h']; rfl⟩
  case action => exact fun x k keep s m hrow hm hk => exec_homeAction hrow hm hk
  case data =>
    intro s s1 s2 m e hm hk hs1 he hasked hs2
    rw [exec_data hm hk hs1 he hasked, ← hs2]
    exact ⟨fun h => by rw [if_neg h], fun h hgood => by rw [if_pos h, hgood], fun f h hbad => by rw [if_pos h, hbad]⟩
  case ack => exact fun s m hm hk => ⟨exec_ack_home hm hk, fun e => exec_ack_granted hm hk⟩
  case wack =>
    intro s m e hm hk he
    rw [exec_wack hm hk he]
    refine ⟨fun hstop h => ?_, fun h => ?_⟩
    · rcases h with ⟨h1, h2, h3⟩ | h
      · simp [hstop, h1, h2, h3]
      · simp [hstop, h]
    · rcases h with h | ⟨h1, h2⟩
      · simp [h]
      · simp [h1, h2]

end Sys2Proof.Proofs

/-! PROOFS. Accesses performed at the home (R91, R94 to R96, R108, R113, R114). -/

namespace Sys2Proof.Proofs

open Sys2Proof Sys2Proof.Machine Sys2Proof.Laws Sys2Proof.Claims

/-! ### HOME_STORE (R91, R95) -/

section
variable {s : State} {i : Nat} {m : CohMsg} {e : SbEntry}

section
variable (hpick : s.pickMsg .homeStore = some (i, m)) (he : s.msgEntry m = some e)
include hpick he

theorem exec_homeStore_hostWaits (h : s.hostReady e.xa e.n true = false) : exec .homeStore s = .next (s.sendSnoops e.xa e.n true) := by
  show execHomeStore s = _
  simp only [execHomeStore, nextS, hpick, he, h, Bool.not_false, if_true]

/-- A tagged store leaves the issuer's copy, updated; an untagged one of which the issuer holds no byte is written at the home. -/
theorem exec_homeStore_stores {s0 s1 : State} (h : s.hostReady e.xa e.n true = true) (hs0 : s0 = s.replaceMsg i [{ m with kind := .wack }])
    (hparts : e.tagged = true ∨ e.mt = 2 ∨ (s0.storeParts m.cl e.xa e.bytes).1 = [])
    (hs1 : s1 = (if e.tagged && e.mt != 2 then s0.homeWriteKeep m.cl e.xa e.bytes else s0.homeWrite e.xa e.bytes)) :
    exec .homeStore s = .next (s1.modUnit m.unit (fun u => u.modEntry e.id (fun x => { x with phase := .performed, seqTag := (s1.dirOf m.line).tag }))) := by
  subst hs0
  have hnone : (if e.tagged || decide (e.mt = 2) then ([], []) else (s.replaceMsg i [{ m with kind := .wack }]).storeParts m.cl e.xa e.bytes).1 = [] := by
    split
    · rfl
    · next hnot =>
      simp only [Bool.or_eq_true, decide_eq_true_eq, not_or] at hnot
      exact (hparts.resolve_left hnot.1).resolve_left hnot.2
  show execHomeStore s = _
  simp only [execHomeStore, nextS, hpick, he, h, hnone, List.isEmpty_nil, Bool.not_true, Bool.false_eq_true, if_false, if_true, ← hs1]
end

/-! ### SYNC_ACCESS_AT_HOME (R96, R97, R108) -/

/-- A release whose earlier rounds and writes are complete, as far as its scope asks, does not wait. -/
theorem release_goes {uid : Nat} {rel : Bool}
    (hgo : rel = false ∨ s.redPending uid e = false ∧ ((scopeCheck (s.dirOf m.line).scopeRec e.scope e.site.cl).1 < 3 ∨ s.fabricReleased uid = true)) :
    (rel && s.redPending uid e) = false ∧
    (rel && decide (3 ≤ (scopeCheck (s.dirOf m.line).scopeRec e.scope e.site.cl).1) && !s.fabricReleased uid) = false := by
  rcases hgo with h | ⟨hred, h | h⟩
  · simp only [h, Bool.false_and, and_self]
  · simp only [hred, decide_eq_false (Nat.not_le.2 h), Bool.and_false, Bool.false_and, and_self]
  · simp only [hred, h, Bool.not_true, Bool.and_false, and_self]

section
variable {uid : Nat} {rest : List (Nat × SbEntry)} {rel : Bool} (hpick : s.pickMsg .sync = some (i, m)) (harr : s.arrivals m = (uid, e) :: rest)
  (hlock : (s.dirOf m.line).lock = none) (hrel : rel = (e.op == .stl || e.op == .amx || (e.op == .fence && e.w.sub != 0#3)))
  (hhost : e.op = .fence ∨ s.hostReady e.xa e.n (e.op == .stl || e.op == .amo || e.op == .amx) = true)
include hpick harr hlock hrel hhost

/-- What a synchronising access whose line is free of STXS and hosts comes to: a release waits for what is before it, an STL or AMX for other
devices' copies; a line whose check fails is a fault. -/
theorem exec_sync : exec .syncAccessAtHome s = .next (
    if rel && s.redPending uid e then s
    else if rel && decide (3 ≤ (scopeCheck (s.dirOf m.line).scopeRec e.scope e.site.cl).1) && !s.fabricReleased uid then s
    else if (e.op == .stl || e.op == .amx) && (!(s.dirOf m.line).remote.isEmpty || s.remotePending m.line) then s.invRemote m.line
    else
      match (if e.op == .lda || e.op == .amo || e.op == .amx then badLine s e.xa e.n else none) with
      | some f => ((uid, e) :: rest).foldl (fun s p => s.sbFault p.1 p.2 f.cause p.2.ea f.d0 f.d1) (s.replaceMsg i [])
      | none => ((uid, ((s.replaceMsg i []).syncEffect e (rest.map (fun p => p.2.b))).2) :: rest).foldl (fun s p => s.arrived m m.line p)
          ((s.replaceMsg i []).syncEffect e (rest.map (fun p => p.2.b))).1) := by
  have hready : (e.op != .fence && !s.hostReady e.xa e.n (e.op == .stl || e.op == .amo || e.op == .amx)) = false := by
    rcases hhost with h | h
    · rw [h]; rfl
    · rw [h, Bool.not_true, Bool.and_false]
  subst hrel
  show execSyncAccessAtHome s = _
  simp only [execSyncAccessAtHome, nextS, hpick, harr, hlock, hready, Option.isSome_none, Bool.false_eq_true, if_false] <;> rfl

theorem exec_sync_releaseWaits (h : rel = true)
    (hwait : s.redPending uid e = true ∨ 3 ≤ (scopeCheck (s.dirOf m.line).scopeRec e.scope e.site.cl).1 ∧ s.fabricReleased uid = false) :
    exec .syncAccessAtHome s = .next s := by
  rw [exec_sync hpick harr hlock hrel hhost]
  rcases hwait with hred | ⟨hscope, hopen⟩
  · simp only [h, hred, Bool.and_self, if_true]
  · simp only [h, hscope, hopen, decide_true, Bool.not_false, Bool.and_self, if_true, ite_self]

variable (hgo : rel = false ∨ s.redPending uid e = false ∧ ((scopeCheck (s.dirOf m.line).scopeRec e.scope e.site.cl).1 < 3 ∨ s.fabricReleased uid = true))
include hgo

theorem exec_sync_copiesGo (hop : e.op = .stl ∨ e.op = .amx) (h : (s.dirOf m.line).remote ≠ [] ∨ s.remotePending m.line = true) :
    exec .syncAccessAtHome s = .next (s.invRemote m.line) := by
  obtain ⟨h1, h2⟩ := release_goes hgo
  have hwrite : (e.op == .stl || e.op == .amx) = true := by simpa using hop
  have hcopies : (!(s.dirOf m.line).remote.isEmpty || s.remotePending m.line) = true := by simpa using h
  simp only [exec_sync hpick harr hlock hrel hhost, h1, h2, hwrite, hcopies, Bool.and_self, Bool.false_eq_true, if_false, if_true]

theorem exec_sync_performs (hcopies : e.op = .stl ∨ e.op = .amx → (s.dirOf m.line).remote = [] ∧ s.remotePending m.line = false)
    (hgood : e.op = .lda ∨ e.op = .amo ∨ e.op = .amx → badLine s e.xa e.n = none) :
    exec .syncAccessAtHome s = .next (((uid, ((s.replaceMsg i []).syncEffect e (rest.map (fun p => p.2.b))).2) :: rest).foldl (fun s p => s.arrived m m.line p)
      ((s.replaceMsg i []).syncEffect e (rest.map (fun p => p.2.b))).1) := by
  obtain ⟨h1, h2⟩ := release_goes hgo
  have hgone : ((e.op == .stl || e.op == .amx) && (!(s.dirOf m.line).remote.isEmpty || s.remotePending m.line)) = false := by
    cases hwrite : (e.op == .stl || e.op == .amx) with
    | false => rfl
    | true =>
      obtain ⟨hremote, hpending⟩ := hcopies (by simpa using hwrite)
      rw [hremote, hpending]
      rfl
  have hline : (if e.op == .lda || e.op == .amo || e.op == .amx then badLine s e.xa e.n else none) = none := by
    split
    · next hread => exact hgood (by simpa only [Bool.or_eq_true, beq_iff_eq, or_assoc] using hread)
    · rfl
  simp only [exec_sync hpick harr hlock hrel hhost, h1, h2, hgone, hline, Bool.false_eq_true, if_false]
end
end

/-! ### The effects on the line, and AMOs (R113, R114) -/

/-- One AMO is folded as it stands: its operand fits the width. -/
theorem amoFold_one {op w old : Nat} {v : Word} (h : v.toNat < 2 ^ w) : amoFold op w old [v] = amoOp op w old v.toNat := by
  rw [amoFold, List.foldl_cons, List.foldl_nil, Nat.mod_eq_of_lt h]

theorem amoOp_min (w old v : Nat) : amoOp 6 w old v = min old v := by
  show (if v < old then v else old) = min old v
  split <;> omega
theorem amoOp_max (w old v : Nat) : amoOp 7 w old v = max old v := by
  show (if old < v then v else old) = max old v
  split <;> omega

/-- Two AMOs of one kind at one address, of which nobody names the result, become one message (R114). -/
theorem exec_amoMerge {s : State} {m n : CohMsg} {e f : SbEntry} (hm : s.net[s.ev.i]? = some m) (hn : s.net[s.ev.k]? = some n) (hik : s.ev.i ≠ s.ev.k)
    (he : s.msgEntry m = some e) (hf : s.msgEntry n = some f) (hmk : m.kind = .sync) (hnk : n.kind = .sync) (hea : e.op = .amo) (hfa : f.op = .amo)
    (hed : e.w.dst = 3#2 ∨ e.w.dst = 1#2) (hfd : f.w.dst = 3#2 ∨ f.w.dst = 1#2) (hemt : e.mt ≠ 3) (hfmt : f.mt ≠ 3) (hxa : e.xa = f.xa)
    (hsub : e.w.sub = f.w.sub) (hsize : e.n = f.n) :
    exec .amoMerge s = .next { s with net := ldel (lmod s.net s.ev.i (fun m => { m with more := m.more ++ (n.unit, n.id) :: n.more })) s.ev.k } := by
  have hquiet : ∀ x : SbEntry, x.op = .amo → (x.w.dst = 3#2 ∨ x.w.dst = 1#2) → x.mt ≠ 3 →
      (x.op == .amo && (x.w.dst == 3#2 || x.w.dst == 1#2) && x.mt != 3) = true := fun x h1 h2 h3 => by
    simp only [h1, beq_self_eq_true, Bool.true_and, Bool.and_eq_true, Bool.or_eq_true, beq_iff_eq, bne_iff_ne, ne_eq, h2, h3, not_false_eq_true, and_self]
  show execAmoMerge s = _
  simp only [execAmoMerge, nextS, hm, hn, he, hf, hmk, hnk, hquiet e hea hed hemt, hquiet f hfa hfd hfmt, hxa, hsub, hsize, beq_false_of_ne hik.symm,
    bne_self_eq_false, Bool.not_true, Bool.or_self, Bool.false_eq_true, if_false]

/-- Settles O45: HOME_STORE and a synchronising access by their lemmas; the effects and the AMO values as they are defined. -/
theorem homePerformsAccesses : Obligations.HomePerformsAccesses := by
  unfold Obligations.HomePerformsAccesses
  refine ⟨?store, ?sync, ?effect, fun op w old v h => amoFold_one h, ?values, ?merge⟩
  case store =>
    intro s i m e hpick he
    exact ⟨exec_homeStore_hostWaits hpick he, fun s0 s1 h hs0 hparts hs1 => exec_homeStore_stores hpick he h hs0 hparts hs1⟩
  case sync =>
    intro s i uid m e rest rel hpick harr hlock hrel hhost
    exact ⟨exec_sync_releaseWaits hpick harr hlock hrel hhost, fun hgo => exec_sync_copiesGo hpick harr hlock hrel hhost (.inr hgo),
      exec_sync_performs hpick harr hlock hrel hhost⟩
  case effect =>
    refine fun s e vs => ⟨fun h => ?_, fun h => ?_, fun h => ?_⟩ <;> simp only [State.syncEffect, h, and_self]
  case values =>
    exact fun w old v _ _ => ⟨rfl, amoOp_min w old v, amoOp_max w old v, rfl, rfl, rfl⟩
  case merge =>
    intro s m n e f hm hn hik he hf hmk hnk hea hfa hed hfd hemt hfmt hxa hsub hsize
    exact exec_amoMerge hm hn hik he hf hmk hnk hea hfa hed hfd hemt hfmt hxa hsub hsize

end Sys2Proof.Proofs

/-! PROOFS. Reduction rounds (R116, R247): a round whose total changes the entry of its own group. -/

namespace Sys2Proof.Proofs

open Sys2Proof Sys2Proof.Machine Sys2Proof.Laws Sys2Proof.Claims

/-! ### A target within the graph object -/

/-- A round with the one contribution that its group declares, the value 1. -/
def selfRound : RedRound := { inst := 1, grp := 1, parts := [{ node := 0, idx := 0, cl := 0, value := 1#64 }] }
/-- A launched graph object at 0x10000. -/
def selfInst : Instance :=
  { id := 1, job := 1, queue := 0, handle := 0, base := 0x10000#64, kseq := 0, phase := none, cdone := 0#64, hubTaken := 0, nodes := [] }
/-- The page table at address 0 of device memory is its own next level, and its leaf maps 0x10000 to address 0. The entry of group 1 is at address
64: a sum of i32, whose target is the entry's own completion-word address at 88, which is 0. -/
def selfTarget : State := { State.reset with
  mem := [(0, 1#8), (8, 0x07#8), (9, 0x30#8), (64, 0x58#8), (66, 0x01#8), (73, 2#8), (74, 1#8), (80, 128#8)], jobs := [(1, {})], insts := [selfInst]
  reds := [selfRound], ev := { inst := 1, grp := 1 } }

/-- The rounds that a step leaves. -/
def roundsAfter : Host.Outcome State Fault Refusal → Nat
  | .next t => t.reds.length
  | _ => 0

/-- The round stays: its total has made the completion-word address 1. -/
theorem roundsAfter_selfTarget : roundsAfter (exec .redRoundComplete selfTarget) = 1 := by decide +kernel

/-- The group of the round. -/
def selfGroup : RedGroup := redGroup selfTarget selfInst.job selfInst.base.toNat selfRound.grp
/-- The state in which its target has been translated. -/
def selfTranslated : State := (translateReady selfTarget 0 selfInst.job selfGroup.target 4 .atomic 2).1

/-- The round is complete, and its target can be written. -/
theorem selfTarget_complete :
    (selfTarget.objectWaits selfInst.job selfInst.base.toNat).isNone = true ∧
    (∀ c ∈ redContributors selfTarget selfInst.job selfInst.base.toNat selfRound.grp, selfRound.parts.any (fun p => (p.node, p.idx) == c) = true) ∧
    4 = (if selfGroup.fmt = 1 ∨ selfGroup.fmt = 5 then 8 else 4) ∧
    (translateReady selfTarget 0 selfInst.job selfGroup.target 4 .atomic 2).2 = .ok 88 0 0 ∧ badLine selfTranslated 88 4 = none ∧ selfGroup.done = 0 := by
  decide +kernel

theorem selfTarget_translates : translateReady selfTarget 0 selfInst.job selfGroup.target 4 .atomic 2 = (selfTranslated, .ok 88 0 0) := by
  obtain ⟨_, _, _, htr, _⟩ := selfTarget_complete
  rw [selfTranslated, ← htr]

/-- Refutes O46: the statement reads the completion-word address before the total is written. Where the target of a group is that address in the
group's own entry, the address is 0 before and 1 after: the round is not dropped. -/
theorem not_traversalsAndRoundsProceed : ¬ Obligations.TraversalsAndRoundsProceed := by
  unfold Obligations.TraversalsAndRoundsProceed
  rintro ⟨_, hround, _⟩
  obtain ⟨hwaits, hall, hn, _, hgood, hdone⟩ := selfTarget_complete
  have hexec := hround selfTarget selfTranslated _ _ _ selfRound selfInst selfGroup _ 4 0 88 0 0 _ rfl rfl rfl rfl (Option.isNone_iff_eq_none.1 hwaits)
    rfl rfl hall hn rfl selfTarget_translates hgood rfl rfl rfl rfl rfl
  rw [if_pos hdone] at hexec
  have hrounds := congrArg roundsAfter hexec
  rw [roundsAfter_selfTarget] at hrounds
  exact absurd hrounds (by decide +kernel)

end Sys2Proof.Proofs

/-! PROOFS. Hosts, links, and other devices (R117, R316 to R321, R324, R343, R369, R379, R384). -/

namespace Sys2Proof.Proofs

open Sys2Proof Sys2Proof.Machine Sys2Proof.Laws Sys2Proof.Claims

/-! ### Requests for half-lines (R318, R320, R321) -/

section
variable {s : State} {line h : Nat}

section
variable (hhost : s.ev.host < 2)
include hhost

theorem hostRequest_unassigned (hforeign : s.assigned s.ev.host (s.ev.pa / 64 * 64) 64 = false) (refused : State → State)
    (body : State → Nat → Nat → Nat → DirEntry → State) : hostRequest s refused body = refused (s.unassigned (s.ev.pa / 64 * 64)) := by
  simp only [hostRequest, Nat.not_le.2 hhost, hforeign, Bool.not_false, if_false, if_true]

theorem hostRequest_acts (hown : s.assigned s.ev.host (s.ev.pa / 64 * 64) 64 = true)
    (hline : line = s.ev.pa / 64 * 64 / 128) (hh : h = s.ev.pa / 64 * 64 / 64 % 2) (hfree : (s.dirOf line).snooped h = false)
    (hlock : (s.dirOf line).lock = none) (refused : State → State) (body : State → Nat → Nat → Nat → DirEntry → State) :
    hostRequest s refused body = body s (s.ev.pa / 64 * 64) line h (s.dirOf line) := by
  subst hline hh
  simp only [hostRequest, halfOf, Nat.not_le.2 hhost, hown, hfree, hlock, Option.isSome_none, Bool.not_true, Bool.or_self, Bool.false_eq_true, if_false]
end

variable (hacts : ∀ refused body, hostRequest s refused body = body s (s.ev.pa / 64 * 64) line h (s.dirOf line))
include hacts

/-- A read to share: a half that the other host holds exclusively is snooped for its data first. -/
theorem exec_hostReadShared : exec .hostReadShared s = .next (
    if (s.dirOf line).host (1 - s.ev.host) h = .Hx then s.sendBisnp line (1 - s.ev.host) h false
    else ((s.recall line true).modDir line (fun d => d.setHost s.ev.host h .Hs)).answerHost s.ev.host (s.ev.pa / 64 * 64)) := by
  show execHostReadShared s = _
  simp only [execHostReadShared, nextS, hacts, beq_iff_eq]

/-- A read to own: the other host gives its half up first, then other devices their copies (R85, R119). -/
theorem exec_hostReadOwnership : exec .hostReadOwnership s = .next (
    if (s.dirOf line).host (1 - s.ev.host) h ≠ .Hi then s.sendBisnp line (1 - s.ev.host) h true
    else if !(s.dirOf line).remote.isEmpty || s.remotePending line then s.invRemote line
    else ((s.recall line false).modDir line (fun d => d.setHost s.ev.host h .Hx)).answerHost s.ev.host (s.ev.pa / 64 * 64)) := by
  show execHostReadOwnership s = _
  simp only [execHostReadOwnership, nextS, hacts, bne_iff_ne]

theorem exec_hostWriteback : exec .hostWriteback s = .next (
    if (s.dirOf line).host s.ev.host h != .Hx || s.ev.bytes.length != 64 then s
    else (s.hostWrite (s.ev.pa / 64 * 64) s.ev.bytes).modDir line (fun d => d.setHost s.ev.host h .Hi)) := by
  show execHostWriteback s = _
  simp only [execHostWriteback, nextS, hacts]

theorem exec_hostEvictClean : exec .hostEvictClean s = .next (s.modDir line (fun d => d.setHost s.ev.host h .Hi)) := by
  show execHostEvictClean s = _
  simp only [execHostEvictClean, nextS, hacts]
end

theorem answerHost_good {s : State} {pa : Nat} (host : Nat) (h : s.bad.contains (pa / 128) = false) :
    s.answerHost host pa = s.toHost host pa (s.cohBytes pa 64) := by
  rw [State.answerHost, h]
  rfl
theorem answerHost_bad {s : State} {pa : Nat} (host : Nat) (h : s.bad.contains (pa / 128) = true) : s.answerHost host pa =
    (s.writeRecord 32 { cause := 0x160, src := 3, addr := pa, d1 := pa / 128 * 128 }).toHost host pa (List.replicate 64 0xFF#8) := by
  rw [State.answerHost, h]
  rfl

theorem exec_read_unassigned {s : State} {x : Instr} (hx : x ∈ [Instr.hostReadShared, Instr.hostReadOwnership]) (hhost : s.ev.host < 2)
    (hforeign : s.assigned s.ev.host (s.ev.pa / 64 * 64) 64 = false) :
    exec x s = .next ((s.unassigned (s.ev.pa / 64 * 64)).toHost s.ev.host s.ev.pa (List.replicate 64 0xFF#8)) := by
  simp only [List.mem_cons, List.not_mem_nil, or_false] at hx
  rcases hx with rfl | rfl
  · exact congrArg Host.Outcome.next (hostRequest_unassigned hhost hforeign _ _)
  · exact congrArg Host.Outcome.next (hostRequest_unassigned hhost hforeign _ _)

/-! ### Snoops (R117, R319, R320) -/

/-- The answer to a back-invalidate snoop: data of a half held in Hx are written at the home, and the host holds the half at most shared. -/
theorem exec_bisnpResponse {s : State} {p : Nat × Nat}
    (hsnoop : (s.dirOf (s.ev.pa / 64 * 64 / 128)).snoops.find? (fun p => p.1 == s.ev.host && decide (p.1 < 2) && p.2 % 2 == halfOf (s.ev.pa / 64 * 64)) = some p) :
    exec .bisnpResponse s = .next ((if s.ev.bytes.length = 64 ∧ (s.dirOf (s.ev.pa / 64 * 64 / 128)).host s.ev.host (halfOf (s.ev.pa / 64 * 64)) = .Hx
      then s.hostWrite (s.ev.pa / 64 * 64) s.ev.bytes else s).modDir (s.ev.pa / 64 * 64 / 128) (fun d =>
        { (d.setHost s.ev.host (halfOf (s.ev.pa / 64 * 64)) (if p.2 < 2 then .Hs else .Hi)) with snoops := d.snoops.erase p })) := by
  show execBisnpResponse s = _
  simp only [execBisnpResponse, nextS, hsnoop, Bool.and_eq_true, decide_eq_true_eq, beq_iff_eq]

theorem exec_hostSnoop_waits {s : State} (h : (s.dirOf ((hostBase + (s.ev.host % 2) * 2 ^ 51 + s.ev.pa % 2 ^ 51 / 64 * 64) / 128)).lock ≠ none) :
    exec .hostSnoop s = .next s := by
  show execHostSnoop s = _
  simp only [execHostSnoop, nextS, Option.isSome_iff_ne_none.2 h, if_true]

/-- The device gives the half up, or keeps it in S, and its data returns. -/
theorem exec_hostSnoop_answers {s s1 : State} {xa : Nat} (hxa : xa = hostBase + (s.ev.host % 2) * 2 ^ 51 + s.ev.pa % 2 ^ 51 / 64 * 64)
    (hs1 : s1 = s.recall (xa / 128) (!s.ev.flag)) (h : (s.dirOf (xa / 128)).lock = none) :
    exec .hostSnoop s = .next { s1 with
      hostHalf := if s.ev.flag then adel s1.hostHalf ((xa - hostBase) / 64) else amod s1.hostHalf ((xa - hostBase) / 64) (fun _ => .S)
      hostRx := s1.hostRx ++ [(s.ev.host, s.ev.pa, s1.cohBytes xa 64)] } := by
  subst hxa hs1
  show execHostSnoop s = _
  simp only [execHostSnoop, nextS, h, Option.isSome_none, Bool.false_eq_true, if_false]
  rfl

/-! ### Half-lines of host memory, decoders and regions (R318, R319, R324) -/

theorem hostGrant_granted {s : State} {half : Nat} {st : Mesi} (hport : s.hostPortUp (hostBase + half * 64) = true)
    (hask : s.hostAsk.any (fun a => a.1 == half && decide (needRank a.2 ≤ st.rank)) = true) : s.hostGrant half st =
      { s with hostHalf := aset s.hostHalf half st, hostAsk := s.hostAsk.filter (fun a => !(a.1 == half && decide (needRank a.2 ≤ st.rank))) } := by
  simp only [State.hostGrant, hport, hask, Bool.and_self, if_true]

theorem programDecoder_assigned {s : State} {host region : Nat} (base : Nat) (hregion : region < 2304) (hhost : host < 2)
    (h : bit (agetD s.regions region 0) host = true) :
    s.programDecoder host region (some base) = { s with decoders := aset s.decoders (host, region) base } := by
  simp only [State.programDecoder, hregion, hhost, h, decide_true, Bool.and_self, if_true]
theorem programDecoder_foreign {s : State} {host region : Nat} (base : Nat) (h : bit (agetD s.regions region 0) host = false) :
    s.programDecoder host region (some base) = s := by
  simp only [State.programDecoder, h, Bool.and_false, Bool.false_eq_true, if_false]
theorem assignRegion_decoded {s : State} {region : Nat} (code : Nat) (h : s.decoded region = true) : s.assignRegion region code = s := by
  simp only [State.assignRegion, h, Bool.not_true, Bool.and_false, Bool.false_eq_true, if_false]
theorem assignRegion_free {s : State} {region : Nat} (code : Nat) (hregion : region < 2304) (h : s.decoded region = false) :
    s.assignRegion region code = { s with regions := aset s.regions region (code % 4) } := by
  simp only [State.assignRegion, hregion, h, decide_true, Bool.not_false, Bool.and_self, if_true]

/-- A mapped address lies in the region that a decoder of the host covers. -/
theorem decoder_of_hdmMap {s : State} {host addr pa : Nat} (h : s.hdmMap host addr = some pa) : ∃ d ∈ s.decoders, d.1.1 = host ∧ d.2 ≤ addr ∧
    addr < d.2 + 2 ^ 28 ∧ pa = d.1.2 * 2 ^ 28 + (addr - d.2) := by
  obtain ⟨d, hd, rfl⟩ := Option.map_eq_some_iff.1 h
  have hcovers := List.find?_some hd
  simp only [Bool.and_eq_true, beq_iff_eq, decide_eq_true_eq] at hcovers
  exact ⟨d, List.mem_of_find?_eq_some hd, hcovers.1.1, hcovers.1.2, hcovers.2, rfl⟩

/-! ### Links (R316, R358, R384) -/

section
variable {s : State} (hhost : s.ev.host < 2)
include hhost

theorem exec_hostLinkTraining : exec .hostLinkTraining s = .next (
    if s.ev.flag = false then { s with ports := lmod s.ports (16 + s.ev.host) (fun x => { x with state := 5, width := 0, rate := 0 }) }
    else if s.ev.width = 0 then { s with ports := lmod s.ports (16 + s.ev.host) (fun x => { x with state := 4, width := 0, rate := 0 }) }
    else if s.ev.width ∈ [1, 2, 4, 8] ∧ s.ev.rate ∈ [16, 32, 64] then
      { s with ports := lmod s.ports (16 + s.ev.host) (fun x => { x with state := 2, width := s.ev.width, rate := s.ev.rate }) }
    else s) := by
  show execHostLinkTraining s = _
  simp only [execHostLinkTraining, nextS, Nat.not_le.2 hhost, if_false, Bool.not_eq_true', Bool.and_eq_true, List.contains_iff_mem]
end

theorem exec_hostPortDown {s : State} (h : (lget s.ports (16 + s.ev.host) {}).state = 2) :
    exec .hostPortDown s = .next { s with ports := lmod s.ports (16 + s.ev.host) (fun x => { x with state := 0, width := 0, rate := 0 }) } := by
  show execHostPortDown s = _
  simp only [execHostPortDown, nextS, h, bne_self_eq_false, Bool.false_eq_true, if_false]

/-! ### Fyron (R343, R379, R384) -/

/-- A packet with a kind or a zero field out of range, or outside the device's partitions, is dropped. -/
theorem exec_packet_dropped {s : State}
    (h : 6 < s.ev.pkt.kind.toNat ∨ s.ev.pkt.zero1 ≠ 0#5 ∨ s.ev.pkt.zero2 ≠ 0#2 ∨ s.fyParts.contains s.ev.pkt.pkey = false) :
    exec .fyronPacketReceive s = .next ((s.count 20 (fyFlits s.ev.pkt.len.toNat)).dropPacket s.ev.port) := by
  have hbad : (badPacket s.ev.pkt || !s.fyParts.contains s.ev.pkt.pkey) = true := by
    simpa only [badPacket, Bool.or_eq_true, decide_eq_true_eq, bne_iff_ne, Bool.not_eq_true', or_assoc] using h
  show execFyronPacketReceive s = _
  simp only [execFyronPacketReceive, nextS, hbad, if_true]

/-- A sound packet is accepted here, forwarded, or dropped when its hops are used up. -/
theorem exec_packet_taken {s : State} (hgood : badPacket s.ev.pkt = false) (hpart : s.fyParts.contains s.ev.pkt.pkey = true) :
    exec .fyronPacketReceive s = .next (
      if s.ev.pkt.ddev = s.devNum then (s.count 20 (fyFlits s.ev.pkt.len.toNat)).acceptPacket s.ev.pkt
      else if s.ev.pkt.hops.toNat ≤ 1 then (s.count 20 (fyFlits s.ev.pkt.len.toNat)).dropPacket s.ev.port
      else { (s.count 20 (fyFlits s.ev.pkt.len.toNat)).count 19 (fyFlits s.ev.pkt.len.toNat) with
        fyOut := s.fyOut ++ [(agetD s.fyRoute s.ev.pkt.ddev.toNat 0, { s.ev.pkt with hops := s.ev.pkt.hops - 1#6 })] }) := by
  show execFyronPacketReceive s = _
  simp only [execFyronPacketReceive, nextS, hgood, hpart, Bool.not_true, Bool.or_self, Bool.false_eq_true, if_false]

theorem exec_laneFailure {s : State} (hport : s.ev.port < 16) (hup : (lget s.ports s.ev.port {}).state ≠ 0) :
    exec .laneFailure s = .next (if (lget s.ports s.ev.port {}).spareUsed then
        { s with ports := lmod s.ports s.ev.port (fun x => { x with state := 0, width := 0, rate := 0 }),
                 fyRoute := s.fyRoute.map (fun r => if r.2 = s.ev.port then (r.1, s.ev.i) else r) }
      else { s with ports := lmod s.ports s.ev.port (fun x => { x with state := 1, width := 0, rate := 0, spareUsed := true }) }) := by
  show execLaneFailure s = _
  simp only [execLaneFailure, nextS, decide_eq_false (Nat.not_le.2 hport), decide_eq_false hup, Bool.or_self, Bool.false_eq_true, if_false]

/-- A training that yields no lane fails (log 74); one on the spare lane is in state 3. -/
theorem exec_fyronPortTraining {s : State} (hport : s.ev.port < 16) (hdown : (lget s.ports s.ev.port {}).state ≤ 1) :
    exec .fyronPortTraining s = .next { s with ports := lmod s.ports s.ev.port (fun x =>
      { x with state := if s.ev.width % 32 = 0 then 4 else if x.spareUsed then 3 else 2, width := s.ev.width % 32,
               rate := if s.ev.width % 32 = 0 then 0 else s.ev.rate % 256 }) } := by
  show execFyronPortTraining s = _
  simp only [execFyronPortTraining, nextS, decide_eq_false (Nat.not_le.2 hport), decide_eq_false (Nat.not_lt.2 hdown), Bool.or_self, Bool.false_eq_true,
    if_false]
  by_cases hlanes : s.ev.width % 32 = 0
  · simp only [hlanes, if_true]
  · simp only [hlanes, if_false]

/-! ### The statement -/

/-- Settles O58: each event by its own lemma; the four requests of a host share one condition. -/
theorem hostsAndPeersExchange : Obligations.HostsAndPeersExchange := by
  unfold Obligations.HostsAndPeersExchange
  refine ⟨⟨?requests, fun s host pa => ⟨answerHost_good host, answerHost_bad host⟩, fun s x => exec_read_unassigned, fun s => rfl, ?bisnp, ?snoop,
    fun s half st => hostGrant_granted, ?decoders, fun s host addr pa => decoder_of_hdmMap, ?links⟩, ?packets, fun s => exec_laneFailure,
    fun s => exec_fyronPortTraining⟩
  case requests =>
    rintro s pa line h y hhost rfl hline hh rfl hown hfree hlock
    have hacts := hostRequest_acts hhost hown hline hh hfree hlock
    rw [exec_hostReadShared hacts, exec_hostReadOwnership hacts, exec_hostWriteback hacts, exec_hostEvictClean hacts]
    refine ⟨fun hx => by rw [if_pos hx], fun hx => by rw [if_neg hx], fun hi => by rw [if_pos hi], fun hi hcopies => ?_, fun hi hremote hpending => ?_,
      fun hx hlen => ?_, fun hx => ?_, rfl⟩
    · rw [if_neg (not_not.2 hi), if_pos (by simpa using hcopies)]
    · simp only [hi, hremote, hpending, ne_eq, not_true_eq_false, List.isEmpty_nil, Bool.not_true, Bool.or_self, Bool.false_eq_true, if_false]
    · simp only [hx, hlen, bne_self_eq_false, Bool.or_self, Bool.false_eq_true, if_false]
    · simp only [bne_iff_ne.2 hx, Bool.true_or, if_true]
  case bisnp =>
    rintro s _ _ _ p rfl rfl rfl hsnoop
    exact exec_bisnpResponse hsnoop
  case snoop =>
    intro s s1 xa hxa hs1
    refine ⟨fun hlock => exec_hostSnoop_waits (hxa ▸ hlock), fun hlock => ⟨_, exec_hostSnoop_answers hxa hs1 hlock, rfl, fun hf => ?_, fun hf => ?_, rfl⟩⟩
    · rw [hf]; rfl
    · rw [hf]; rfl
  case decoders =>
    exact fun s host region base code hregion => ⟨programDecoder_assigned base hregion, programDecoder_foreign base, assignRegion_decoded code,
      assignRegion_free code hregion⟩
  case links =>
    intro s hhost
    rw [exec_hostLinkTraining hhost]
    refine ⟨fun hflag hwidth hrate => ?_, fun hflag => by rw [if_pos hflag], fun hflag hwidth => ?_, exec_hostPortDown⟩
    · have hlanes : s.ev.width ≠ 0 := fun h0 => by rw [h0] at hwidth; simp at hwidth
      simp only [hflag, Bool.true_eq_false, if_false, hlanes, hwidth, hrate, and_self, if_true]
    · simp only [hflag, Bool.true_eq_false, if_false, hwidth, if_true]
  case packets =>
    rintro s _ rfl
    refine ⟨exec_packet_dropped, fun hgood hpart => ?_⟩
    rw [exec_packet_taken hgood hpart]
    exact ⟨fun hhere => by rw [if_pos hhere], fun hthere hhops => by rw [if_neg hthere, if_pos hhops],
      fun hthere hhops => by rw [if_neg hthere, if_neg (Nat.not_le.2 hhops)]⟩

end Sys2Proof.Proofs

/-! PROOFS. O2, the operations of the units, the memories, the fabric and the store buffers: each keeps every memory in canonical form. A memory changes by
`Memory.wr` and `Memory.clear` alone, and both keep the order and the omission of the unlisted byte. -/

namespace Sys2Proof.Proofs

open Sys2Proof Sys2Proof.Machine Sys2Proof.Laws Sys2Proof.Claims

/-! ### Memories, and the outcomes that hold a state -/

theorem wf_mem {s : State} (h : s.memsOk) : s.mem.wf := h.1
theorem wf_wst {s : State} (h : s.memsOk) : s.wst.wf := h.2.1
theorem wf_lsm {s : State} (h : s.memsOk) : s.lsm.wf := h.2.2.1
theorem wf_hmem {s : State} (h : s.memsOk) : s.hmem.wf := h.2.2.2
/-- What follows the outcome is canonical. -/
def MemsKept (o : Host.Outcome State Fault Refusal) : Prop := ∀ t, o = .next t → t.memsOk
theorem memsKept_next {s : State} (h : s.memsOk) : MemsKept (.next s) := by
  rintro t ⟨⟩
  exact h
theorem memsKept_ite {c : Prop} [Decidable c] {o o' : Host.Outcome State Fault Refusal} (h : MemsKept o) (h' : MemsKept o') :
    MemsKept (if c then o else o') := by
  split
  · exact h
  · exact h'
theorem memsOk_ite {c : Prop} [Decidable c] {s t : State} (hs : s.memsOk) (ht : t.memsOk) : (if c then s else t).memsOk := by
  split
  · exact hs
  · exact ht
theorem wf_filter {m : Memory} (h : m.wf) (p : Host.Cell → Bool) : Memory.wf (m.filter p) := by
  induction m with
  | nil => exact h
  | cons q r ih =>
    obtain ⟨hb, hr, habove⟩ := wf_cons.1 h
    rw [List.filter_cons]
    split
    · exact wf_cons.2 ⟨hb, ih hr, fun x hx => habove x (List.mem_of_mem_filter hx)⟩
    · exact ih hr
theorem wf_clear {m : Memory} (h : m.wf) (a n : Nat) : (m.clear a n).wf := wf_filter h _
theorem memsOk_stsp {s : State} (h : s.memsOk) (a : Nat) (bs : List Byte) : ({ s with lsm := s.lsm.wrBytes a bs } : State).memsOk := by
  obtain ⟨hmem, hwst, hlsm, hhmem⟩ := h
  exact ⟨hmem, hwst, wf_wrBytes hlsm _ _, hhmem⟩
/-- The state of each outcome of a firing's checks is canonical. -/
def FirePrepOk : FirePrep → Prop
  | .wait s | .fault s _ _ _ | .go s _ _ _ => s.memsOk
/-- The state of each outcome of a control processor's access is canonical. -/
def CtlMemOk : CtlMem → Prop
  | .wait s | .fault s _ _ _ _ | .ok s _ | .stop s _ _ => s.memsOk
/-- The state of each outcome of a command's body is canonical. -/
def CmdResOk : CmdRes → Prop
  | .wait s | .nack s _ | .fail s _ _ | .done s | .run s _ | .taken s => s.memsOk
/-- The state of each outcome of a matrix operation's issue is canonical. -/
def MatResOk : MatRes → Prop
  | .wait s | .fault s _ | .ok s _ _ _ _ => s.memsOk
/-- The state of each outcome of reading the images is canonical. -/
def ImagesOk : Images → Prop
  | .ok s _ | .fault s _ _ | .wait s => s.memsOk
/-- The state of each outcome of a block is canonical. -/
def BlockResOk : BlockRes → Prop
  | .wait s | .bad s _ _ _ | .ok s _ _ => s.memsOk
/-- The state of each outcome of a queue entry is canonical. -/
def EntryResOk : EntryRes → Prop
  | .done s | .wait s => s.memsOk

/-! ### Units -/

theorem memsOk_setUnit {s : State} (h : s.memsOk) (u v) : (s.setUnit u v).memsOk := h
theorem memsOk_modDie {s : State} (h : s.memsOk) (d f) : (s.modDie d f).memsOk := h
theorem memsOk_modJob {s : State} (h : s.memsOk) (j f) : (s.modJob j f).memsOk := h
theorem memsOk_modQueue {s : State} (h : s.memsOk) (q f) : (s.modQueue q f).memsOk := h
theorem memsOk_count {s : State} (h : s.memsOk) (k n) : (s.count k n).memsOk := h
theorem memsOk_journal {s : State} (h : s.memsOk) (d) : (s.journal d).memsOk := h
theorem memsOk_garnet {s : State} (h : s.memsOk) {body : State → State} (hb : (body s).memsOk) : (s.garnet body).memsOk := by
  unfold State.garnet
  split
  · exact h
  · exact hb
theorem memsOk_thread {s : State} (h : s.memsOk) {body : State → State} (hb : (body s).memsOk) : (s.thread body).memsOk := by
  unfold State.thread
  split
  · exact h
  · exact memsOk_garnet h hb

/-! ### The home and its lines (R91, R94) -/

theorem memsOk_askHost {s : State} (h : s.memsOk) (isWrite line) : (s.askHost isWrite line).memsOk := by
  refine memsOk_foldl _ (fun s p hs => ?_) _ h
  split <;> exact hs
theorem memsOk_sendSnoops {s : State} (h : s.memsOk) (xa n isWrite) : (s.sendSnoops xa n isWrite).memsOk := by
  grind [State.sendSnoops, memsOk_askHost, memsOk_modDir, memsOk_foldl]
theorem memsOk_l1Put {s : State} (h : s.memsOk) (cl xa m l) : (s.l1Put cl xa m l).memsOk := by
  induction l generalizing s xa with
  | nil => exact h
  | cons b r ih => exact ih (memsOk_modCluster h ..) _
theorem memsOk_l1Write {s : State} (h : s.memsOk) (cl xa m bs) : (s.l1Write cl xa m bs).memsOk := memsOk_l1Put h ..
theorem memsOk_fyPacket {s : State} (h : s.memsOk) (ddev kind pl) : (s.fyPacket ddev kind pl).memsOk := h
theorem memsOk_fySend {s : State} (h : s.memsOk) (ddev kind pl) : (s.fySend ddev kind pl).memsOk := by
  grind [State.fySend, memsOk_fyPacket, memsOk_foldl]
theorem memsOk_homeWriteKeep {s : State} (h : s.memsOk) (cl xa bs) : (s.homeWriteKeep cl xa bs).memsOk := by
  grind [State.homeWriteKeep, memsOk_invRemote, memsOk_recallBut, memsOk_bumpTag, memsOk_putHomeBytes, memsOk_dirtyHalves, memsOk_l1Write,
    memsOk_foldl]
theorem memsOk_homeRead {s : State} (h : s.memsOk) (xa n) : (s.homeRead xa n).1.memsOk := by
  grind [State.homeRead, memsOk_recall, memsOk_foldl]
theorem memsOk_evictOne {s : State} (h : s.memsOk) (cl region) : (s.evictOne cl region).memsOk := by
  unfold State.evictOne
  extract_lets c inSet
  split <;> exact h
theorem memsOk_makeRoom {s : State} (h : s.memsOk) (cl region k n) : (s.makeRoom cl region k n).1.memsOk := by
  induction n generalizing s with
  | zero => exact h
  | succ n ih => grind [State.makeRoom, memsOk_evictOne]
theorem memsOk_addSpan {s : State} (h : s.memsOk) (cl sp) : (s.addSpan cl sp).memsOk := h
theorem memsOk_installGap {s : State} (h : s.memsOk) (cl region m keep g) : (s.installGap cl region m keep g).memsOk := by
  grind [State.installGap, memsOk_makeRoom, memsOk_addSpan]
theorem memsOk_installWord {s : State} (h : s.memsOk) (cl region w) : (s.installWord cl region w).memsOk := by
  grind [State.installWord, memsOk_modCluster, memsOk_installGap]
theorem memsOk_keepSpans {s : State} (h : s.memsOk) (cl region w0 w1) : (s.keepSpans cl region w0 w1).memsOk := h
theorem memsOk_flushL1 {s : State} (h : s.memsOk) (cl) : (s.flushL1 cl).memsOk := h

/-! ### Translation and the fabric -/

theorem memsOk_tlbFill {s : State} (h : s.memsOk) (holder job va e l cap) : (s.tlbFill holder job va e l cap).memsOk := h
theorem memsOk_translate {s : State} (h : s.memsOk) (cl job va k acc) : (Machine.translate s cl job va k acc).1.memsOk := by
  unfold Machine.translate
  extract_lets va use hit
  have huse (t : State) (e l : Nat) (ht : t.memsOk) : (use t e l).1.memsOk := by
    simp only [use]
    split
    · exact ht
    · split <;> exact ht
  split
  · exact huse _ _ _ h
  · split
    · exact memsOk_sendSnoops h ..
    · exact h
    · split
      · exact h
      · extract_lets e1 s1
        split
        · exact memsOk_sendSnoops h ..
        · have hs1 : s1.memsOk := by
            simp only [s1]
            split
            · exact h
            · exact memsOk_devWrite h ..
          exact huse _ _ _ (memsOk_tlbFill (memsOk_tlbFill hs1 ..) ..)
theorem memsOk_translateReady {s : State} (h : s.memsOk) (cl job va n k acc) : (translateReady s cl job va n k acc).1.memsOk := by
  grind [translateReady, memsOk_translate, memsOk_sendSnoops]
theorem memsOk_fyRequest {s : State} (h : s.memsOk) (xa who pl) : (s.fyRequest xa who pl).memsOk := by
  grind [State.fyRequest, memsOk_fySend, State.memsOk]
theorem memsOk_readXa {s : State} (h : s.memsOk) (xa n) : (s.readXa xa n).1.memsOk := by
  grind [State.readXa, memsOk_fyRequest, memsOk_homeRead, memsOk_foldl]
theorem memsOk_readG {s : State} (h : s.memsOk) (cl job va n k acc) : (readG s cl job va n k acc).1.memsOk := by
  grind [readG, memsOk_translateReady, memsOk_readXa]
theorem memsOk_readNearXa {s : State} (h : s.memsOk) (cl xa n mt) : (s.readNearXa cl xa n mt).1.memsOk := by
  grind [State.readNearXa, memsOk_readXa]
theorem memsOk_readNear {s : State} (h : s.memsOk) (cl job va n k acc) : (readNear s cl job va n k acc).1.memsOk := by
  grind [readNear, memsOk_translateReady, memsOk_readNearXa]
theorem memsOk_writeXa {s : State} (h : s.memsOk) (who xa bs) : (s.writeXa who xa bs).memsOk := by
  grind [State.writeXa, memsOk_fyRequest, memsOk_homeWrite, State.memsOk]
theorem memsOk_writeG {s : State} (h : s.memsOk) (who cl job va bs k acc) : (writeG s who cl job va bs k acc).1.memsOk := by
  grind [writeG, memsOk_translateReady, memsOk_writeXa]

/-! ### Records and graph objects -/

theorem memsOk_pieceWaits {s t : State} (h : s.memsOk) {job va n} (ht : s.pieceWaits job va n = some t) : t.memsOk := by
  unfold State.pieceWaits at ht
  grind [memsOk_sendSnoops, memsOk_readXa]
theorem memsOk_rangeWaits {s t : State} (h : s.memsOk) {job va n} (ht : s.rangeWaits job va n = some t) : t.memsOk := by
  obtain ⟨p, -, hp⟩ := List.exists_of_findSome?_eq_some ht
  exact memsOk_pieceWaits h hp
theorem memsOk_objectWaits {s t : State} (h : s.memsOk) {job base} (ht : s.objectWaits job base = some t) : t.memsOk := by
  rcases Option.or_eq_some_iff.1 ht with hr | ⟨-, hr⟩
  · exact memsOk_rangeWaits h hr
  · exact memsOk_rangeWaits h hr
theorem memsOk_anyObjectWaits {s t : State} (h : s.memsOk) (ht : s.anyObjectWaits = some t) : t.memsOk := by
  obtain ⟨i, -, hi⟩ := List.exists_of_findSome?_eq_some ht
  exact memsOk_objectWaits h hi
theorem memsOk_modInst {s : State} (h : s.memsOk) (i f) : (s.modInst i f).memsOk := h
theorem memsOk_modPhase {s : State} (h : s.memsOk) (i f) : (s.modPhase i f).memsOk := h

/-! ### Operations -/

theorem memsOk_putRecord {s : State} (h : s.memsOk) (ring bs) : (s.putRecord ring bs).memsOk := by
  grind [State.putRecord, memsOk_devWrite, State.memsOk]
theorem memsOk_writeRecordBytes {s : State} (h : s.memsOk) (ring bs) : (s.writeRecordBytes ring bs).memsOk := by
  grind [State.writeRecordBytes, memsOk_sendSnoops, memsOk_putRecord, State.memsOk]
theorem memsOk_writeRecord {s : State} (h : s.memsOk) (ring r) : (s.writeRecord ring r).memsOk := memsOk_writeRecordBytes h ..
theorem memsOk_writeAreaBytes {s : State} (h : s.memsOk) (pa bs) : (s.writeAreaBytes pa bs).memsOk := by
  grind [State.writeAreaBytes, memsOk_sendSnoops, memsOk_devWrite, State.memsOk]
theorem memsOk_devRecord {s : State} (h : s.memsOk) (cause src) : (s.devRecord cause src).memsOk := memsOk_writeRecord h ..
theorem memsOk_jobRecord {s : State} (h : s.memsOk) (job cause src addr d0 d1) : (s.jobRecord job cause src addr d0 d1).memsOk :=
  memsOk_writeRecord h ..
theorem memsOk_unitRecord {s : State} (h : s.memsOk) (uid r) : (s.unitRecord uid r).memsOk := memsOk_writeRecord h ..
theorem memsOk_garnetWrite {s : State} (h : s.memsOk) (job va n v k rel) : (s.garnetWrite job va n v k rel).1.memsOk := by
  grind [State.garnetWrite, memsOk_translateReady, memsOk_writeXa]
theorem memsOk_putWord {s : State} (h : s.memsOk) (job va v l) : (s.putWord job va v l).memsOk := by
  unfold State.putWord
  extract_lets keep
  split
  · exact h
  · have hw := memsOk_garnetWrite h job va 8 v .store (fun s sc => s.levelReleased job sc)
    split <;> rename_i heq <;> rw [heq] at hw
    · exact memsOk_writeRecord hw ..
    · exact hw
    · exact hw
theorem memsOk_completionWord {s : State} (h : s.memsOk) (job l va ndone nfail level status) : (s.completionWord job l va ndone nfail level status).memsOk :=
  by
  grind [State.completionWord, memsOk_putWord]
theorem memsOk_countPhase {s : State} (h : s.memsOk) (ph status) : (s.countPhase ph status).memsOk := by
  cases ph <;> exact h
theorem memsOk_settleInst {s : State} (h : s.memsOk) (i) : (s.settleInst i).memsOk := by
  grind [State.settleInst, memsOk_modInst, memsOk_countPhase, memsOk_completionWord]
theorem memsOk_settleParents {s : State} (h : s.memsOk) (i n) : (s.settleParents i n).memsOk := by
  induction n generalizing s with
  | zero => exact h
  | succ n ih => grind [State.settleParents, memsOk_modInst]
theorem memsOk_endNode {s : State} (h : s.memsOk) (i n status) : (s.endNode i n status).memsOk :=
  memsOk_settleInst (memsOk_settleParents (memsOk_modInst h ..) ..) ..
theorem memsOk_countUnit {s : State} (h : s.memsOk) (i n status) : (s.countUnit i n status).memsOk := by
  grind [State.countUnit, memsOk_modInst, memsOk_endNode, memsOk_completionWord]
theorem memsOk_liftHalts {s : State} (h : s.memsOk) (uid reason) : (s.liftHalts uid reason).memsOk := by
  grind [State.liftHalts, memsOk_modUnit, memsOk_modJob]
theorem memsOk_endUnit {s : State} (h : s.memsOk) (uid status) : (s.endUnit uid status).memsOk := by
  unfold State.endUnit
  extract_lets s0 u s1 s2 s3 s4
  have h1 : s1.memsOk := memsOk_liftHalts h ..
  have h2 : s2.memsOk := memsOk_foldl _ (fun _ _ h => memsOk_modCluster h ..) _ h1
  have h4 : s4.memsOk := h2
  exact memsOk_countUnit (memsOk_journal h4 _) ..
theorem memsOk_escalate {s : State} (h : s.memsOk) (uid key r) : (s.escalate uid key r).memsOk := by
  grind [State.escalate, memsOk_endUnit, memsOk_unitRecord, memsOk_modUnit, State.memsOk]
theorem memsOk_takeFault {s : State} (h : s.memsOk) (uid key r) : (s.takeFault uid key r).memsOk := by
  grind [State.takeFault, memsOk_escalate, memsOk_modUnit]
theorem memsOk_faultAt {s : State} (h : s.memsOk) (uid key r) : (s.faultAt uid key r).memsOk := memsOk_takeFault (memsOk_modUnit h ..) ..
theorem memsOk_retryHeld {s : State} (h : s.memsOk) (uid f) : (s.retryHeld uid f).memsOk := by
  grind [State.retryHeld, memsOk_modUnit, memsOk_modCluster, memsOk_foldl]
theorem memsOk_returnFault {s : State} (h : s.memsOk) (uid) : (s.returnFault uid).memsOk := by
  grind [State.returnFault, memsOk_retryHeld, memsOk_modUnit, memsOk_takeFault]
theorem memsOk_dropTasks {s : State} (h : s.memsOk) (p) : (s.dropTasks p).memsOk :=
  memsOk_foldl _ (fun _ _ ht => memsOk_completionWord ht ..) _ h
theorem memsOk_cancelUnit {s : State} (h : s.memsOk) (uid) : (s.cancelUnit uid).memsOk := by
  grind [State.cancelUnit, memsOk_endUnit, memsOk_dropTasks]
theorem memsOk_cancelRecord {s : State} (h : s.memsOk) (job level r) : (s.cancelRecord job level r).memsOk := memsOk_writeRecord h ..
theorem memsOk_cancelNode {s : State} (h : s.memsOk) (i n) : (s.cancelNode i n).memsOk := by
  unfold State.cancelNode
  extract_lets s0 src s1 s2
  have h1 : src.memsOk := memsOk_modInst (memsOk_dropTasks h _) ..
  have h2 : s2.memsOk := memsOk_foldl _ (fun _ _ ht => memsOk_cancelUnit ht _) _ (show s1.memsOk from h1)
  split
  · exact h2
  · extract_lets r nd d s3
    split
    · exact h2
    · have h3 : s3.memsOk := by
        simp only [s3]
        split
        · exact memsOk_completionWord h2 ..
        · exact h2
      exact memsOk_endNode h3 ..
theorem memsOk_cancelInst {s : State} (h : s.memsOk) (i) : (s.cancelInst i).memsOk := by
  unfold State.cancelInst
  split
  · exact h
  · split
    · exact h
    · extract_lets s1 s2
      have h2 : s2.memsOk := memsOk_foldl _ (fun _ _ ht => memsOk_cancelNode ht ..) _ (memsOk_modInst h ..)
      exact h2
theorem memsOk_endPhase {s : State} (h : s.memsOk) (p) : (s.endPhase p).memsOk := by
  unfold State.endPhase
  split
  · exact h
  · split
    · exact h
    · extract_lets st s1 begun s2 s3
      have h2 : s2.memsOk := h
      have h3 : s3.memsOk := memsOk_completionWord (memsOk_journal h2 _) ..
      exact memsOk_modJob h3 ..
theorem memsOk_cancelPhase {s : State} (h : s.memsOk) (p) : (s.cancelPhase p).memsOk := by
  grind [State.cancelPhase, memsOk_modPhase, memsOk_dropTasks, memsOk_cancelInst, memsOk_endPhase, memsOk_foldl]
theorem memsOk_endJob {s : State} (h : s.memsOk) (j) : (s.endJob j).memsOk := by
  unfold State.endJob
  split
  · exact h
  · split
    · exact h
    · extract_lets s1 s2
      have h1 : s1.memsOk := memsOk_completionWord h ..
      exact h1
theorem memsOk_cancelJob {s : State} (h : s.memsOk) (j) : (s.cancelJob j).memsOk := by
  grind [State.cancelJob, memsOk_modJob, memsOk_dropTasks, memsOk_cancelPhase, memsOk_cancelInst, memsOk_modQueue, memsOk_endJob, memsOk_foldl]
theorem memsOk_cancelFrom {s : State} (h : s.memsOk) (uid level) : (s.cancelFrom uid level).memsOk := by
  unfold State.cancelFrom
  extract_lets u r
  split
  · exact memsOk_cancelUnit (memsOk_cancelRecord h ..) _
  · exact memsOk_cancelNode (memsOk_cancelRecord h ..) ..
  · exact memsOk_cancelInst (memsOk_cancelRecord h ..) _
  · split
    · exact memsOk_cancelPhase (memsOk_cancelRecord h ..) _
    · exact h
  · exact memsOk_cancelJob (memsOk_cancelRecord h ..) _
theorem memsOk_progress {s : State} (h : s.memsOk) (uid) : (s.progress uid).memsOk := h

/-! ### Firing of a PE row -/

theorem memsOk_emit {s : State} (h : s.memsOk) (uid key t) : (s.emit uid key t).memsOk := by
  unfold State.emit
  dsimp only
  split <;> exact h
theorem memsOk_drainOut {s : State} (h : s.memsOk) (uid key n) : (s.drainOut uid key n).memsOk := by
  induction n generalizing s with
  | zero => exact h
  | succ n ih => grind [State.drainOut, memsOk_modUnit, memsOk_emit]
theorem memsOk_sendOut {s : State} (h : s.memsOk) (uid key t) : (s.sendOut uid key t).memsOk := by
  grind [State.sendOut, memsOk_emit, memsOk_modUnit]
theorem memsOk_resolveOut {s : State} (h : s.memsOk) (uid key id t) : (s.resolveOut uid key id t).memsOk := memsOk_drainOut (memsOk_modUnit h ..) ..
theorem memsOk_useNow {s : State} (h : s.memsOk) (cl c) : (s.useNow cl c).memsOk := h
theorem firePrepOk_checkFiring {s : State} (h : s.memsOk) (opc w uid key toks) : FirePrepOk (checkFiring opc w s uid key toks) := by
  unfold checkFiring
  dsimp only
  split
  · exact h
  · split
    · exact h
    · split
      · exact h
      · split <;> exact h
theorem firePrepOk_prepFire {s : State} (h : s.memsOk) (opc w ok more) : FirePrepOk (prepFire opc w s ok more) := by
  unfold prepFire
  split
  · exact h
  · dsimp only
    split
    · exact h
    · split
      · exact h
      · exact firePrepOk_checkFiring (memsOk_setUnit h ..) ..
theorem memsOk_modJobPe {s : State} (h : s.memsOk) (job cl x y f) : (s.modJobPe job cl x y f).memsOk := h
theorem memsOk_fired {s : State} (h : s.memsOk) (uid key) : (s.fired uid key).memsOk := by
  grind [State.fired, memsOk_modUnit, memsOk_count, memsOk_modJobPe, memsOk_modJob]
theorem memsOk_commitFiring {s : State} (h : s.memsOk) (uid key toks) : (s.commitFiring uid key toks).memsOk := memsOk_fired (memsOk_modUnit h ..) ..
theorem memsOk_deliver {s : State} (h : s.memsOk) (uid key w t) : (s.deliver uid key w t).memsOk := by
  grind [State.deliver, memsOk_modUnit, memsOk_sendOut]
theorem memsOk_finishCalc {s : State} (h : s.memsOk) (w uid key g r) : (finishCalc w s uid key g r).memsOk := by
  unfold finishCalc
  split
  · exact memsOk_faultAt h ..
  · dsimp only
    split
    · exact memsOk_faultAt (memsOk_modUnit h ..) ..
    · exact memsOk_deliver (memsOk_commitFiring (memsOk_modUnit h ..) ..) ..
theorem memsOk_fireCalcIf {s : State} (h : s.memsOk) (more opc f w) : (fireCalcIf more opc f w s).memsOk := by
  have hp := firePrepOk_prepFire h opc w (fun _ _ => true) more
  unfold fireCalcIf
  split <;> rename_i heq <;> rw [heq] at hp
  · exact hp
  · exact memsOk_faultAt hp ..
  · exact memsOk_finishCalc hp ..
theorem memsOk_fireCalc {s : State} (h : s.memsOk) (opc f w) : (fireCalc opc f w s).memsOk := memsOk_fireCalcIf h (fun _ => true) opc f w
theorem memsOk_setNode {s : State} (h : s.memsOk) (uid key n) : (s.setNode uid key n).memsOk := h

/-! ### Entries of the store buffer -/

theorem memsOk_enterBuffer {s : State} (h : s.memsOk) (uid key toks e) : (s.enterBuffer uid key toks e).memsOk := memsOk_commitFiring h ..
theorem memsOk_fireMem {s : State} (h : s.memsOk) (opc op ok req w) : (fireMem opc op ok req w s).memsOk := by
  have hp := firePrepOk_prepFire h opc w ok (fun _ => true)
  unfold fireMem
  split <;> rename_i heq <;> rw [heq] at hp
  · exact hp
  · exact memsOk_faultAt hp ..
  · dsimp only
    split
    · exact hp
    · split
      · exact memsOk_faultAt hp ..
      · split
        · exact memsOk_faultAt hp ..
        · exact memsOk_enterBuffer hp ..
theorem memsOk_markIssued {s : State} (h : s.memsOk) (uid e xa mt scope) : (s.markIssued uid e xa mt scope).memsOk := h
theorem memsOk_markHeld {s : State} (h : s.memsOk) (uid e xa) : (s.markHeld uid e xa).memsOk := h
theorem memsOk_retire {s : State} (h : s.memsOk) (uid id) : (s.retire uid id).memsOk := by
  grind [State.retire, memsOk_modUnit, memsOk_resolveOut]
theorem memsOk_retireKilled {s : State} (h : s.memsOk) (uid e) : (s.retireKilled uid e).memsOk := by
  grind [State.retireKilled, memsOk_modUnit, memsOk_resolveOut]
theorem memsOk_sbFault {s : State} (h : s.memsOk) (uid e cause addr d0 d1) : (s.sbFault uid e cause addr d0 d1).memsOk := by
  grind [State.sbFault, memsOk_modUnit, memsOk_retire, memsOk_takeFault]
theorem memsOk_loadDone {s : State} (h : s.memsOk) (uid e v col) : (s.loadDone uid e v col).memsOk := memsOk_retire (memsOk_modUnit h ..) ..

/-! ### Reads through translation -/

theorem memsOk_probe {s : State} (h : s.memsOk) (cl job l) : (s.probe cl job l).1.memsOk := by
  induction l generalizing s with
  | nil => exact h
  | cons a r ih => grind [State.probe, memsOk_translateReady, memsOk_readG]
theorem memsOk_readCuts {s : State} (h : s.memsOk) (cl job k l) : (s.readCuts cl job k l).1.memsOk := by
  induction l generalizing s with
  | nil => exact h
  | cons a r ih => grind [State.readCuts, memsOk_readG]
theorem memsOk_readRange {s : State} (h : s.memsOk) (cl job va n k) : (s.readRange cl job va n k).1.memsOk := memsOk_readCuts h ..
theorem memsOk_writeCuts {s : State} (h : s.memsOk) (who cl job k bs l) : (s.writeCuts who cl job k bs l).memsOk := by
  induction l generalizing s bs with
  | nil => exact h
  | cons p r ih => exact ih (memsOk_writeG h ..) _
theorem memsOk_writeRange {s : State} (h : s.memsOk) (who cl job va bs k) : (s.writeRange who cl job va bs k).memsOk := memsOk_writeCuts h ..
theorem memsOk_readImage {s : State} (h : s.memsOk) (cl job va fmt k acc near) : (s.readImage cl job va fmt k acc near).1.memsOk := by
  grind [State.readImage, memsOk_readNear, memsOk_readG]
theorem firePrepOk_prepFireT {s : State} (h : s.memsOk) (opc w) : FirePrepOk (prepFireT opc w s) := by
  unfold prepFireT
  split
  · exact h
  · rename_i uid key _
    have hs := memsOk_setUnit h uid ((s.unit uid).purge key)
    dsimp only
    split
    · exact hs
    · split
      · exact hs
      · split
        · exact hs
        · split
          · exact hs
          · split <;> exact hs

/-! ### Coherence, synchronising accesses and rounds -/

theorem memsOk_flushPages {s : State} (h : s.memsOk) (cl job k l) : (s.flushPages cl job k l).1.memsOk := by
  induction l generalizing s with
  | nil => exact h
  | cons a r ih => grind [State.flushPages, memsOk_translate]
theorem memsOk_flushLines {s : State} (h : s.memsOk) (cl kind ranges) : (s.flushLines cl kind ranges).memsOk := by
  grind [State.flushLines, memsOk_splitLine, memsOk_modDir, memsOk_writeBack, memsOk_modCluster, memsOk_foldl]
theorem memsOk_sendRequest {s : State} (h : s.memsOk) (m e) : (s.sendRequest m e).memsOk := h
theorem memsOk_forwardMat {s : State} (h : s.memsOk) (uid e) : (s.forwardMat uid e).memsOk := h
theorem memsOk_issuePref {s : State} (h : s.memsOk) (uid e) : (s.issuePref uid e).memsOk := by
  grind [State.issuePref, memsOk_translate, memsOk_markIssued, memsOk_retire, memsOk_sendRequest]
theorem memsOk_issueLdxs {s : State} (h : s.memsOk) (uid e) : (s.issueLdxs uid e).memsOk := by
  grind [State.issueLdxs, memsOk_translate, memsOk_sbFault, memsOk_readImage, memsOk_modCluster, memsOk_modUnit, memsOk_markIssued]
theorem memsOk_issueStxs {s : State} (h : s.memsOk) (uid e) : (s.issueStxs uid e).memsOk := by
  grind [State.issueStxs, memsOk_sbFault, memsOk_translate, memsOk_modUnit, memsOk_markIssued]
theorem memsOk_issueToEngine {s : State} (h : s.memsOk) (uid e) : (s.issueToEngine uid e).memsOk := by
  grind [State.issueToEngine, memsOk_forwardMat, memsOk_markIssued, memsOk_translate, memsOk_modUnit, memsOk_sbFault]
theorem memsOk_issueEntry {s : State} (h : s.memsOk) (uid e) : (s.issueEntry uid e).memsOk := by
  grind [State.issueEntry, memsOk_sbFault, memsOk_translate, memsOk_markIssued, memsOk_retireKilled, memsOk_modUnit, memsOk_markHeld, memsOk_retire,
    memsOk_issuePref, memsOk_flushPages, memsOk_issueToEngine, memsOk_issueLdxs, memsOk_issueStxs]
theorem memsOk_keepFor {s : State} (h : s.memsOk) (e) : (s.keepFor e).memsOk := by
  grind [State.keepFor, memsOk_keepSpans]
theorem memsOk_ask {s : State} (h : s.memsOk) (uid e k mesi withData) : (s.ask uid e k mesi withData).memsOk := h
theorem memsOk_askFabric {s : State} (h : s.memsOk) (uid e pl) : (s.askFabric uid e pl).memsOk := by
  unfold State.askFabric
  refine memsOk_fyRequest ?_ ..
  split <;> exact h
theorem memsOk_askSync {s : State} (h : s.memsOk) (uid e op) : (s.askSync uid e op).memsOk := by
  grind [State.askSync, memsOk_askFabric]
theorem memsOk_contribute {s : State} (h : s.memsOk) (uid e) : (s.contribute uid e).memsOk := by
  unfold State.contribute
  extract_lets u g r part open_ s1
  split
  · exact memsOk_objectWaits h ‹_›
  · refine memsOk_retire ?_ ..
    simp only [s1]
    split <;> exact h
theorem memsOk_tileFlags {s : State} (h : s.memsOk) (uid fl uctl) : (s.tileFlags uid fl uctl).1.memsOk := h
theorem memsOk_takeExtent {s : State} (h : s.memsOk) (cl line st) : (s.takeExtent cl line st).memsOk := by
  grind [State.takeExtent, memsOk_flushPuts, memsOk_modDir, memsOk_invRemote, memsOk_recallBut, memsOk_takeLine, memsOk_foldl]
theorem memsOk_fill {s : State} (h : s.memsOk) (m) : (s.fill m).memsOk := by
  grind [State.fill, memsOk_takeExtent, memsOk_modDir, memsOk_installGap, memsOk_foldl]
theorem memsOk_fillEntry {s : State} (h : s.memsOk) (e) : (s.fillEntry e).memsOk := by
  grind [State.fillEntry, memsOk_modDir, memsOk_fill]
theorem memsOk_performLdxs {s : State} (h : s.memsOk) (uid e) : (s.performLdxs uid e).memsOk := by
  grind [State.performLdxs, memsOk_readImage, memsOk_sbFault, memsOk_modCluster, memsOk_tileFlags, memsOk_fillEntry, memsOk_retire]
theorem memsOk_performEntry {s : State} (h : s.memsOk) (uid e) : (s.performEntry uid e).memsOk := by
  unfold State.performEntry
  extract_lets u cl c wa
  split
  · exact h
  · split
    case h_1 =>
      split
      · exact h
      · exact memsOk_loadDone (memsOk_modUnit h ..) ..
      · split
        · exact memsOk_askFabric h ..
        · split
          · split
            · exact memsOk_sbFault h ..
            · exact memsOk_loadDone (memsOk_keepFor h _) ..
          · exact memsOk_ask h ..
    case h_2 =>
      split
      · exact memsOk_askFabric h ..
      · split
        · exact memsOk_ask h ..
        · split
          · exact memsOk_retire (memsOk_keepFor (memsOk_l1Write h ..) _) ..
          · repeat' (split; exact memsOk_ask h ..)
            exact memsOk_ask h ..
    case h_3 | h_4 | h_5 | h_6 =>
      split
      · exact memsOk_askSync h ..
      · exact memsOk_ask h ..
    case h_7 =>
      split
      · exact h
      · split
        · exact memsOk_askSync h ..
        · exact memsOk_ask h ..
    case h_8 => exact memsOk_contribute h ..
    case h_9 => exact memsOk_retire (memsOk_flushLines h ..) ..
    case h_10 =>
      split
      · exact h
      · exact memsOk_loadDone (memsOk_modUnit h ..) ..
      · exact memsOk_loadDone h ..
    case h_11 => exact memsOk_retire (memsOk_stsp h _ _) ..
    case h_12 =>
      split
      · exact h
      · split
        · split
          · exact h
          · exact memsOk_modCluster (memsOk_modUnit h ..) ..
        · exact memsOk_loadDone h ..
    case h_13 => exact memsOk_performLdxs h ..
    case h_14 =>
      split
      · exact memsOk_askFabric h ..
      · exact memsOk_ask h ..
    all_goals exact h
theorem memsOk_replaceMsg {s : State} (h : s.memsOk) (i ms) : (s.replaceMsg i ms).memsOk := h
theorem memsOk_sendOnce {s : State} (h : s.memsOk) (m) : (s.sendOnce m).memsOk := by
  grind [State.sendOnce, State.memsOk]
theorem memsOk_sendActions {s : State} (h : s.memsOk) (i m acts) : (s.sendActions i m acts).memsOk :=
  memsOk_foldl _ (fun _ _ ht => memsOk_sendOnce ht _) _ h
theorem memsOk_lockLine {s : State} (h : s.memsOk) (i m e) : (s.lockLine i m e).memsOk := by
  unfold State.lockLine
  extract_lets d xa s1 s2
  have h1 : s1.memsOk := memsOk_modDir (memsOk_takeLine (memsOk_flushPuts (memsOk_replaceMsg h ..) _) ..) ..
  split
  · exact memsOk_sendSnoops h ..
  · split
    · split
      · exact h1
      · exact memsOk_retire (memsOk_homeWrite (memsOk_foldl _ (fun _ _ ht => memsOk_modDir ht ..) _ h1) ..) ..
    · exact memsOk_sendActions h ..
theorem memsOk_grantM {s : State} (h : s.memsOk) (i m) : (s.grantM i m).memsOk := by
  unfold State.grantM
  extract_lets d s1 s2
  have h2 : s2.memsOk := memsOk_modDir (memsOk_invRemote (memsOk_flushPuts (memsOk_replaceMsg h ..) _) _) ..
  split
  · exact memsOk_replaceMsg h ..
  · split
    · exact memsOk_lockLine h ..
    · split
      · exact h
      · split
        · exact memsOk_replaceMsg h ..
        · split
          · exact memsOk_sendSnoops h ..
          · split
            · exact memsOk_modUnit (memsOk_replaceMsg h ..) ..
            · split
              · exact h2
              · exact memsOk_sendActions h ..
theorem memsOk_putAtHome {s : State} (h : s.memsOk) (k) : (s.putAtHome k).memsOk := by
  grind [State.putAtHome, memsOk_replaceMsg, memsOk_bumpTag, memsOk_writeWords, memsOk_modDir]
theorem memsOk_homeAction {s : State} (h : s.memsOk) (k keep) : (s.homeAction k keep).memsOk := by
  grind [State.homeAction, memsOk_replaceMsg, memsOk_takeLine]
theorem memsOk_storeGranted {s : State} (h : s.memsOk) (m e) : (s.storeGranted m e).memsOk := by
  grind [State.storeGranted, memsOk_modUnit, memsOk_splitLine, memsOk_addSpan, memsOk_fill, memsOk_installWord, memsOk_retire, memsOk_l1Write,
    memsOk_foldl]
theorem memsOk_syncEffect {s : State} (h : s.memsOk) (e more) : (s.syncEffect e more).1.memsOk := by
  grind [State.syncEffect, memsOk_homeRead, memsOk_homeWriteKeep, memsOk_homeWrite, memsOk_recall]
theorem memsOk_scopeReport {s : State} (h : s.memsOk) (uid e r) : (s.scopeReport uid e r).memsOk := by
  grind [State.scopeReport, memsOk_takeFault, memsOk_modUnit, memsOk_unitRecord]
theorem memsOk_amoHome {s : State} (h : s.memsOk) (cl xa n sc op v) : (s.amoHome cl xa n sc op v).1.memsOk := memsOk_homeWrite h ..
theorem memsOk_syncScope {s : State} (h : s.memsOk) (uid e r) : (s.syncScope uid e r).memsOk := memsOk_scopeReport (memsOk_modDir h ..) ..
theorem memsOk_arrived {s : State} (h : s.memsOk) (m line p) : (s.arrived m line p).memsOk := by
  unfold State.arrived
  refine memsOk_syncScope ?_ ..
  exact h
theorem memsOk_linkValue {s : State} (h : s.memsOk) (uid e mt) : (s.linkValue uid e mt).1.memsOk := by
  grind [State.linkValue, memsOk_modUnit, memsOk_sendSnoops, memsOk_readNearXa, memsOk_keepFor, memsOk_fillEntry]
theorem memsOk_dropRound {s : State} (h : s.memsOk) (r) : (s.dropRound r).memsOk := h
theorem memsOk_roundRecord {s : State} (h : s.memsOk) (inst launch cause addr d0 d1) : (s.roundRecord inst launch cause addr d0 d1).memsOk :=
  memsOk_writeRecord h ..
theorem memsOk_roundApplied {s : State} (h : s.memsOk) (inst round sc) : (s.roundApplied inst round sc).memsOk := by
  grind [State.roundApplied, memsOk_dropRound, State.memsOk]
theorem memsOk_askRound {s : State} (h : s.memsOk) (round xa n op scope sc v) : (s.askRound round xa n op scope sc v).memsOk := h
theorem memsOk_roundAnswered {s : State} (h : s.memsOk) (tag r) : (s.roundAnswered tag r).memsOk := by
  grind [State.roundAnswered, memsOk_dropRound, memsOk_roundRecord, memsOk_roundApplied]
theorem memsOk_applyRound {s : State} (h : s.memsOk) (inst round) : (s.applyRound inst round).memsOk := by
  grind [State.applyRound, memsOk_translateReady, memsOk_roundRecord, memsOk_dropRound, memsOk_askRound, memsOk_homeWrite, memsOk_modDir,
    memsOk_roundApplied]
theorem memsOk_finishRound {s : State} (h : s.memsOk) (inst round) : (s.finishRound inst round).memsOk := by
  grind [State.finishRound, memsOk_translateReady, memsOk_roundRecord, memsOk_dropRound, memsOk_askRound, memsOk_modDir, memsOk_homeWrite]

end Sys2Proof.Proofs

/-! PROOFS. O2, continued: the operations of the engines, the control processors, the schedule, the host interface and the firmware keep every memory in
canonical form. -/

namespace Sys2Proof.Proofs

open Sys2Proof Sys2Proof.Machine Sys2Proof.Laws Sys2Proof.Claims

/-! ### Engine commands -/

theorem memsOk_popHandoff {s : State} (h : s.memsOk) (cl p c) : (s.popHandoff cl p c).memsOk := h
theorem memsOk_pushHandoff {s : State} (h : s.memsOk) (cl p c) : (s.pushHandoff cl p c).memsOk := h
theorem memsOk_setInbox {s : State} (h : s.memsOk) (e l) : (s.setInbox e l).memsOk := by
  grind [State.setInbox, memsOk_modCluster, memsOk_modDie]
theorem memsOk_storeReply {s : State} (h : s.memsOk) (m v u) : (s.storeReply m v u).memsOk := by
  grind [State.storeReply, memsOk_writeAreaBytes, memsOk_modUnit]
theorem memsOk_sendReply {s : State} (h : s.memsOk) (e m v) : (s.sendReply e m v).memsOk := by
  unfold State.sendReply
  split
  · exact h
  · split
    · exact h
    · exact memsOk_storeReply h ..
    · exact h
theorem memsOk_engineRecord {s : State} (h : s.memsOk) (m f addr) : (s.engineRecord m f addr).memsOk := by
  grind [State.engineRecord, memsOk_unitRecord]
theorem memsOk_nackF {s : State} (h : s.memsOk) (e m f addr) : (s.nackF e m f addr).memsOk := memsOk_sendReply (memsOk_engineRecord h ..) ..
theorem memsOk_nack {s : State} (h : s.memsOk) (e m cause entry) : (s.nack e m cause entry).memsOk := memsOk_nackF h ..
theorem memsOk_engineFlags {s : State} (h : s.memsOk) (m fl) : (s.engineFlags m fl).memsOk := by
  grind [State.engineFlags, memsOk_modUnit]
theorem memsOk_readWords {s : State} (h : s.memsOk) (cl job va n) : (s.readWords cl job va n).1.memsOk := by
  induction n generalizing s va with
  | zero => exact h
  | succ n ih =>
    have hr := memsOk_readG h cl job va 8 .load 0
    unfold State.readWords
    split <;> rename_i heq <;> rw [heq] at hr
    · have hn := ih hr ((va + 8) % 2 ^ 56)
      split
      · rename_i heq
        rw [heq] at hn
        exact hn
      · exact hn
    · exact hr
theorem memsOk_sendMessage {s : State} (h : s.memsOk) (uid cl a tag) : (s.sendMessage uid cl a tag).1.memsOk := by
  grind [State.sendMessage, memsOk_readWords, memsOk_nack, memsOk_modUnit, memsOk_setInbox]
theorem memsOk_acceptMessage {s : State} (h : s.memsOk) (e m rest ea hw) {body : State → InMsg → (Nat → Word) → CmdRes}
    (hb : ∀ t im w, t.memsOk → CmdResOk (body t im w)) : (s.acceptMessage e m rest ea hw body).memsOk := by
  unfold State.acceptMessage
  extract_lets pop hold s0 m1 s1
  have hhold : hold.memsOk := memsOk_setInbox h ..
  have h1 : s1.memsOk := by
    refine memsOk_setInbox ?_ ..
    simp only [s0]
    split
    · exact memsOk_popHandoff h ..
    · exact h
  split
  · exact hhold
  · split
    · exact hhold
    · have hr := hb s1 m1 (s1.operand m1 ea) h1
      split <;> rename_i heq <;> rw [heq] at hr
      · exact hr
      · exact memsOk_nack (memsOk_setInbox hr ..) ..
      · exact memsOk_nackF (memsOk_setInbox hr ..) ..
      · exact memsOk_setInbox hr ..
      · exact memsOk_setInbox hr ..
      · exact memsOk_setInbox hr ..
theorem memsOk_runCommand {s : State} (h : s.memsOk) (opc N msg) {body : State → InMsg → (Nat → Word) → CmdRes}
    (hb : ∀ t im w, t.memsOk → CmdResOk (body t im w)) : (runCommand opc N msg s body).memsOk := by
  unfold runCommand
  extract_lets e
  split
  · exact h
  · split
    · exact h
    · split
      · exact memsOk_setInbox h ..
      · split
        · exact h
        · extract_lets refuse
          have hrefuse (c : Nat) (w : Word) : (refuse c w).memsOk := memsOk_nack (memsOk_setInbox h ..) ..
          split
          · exact hrefuse ..
          · exact hrefuse ..
          · split
            · exact memsOk_sendSnoops h ..
            · split
              · exact memsOk_acceptMessage h _ _ _ _ _ hb
              · split
                · exact memsOk_nackF (memsOk_setInbox h ..) ..
                · split
                  · exact hrefuse ..
                  · split
                    · split
                      · exact h
                      · exact memsOk_setInbox h ..
                    · exact memsOk_acceptMessage h _ _ _ _ _ hb
theorem memsOk_completeRun {s : State} (h : s.memsOk) (i) : (s.completeRun i).memsOk := by
  unfold State.completeRun
  split
  · exact h
  · extract_lets c push s1
    have h1 : s1.memsOk := by
      simp only [s1]
      split
      · exact memsOk_pushHandoff h ..
      · exact h
    split
    · exact h
    · refine memsOk_sendReply (memsOk_engineFlags ?_ ..) ..
      exact h1

/-! ### The matrix engine -/

theorem memsOk_noteNarrow {s : State} (h : s.memsOk) (uid) : (s.noteNarrow uid).memsOk := by
  grind [State.noteNarrow, memsOk_modUnit]
theorem matResOk_issueProducts {s : State} (h : s.memsOk) (cl uid acc a b fmt n sub ae) : MatResOk (s.issueProducts cl uid acc a b fmt n sub ae) := by
  unfold State.issueProducts
  extract_lets c someEmpty
  split
  · exact h
  · split
    · exact h
    · exact h
    · exact memsOk_noteNarrow (memsOk_modCluster (memsOk_count h ..) ..) _
theorem memsOk_emptySlots {s : State} (h : s.memsOk) (cl ks) : (s.emptySlots cl ks).memsOk := h
theorem matResOk_issueDrain {s : State} (h : s.memsOk) (cl who job va d traps code) : MatResOk (s.issueDrain cl who job va d traps code) := by
  unfold State.issueDrain
  extract_lets clear r
  have hclear (t : State) (ht : t.memsOk) : (clear t).memsOk := by
    simp only [clear]
    split
    · exact memsOk_modCluster ht ..
    · exact ht
  split
  · exact memsOk_modCluster h ..
  · split
    · exact memsOk_modUnit h ..
    · split
      · split
        · exact h
        · have hw := memsOk_writeG h who cl job va r.2.1 .store code
          split <;> rename_i heq <;> rw [heq] at hw
          · exact hclear _ hw
          · exact hw
          · exact hw
      · exact hclear _ (memsOk_emptySlots h ..)
theorem matResOk_issueLoad {s : State} (h : s.memsOk) (cl job wsp a slot fmt code) : MatResOk (s.issueLoad cl job wsp a slot fmt code) := by
  unfold State.issueLoad
  extract_lets put wa va
  have hput (t : State) (tag img src) (ht : t.memsOk) : MatResOk (put t tag img src) := memsOk_modCluster ht ..
  split
  · iterate 3 (split; exact h)
    split
    · exact hput _ _ _ _ h
    · exact h
    · exact h
  · have hr := memsOk_readImage h cl job va fmt .tileLoad code false
    split <;> rename_i heq <;> rw [heq] at hr
    · exact hput _ _ _ _ hr
    · exact hr
    · exact hr
theorem matResOk_issueTable {s : State} (h : s.memsOk) (cl job w0 w1) : MatResOk (s.issueTable cl job w0 w1) := by
  unfold State.issueTable
  extract_lets id t va
  split
  · exact h
  · split
    · exact h
    · have hp := memsOk_probe h cl job (probesOf va 32 .load)
      split <;> rename_i heq <;> rw [heq] at hp
      · exact hp
      · exact hp
      · exact memsOk_modCluster (memsOk_readRange hp ..) ..
theorem matResOk_issueMat {s : State} (h : s.memsOk) (cl o) : MatResOk (s.issueMat cl o) := by
  unfold State.issueMat
  extract_lets u n src dst
  split
  · exact h
  · split
    · exact matResOk_issueProducts h ..
    · split
      · exact h
      · exact matResOk_issueDrain h ..
    · exact matResOk_issueLoad h ..
    · exact matResOk_issueLoad h ..
    · exact matResOk_issueProducts h ..
    · exact matResOk_issueProducts h ..
    · exact matResOk_issueDrain h ..
    · iterate 2 (split; exact h)
      split
      · exact h
      · exact memsOk_emptySlots h ..
    · refine memsOk_foldl _ (fun t a ht => ?_) _ h
      split
      · exact memsOk_modCluster ht ..
      · exact ht
    · exact matResOk_issueTable h ..
theorem memsOk_modMq {s : State} (h : s.memsOk) (cl i f) : (s.modMq cl i f).memsOk := h
theorem memsOk_fillSlots {s : State} (h : s.memsOk) (cl i o) : (s.fillSlots cl i o).memsOk := h
theorem memsOk_retireMat {s : State} (h : s.memsOk) (cl i) : (s.retireMat cl i).memsOk := by
  unfold State.retireMat
  split
  · exact h
  · split
    · exact h
    · extract_lets s0 s1 s2
      have h0 : s0.memsOk := memsOk_fillSlots h ..
      have h1 : s1.memsOk := by
        simp only [s1]
        split
        · exact memsOk_pushHandoff h0 ..
        · exact h0
      have h2 : s2.memsOk := memsOk_progress (memsOk_modCluster h1 ..) _
      split
      · exact h0
      · split
        · exact h2
        · split
          · exact memsOk_retire h2 ..
          · exact memsOk_resolveOut h2 ..
theorem cmdResOk_queueMat {s : State} (h : s.memsOk) (m w0 w1) : CmdResOk (s.queueMat m w0 w1) := memsOk_modCluster h ..

/-! ### The copy and gather engines -/

theorem memsOk_checkAll {s : State} (h : s.memsOk) (m l) : (s.checkAll m l).1.memsOk := by
  induction l generalizing s with
  | nil => exact h
  | cons a r ih => grind [State.checkAll, memsOk_probe]
theorem memsOk_writeL {s : State} (h : s.memsOk) (m a l) : (s.writeL m a l).memsOk := by
  induction l generalizing s a with
  | nil => exact h
  | cons b r ih =>
    unfold State.writeL
    split
    · obtain ⟨hmem, hwst, hlsm, hhmem⟩ := h
      refine ih ?_ _
      exact ⟨hmem, hwst, wf_wr hlsm .., hhmem⟩
    · exact ih h _
theorem memsOk_readS {s : State} (h : s.memsOk) (m sp a n) : (s.readS m sp a n).1.memsOk := by
  grind [State.readS, memsOk_readRange]
theorem cmdResOk_accept {s : State} (h : s.memsOk) (m l plan) : CmdResOk (accept s m l plan) := by
  have hc := memsOk_checkAll h m l
  unfold accept
  split <;> rename_i heq <;> rw [heq] at hc <;> exact hc
theorem memsOk_modRun {s : State} (h : s.memsOk) (i f) : (s.modRun i f).memsOk := h
theorem memsOk_failRun {s : State} (h : s.memsOk) (i r f a) : (s.failRun i r f a).memsOk := by
  grind [State.failRun, memsOk_nackF, State.memsOk]
theorem memsOk_loadPart {s : State} (h : s.memsOk) (i r p) : (s.loadPart i r p).memsOk := by
  grind [State.loadPart, memsOk_modRun, memsOk_readG, memsOk_failRun]
theorem memsOk_runScope {s : State} (h : s.memsOk) (m va sc rec0) : (s.runScope m va sc rec0).memsOk := by
  grind [State.runScope, memsOk_engineRecord]
theorem memsOk_storeLine {s : State} (h : s.memsOk) (i m add ps) : (s.storeLine i m add ps).1.memsOk := by
  unfold State.storeLine
  extract_lets lo n parts
  have ht := memsOk_translateReady h m.cl m.job lo n (if add then .atomic else .store) 4
  split <;> rename_i heq <;> rw [heq] at ht
  · split
    · extract_lets s2
      have h2 : s2.memsOk := ht
      split
      · exact memsOk_fyRequest (memsOk_modRun h2 ..) ..
      · exact memsOk_fyRequest h2 ..
    · split
      · exact memsOk_homeParts ht ..
      · split
        · exact ht
        · exact memsOk_runScope (memsOk_modDir (memsOk_homeParts ht ..) ..) ..
  · exact ht
theorem memsOk_runAnswered {s : State} (h : s.memsOk) (who tag x) : (s.runAnswered who tag x).memsOk := by
  grind [State.runAnswered, memsOk_failRun, memsOk_runScope, memsOk_modRun]
theorem memsOk_storeGroup {s : State} (h : s.memsOk) (i r p js) : (s.storeGroup i r p js).memsOk := by
  unfold State.storeGroup
  extract_lets ps fin
  have hfin (x : State × Except TrRes Nat) (hx : x.1.memsOk) : (fin x).memsOk := by
    simp only [fin]
    split
    · exact memsOk_modRun hx ..
    · exact memsOk_failRun hx ..
    · exact hx
  clear_value fin
  split
  · split
    · refine hfin _ ?_
      refine memsOk_foldl _ (fun t q ht => ?_) _ h
      obtain ⟨hmem, hwst, hlsm, hhmem⟩ := ht
      exact ⟨hmem, wf_wrBytes hwst .., hlsm, hhmem⟩
    · exact h
  · split
    · refine hfin _ ?_
      exact memsOk_foldl _ (fun _ _ ht => memsOk_writeL ht ..) _ h
    · exact hfin _ (memsOk_storeLine h ..)
theorem memsOk_moveImage {s : State} (h : s.memsOk) (i k r p) : (s.moveImage i k r p).memsOk := by
  grind [State.moveImage, memsOk_readImage, memsOk_modRun, memsOk_failRun, memsOk_modCluster, memsOk_writeG]
theorem memsOk_performAccess {s : State} (h : s.memsOk) (i ks) : (s.performAccess i ks).memsOk := by
  grind [State.performAccess, memsOk_moveImage, memsOk_loadPart, memsOk_storeGroup]
theorem imagesOk_imagesAt {s : State} (h : s.memsOk) (m sp l) : ImagesOk (s.imagesAt m sp l) := by
  induction l generalizing s with
  | nil => exact h
  | cons p r ih =>
    unfold State.imagesAt
    extract_lets rest t
    have hrest (t : State) (x : Nat × List Byte) (ht : t.memsOk) : ImagesOk (rest t x) := by
      have hi := ih ht
      simp only [rest]
      split
      · rename_i heq
        rw [heq] at hi
        exact hi
      · exact hi
    split
    · repeat' (split; exact h)
      exact hrest _ _ h
    · have hr := memsOk_readImage h m.cl m.job p 0 .tileLoad 4 false
      split <;> rename_i heq <;> rw [heq] at hr
      · exact hrest _ _ hr
      · exact hr
      · exact hr
theorem cmdResOk_moveImages {s : State} (h : s.memsOk) (m ss ds src dst same tr) : CmdResOk (s.moveImages m ss ds src dst same tr) := by
  have hi := imagesOk_imagesAt h m ss src
  unfold State.moveImages
  split
  · exact h
  · split <;> rename_i heq <;> rw [heq] at hi
    · exact hi
    · exact hi
    · extract_lets shared plan out
      split
      · exact hi
      · split
        · exact memsOk_emptySlots hi ..
        · split
          · exact hi
          · exact cmdResOk_accept hi ..
theorem cmdResOk_withIndices {s : State} (h : s.memsOk) (m w2 w3) {run : State → List Int → CmdRes}
    (hr : ∀ t l, t.memsOk → CmdResOk (run t l)) : CmdResOk (withIndices s m w2 w3 run) := by
  have hc := memsOk_checkAll h m [⟨spaceOf w2, addrOf w2, wbits w3 31 0 * (if w3.getLsbD 34 then 8 else 4), .load⟩]
  unfold withIndices
  extract_lets n k
  split
  · exact h
  · split <;> rename_i heq <;> rw [heq] at hc
    · exact hc
    · exact hc
    · exact hr _ _ (memsOk_readS hc ..)
theorem cmdResOk_moveElems {s : State} (h : s.memsOk) (m w gather add) : CmdResOk (moveElems s m w gather add) := by
  refine cmdResOk_withIndices h _ _ _ (fun t l ht => ?_)
  dsimp only
  split
  · exact ht
  · exact cmdResOk_accept ht ..

/-! ### Collectives -/

theorem memsOk_addPart {s : State} (h : s.memsOk) (job ph g p) : (s.addPart job ph g p).memsOk := h
theorem memsOk_takePart {s : State} (h : s.memsOk) (job ph g off p) : (s.takePart job ph g off p).memsOk := by
  grind [State.takePart, memsOk_addPart, State.memsOk]
theorem memsOk_dropColl {s : State} (h : s.memsOk) (ph g) : (s.dropColl ph g).memsOk := h
theorem memsOk_refusePart {s : State} (h : s.memsOk) (p) : (s.refusePart p).memsOk := by
  grind [State.refusePart, memsOk_nack, State.memsOk]
theorem memsOk_refuseRound {s : State} (h : s.memsOk) (ph g) : (s.refuseRound ph g).memsOk := by
  grind [State.refuseRound, memsOk_refusePart, memsOk_dropColl, memsOk_foldl]
theorem memsOk_runCollective {s : State} (h : s.memsOk) (opc m) : (runCollective opc m s).memsOk := by
  refine memsOk_runCommand h _ _ _ (fun t im w ht => ?_)
  dsimp only
  split
  · exact ht
  · split
    · exact ht
    · split
      · exact memsOk_foldl _ (fun _ _ hs => memsOk_fySend hs ..) _ (memsOk_refuseRound ht ..)
      · repeat' (split; exact ht)
        rename_i ph l _ _ rank _ _ _ _ _ _
        have hc := memsOk_checkAll ht im ([⟨0, addrOf (w 2), collSrc opc (w 0) l.length rank * collSize (w 0), .load⟩,
          ⟨0, addrOf (w 1), collDst opc (w 0) l.length * collSize (w 0), .store⟩].filter (fun a => a.n != 0))
        split <;> rename_i heq <;> rw [heq] at hc
        · exact hc
        · exact hc
        · refine memsOk_foldl _ (fun _ _ hs => memsOk_fySend hs ..) _ (memsOk_addPart ?_ ..)
          split
          · exact hc
          · exact memsOk_readS hc ..
theorem memsOk_finishPart {s : State} (h : s.memsOk) (P ps p) : (s.finishPart P ps p).memsOk := by
  grind [State.finishPart, memsOk_checkAll, memsOk_failRun, memsOk_modRun, memsOk_writeRange]

/-! ### The matching store -/

theorem memsOk_enterQueue {s : State} (h : s.memsOk) (uid pos q tok) : (s.enterQueue uid pos q tok).memsOk := by
  grind [State.enterQueue, memsOk_useNow, memsOk_takeFault, memsOk_modUnit]
theorem memsOk_freeStubs {s : State} (h : s.memsOk) (uid) : (s.freeStubs uid).memsOk := by
  grind [State.freeStubs, memsOk_modUnit, memsOk_foldl]
theorem memsOk_moveToken {s : State} (h : s.memsOk) (uid f) : (s.moveToken uid f).memsOk := by
  unfold State.moveToken
  extract_lets u outs links packets used s1 s2
  have h1 : s1.memsOk := by
    refine memsOk_modCluster (memsOk_foldl _ (fun _ _ hs => memsOk_useNow hs ..) _ ?_) ..
    exact h
  have h2 : s2.memsOk := memsOk_foldl _ (fun _ _ hs => memsOk_enterQueue hs ..) _ h1
  split
  · exact memsOk_drainOut h2 ..
  · exact h2
theorem memsOk_settleStubs {s : State} (h : s.memsOk) (uid) : (s.settleStubs uid).memsOk := by
  grind [State.settleStubs, memsOk_drainOut, memsOk_freeStubs, memsOk_foldl]
theorem memsOk_stopUnit {s : State} (h : s.memsOk) (uid key t cause addr d0 d1) : (s.stopUnit uid key t cause addr d0 d1).memsOk := by
  grind [State.stopUnit, memsOk_escalate]
theorem memsOk_ovfAccess {s : State} (h : s.memsOk) (uid va n bs) : (s.ovfAccess uid va n bs).1.memsOk := by
  grind [State.ovfAccess, memsOk_translateReady, memsOk_readXa, memsOk_writeXa]
theorem memsOk_spill {s : State} (h : s.memsOk) (uid e) : (s.spill uid e).1.memsOk := by
  unfold State.spill
  extract_lets u key base
  have h1 := memsOk_ovfAccess h uid base 16 none
  split <;> rename_i heq <;> rw [heq] at h1
  · exact memsOk_stopUnit h1 ..
  · exact h1
  · rename_i s1 hb
    extract_lets count a
    have h2 := memsOk_ovfAccess h1 uid a 16 (some ((upFrom s1.freeCtr 16).map Config.freeByte))
    split
    · exact memsOk_stopUnit h1 ..
    · split <;> rename_i heq <;> rw [heq] at h2
      · exact memsOk_stopUnit h2 ..
      · exact h2
      · extract_lets s3 s4 s5
        have h3 : s3.memsOk := h2
        have h4 : s4.memsOk := memsOk_ovfAccess h3 ..
        exact memsOk_modCluster (memsOk_modUnit h4 ..) ..
theorem memsOk_makeWay {s : State} (h : s.memsOk) (uid e) : (s.makeWay uid e).1.memsOk := by
  grind [State.makeWay, memsOk_spill]
theorem memsOk_putMs {s : State} (h : s.memsOk) (uid e) : (s.putMs uid e).memsOk := h

/-! ### Flow rows -/

theorem memsOk_fireConstFree {s : State} (h : s.memsOk) (w uid key) : (fireConstFree w uid key s).memsOk := by
  grind [fireConstFree, memsOk_faultAt, memsOk_deliver, memsOk_fired, memsOk_modUnit]
theorem memsOk_useNode {s : State} (h : s.memsOk) (st) : (s.useNode st).memsOk := h
theorem memsOk_emitCntrSource {s : State} (h : s.memsOk) (w uid key) : (emitCntrSource w uid key s).memsOk := by
  grind [emitCntrSource, memsOk_faultAt, memsOk_deliver, memsOk_fired, memsOk_setNode]
theorem memsOk_fireMergeP {s : State} (h : s.memsOk) (w) : (fireMergeP w s).memsOk := by
  unfold fireMergeP
  split
  · exact h
  · rename_i uid key _
    have hs := memsOk_setUnit h uid ((s.unit uid).purge key)
    dsimp only
    split
    · exact hs
    · split
      · exact memsOk_faultAt hs ..
      · split
        · exact memsOk_faultAt hs ..
        · split
          · exact memsOk_faultAt hs ..
          · exact memsOk_faultAt hs ..
          · exact memsOk_faultAt hs ..
          · exact memsOk_deliver (memsOk_commitFiring hs ..) ..
theorem memsOk_fireMergeAny {s : State} (h : s.memsOk) (w) : (fireMergeAny w s).memsOk := by
  unfold fireMergeAny
  split
  · exact h
  · dsimp only
    split
    · exact h
    · split
      · exact memsOk_faultAt (memsOk_setUnit h ..) ..
      · split
        · exact memsOk_faultAt (memsOk_setUnit h ..) ..
        · exact memsOk_deliver (memsOk_commitFiring (memsOk_setUnit h ..) ..) ..
theorem memsOk_reopenColour {s : State} (h : s.memsOk) (uid k) : (s.reopenColour uid k).memsOk := by
  grind [State.reopenColour, memsOk_deliver, memsOk_setNode, memsOk_modUnit, memsOk_foldl]
theorem memsOk_commitColour {s : State} (h : s.memsOk) (uid k) : (s.commitColour uid k).memsOk := by
  grind [State.commitColour, memsOk_modUnit, memsOk_takeFault, memsOk_foldl]
theorem memsOk_killColour {s : State} (h : s.memsOk) (uid k) : (s.killColour uid k).memsOk := by
  grind [State.killColour, memsOk_modUnit, memsOk_resolveOut, memsOk_foldl]
theorem memsOk_fireDecision {s : State} (h : s.memsOk) (opc kind) {apply : State → Nat → Nat → State}
    (ha : ∀ t uid k, t.memsOk → (apply t uid k).memsOk) (w) : (fireDecision opc kind apply w s).memsOk := by
  have hp := firePrepOk_prepFire h opc w (fun u t => u.effCol t.col == 0#2) (fun _ => true)
  unfold fireDecision
  split <;> rename_i heq <;> rw [heq] at hp
  · exact hp
  · exact memsOk_faultAt hp ..
  · dsimp only
    split
    · exact memsOk_faultAt hp ..
    · exact memsOk_emit (memsOk_modUnit (ha _ _ _ (memsOk_commitFiring hp ..)) ..) ..
theorem memsOk_releaseGates {s : State} (h : s.memsOk) (uid) : (s.releaseGates uid).memsOk := by
  grind [State.releaseGates, memsOk_deliver, memsOk_setNode, memsOk_foldl]

/-! ### Tile tasks -/

theorem memsOk_refuseRecord {s : State} (h : s.memsOk) (uid va cause h done d1) : (s.refuseRecord uid va cause h done d1).memsOk := by
  grind [State.refuseRecord, memsOk_completionWord, memsOk_unitRecord]
theorem memsOk_submitRecord {s : State} (h : s.memsOk) (uid cl a) : (s.submitRecord uid cl a).1.memsOk := by
  unfold State.submitRecord
  have hp := memsOk_probe h cl (s.unit uid).job (probesOf (a.toNat % 2 ^ 56) 64 .load)
  extract_lets u va d
  split
  · exact h
  · split <;> rename_i heq <;> rw [heq] at hp
    · exact hp
    · exact hp
    · rename_i s1
      have hr := memsOk_readRange (s := s1) hp cl u.job va 64 .load
      extract_lets r w hd
      split
      · exact memsOk_refuseRecord hr ..
      · split
        · exact memsOk_refuseRecord hr ..
        · split
          · exact memsOk_sendSnoops hr ..
          · split
            · exact memsOk_refuseRecord hr ..
            · split
              · exact hr
              · split
                · exact memsOk_refuseRecord hr ..
                · split
                  · exact memsOk_refuseRecord hr ..
                  · extract_lets dflt ws
                    split
                    · exact memsOk_refuseRecord hr ..
                    · split
                      · exact hr
                      · have hg := memsOk_readG hr cl u.job ((w 1).toNat % 2 ^ 56) 8 .load 0
                        split <;> rename_i heq <;> rw [heq] at hg
                        · exact hg
                        · exact hg
                        · exact memsOk_modUnit (memsOk_modDie hg ..) ..
theorem memsOk_takeEngine {s : State} (h : s.memsOk) (cl) : (s.takeEngine cl).memsOk := h
theorem memsOk_taskTable {s : State} (h : s.memsOk) (cl job d4) : (s.taskTable cl job d4).1.memsOk := by
  grind [State.taskTable, memsOk_probe, memsOk_readRange]
theorem blockResOk_blockProducts {s : State} (h : s.memsOk) (eng cl job tab aAt bAt n k acc) :
    BlockResOk (s.blockProducts eng cl job tab aAt bAt n k acc).1 := by
  induction n generalizing s k acc with
  | zero => exact h
  | succ n ih =>
    unfold State.blockProducts
    extract_lets ran
    have hb := memsOk_readImage h cl job (bAt k) 0 .tileLoad 4 false
    split <;> rename_i heq <;> rw [heq] at hb
    · exact hb
    · exact hb
    · extract_lets slot s1
      have ha := memsOk_readImage (show s1.memsOk from memsOk_modCluster hb ..) cl job (aAt k) 0 .tileLoad 4 false
      split <;> rename_i heq <;> rw [heq] at ha
      · exact ha
      · exact ha
      · split
        · exact ha
        · split
          · exact ha
          · split
            · exact ha
            · exact ih ha ..
theorem blockResOk_runBlock {s : State} (h : s.memsOk) (t blk cl) : BlockResOk (s.runBlock t blk cl) := by
  unfold State.runBlock
  extract_lets nb i j w3 kb base out mode tag va
  have ht := memsOk_taskTable h t.cl t.job t.d4
  split <;> rename_i heq <;> rw [heq] at ht
  · exact ht
  · exact ht
  · rename_i tab
    extract_lets r
    have hr : BlockResOk r.1 := blockResOk_blockProducts ht ..
    split
    · rename_i heq
      rw [heq] at hr
      extract_lets s2 acc img
      have h2 : s2.memsOk := memsOk_modCluster hr ..
      split
      · exact h2
      · have hw := memsOk_writeG h2 (t.unit, t.id) t.cl t.job va (storedImage tag img.1) .tileStore 4
        split <;> rename_i heq <;> rw [heq] at hw
        · exact memsOk_count hw ..
        · exact hw
        · exact hw
    · exact hr
theorem memsOk_makeReady {s : State} (h : s.memsOk) (d job cnt) : (s.makeReady d job cnt).memsOk := h
theorem memsOk_taskRecord {s : State} (h : s.memsOk) (t f va) : (s.taskRecord t f va).memsOk := memsOk_writeRecord h ..
theorem memsOk_modTask {s : State} (h : s.memsOk) (d i f) : (s.modTask d i f).memsOk := h
theorem memsOk_decrement {s : State} (h : s.memsOk) (d i t cnt) : (s.decrement d i t cnt).memsOk := by
  unfold State.decrement
  extract_lets next counted
  have hnext (u : State) (hu : u.memsOk) : (next u).memsOk := memsOk_modTask hu ..
  have hcounted (u : State) (old mis) (hu : u.memsOk) : (counted u old mis).memsOk := by
    simp only [counted]
    refine hnext _ ?_
    split <;> split
    · exact memsOk_makeReady (memsOk_taskRecord hu ..) ..
    · exact memsOk_makeReady hu ..
    · exact memsOk_taskRecord hu ..
    · exact hu
  clear_value next counted
  split
  · split
    · refine hnext _ (memsOk_taskRecord ?_ ..)
      exact h
    · exact h
    · refine hcounted _ _ _ ?_
      exact h
  · split
    · exact hnext _ (memsOk_taskRecord h ..)
    · have ht := memsOk_translateReady h t.cl t.job cnt 8 .atomic 2
      split <;> rename_i heq <;> rw [heq] at ht
      · exact hnext _ (memsOk_taskRecord ht ..)
      · exact ht
      · split
        · refine memsOk_fyRequest ?_ ..
          exact ht
        · split
          · exact hnext _ (memsOk_taskRecord ht ..)
          · exact hcounted _ _ _ (memsOk_amoHome ht ..)
theorem memsOk_taskRead {s : State} (h : s.memsOk) (t va) : (s.taskRead t va).1.memsOk := by
  grind [State.taskRead, memsOk_readG]
theorem memsOk_finishTask {s : State} (h : s.memsOk) (d i t) : (s.finishTask d i t).memsOk := by
  unfold State.finishTask
  extract_lets gone st after va read
  have hgone (u : State) (hu : u.memsOk) : (gone u).memsOk := memsOk_modDie hu ..
  have hafter (u : State) (hu : u.memsOk) : (after u).memsOk := by
    simp only [after]
    split
    · exact hgone _ hu
    · exact memsOk_modTask hu ..
  have hread (u : State) (a : Nat) (go : State → Nat → State) (hu : u.memsOk) (hgo : ∀ u v, u.memsOk → (go u v).memsOk) :
      (read u a go).memsOk := by
    have hr := memsOk_taskRead hu t a
    simp only [read]
    split <;> rename_i heq <;> rw [heq] at hr
    · exact hgo _ _ hr
    · exact hgone _ (memsOk_taskRecord hr ..)
    · exact hr
  split
  · split
    · exact hafter _ h
    · have hw := memsOk_garnetWrite h t.job t.done.toNat 8 (t.ok * 2 ^ 32 + t.bad * 2 ^ 16 + st) .store t.released
      split <;> rename_i heq <;> rw [heq] at hw
      · exact hafter _ hw
      · exact hafter _ (memsOk_taskRecord hw ..)
      · exact hw
  · refine hread _ _ _ h (fun u n hu => ?_)
    split
    · exact hgone _ hu
    · exact hread _ _ _ hu (fun v a hv => hread _ _ _ hv (fun _ _ hw => memsOk_decrement hw ..))

/-! ### System rows -/

theorem memsOk_finishSend {s : State} (h : s.memsOk) (uid key g) {r : State × SendRes} (hr : r.1.memsOk) : (finishSend s uid key g r).memsOk := by
  unfold finishSend
  split
  · exact hr
  · exact memsOk_commitFiring hr ..
  · exact memsOk_faultAt h ..
theorem memsOk_haltJob {s : State} (h : s.memsOk) (job reason) : (s.haltJob job reason).memsOk := h

/-! ### Control words -/

theorem memsOk_nextWord {s : State} (h : s.memsOk) (uid) : (s.nextWord uid).memsOk := h
theorem memsOk_ctlFault {s : State} (h : s.memsOk) (uid cause addr d0 d1) : (s.ctlFault uid cause addr d0 d1).memsOk := memsOk_takeFault h ..
theorem memsOk_seqWord {s : State} (h : s.memsOk) (op c) {body : Nat → UnitSt → State} (hb : ∀ uid u, (body uid u).memsOk) :
    (seqWord op c s body).memsOk := by
  unfold seqWord
  split
  · exact h
  · split
    · exact h
    · split
      · exact memsOk_ctlFault h ..
      · exact hb _ _
theorem memsOk_seqCalc {s : State} (h : s.memsOk) (op c f) : (seqCalc op c s f).memsOk :=
  memsOk_seqWord h op c (fun uid _ => memsOk_modUnit h uid _)
theorem memsOk_seqAlu {s : State} (h : s.memsOk) (f c) : (seqAlu f c s).memsOk := memsOk_seqCalc h ..
theorem memsOk_seqImm {s : State} (h : s.memsOk) (op f c) : (seqImm op f c s).memsOk := memsOk_seqCalc h ..
theorem memsOk_seqBranch {s : State} (h : s.memsOk) (op p c) : (seqBranch op p c s).memsOk := by
  refine memsOk_seqWord h op c (fun uid u => ?_)
  split
  · exact memsOk_modUnit h ..
  · exact memsOk_nextWord h ..
theorem memsOk_settle {r : CtlMem} (h : CtlMemOk r) (uid u) {fin : State → Word → State} (hf : ∀ t v, t.memsOk → (fin t v).memsOk) :
    (r.settle uid u fin).memsOk := by
  cases r with
  | wait t => exact h
  | fault t c a d0 d1 => exact memsOk_ctlFault h ..
  | ok t v => exact memsOk_nextWord (hf t v h) ..
  | stop t v f => exact memsOk_takeFault (memsOk_modUnit h ..) ..
theorem memsOk_ctlAccess {s : State} (h : s.memsOk) (uid u va) {go : State → CtlMem} {fin : State → Word → State}
    {ans : State → Word × BitVec 16 × Option (Nat × Nat) → CtlMem} (hg : CtlMemOk (go s)) (hf : ∀ t v, t.memsOk → (fin t v).memsOk)
    (ha : ∀ t r, t.memsOk → CtlMemOk (ans t r)) : (ctlAccess s uid u va go fin ans).memsOk := by
  unfold ctlAccess
  split
  · exact memsOk_nextWord (hf _ _ (memsOk_modUnit h ..)) ..
  · dsimp only
    split
    · refine memsOk_settle ?_ _ _ hf
      exact h
    · exact h
    · refine memsOk_settle (ha _ _ ?_) _ _ hf
      exact h
  · exact memsOk_settle hg _ _ hf
theorem ctlMemOk_ctlTranslate {s : State} (h : s.memsOk) (u va n k acc) {cont : State → Nat → Nat → Nat → CtlMem}
    (hc : ∀ t xa mt sc, t.memsOk → CtlMemOk (cont t xa mt sc)) : CtlMemOk (ctlTranslate s u va n k acc cont) := by
  have ht := memsOk_translateReady h u.lead u.job va n k acc
  unfold ctlTranslate
  split
  · exact h
  · split <;> rename_i heq <;> rw [heq] at ht
    · exact hc _ _ _ _ ht
    · exact ht
    · exact ht
theorem ctlMemOk_ctlAsk {s : State} (h : s.memsOk) (uid u xa pl) : CtlMemOk (ctlAsk s uid u xa pl) := by
  have hq : ({ s with fyL2 := adel s.fyL2 (xa / 128) } : State).memsOk := h
  exact memsOk_modUnit (memsOk_fyRequest hq xa (uid, 0) pl) ..
theorem ctlMemOk_ctlReport {s : State} (h : s.memsOk) (uid u ea sc r v) : CtlMemOk (ctlReport s uid u ea sc r v) := by
  unfold ctlReport
  split
  · exact h
  · extract_lets f
    split
    · exact h
    · exact memsOk_unitRecord h ..
theorem ctlMemOk_ctlScope {s : State} (h : s.memsOk) (uid u e r v) : CtlMemOk (ctlScope s uid u e r v) :=
  ctlMemOk_ctlReport (memsOk_modDir h ..) ..
theorem ctlMemOk_ctlAnswer {s : State} (h : s.memsOk) (uid u ea r) : CtlMemOk (ctlAnswer uid u ea s r) := ctlMemOk_ctlReport h ..
theorem ctlMemOk_ctlSync {s : State} (h : s.memsOk) (uid u e release) : CtlMemOk (ctlSync s uid u e release) := by
  refine ctlMemOk_ctlTranslate h _ _ _ _ _ (fun t xa mt sc ht => ?_)
  extract_lets e1 r
  split
  · exact ht
  · split
    · exact ht
    · split
      · exact ctlMemOk_ctlAsk ht ..
      · split
        · exact memsOk_invRemote ht _
        · split
          · exact ht
          · exact ctlMemOk_ctlScope (memsOk_syncEffect ht ..) ..
theorem memsOk_nudge {s : State} (h : s.memsOk) (p what) : (s.nudge p what).memsOk := h
theorem memsOk_whenQuiet {s : State} (h : s.memsOk) (uid u) {k : State → State} (hk : ∀ t, t.memsOk → (k t).memsOk) : (whenQuiet s uid u k).memsOk :=
  by
  unfold whenQuiet
  split
  · exact hk _ (memsOk_modUnit h ..)
  · exact h
theorem memsOk_clearBank {s : State} (h : s.memsOk) (cl k) : (s.clearBank cl k).memsOk := by
  obtain ⟨h1, h2, h3, h4⟩ := h
  exact ⟨h1, h2, wf_clear h3 _ _, h4⟩
theorem memsOk_setRoles {s : State} (h : s.memsOk) (cl roles) : (s.setRoles cl roles).memsOk := by
  grind [State.setRoles, memsOk_clearBank, memsOk_flushL1, memsOk_modCluster, memsOk_foldl]
theorem memsOk_resize {s : State} (h : s.memsOk) (cl roles) : (s.resize cl roles).memsOk := h
theorem memsOk_ctlSent {r : State × SendRes} (h : r.1.memsOk) (uid) : (ctlSent uid r).memsOk := by
  unfold ctlSent
  split
  · exact h
  · exact memsOk_nextWord h ..
  · exact memsOk_ctlFault h ..

/-! ### Integer rows -/

theorem memsOk_fireUnassigned {s : State} (h : s.memsOk) (w) : (fireUnassigned w s).memsOk := by
  grind [fireUnassigned, memsOk_setUnit, memsOk_faultAt]

/-! ### Tile rows -/

theorem memsOk_fireMatrix {s : State} (h : s.memsOk) (opc slot cim w) : (fireMatrix opc slot cim w s).memsOk := by
  have hp := firePrepOk_prepFireT h opc w
  unfold fireMatrix
  split <;> rename_i heq <;> rw [heq] at hp
  · exact hp
  · exact memsOk_faultAt hp ..
  · dsimp only
    split
    · exact memsOk_faultAt hp ..
    · exact memsOk_modCluster (memsOk_modUnit (memsOk_commitFiring hp ..) ..) ..
theorem memsOk_fireMemT {s : State} (h : s.memsOk) (opc op check ea n c w) : (fireMemT opc op check ea n c w s).memsOk := by
  have hp := firePrepOk_prepFireT h opc w
  unfold fireMemT
  split <;> rename_i heq <;> rw [heq] at hp
  · exact hp
  · exact memsOk_faultAt hp ..
  · dsimp only
    split
    · exact hp
    · split
      · exact memsOk_faultAt hp ..
      · split
        · exact memsOk_faultAt hp ..
        · exact memsOk_enterBuffer hp ..

/-! ### Images -/

theorem memsOk_fetchCuts {s : State} (h : s.memsOk) (cl job l) : (s.fetchCuts cl job l).1.memsOk := by
  induction l generalizing s with
  | nil => exact h
  | cons p r ih =>
    have hr := memsOk_readG h cl job p.1 p.2 .fetch 3
    unfold State.fetchCuts
    split <;> rename_i heq <;> rw [heq] at hr
    · have hn := ih hr
      split
      · rename_i heq
        rw [heq] at hn
        exact hn
      · exact hn
    · exact hr
    · exact hr
theorem memsOk_fetchBytes {s : State} (h : s.memsOk) (cl job va n) : (s.fetchBytes cl job va n).1.memsOk := memsOk_fetchCuts h ..
theorem memsOk_fetchColumns {s : State} (h : s.memsOk) (cl job va len size dict l pos) : (s.fetchColumns cl job va len size dict l pos).1.memsOk := by
  induction l generalizing s pos with
  | nil => exact h
  | cons p rest ih =>
    have h1 := memsOk_fetchBytes h cl job (va + pos) 2
    unfold State.fetchColumns
    split
    · exact h
    · split <;> rename_i heq <;> rw [heq] at h1
      · exact h1
      · rename_i c
        have h2 := memsOk_fetchBytes h1 cl job (va + pos + 2) (leNat c)
        dsimp only
        split
        · exact h1
        · split <;> rename_i heq <;> rw [heq] at h2
          · exact h2
          · split
            · exact h2
            · have h3 := ih h2 (pos + 2 + leNat c)
              split
              · rename_i heq
                rw [heq] at h3
                exact h3
              · exact h3
theorem memsOk_loadImage {s : State} (h : s.memsOk) (u va) : (s.loadImage u va).1.memsOk := by
  unfold State.loadImage
  split
  · exact h
  · have h1 := memsOk_fetchBytes h u.lead u.job va 32
    split <;> rename_i heq <;> rw [heq] at h1
    · exact h1
    · extract_lets f len dsize cols tile
      repeat' (split; exact h1)
      have h2 := memsOk_fetchBytes h1 u.lead u.job (va + 32) (4 * dsize)
      split <;> rename_i heq <;> rw [heq] at h2
      · exact h2
      · rename_i bs
        have h3 := memsOk_fetchColumns h2 u.lead u.job va len u.size (unpackCodes 32 dsize (leNat bs)) cols (32 + 4 * dsize)
        split <;> rename_i heq <;> rw [heq] at h3
        · exact h3
        · split <;> exact h3
theorem memsOk_endFaulted {s : State} (h : s.memsOk) (uid cause addr d0 d1) : (s.endFaulted uid cause addr d0 d1).memsOk :=
  memsOk_endUnit (memsOk_unitRecord h ..) ..
theorem memsOk_endStranded {s : State} (h : s.memsOk) (uid) : (s.endStranded uid).memsOk := by
  grind [State.endStranded, memsOk_modCluster, memsOk_endFaulted]

/-! ### Migration -/

theorem memsOk_startMigration {s : State} (h : s.memsOk) (uid st dest words) : (s.startMigration uid st dest words).memsOk := by
  grind [State.startMigration, memsOk_modCluster, memsOk_setUnit, memsOk_settleStubs, memsOk_count]

/-! ### Scheduling and the end of levels -/

theorem memsOk_giveUpPlace {s : State} (h : s.memsOk) (uid) : (s.giveUpPlace uid).memsOk := h
theorem memsOk_prepareCluster {s : State} (h : s.memsOk) (cl job) : (s.prepareCluster cl job).memsOk := by
  unfold State.prepareCluster
  split
  · exact h
  · obtain ⟨hmem, hwst, hlsm, hhmem⟩ := memsOk_flushL1 h cl
    exact ⟨hmem, hwst, wf_clear hlsm .., hhmem⟩
theorem memsOk_takeRegion {s : State} (h : s.memsOk) (r uid die b ctx f) : (s.takeRegion r uid die b ctx f).memsOk := by
  unfold State.takeRegion
  extract_lets cls what s0 s1
  have h0 : s0.memsOk := memsOk_foldl _ (fun _ _ ht => memsOk_modPhase ht ..) _ (memsOk_journal h _)
  have h1 : s1.memsOk := memsOk_foldl _ (fun _ _ ht => memsOk_prepareCluster ht ..) _ h0
  exact h1
theorem memsOk_rebindColl {s : State} (h : s.memsOk) (u lead ctx) : (s.rebindColl u lead ctx).memsOk := h
theorem memsOk_newUnit {s : State} (h : s.memsOk) (r i) : (s.newUnit r i).memsOk := h
theorem memsOk_requestPreempt {s : State} (h : s.memsOk) (uid recorded) : (s.requestPreempt uid recorded).memsOk := by
  grind [State.requestPreempt, memsOk_unitRecord, memsOk_modUnit, memsOk_count, memsOk_liftHalts, memsOk_journal, memsOk_giveUpPlace]
theorem memsOk_chargeQuantum {s : State} (h : s.memsOk) (u) : (s.chargeQuantum u).memsOk := by
  grind [State.chargeQuantum, memsOk_modDie]

/-! ### Units and regions -/

theorem memsOk_imageFailed {s : State} (h : s.memsOk) (uid f) : (s.imageFailed uid f).memsOk := by
  cases f with
  | reject k => exact memsOk_endFaulted h ..
  | fetch k a d0 d1 =>
    simp only [State.imageFailed]
    split
    · exact memsOk_endFaulted h ..
    · exact memsOk_endFaulted h ..
  | wait => exact h
theorem memsOk_startSequencer {s : State} (h : s.memsOk) (uid f) : (s.startSequencer uid f).memsOk := h
theorem memsOk_writeHeader {s : State} (h : s.memsOk) (u d) : (s.writeHeader u d).1.memsOk := by
  grind [State.writeHeader, memsOk_translateReady, memsOk_writeXa]
theorem memsOk_leavePool {s : State} (h : s.memsOk) (inst node nunit) : (s.leavePool inst node nunit).memsOk := by
  grind [State.leavePool, memsOk_modInst]
theorem memsOk_awaitImage {s t : State} (h : s.memsOk) {u va} (ht : s.awaitImage u va = some t) : t.memsOk := by
  have hl := memsOk_loadImage h u va
  unfold State.awaitImage at ht
  split at ht
  · rename_i heq
    rw [heq] at hl
    cases ht
    exact hl
  · cases ht
theorem memsOk_startUnit {s : State} (h : s.memsOk) (uid u d) : (s.startUnit uid u d).memsOk := by
  grind [State.startUnit, memsOk_setUnit, memsOk_modCluster, memsOk_startSequencer, memsOk_loadImage, memsOk_endStranded, memsOk_imageFailed,
    memsOk_foldl]
theorem memsOk_restoreCluster {s : State} (h : s.memsOk) (uid cl e) : (s.restoreCluster uid cl e).memsOk := h
theorem memsOk_returnWork {s : State} (h : s.memsOk) (u) : (s.returnWork u).memsOk := by
  unfold State.returnWork
  extract_lets s1 s2
  have h1 : s1.memsOk := memsOk_foldl _ (fun _ _ ht => memsOk_setInbox ht ..) _ h
  have h2 : s2.memsOk := memsOk_foldl _ (fun _ _ ht => memsOk_modCluster ht ..) _ h1
  exact h2
theorem memsOk_returnReplies {s : State} (h : s.memsOk) (uid) : (s.returnReplies uid).memsOk := h
theorem memsOk_returnHalts {s : State} (h : s.memsOk) (u) : (s.returnHalts u).memsOk := by
  grind [State.returnHalts, memsOk_modJob]
theorem memsOk_returnMs {s : State} (h : s.memsOk) (uid es) : (s.returnMs uid es).memsOk := by
  grind [State.returnMs, memsOk_makeWay, memsOk_putMs, memsOk_modUnit, memsOk_foldl]
theorem memsOk_emptyCim {s : State} (h : s.memsOk) (cl) : (s.emptyCim cl).memsOk := h
theorem memsOk_takePending {s : State} (h : s.memsOk) (uid) : (s.takePending uid).memsOk := by
  grind [State.takePending, memsOk_takeFault, memsOk_modUnit]

/-! ### Saving and restoring a unit -/

theorem memsOk_writeArea {s : State} (h : s.memsOk) (base len l) : (s.writeArea base len l).memsOk := by
  obtain ⟨hmem, hwst, hlsm, hhmem⟩ := h
  exact memsOk_foldl _ (fun _ _ ht => memsOk_devWrite ht ..) _ ⟨wf_clear hmem .., hwst, hlsm, hhmem⟩
theorem memsOk_freeRegion {s : State} (h : s.memsOk) (uid u) : (s.freeRegion uid u).memsOk := by
  unfold State.freeRegion
  extract_lets s1
  have h1 : s1.memsOk := memsOk_foldl _ (fun _ _ ht => memsOk_modCluster ht ..) _ h
  exact h1
theorem memsOk_saveUnit {s : State} (h : s.memsOk) (uid stop) : (s.saveUnit uid stop).memsOk := by
  unfold State.saveUnit
  refine memsOk_modUnit (memsOk_freeRegion (memsOk_writeArea ?_ ..) ..) ..
  exact h

/-! ### Graph instances and phases -/

theorem memsOk_setNodes {s : State} (h : s.memsOk) (i ns f) : (s.setNodes i ns f).memsOk := h
theorem memsOk_endBody {s : State} (h : s.memsOk) (inst n status) : (s.endBody inst n status).memsOk := h
theorem memsOk_endUnrun {s : State} (h : s.memsOk) (inst n status bodyStatus) : (s.endUnrun inst n status bodyStatus).memsOk :=
  memsOk_endNode (memsOk_endBody h ..) ..
theorem memsOk_nodeRecord {s : State} (h : s.memsOk) (inst d cause addr d0 d1) : (s.nodeRecord inst d cause addr d0 d1).memsOk :=
  memsOk_writeRecord h ..
theorem memsOk_readCond {s : State} (h : s.memsOk) (inst d) : (s.readCond inst d).1.memsOk := by
  grind [State.readCond, memsOk_readG]
theorem memsOk_condFault {s : State} (h : s.memsOk) (inst n d f) : (s.condFault inst n d f).memsOk := memsOk_endUnrun (memsOk_nodeRecord h ..) ..
theorem memsOk_admitNode {s : State} (h : s.memsOk) (inst n depth) : (s.admitNode inst n depth).memsOk := by
  grind [State.admitNode, memsOk_setNodes, memsOk_journal]
theorem memsOk_runNode {s : State} (h : s.memsOk) (inst n) : (s.runNode inst n).memsOk :=
  memsOk_settleInst (memsOk_settleParents (memsOk_setNodes h ..) ..) ..
theorem memsOk_decideNode {s : State} (h : s.memsOk) (inst n d v) : (s.decideNode inst n d v).memsOk := by
  grind [State.decideNode, memsOk_endUnrun, memsOk_runNode, memsOk_setNodes, memsOk_endBody, memsOk_foldl]
theorem memsOk_evaluate {s : State} (h : s.memsOk) (inst n d) : (s.evaluate inst n d).memsOk := by
  grind [State.evaluate, memsOk_admitNode, memsOk_runNode, memsOk_readCond, memsOk_condFault, memsOk_decideNode]
theorem memsOk_eligibleNode {s : State} (h : s.memsOk) (inst n d) : (s.eligibleNode inst n d).memsOk := by
  grind [State.eligibleNode, memsOk_endUnrun, memsOk_nodeRecord, memsOk_readCond, memsOk_condFault, memsOk_setNodes, memsOk_evaluate]
theorem memsOk_nextPass {s : State} (h : s.memsOk) (inst n d) : (s.nextPass inst n d).memsOk := by
  grind [State.nextPass, memsOk_readCond, memsOk_condFault, memsOk_setNodes, memsOk_endNode]
theorem memsOk_evalNode {s : State} (h : s.memsOk) (inst n) : (s.evalNode inst n).memsOk := by
  grind [State.evalNode, memsOk_endUnrun, memsOk_eligibleNode, memsOk_journal, memsOk_setNodes, memsOk_nextPass]
theorem memsOk_enterRun {s : State} (h : s.memsOk) (p) : (s.enterRun p).memsOk := by
  grind [State.enterRun, memsOk_modPhase, memsOk_journal, memsOk_modDie, memsOk_foldl]
theorem memsOk_groupsWait {s t : State} (h : s.memsOk) {job table} (ht : s.groupsWait job table = some t) : t.memsOk := by
  rcases Option.or_eq_some_iff.1 ht with hr | ⟨-, hr⟩
  · exact memsOk_rangeWaits h hr
  · obtain ⟨g, -, hg⟩ := List.exists_of_findSome?_eq_some hr
    exact memsOk_rangeWaits h hg
theorem memsOk_releaseDies {s : State} (h : s.memsOk) (job) : (s.releaseDies job).memsOk := h

/-! ### Queue entries -/

theorem memsOk_foreignW1 {s : State} (h : s.memsOk) (q) : (s.foreignW1 q).memsOk := memsOk_devRecord (memsOk_modQueue h ..) ..
theorem memsOk_refuseEntry {s : State} (h : s.memsOk) (q job cause e addr d0 d1) : (s.refuseEntry q job cause e addr d0 d1).memsOk :=
  memsOk_writeRecord (memsOk_journal h ..) ..
theorem memsOk_threadEntry {s : State} (h : s.memsOk) (kind) {body : State → Nat → Nat → List Byte → EntryRes}
    (hb : ∀ q job e, EntryResOk (body s q job e)) : (threadEntry kind s body).memsOk := by
  refine memsOk_thread h ?_
  extract_lets qi q drop
  split
  · rename_i job e rest _ _
    have hdrop (t : State) (ht : t.memsOk) : (drop t).memsOk := memsOk_modQueue ht ..
    split
    · exact h
    · split
      · exact hdrop _ (memsOk_refuseEntry h ..)
      · split
        · have hr := hb qi job e
          split <;> rename_i heq <;> rw [heq] at hr
          · exact hr
          · exact memsOk_modQueue (memsOk_journal (hdrop _ hr) _) ..
        · split
          · exact hdrop _ h
          · exact hdrop _ (memsOk_refuseEntry h ..)
  · exact h
theorem memsOk_tablePatches {s : State} (h : s.memsOk) (job a n) : (s.tablePatches job a n).1.memsOk := by
  induction n generalizing s a with
  | zero => exact h
  | succ n ih =>
    have hr := memsOk_readWords h 0 job a 2
    unfold State.tablePatches
    split <;> rename_i heq <;> rw [heq] at hr
    · have hn := ih hr (a + 16)
      split
      · rename_i heq
        rw [heq] at hn
        exact hn
      · exact hn
    · exact hr
    · exact hr
    · exact hr
theorem memsOk_kickPatches {s : State} (h : s.memsOk) (job e) : (s.kickPatches job e).1.memsOk := by
  grind [State.kickPatches, memsOk_readWords, memsOk_tablePatches]
theorem memsOk_writePatches {s : State} (h : s.memsOk) (job l) : (s.writePatches job l).1.memsOk := by
  unfold State.writePatches
  split
  · rename_i heq
    obtain ⟨v, -, hv⟩ := List.exists_of_findSome?_eq_some heq
    have ht := memsOk_translateReady h job 0 v.1 v.2.1 .patch 4
    grind [memsOk_translateReady]
  · exact memsOk_foldl _ (fun _ _ ht => memsOk_garnetWrite ht ..) _ h
theorem memsOk_createInstance {s : State} (h : s.memsOk) (q job o e taken) : (s.createInstance q job o e taken).memsOk := h
theorem memsOk_cancelPrevious {s : State} (h : s.memsOk) (q job) : (s.cancelPrevious q job).memsOk := by
  grind [State.cancelPrevious, memsOk_cancelInst, memsOk_cancelRecord, memsOk_foldl]
theorem entryResOk_takeKick {s : State} (h : s.memsOk) (q job e o) : EntryResOk (s.takeKick q job e o) := by
  have hk := memsOk_kickPatches h job e
  unfold State.takeKick
  split <;> rename_i heq <;> rw [heq] at hk
  · exact hk
  · exact memsOk_refuseEntry hk ..
  · extract_lets base uses s2 vs
    have h2 : s2.memsOk := by
      simp only [s2]
      split
      · exact memsOk_cancelPrevious hk ..
      · exact hk
    split
    · exact memsOk_refuseEntry hk ..
    · split
      · exact memsOk_createInstance h2 ..
      · split
        · exact memsOk_modQueue h2 ..
        · have hw := memsOk_writePatches h2 job vs
          split <;> rename_i heq <;> rw [heq] at hw
          · exact memsOk_createInstance hw ..
          · exact hw
theorem memsOk_readWait {s : State} (h : s.memsOk) (job e) : (s.readWait job e).1.memsOk := by
  grind [State.readWait, memsOk_readG]
theorem memsOk_pollWait {s : State} (h : s.memsOk) (q job) : (s.pollWait q job).memsOk := by
  grind [State.pollWait, memsOk_modQueue, memsOk_readWait, memsOk_writeRecord]
theorem memsOk_targetsWait {s t : State} (h : s.memsOk) {job base} (ht : s.targetsWait job base = some t) : t.memsOk := by
  obtain ⟨g, -, hg⟩ := List.exists_of_findSome?_eq_some ht
  grind [memsOk_sendSnoops]
theorem memsOk_resultWord {s : State} (h : s.memsOk) (q job e v) : (s.resultWord q job e v).memsOk := by
  have hw := memsOk_garnetWrite h job (efield e 16 8 % 2 ^ 56) 8 v .store (fun s sc => s.levelReleased job sc)
  unfold State.resultWord
  split <;> rename_i heq <;> rw [heq] at hw
  · exact memsOk_refuseEntry hw ..
  · exact hw
theorem memsOk_resultWaits {s t : State} (h : s.memsOk) {job e} (ht : s.resultWaits job e = some t) : t.memsOk := by
  have hw := memsOk_garnetWrite h job (efield e 16 8 % 2 ^ 56) 8 0 .store (fun s sc => s.levelReleased job sc)
  unfold State.resultWaits at ht
  split at ht
  · rename_i heq
    rw [heq] at hw
    cases ht
    exact hw
  · cases ht
theorem memsOk_unregister {s : State} (h : s.memsOk) (q job e) : (s.unregister q job e).memsOk := by
  unfold State.unregister
  extract_lets held
  have hheld (t : State) (ht : t.memsOk) : (held t).memsOk := memsOk_modQueue ht ..
  split
  · exact hheld _ h
  · split
    · exact hheld _ (memsOk_resultWaits h ‹_›)
    · split
      · exact memsOk_resultWord (memsOk_modQueue h ..) ..
      · refine memsOk_resultWord (memsOk_modQueue ?_ ..) ..
        exact h
theorem memsOk_dropJob {s : State} (h : s.memsOk) (j) : (s.dropJob j).memsOk := h

/-! ### Garnet and Spinel -/

theorem memsOk_modFw {s : State} (h : s.memsOk) (f) : (s.modFw f).memsOk := h
theorem memsOk_abortHandover {s : State} (h : s.memsOk) : s.abortHandover.memsOk := memsOk_devRecord (memsOk_modFw h ..) ..
theorem memsOk_commitPoint {s : State} (h : s.memsOk) : s.commitPoint.memsOk := h
theorem memsOk_replay {s : State} (h : s.memsOk) : s.replay.memsOk := by
  grind [State.replay, memsOk_modFw]

/-! ### Registers -/

theorem memsOk_modW2 {s : State} (h : s.memsOk) (f) : (s.modW2 f).memsOk := h
theorem memsOk_foreign {s : State} (h : s.memsOk) : s.foreign.memsOk := memsOk_devRecord h ..
theorem memsOk_ownedWrite {s : State} (h : s.memsOk) {body : State → State} (hb : (body s).memsOk) : (ownedWrite s body).memsOk := by
  unfold ownedWrite
  split
  · exact hb
  · exact memsOk_foreign h
theorem memsOk_resumeNow {s : State} (h : s.memsOk) (uid) : (s.resumeNow uid).memsOk := by
  grind [State.resumeNow, memsOk_retryHeld, memsOk_modUnit, memsOk_takeFault]
theorem memsOk_resumeUnit {s : State} (h : s.memsOk) (uid) : (s.resumeUnit uid).memsOk := by
  grind [State.resumeUnit, memsOk_modUnit, memsOk_resumeNow]
theorem memsOk_resumeOwed {s : State} (h : s.memsOk) : s.resumeOwed.memsOk := by
  grind [State.resumeOwed, memsOk_resumeNow]
theorem memsOk_ucmd {s : State} (h : s.memsOk) (act) {body : State → Nat → State} (hb : ∀ t uid, t.memsOk → (body t uid).memsOk) :
    (ucmd act s body).memsOk := by
  unfold ucmd
  extract_lets v job s1
  have h1 : s1.memsOk := memsOk_modW2 h _
  split
  · exact h
  · split
    · exact memsOk_foreign h
    · split
      · exact memsOk_modW2 h1 _
      · exact hb _ _ (memsOk_modW2 h1 _)
theorem memsOk_dbgctl {s : State} (h : s.memsOk) (act) {body : State → Nat → Nat → Nat → Nat → Bool → State}
    (hb : ∀ t job cl x y w, t.memsOk → (body t job cl x y w).memsOk) : (dbgctl act s body).memsOk := by
  unfold dbgctl
  extract_lets v job s1
  split
  · exact h
  · split
    · exact memsOk_foreign h
    · exact hb _ _ _ _ _ _ (memsOk_modW2 h _)
theorem memsOk_modJobCluster {s : State} (h : s.memsOk) (job cl f) : (s.modJobCluster job cl f).memsOk := h
theorem memsOk_writeAttctl {s : State} (h : s.memsOk) (v) : (s.writeAttctl v).memsOk := by
  grind [State.writeAttctl, memsOk_modFw]
theorem memsOk_attGo {s : State} (h : s.memsOk) (kind) : (attGo kind s).memsOk := by
  unfold attGo
  split
  · exact h
  · exact memsOk_ownedWrite h (memsOk_writeAttctl h _)
theorem memsOk_attSampled {s : State} (h : s.memsOk) : s.attSampled.memsOk := by
  grind [State.attSampled, memsOk_modFw, State.memsOk]
theorem memsOk_writeRing {s : State} (h : s.memsOk) (q reg v) : (s.writeRing q reg v).memsOk := by
  grind [State.writeRing, memsOk_foreign, State.memsOk]

/-! ### Hosts and the fabric port -/

theorem memsOk_toHost {s : State} (h : s.memsOk) (host pa bs) : (s.toHost host pa bs).memsOk := h
theorem memsOk_unassigned {s : State} (h : s.memsOk) (pa) : (s.unassigned pa).memsOk := memsOk_writeRecord h ..
theorem memsOk_sendBisnp {s : State} (h : s.memsOk) (line host half inv) : (s.sendBisnp line host half inv).memsOk := h
theorem memsOk_hostRequest {s : State} (h : s.memsOk) {refused : State → State} {body : State → Nat → Nat → Nat → DirEntry → State}
    (hr : ∀ t, t.memsOk → (refused t).memsOk) (hb : ∀ pa line hf d, (body s pa line hf d).memsOk) : (hostRequest s refused body).memsOk := by
  unfold hostRequest
  extract_lets pa line
  split
  · exact h
  · split
    · exact hr _ (memsOk_unassigned h _)
    · split
      · exact h
      · exact hb ..
theorem memsOk_answerHost {s : State} (h : s.memsOk) (host pa) : (s.answerHost host pa).memsOk := by
  grind [State.answerHost, memsOk_toHost, memsOk_writeRecord]
theorem memsOk_hostWrite {s : State} (h : s.memsOk) (pa bs) : (s.hostWrite pa bs).memsOk := memsOk_homeWrite h ..
theorem memsOk_hostGrant {s : State} (h : s.memsOk) (half st) : (s.hostGrant half st).memsOk := by
  grind [State.hostGrant, State.memsOk]
theorem memsOk_hostOwnWrite {s : State} (h : s.memsOk) (pa bs) : (s.hostOwnWrite pa bs).memsOk := by
  grind [State.hostOwnWrite, memsOk_hostWrite]
theorem memsOk_programDecoder {s : State} (h : s.memsOk) (host region base) : (s.programDecoder host region base).memsOk := by
  cases base with
  | none => exact h
  | some b =>
    simp only [State.programDecoder]
    split <;> exact h
theorem memsOk_assignRegion {s : State} (h : s.memsOk) (region code) : (s.assignRegion region code).memsOk := by
  grind [State.assignRegion, State.memsOk]
theorem memsOk_barWrite {s : State} (h : s.memsOk) (host k v) : (s.barWrite host k v).memsOk := h
theorem memsOk_busRead {s : State} (h : s.memsOk) (host addr) : (s.busRead host addr).memsOk := by
  grind [State.busRead, memsOk_toHost]
theorem memsOk_beginTraining {s : State} (h : s.memsOk) (port) : (s.beginTraining port).memsOk := by
  grind [State.beginTraining, State.memsOk]

/-! ### Power, attestation and debug -/

theorem memsOk_dropPacket {s : State} (h : s.memsOk) (port) : (s.dropPacket port).memsOk := h
theorem memsOk_fabricDone {s : State} (h : s.memsOk) (uid e value seqTag r) : (s.fabricDone uid e value seqTag r).memsOk := by
  unfold State.fabricDone
  extract_lets ok v s1 sync
  have hsync : sync.memsOk := by
    refine memsOk_scopeReport ?_ ..
    exact h
  split
  · exact memsOk_loadDone h ..
  · exact memsOk_retire (memsOk_modUnit h ..) ..
  · exact memsOk_retire (memsOk_modUnit h ..) ..
  iterate 5 exact hsync
  exact h
theorem memsOk_takeResponse {s : State} (h : s.memsOk) (tag value seqTag bs r more) : (s.takeResponse tag value seqTag bs r more).memsOk := by
  unfold State.takeResponse
  split
  · exact h
  · extract_lets s1 v
    have h1 : s1.memsOk := h
    split
    · split
      · exact memsOk_roundAnswered h1 ..
      · exact h1
    · split
      · exact h1
      · split
        · split
          · exact memsOk_fabricDone h1 ..
          · exact h1
        · exact memsOk_runAnswered h1 ..
theorem memsOk_takeFailure {s : State} (h : s.memsOk) (dev tag line) : (s.takeFailure dev tag line).memsOk := by
  grind [State.takeFailure, memsOk_roundAnswered, memsOk_sbFault, memsOk_runAnswered, State.memsOk]
theorem memsOk_respond {s : State} (h : s.memsOk) (p pl) : (s.respond p pl).memsOk := memsOk_fySend h ..
theorem memsOk_ackWrite {s : State} (h : s.memsOk) (p pa n value r tag) : (s.ackWrite p pa n value r tag).memsOk := by
  grind [State.ackWrite, memsOk_respond, State.memsOk]
theorem memsOk_remoteSync {s : State} (h : s.memsOk) (p pa n op scope v c tag) : (s.remoteSync p pa n op scope v c tag).memsOk := by
  unfold State.remoteSync
  extract_lets r took old x
  have htook (t : State) (ht : t.memsOk) : (took t).memsOk := memsOk_modDir ht ..
  split
  · exact memsOk_respond (htook _ (memsOk_homeRead h ..)) ..
  · exact memsOk_ackWrite (htook _ (memsOk_homeWrite h ..)) ..
  · exact memsOk_ackWrite (htook _ (memsOk_homeWrite h ..)) ..
  · refine memsOk_ackWrite (htook _ ?_) ..
    split
    · exact memsOk_homeWrite h ..
    · exact memsOk_recall h ..
  · exact memsOk_ackWrite (htook _ (memsOk_recall h ..)) ..
  · exact memsOk_ackWrite (htook _ (memsOk_homeWrite h ..)) ..
  · exact memsOk_ackWrite (htook _ (memsOk_homeParts h ..)) ..
theorem memsOk_serve {s : State} (h : s.memsOk) (p) : (s.serve p).memsOk := by
  grind [State.serve, memsOk_homeRead, memsOk_modDir, memsOk_respond, memsOk_ackWrite, memsOk_homeWrite, memsOk_homeParts, memsOk_remoteSync]
theorem memsOk_takeRequest {s : State} (h : s.memsOk) (p) : (s.takeRequest p).memsOk := by
  unfold State.takeRequest
  extract_lets later
  have hlater (t : State) (ht : t.memsOk) : (later t).memsOk := ht
  split
  · exact h
  · split
    · exact hlater _ h
    · split
      · exact hlater _ (memsOk_sendSnoops h ..)
      · split
        · exact hlater _ (memsOk_foldl _ (fun _ _ ht => memsOk_invRemote ht _) _ h)
        · split
          · exact hlater _ h
          · split
            · exact memsOk_respond h ..
            · exact memsOk_serve h _
theorem memsOk_settleOwed {s : State} (h : s.memsOk) : s.settleOwed.memsOk :=
  memsOk_foldl _ (fun _ _ ht => memsOk_fySend ht ..) _ h
theorem memsOk_remotePart {s : State} (h : s.memsOk) (inst grp part) : (s.remotePart inst grp part).memsOk := by
  grind [State.remotePart, State.memsOk]
theorem memsOk_takeWrite {s : State} (h : s.memsOk) (p pa bs last tag) : (s.takeWrite p pa bs last tag).memsOk := by
  grind [State.takeWrite, memsOk_takeRequest, State.memsOk]
theorem memsOk_acceptPacket {s : State} (h : s.memsOk) (p) : (s.acceptPacket p).memsOk := by
  unfold State.acceptPacket
  split
  · exact memsOk_takeWrite h ..
  · exact memsOk_takeResponse h ..
  · exact memsOk_takeFailure h ..
  · exact h
  · refine memsOk_fySend ?_ ..
    exact h
  · exact memsOk_settleOwed (memsOk_modDir h ..)
  · split
    · split
      · exact memsOk_takePart h ..
      · exact memsOk_refuseRound h ..
    · exact h
  · exact memsOk_remotePart h ..
  · exact h
  · exact memsOk_takeRequest h _
theorem memsOk_retryRecord {s : State} (h : s.memsOk) (ring bs tag lines) : (s.retryRecord ring bs tag lines).memsOk := by
  grind [State.retryRecord, memsOk_sendSnoops, memsOk_putRecord, State.memsOk]
theorem memsOk_retryDev {s : State} (h : s.memsOk) : s.retryDev.memsOk := by
  refine memsOk_foldl _ (fun t o ht => ?_) _ ?_
  · cases o with
    | word job va v launch kseq => exact memsOk_putWord ht ..
    | record ring bs tag lines => exact memsOk_retryRecord ht ..
    | area pa bs => exact memsOk_writeAreaBytes ht ..
    | packet p => exact memsOk_takeRequest ht _
  · exact h

/-! ### Repair and reset -/

theorem memsOk_modPow {s : State} (h : s.memsOk) (f) : (s.modPow f).memsOk := h
theorem memsOk_measured {s : State} (h : s.memsOk) : s.measured.memsOk := h
theorem memsOk_raiseAlarm {s : State} (h : s.memsOk) : s.raiseAlarm.memsOk := by
  grind [State.raiseAlarm, memsOk_modPow]
theorem memsOk_spareRecord {s : State} (h : s.memsOk) (addr) : (s.spareRecord addr).memsOk := memsOk_writeRecord h ..
theorem memsOk_modFleet {s : State} (h : s.memsOk) (f) : (s.modFleet f).memsOk := h
theorem memsOk_failPe {s : State} (h : s.memsOk) (cl x y) : (s.failPe cl x y).memsOk := by
  grind [State.failPe, memsOk_modFleet, memsOk_endStranded, memsOk_foldl]
theorem memsOk_logCorrected {s : State} (h : s.memsOk) (e) : (s.logCorrected e).memsOk := by
  cases e <;> exact h
theorem memsOk_repair {s : State} (h : s.memsOk) (e) : (s.repair e).memsOk := by
  cases e with
  | hbmRow pa => exact memsOk_modFleet (memsOk_spareRecord h _) _
  | hbmChannel st pages => exact memsOk_foldl _ (fun _ _ ht => memsOk_spareRecord ht _) _ (memsOk_modFleet h _)
  | l2Bank b => exact memsOk_spareRecord h _
  | wsGroup d g => exact memsOk_spareRecord h _
  | lsBank cl b => exact memsOk_modCluster (memsOk_spareRecord h _) ..
  | cimMacro cl m => exact memsOk_modCluster (memsOk_spareRecord h _) ..
  | peConfig cl x y => exact memsOk_failPe (memsOk_spareRecord h _) ..

/-! ### Turns -/

theorem memsOk_takeTurn {s : State} (h : s.memsOk) (cl x y) : (s.takeTurn cl x y).memsOk := h
theorem memsOk_tableAccess {s : State} (h : s.memsOk) (uid e va n bs) : (s.tableAccess uid e va n bs).1.memsOk := by
  grind [State.tableAccess, memsOk_ovfAccess, memsOk_stopUnit]
theorem memsOk_leaveTable {s : State} (h : s.memsOk) (uid i e) : (s.leaveTable uid i e).1.memsOk := by
  unfold State.leaveTable
  extract_lets base slot last
  have h1 := memsOk_tableAccess h uid e base 16 none
  split <;> rename_i heq <;> rw [heq] at h1
  · exact h1
  · rename_i hb
    have h2 := memsOk_tableAccess h1 uid e (slot i) 16 none
    split <;> rename_i heq <;> rw [heq] at h2
    · exact h2
    · have h3 := memsOk_tableAccess h2 uid e (slot last) 16 none
      split <;> rename_i heq <;> rw [heq] at h3
      · exact h3
      · rename_i lb
        have h4 := memsOk_tableAccess h3 uid e (slot i) 16 (some lb)
        split <;> rename_i heq <;> rw [heq] at h4
        · exact h4
        · have h5 := memsOk_tableAccess h4 uid e base 8 (some (leBytes 8 (leNat (hb.take 8) - 1)))
          split <;> rename_i heq <;> rw [heq] at h5
          · exact h5
          · exact memsOk_modUnit h5 ..

/-! ### The agenda -/

theorem memsOk_fetchFault {s : State} (h : s.memsOk) (uid f) : (s.fetchFault uid f).memsOk := memsOk_takeFault h ..
theorem memsOk_tickDie {s : State} (h : s.memsOk) (die) : (s.tickDie die).memsOk := h
theorem memsOk_tickHub {s : State} (h : s.memsOk) : s.tickHub.memsOk := by
  grind [State.tickHub, memsOk_resumeOwed, memsOk_retryDev, memsOk_count, State.memsOk]
theorem memsOk_failLine {s : State} (h : s.memsOk) (line) : (s.failLine line).memsOk := h

end Sys2Proof.Proofs

/-! PROOFS. O2, concluded: each instruction keeps every memory in canonical form, so each turn of the agenda and each step do (R79, log 2). -/

namespace Sys2Proof.Proofs

open Sys2Proof Sys2Proof.Machine Sys2Proof.Laws Sys2Proof.Claims

/-! ### Memory rows -/

theorem memsKept_execLdlk {s : State} (h : s.memsOk) (w) : MemsKept (execLdlk w s) :=
  memsKept_next (by grind [firePrepOk_prepFire, FirePrepOk, memsOk_faultAt, memsOk_enterBuffer, memsOk_setNode])
theorem memsKept_execRed {s : State} (h : s.memsOk) (w) : MemsKept (execRed w s) := memsKept_next (by grind [memsOk_fireMem])

/-! ### Coherence, synchronising accesses and rounds -/

theorem memsKept_execStoreBufferIssue {s : State} (h : s.memsOk) : MemsKept (execStoreBufferIssue s) :=
  memsKept_next (by grind [memsOk_performEntry, memsOk_issueEntry])
theorem memsKept_execGets {s : State} (h : s.memsOk) : MemsKept (execGets s) := by
  refine memsKept_next ?_
  split
  · exact h
  · extract_lets xa n d s1 d1 alone own s2
    have h2 : s2.memsOk := memsOk_modDir (memsOk_flushPuts (memsOk_replaceMsg h ..) _) ..
    split
    · exact memsOk_sendSnoops h ..
    · split
      · exact memsOk_sendActions h ..
      · split
        · exact memsOk_replaceMsg h ..
        · exact h2
theorem memsKept_execGetm {s : State} (h : s.memsOk) : MemsKept (execGetm s) := memsKept_next (by grind [memsOk_grantM])
theorem memsKept_execUpg {s : State} (h : s.memsOk) : MemsKept (execUpg s) := memsKept_next (by grind [memsOk_grantM])
theorem memsKept_execData {s : State} (h : s.memsOk) : MemsKept (execData s) :=
  memsKept_next (by grind [memsOk_replaceMsg, memsOk_fill, memsOk_sbFault, memsOk_loadDone, memsOk_storeGranted])
theorem memsKept_execAck {s : State} (h : s.memsOk) : MemsKept (execAck s) :=
  memsKept_next (by grind [memsOk_replaceMsg, memsOk_modDir, memsOk_storeGranted])
theorem memsKept_execHomeStore {s : State} (h : s.memsOk) : MemsKept (execHomeStore s) :=
  memsKept_next (by grind [memsOk_replaceMsg, memsOk_sendSnoops, memsOk_homeWriteKeep, memsOk_homeWrite, memsOk_foldl, memsOk_l1Write,
    memsOk_dirtyHalves, memsOk_bumpTag, memsOk_putHome, memsOk_modUnit])
theorem memsKept_execSyncAccessAtHome {s : State} (h : s.memsOk) : MemsKept (execSyncAccessAtHome s) :=
  memsKept_next (by grind [memsOk_replaceMsg, memsOk_sendSnoops, memsOk_invRemote, memsOk_foldl, memsOk_sbFault, memsOk_syncEffect, memsOk_arrived])
theorem memsKept_execWack {s : State} (h : s.memsOk) : MemsKept (execWack s) := memsKept_next (by grind [memsOk_replaceMsg, memsOk_retire])
theorem memsKept_execAmoMerge {s : State} (h : s.memsOk) : MemsKept (execAmoMerge s) := memsKept_next (by grind [State.memsOk])
theorem memsKept_execLdlkLoad {s : State} (h : s.memsOk) : MemsKept (execLdlkLoad s) :=
  memsKept_next (by grind [memsOk_sbFault, memsOk_translate, memsOk_linkValue, memsOk_modUnit, memsOk_retire, memsOk_setNode, memsOk_deliver,
    memsOk_progress])
theorem memsKept_execRedRoundComplete {s : State} (h : s.memsOk) : MemsKept (execRedRoundComplete s) :=
  memsKept_next (by grind [memsOk_objectWaits, memsOk_finishRound, memsOk_applyRound])
theorem memsKept_execRefreshWindowEnd {s : State} (h : s.memsOk) : MemsKept (execRefreshWindowEnd s) :=
  memsKept_next (by grind [memsOk_foldl, memsOk_performEntry])

/-! ### Engine commands -/

theorem memsKept_execHandlerBusyTimeout {s : State} (h : s.memsOk) : MemsKept (execHandlerBusyTimeout s) :=
  memsKept_next (by grind [memsOk_sendSnoops, memsOk_nack, memsOk_setInbox])

/-! ### The matrix engine -/

theorem memsKept_execMatrixIssue {s : State} (h : s.memsOk) : MemsKept (execMatrixIssue s) :=
  memsKept_next (by grind [memsOk_modMq, memsOk_popHandoff, matResOk_issueMat, MatResOk, memsOk_progress, memsOk_modUnit, memsOk_nackF,
    memsOk_modCluster, memsOk_takeFault])
theorem memsKept_execHandoffPush {s : State} (h : s.memsOk) : MemsKept (execHandoffPush s) :=
  memsKept_next (by grind [memsOk_retireMat, memsOk_completeRun])
theorem memsKept_execCmdMbld {s : State} (h : s.memsOk) (m) : MemsKept (execCmdMbld m s) :=
  memsKept_next (by grind [memsOk_runCommand, cmdResOk_queueMat, CmdResOk])
theorem memsKept_execCmdMmul {s : State} (h : s.memsOk) (m) : MemsKept (execCmdMmul m s) :=
  memsKept_next (by grind [memsOk_runCommand, cmdResOk_queueMat, CmdResOk])
theorem memsKept_execMacc {s : State} (h : s.memsOk) (m) : MemsKept (execMacc m s) :=
  memsKept_next (by grind [memsOk_runCommand, cmdResOk_queueMat, CmdResOk])
theorem memsKept_execCmdMdrn {s : State} (h : s.memsOk) (m) : MemsKept (execCmdMdrn m s) :=
  memsKept_next (by grind [memsOk_runCommand, cmdResOk_queueMat, CmdResOk])
theorem memsKept_execMqnt {s : State} (h : s.memsOk) (m) : MemsKept (execMqnt m s) :=
  memsKept_next (by grind [memsOk_runCommand, cmdResOk_queueMat, CmdResOk])
theorem memsKept_execMzer {s : State} (h : s.memsOk) (m) : MemsKept (execMzer m s) :=
  memsKept_next (by grind [memsOk_runCommand, cmdResOk_queueMat, CmdResOk])
theorem memsKept_execMcbt {s : State} (h : s.memsOk) (m) : MemsKept (execMcbt m s) :=
  memsKept_next (by grind [memsOk_runCommand, cmdResOk_queueMat, CmdResOk])
theorem memsKept_execMgrp {s : State} (h : s.memsOk) (m) : MemsKept (execMgrp m s) :=
  memsKept_next (memsOk_runCommand h _ _ _ (fun _ _ _ ht => ht))

/-! ### The copy and gather engines -/

theorem memsKept_execCpy {s : State} (h : s.memsOk) (m) : MemsKept (execCpy m s) :=
  memsKept_next (by grind [memsOk_runCommand, cmdResOk_accept, CmdResOk])
theorem memsKept_execCpy2d {s : State} (h : s.memsOk) (m) : MemsKept (execCpy2d m s) :=
  memsKept_next (by grind [memsOk_runCommand, cmdResOk_accept, CmdResOk])
theorem memsKept_execFill {s : State} (h : s.memsOk) (m) : MemsKept (execFill m s) :=
  memsKept_next (by grind [memsOk_runCommand, cmdResOk_accept, CmdResOk])
theorem memsKept_execWsfl {s : State} (h : s.memsOk) (m) : MemsKept (execWsfl m s) :=
  memsKept_next (by grind [memsOk_runCommand, cmdResOk_accept, CmdResOk])
theorem memsKept_execCpyxs {s : State} (h : s.memsOk) (m) : MemsKept (execCpyxs m s) :=
  memsKept_next (by grind [memsOk_runCommand, cmdResOk_moveImages, CmdResOk])
theorem memsKept_execGthxs {s : State} (h : s.memsOk) (m) : MemsKept (execGthxs m s) :=
  memsKept_next (by grind [memsOk_runCommand, memsOk_nack, cmdResOk_withIndices, CmdResOk, cmdResOk_moveImages])
theorem memsKept_execGth {s : State} (h : s.memsOk) (m) : MemsKept (execGth m s) :=
  memsKept_next (by grind [memsOk_runCommand, cmdResOk_moveElems, CmdResOk])
theorem memsKept_execSct {s : State} (h : s.memsOk) (m) : MemsKept (execSct m s) :=
  memsKept_next (by grind [memsOk_runCommand, cmdResOk_moveElems, CmdResOk])
theorem memsKept_execScta {s : State} (h : s.memsOk) (m) : MemsKept (execScta m s) :=
  memsKept_next (by grind [memsOk_runCommand, cmdResOk_moveElems, CmdResOk])

/-! ### Collectives -/

theorem memsKept_execCollectiveRoundComplete {s : State} (h : s.memsOk) : MemsKept (execCollectiveRoundComplete s) := by
  refine memsKept_next ?_
  split
  · rename_i round ph _ _
    extract_lets l P ps s0 c0 o0 need ready
    have h0 : s0.memsOk := memsOk_dropColl h ..
    have hready : ready.1.memsOk := by
      refine List.foldlRecOn (motive := fun acc : State × Bool => acc.1.memsOk) need _ h (fun acc hacc x _ => ?_)
      split
      · exact hacc
      · have hc := memsOk_checkAll hacc x.1 [x.2]
        split <;> rename_i heq <;> rw [heq] at hc <;> exact hc
    split
    · exact h
    · split
      · exact memsOk_foldl _ (fun _ _ ht => memsOk_refusePart ht _) _ h0
      · split
        · exact hready
        · refine memsOk_foldl _ (fun _ _ ht => memsOk_finishPart ht ..) _ ?_
          exact hready
  · exact h

/-! ### The matching store -/

theorem memsKept_execTokenArrival {s : State} (h : s.memsOk) : MemsKept (execTokenArrival s) := by
  refine memsKept_next ?_
  split
  · exact h
  · extract_lets s1
    have h1 : s1.memsOk := h
    split
    · exact h
    · split
      · exact h1
      · split
        · split
          · exact h
          · exact memsOk_settleStubs (memsOk_enterQueue h1 ..) _
        · extract_lets u
          split
          · split
            · exact h1
            · exact memsOk_settleStubs (memsOk_takeFault h1 ..) _
          · split
            · exact h
            · exact memsOk_settleStubs (memsOk_moveToken h1 ..) _
theorem memsKept_execQuiescenceReport {s : State} (h : s.memsOk) : MemsKept (execQuiescenceReport s) := memsKept_next (by grind [memsOk_modUnit])

/-! ### Flow rows -/

theorem memsKept_execConstFree {s : State} (h : s.memsOk) (w) : MemsKept (execConstFree w s) := memsKept_next (by grind [memsOk_fireConstFree])
theorem memsKept_execConstTriggered {s : State} (h : s.memsOk) (w) : MemsKept (execConstTriggered w s) :=
  memsKept_next (by grind [firePrepOk_prepFire, FirePrepOk, memsOk_faultAt, memsOk_deliver, memsOk_commitFiring])
theorem memsKept_execInvOp {s : State} (h : s.memsOk) (w) : MemsKept (execInvOp w s) :=
  memsKept_next (by grind [firePrepOk_prepFire, FirePrepOk, memsOk_faultAt, memsOk_commitFiring, memsOk_deliver, memsOk_setNode, memsOk_useNode])
theorem memsKept_execInvRepeat {s : State} (h : s.memsOk) : MemsKept (execInvRepeat s) :=
  memsKept_next (by grind [memsOk_setNode, memsOk_deliver, memsOk_progress, memsOk_useNode])
theorem memsKept_execCntrSource {s : State} (h : s.memsOk) (w) : MemsKept (execCntrSource w s) :=
  memsKept_next (by grind [memsOk_emitCntrSource, memsOk_setNode])
theorem memsKept_execCntrTriggered {s : State} (h : s.memsOk) (w) : MemsKept (execCntrTriggered w s) :=
  memsKept_next (by grind [firePrepOk_prepFire, FirePrepOk, memsOk_faultAt, memsOk_commitFiring, memsOk_deliver, memsOk_setNode, memsOk_useNode])
theorem memsKept_execCntrTriggeredEmit {s : State} (h : s.memsOk) : MemsKept (execCntrTriggeredEmit s) :=
  memsKept_next (by grind [memsOk_setNode, memsOk_deliver, memsOk_progress, memsOk_useNode])
theorem memsKept_execSteer {s : State} (h : s.memsOk) (w) : MemsKept (execSteer w s) :=
  memsKept_next (by grind [firePrepOk_prepFire, FirePrepOk, memsOk_faultAt, memsOk_commitFiring, memsOk_deliver])
theorem memsKept_execMerge {s : State} (h : s.memsOk) (w) : MemsKept (execMerge w s) :=
  memsKept_next (by grind [memsOk_fireMergeAny, memsOk_fireMergeP])
theorem memsKept_execWadv {s : State} (h : s.memsOk) (w) : MemsKept (execWadv w s) :=
  memsKept_next (by grind [firePrepOk_prepFire, FirePrepOk, memsOk_faultAt, memsOk_commitFiring, memsOk_deliver, memsOk_setNode])
theorem memsKept_execWaveHoldRelease {s : State} (h : s.memsOk) : MemsKept (execWaveHoldRelease s) :=
  memsKept_next (by grind [memsOk_deliver, memsOk_progress, memsOk_setNode])
theorem memsKept_execTagnew {s : State} (h : s.memsOk) (w) : MemsKept (execTagnew w s) :=
  memsKept_next (by grind [firePrepOk_prepFire, FirePrepOk, memsOk_faultAt, memsOk_commitFiring, memsOk_deliver, memsOk_modUnit, memsOk_setNode])
theorem memsKept_execTagnewWaitEnd {s : State} (h : s.memsOk) : MemsKept (execTagnewWaitEnd s) :=
  memsKept_next (by grind [memsOk_deliver, memsOk_progress, memsOk_modUnit])
theorem memsKept_execTagxl {s : State} (h : s.memsOk) (w) : MemsKept (execTagxl w s) :=
  memsKept_next (by grind [memsOk_setUnit, memsOk_faultAt, memsOk_deliver, memsOk_commitFiring])
theorem memsKept_execTagend {s : State} (h : s.memsOk) (w) : MemsKept (execTagend w s) :=
  memsKept_next (by grind [firePrepOk_prepFire, FirePrepOk, memsOk_faultAt, memsOk_deliver, memsOk_modUnit, memsOk_commitFiring])
theorem memsKept_execColor {s : State} (h : s.memsOk) (w) : MemsKept (execColor w s) :=
  memsKept_next (by grind [firePrepOk_prepFire, FirePrepOk, memsOk_faultAt, memsOk_commitFiring, memsOk_deliver, memsOk_reopenColour, memsOk_setNode])
theorem memsKept_execColourRelease {s : State} (h : s.memsOk) : MemsKept (execColourRelease s) := memsKept_next (by grind [memsOk_reopenColour])
theorem memsKept_execCommit {s : State} (h : s.memsOk) (w) : MemsKept (execCommit w s) :=
  memsKept_next (by grind [memsOk_fireDecision, memsOk_commitColour])
theorem memsKept_execKill {s : State} (h : s.memsOk) (w) : MemsKept (execKill w s) :=
  memsKept_next (by grind [memsOk_fireDecision, memsOk_killColour])
theorem memsKept_execCommitTokenPass {s : State} (h : s.memsOk) : MemsKept (execCommitTokenPass s) := by
  refine memsKept_next ?_
  split
  · exact h
  · extract_lets rest passed s1
    split
    · exact h
    · split <;> exact h
theorem memsKept_execGate {s : State} (h : s.memsOk) (w) : MemsKept (execGate w s) :=
  memsKept_next (by grind [firePrepOk_prepFire, FirePrepOk, memsOk_faultAt, memsOk_commitFiring, memsOk_deliver, memsOk_setNode])
theorem memsKept_execSink {s : State} (h : s.memsOk) (w) : MemsKept (execSink w s) :=
  memsKept_next (by grind [firePrepOk_prepFire, FirePrepOk, memsOk_faultAt, memsOk_commitFiring, memsOk_modUnit])
theorem memsKept_execScaletok {s : State} (h : s.memsOk) (w) : MemsKept (execScaletok w s) :=
  memsKept_next (by grind [memsOk_setUnit, memsOk_faultAt, memsOk_commitFiring, memsOk_modUnit, memsOk_sendOut])
theorem memsKept_execWaitf {s : State} (h : s.memsOk) (w) : MemsKept (execWaitf w s) :=
  memsKept_next (by grind [firePrepOk_prepFire, FirePrepOk, memsOk_faultAt, memsOk_commitFiring, memsOk_deliver])
theorem memsKept_execSete {s : State} (h : s.memsOk) (w) : MemsKept (execSete w s) :=
  memsKept_next (by grind [firePrepOk_prepFire, FirePrepOk, memsOk_faultAt, memsOk_commitFiring, memsOk_modUnit, memsOk_sendOut])

/-! ### Tile tasks -/

theorem memsKept_execTileTaskStart {s : State} (h : s.memsOk) : MemsKept (execTileTaskStart s) :=
  memsKept_next (by grind [memsOk_foldl, memsOk_modDie, memsOk_takeEngine])
theorem memsKept_execTileTaskBlockDone {s : State} (h : s.memsOk) : MemsKept (execTileTaskBlockDone s) :=
  memsKept_next (by grind [memsOk_finishTask, memsOk_modTask, blockResOk_runBlock, BlockResOk, memsOk_noteNarrow, memsOk_unitRecord, memsOk_modUnit])

/-! ### System rows -/

theorem memsKept_execSend {s : State} (h : s.memsOk) (w) : MemsKept (execSend w s) :=
  memsKept_next (by grind [firePrepOk_prepFire, FirePrepOk, memsOk_faultAt, memsOk_finishSend, memsOk_sendMessage])
theorem memsKept_execTtq {s : State} (h : s.memsOk) (w) : MemsKept (execTtq w s) :=
  memsKept_next (by grind [firePrepOk_prepFire, FirePrepOk, memsOk_faultAt, memsOk_finishSend, memsOk_submitRecord])
theorem memsKept_execHoff {s : State} (h : s.memsOk) (w) : MemsKept (execHoff w s) :=
  memsKept_next (by grind [firePrepOk_prepFire, FirePrepOk, memsOk_faultAt, memsOk_deliver, memsOk_commitFiring, memsOk_pushHandoff])
theorem memsKept_execHwait {s : State} (h : s.memsOk) (w) : MemsKept (execHwait w s) :=
  memsKept_next (by grind [firePrepOk_prepFire, FirePrepOk, memsOk_faultAt, memsOk_deliver, memsOk_commitFiring, memsOk_popHandoff])
theorem memsKept_execTrap {s : State} (h : s.memsOk) (w) : MemsKept (execTrap w s) :=
  memsKept_next (by grind [firePrepOk_prepFire, FirePrepOk, memsOk_faultAt])
theorem memsKept_execBrk {s : State} (h : s.memsOk) (w) : MemsKept (execBrk w s) :=
  memsKept_next (by grind [firePrepOk_prepFire, FirePrepOk, memsOk_faultAt, memsOk_haltJob, memsOk_commitFiring])
theorem memsKept_execRdctr {s : State} (h : s.memsOk) (w) : MemsKept (execRdctr w s) :=
  memsKept_next (by grind [firePrepOk_prepFire, FirePrepOk, memsOk_faultAt, memsOk_deliver, memsOk_commitFiring])
theorem memsKept_execRdst {s : State} (h : s.memsOk) (w) : MemsKept (execRdst w s) :=
  memsKept_next (by grind [firePrepOk_prepFire, FirePrepOk, memsOk_faultAt, memsOk_deliver, memsOk_commitFiring])
theorem memsKept_execWrst {s : State} (h : s.memsOk) (w) : MemsKept (execWrst w s) :=
  memsKept_next (by grind [firePrepOk_prepFire, FirePrepOk, memsOk_faultAt, memsOk_modUnit, memsOk_commitFiring, memsOk_sendOut])

/-! ### Control words -/

theorem memsKept_execJal {s : State} (h : s.memsOk) (c) : MemsKept (execJal c s) := memsKept_next (by grind [memsOk_seqWord, memsOk_modUnit])
theorem memsKept_execJr {s : State} (h : s.memsOk) (c) : MemsKept (execJr c s) :=
  memsKept_next (by grind [memsOk_seqWord, memsOk_ctlFault, memsOk_modUnit])
theorem memsKept_execLdg {s : State} (h : s.memsOk) (c) : MemsKept (execLdg c s) :=
  memsKept_next (by grind [memsOk_seqWord, memsOk_modUnit, memsOk_ctlAccess, ctlMemOk_ctlTranslate, CtlMemOk, memsOk_readNearXa, memsOk_fillEntry])
theorem memsKept_execStg {s : State} (h : s.memsOk) (c) : MemsKept (execStg c s) := by
  refine memsKept_next (memsOk_seqWord h _ _ (fun uid u => ?_))
  refine memsOk_ctlAccess h _ _ _ (ctlMemOk_ctlTranslate h _ _ _ _ _ (fun t xa _ _ ht => ?_)) (fun _ _ ht => ht) (fun _ _ ht => ht)
  split
  · exact ctlMemOk_ctlAsk ht ..
  · exact memsOk_homeWrite ht ..
theorem memsKept_execAmog {s : State} (h : s.memsOk) (c) : MemsKept (execAmog c s) :=
  memsKept_next (by grind [memsOk_seqWord, memsOk_ctlAccess, ctlMemOk_ctlSync, CtlMemOk, memsOk_modUnit, ctlMemOk_ctlAnswer])
theorem memsKept_execPost {s : State} (h : s.memsOk) (c) : MemsKept (execPost c s) :=
  memsKept_next (memsOk_seqWord h _ _ (fun _ _ =>
    memsOk_ctlAccess h _ _ _ (ctlMemOk_ctlSync h ..) (fun _ _ ht => ht) (fun _ _ ht => ctlMemOk_ctlAnswer ht ..)))
theorem memsKept_execGnudge {s : State} (h : s.memsOk) (c) : MemsKept (execGnudge c s) :=
  memsKept_next (by grind [memsOk_seqWord, memsOk_ctlAccess, ctlMemOk_ctlSync, memsOk_nudge, ctlMemOk_ctlAnswer])
theorem memsKept_execFenceg {s : State} (h : s.memsOk) (c) : MemsKept (execFenceg c s) := by
  refine memsKept_next (memsOk_seqWord h _ _ (fun uid u => ?_))
  extract_lets va k ord
  refine memsOk_ctlAccess h _ _ _ ?_ (fun _ _ ht => ht) (fun _ _ ht => ctlMemOk_ctlAnswer ht ..)
  have ht := memsOk_translate h u.lead u.job va .fence 0
  split <;> rename_i heq <;> rw [heq] at ht
  · extract_lets s2 entry e
    have h2 : s2.memsOk := memsOk_modUnit ht ..
    split
    · exact h2
    · split
      · exact h2
      · split
        · exact ctlMemOk_ctlAsk h2 ..
        · split
          · exact h2
          · exact ctlMemOk_ctlScope (memsOk_syncEffect h2 ..) ..
  · exact ht
  · exact ht
theorem memsKept_execQwait {s : State} (h : s.memsOk) (c) : MemsKept (execQwait c s) :=
  memsKept_next (by grind [memsOk_seqWord, memsOk_whenQuiet, memsOk_nextWord])
theorem memsKept_execGateo {s : State} (h : s.memsOk) (c) : MemsKept (execGateo c s) :=
  memsKept_next (by grind [memsOk_seqWord, memsOk_releaseGates, memsOk_modUnit])
theorem memsKept_execGatec {s : State} (h : s.memsOk) (c) : MemsKept (execGatec c s) := memsKept_next (by grind [memsOk_seqWord, memsOk_modUnit])
theorem memsKept_execIset {s : State} (h : s.memsOk) (c) : MemsKept (execIset c s) := memsKept_next (by grind [memsOk_seqWord, memsOk_modUnit])
theorem memsKept_execInj {s : State} (h : s.memsOk) (c) : MemsKept (execInj c s) := by
  refine memsKept_next (memsOk_seqWord h _ _ (fun uid u => ?_))
  extract_lets b d itag pos t f
  split
  · exact memsOk_ctlFault h ..
  · split <;> exact h
theorem memsKept_execExtr {s : State} (h : s.memsOk) (c) : MemsKept (execExtr c s) :=
  memsKept_next (by grind [memsOk_seqWord, memsOk_modUnit, memsOk_ctlFault])
theorem memsKept_execBankr {s : State} (h : s.memsOk) (c) : MemsKept (execBankr c s) :=
  memsKept_next (by grind [memsOk_seqWord, memsOk_ctlFault, memsOk_whenQuiet, memsOk_nextWord, memsOk_foldl, memsOk_setRoles])
theorem memsKept_execResz {s : State} (h : s.memsOk) (c) : MemsKept (execResz c s) :=
  memsKept_next (by grind [memsOk_seqWord, memsOk_ctlFault, memsOk_nextWord, memsOk_foldl, memsOk_resize])
theorem memsKept_execHoffs {s : State} (h : s.memsOk) (c) : MemsKept (execHoffs c s) :=
  memsKept_next (by grind [memsOk_seqWord, memsOk_ctlFault, memsOk_nextWord, memsOk_pushHandoff])
theorem memsKept_execHwaits {s : State} (h : s.memsOk) (c) : MemsKept (execHwaits c s) :=
  memsKept_next (by grind [memsOk_seqWord, memsOk_ctlFault, memsOk_nextWord, memsOk_popHandoff])
theorem memsKept_execSendc {s : State} (h : s.memsOk) (c) : MemsKept (execSendc c s) :=
  memsKept_next (by grind [memsOk_seqWord, memsOk_ctlSent, memsOk_sendMessage])
theorem memsKept_execTtqc {s : State} (h : s.memsOk) (c) : MemsKept (execTtqc c s) :=
  memsKept_next (by grind [memsOk_seqWord, memsOk_ctlSent, memsOk_submitRecord])
theorem memsKept_execCancl {s : State} (h : s.memsOk) (c) : MemsKept (execCancl c s) :=
  memsKept_next (by grind [memsOk_seqWord, memsOk_cancelFrom, memsOk_nextWord])
theorem memsKept_execWfe {s : State} (h : s.memsOk) (c) : MemsKept (execWfe c s) := memsKept_next (by grind [memsOk_seqWord, memsOk_modUnit])
theorem memsKept_execWfeWake {s : State} (h : s.memsOk) : MemsKept (execWfeWake s) := memsKept_next (by grind [memsOk_nextWord])
theorem memsKept_execTrapc {s : State} (h : s.memsOk) (c) : MemsKept (execTrapc c s) := memsKept_next (by grind [memsOk_seqWord, memsOk_takeFault])
theorem memsKept_execEret {s : State} (h : s.memsOk) (c) : MemsKept (execEret c s) :=
  memsKept_next (by grind [memsOk_seqWord, memsOk_progress, memsOk_returnFault, memsOk_ctlFault])
theorem memsKept_execMfs {s : State} (h : s.memsOk) (c) : MemsKept (execMfs c s) :=
  memsKept_next (by grind [memsOk_seqWord, memsOk_ctlFault, memsOk_modUnit])
theorem memsKept_execMts {s : State} (h : s.memsOk) (c) : MemsKept (execMts c s) :=
  memsKept_next (by grind [memsOk_seqWord, memsOk_ctlFault, memsOk_modUnit])
theorem memsKept_execNopc {s : State} (h : s.memsOk) (c) : MemsKept (execNopc c s) := memsKept_next (by grind [memsOk_seqWord, memsOk_nextWord])
theorem memsKept_execReservedControlOpcode {s : State} (h : s.memsOk) (op c) : MemsKept (execReservedControlOpcode op c s) :=
  memsKept_next (by grind [memsOk_ctlFault])

/-! ### Tile rows -/

theorem memsKept_execFcvtTile {s : State} (h : s.memsOk) (w) : MemsKept (execFcvtTile w s) := by
  refine memsKept_next ?_
  split
  · exact h
  · rename_i uid key _
    extract_lets u s1 p
    have h1 : s1.memsOk := memsOk_setUnit h ..
    split
    · exact h1
    · split
      · exact h1
      · extract_lets t0 a cl
        iterate 4 (split; exact memsOk_faultAt h1 ..)
        split
        · exact memsOk_faultAt h1 ..
        · split
          · exact h1
          · exact memsOk_faultAt h1 ..
          · extract_lets r
            have hf := memsOk_tileFlags h1 uid r.2 u.uctl
            split <;> rename_i heq <;> rw [heq] at hf
            · exact memsOk_faultAt hf ..
            · exact memsOk_deliver (memsOk_modCluster (memsOk_commitFiring hf ..) ..) ..

/-! ### Images -/

theorem memsKept_execCfgl {s : State} (h : s.memsOk) (c) : MemsKept (execCfgl c s) :=
  memsKept_next (by grind [memsOk_seqWord, memsOk_loadImage, memsOk_modUnit, memsOk_ctlFault])
theorem memsKept_execCfgs {s : State} (h : s.memsOk) (c) : MemsKept (execCfgs c s) :=
  memsKept_next (by grind [memsOk_seqWord, memsOk_whenQuiet, memsOk_ctlFault, memsOk_endStranded, memsOk_modUnit])

/-! ### Migration -/

theorem memsKept_execMigration {s : State} (h : s.memsOk) : MemsKept (execMigration s) :=
  memsKept_next (by grind [memsOk_settleStubs, memsOk_setUnit, memsOk_startMigration])

/-! ### Scheduling and the end of levels -/

theorem memsKept_execUnitPlacement {s : State} (h : s.memsOk) : MemsKept (execUnitPlacement s) :=
  memsKept_next (by grind [memsOk_takeRegion, memsOk_newUnit, memsOk_rebindColl])
theorem memsKept_execQuantumExpiry {s : State} (h : s.memsOk) : MemsKept (execQuantumExpiry s) :=
  memsKept_next (by grind [memsOk_requestPreempt, memsOk_modUnit])
theorem memsKept_execDone {s : State} (h : s.memsOk) (c) : MemsKept (execDone c s) :=
  memsKept_next (by grind [memsOk_seqWord, memsOk_whenQuiet, memsOk_requestPreempt, memsOk_endUnit, memsOk_chargeQuantum])
theorem memsKept_execYield {s : State} (h : s.memsOk) (c) : MemsKept (execYield c s) :=
  memsKept_next (by grind [memsOk_seqWord, memsOk_whenQuiet, memsOk_nextWord, memsOk_requestPreempt])
theorem memsKept_execPreemptRequest {s : State} (h : s.memsOk) : MemsKept (execPreemptRequest s) :=
  memsKept_next (by grind [memsOk_foldl, memsOk_requestPreempt, State.memsOk])
theorem memsKept_execDeadlineMissed {s : State} (h : s.memsOk) : MemsKept (execDeadlineMissed s) :=
  memsKept_next (by grind [memsOk_jobRecord, memsOk_modJob])
theorem memsKept_execWatchdogExpiry {s : State} (h : s.memsOk) : MemsKept (execWatchdogExpiry s) := memsKept_next (by grind [memsOk_takeFault])

/-! ### Units and regions -/

theorem memsKept_execUnitStart {s : State} (h : s.memsOk) : MemsKept (execUnitStart s) :=
  memsKept_next (by grind [memsOk_giveUpPlace, memsOk_awaitImage, memsOk_writeHeader, memsOk_leavePool, memsOk_endFaulted, memsOk_startUnit])
theorem memsKept_execUnitRestore {s : State} (h : s.memsOk) : MemsKept (execUnitRestore s) := by
  refine memsKept_next ?_
  extract_lets uid
  split
  · exact h
  · rename_i u _
    split
    · exact h
    · split
      · exact memsOk_giveUpPlace h _
      · split
        · exact memsOk_modCluster (memsOk_endFaulted h ..) ..
        · extract_lets go
          have hgo (t : State) (pes) (ht : t.memsOk) : (go t pes).memsOk := by
            have h0 := memsOk_foldl State.emptyCim (fun _ _ h => memsOk_emptyCim h _) u.clusterList ht
            simp only [go]
            refine memsOk_endStranded (memsOk_takePending (memsOk_releaseGates (memsOk_returnReplies (memsOk_returnMs (memsOk_returnHalts
              (memsOk_startSequencer (memsOk_returnWork ?_ _) ..) _) ..) _) _) _) _
            split
            · exact memsOk_foldl _ (fun _ _ h => memsOk_restoreCluster h ..) _ h0
            · exact h0
          clear_value go
          split
          · exact hgo _ _ h
          · rename_i a _
            have hl := memsOk_loadImage h u a.addr.toNat
            split <;> rename_i heq <;> rw [heq] at hl
            · exact hgo _ _ hl
            · exact memsOk_imageFailed hl ..
theorem memsKept_execUnitStateError {s : State} (h : s.memsOk) : MemsKept (execUnitStateError s) :=
  memsKept_next (by grind [memsOk_modCluster, memsOk_count, memsOk_endFaulted])

/-! ### Saving and restoring a unit -/

theorem memsKept_execDrainComplete {s : State} (h : s.memsOk) : MemsKept (execDrainComplete s) :=
  memsKept_next (by grind [memsOk_saveUnit, memsOk_foldl, memsOk_sendSnoops])
theorem memsKept_execDrainOverrun {s : State} (h : s.memsOk) : MemsKept (execDrainOverrun s) :=
  memsKept_next (by grind [memsOk_modUnit, memsOk_unitRecord])

/-! ### Graph instances and phases -/

theorem memsKept_execNodeEvaluate {s : State} (h : s.memsOk) : MemsKept (execNodeEvaluate s) :=
  memsKept_next (by grind [memsOk_anyObjectWaits, memsOk_evalNode])
theorem memsKept_execLaunchPoolAdmit {s : State} (h : s.memsOk) : MemsKept (execLaunchPoolAdmit s) :=
  memsKept_next (by grind [memsOk_anyObjectWaits, memsOk_admitNode])
theorem memsKept_execPhaseCurrent {s : State} (h : s.memsOk) : MemsKept (execPhaseCurrent s) := by
  refine memsKept_next ?_
  split
  · exact h
  · rename_i p _
    split
    · exact h
    · split
      · cases hg : s.groupsWait p.job p.groupTable.toNat with
        | none => exact memsOk_enterRun (memsOk_releaseDies h _) _
        | some t => exact memsOk_groupsWait h hg
      · exact memsOk_modPhase (memsOk_foldl _ (fun _ _ ht => memsOk_modDie ht ..) _ (memsOk_releaseDies (memsOk_journal h _) _)) ..
theorem memsKept_execPhaseRun {s : State} (h : s.memsOk) : MemsKept (execPhaseRun s) := memsKept_next (by grind [memsOk_groupsWait, memsOk_enterRun])
theorem memsKept_execPhaseEnd {s : State} (h : s.memsOk) : MemsKept (execPhaseEnd s) := memsKept_next (by grind [memsOk_endJob, memsOk_endPhase])

/-! ### Queue entries -/

theorem memsKept_execKickRegisterWrite {s : State} (h : s.memsOk) : MemsKept (execKickRegisterWrite s) :=
  memsKept_next (by grind [memsOk_foreignW1, memsOk_modQueue])
theorem memsKept_execKickStatusClear {s : State} (h : s.memsOk) : MemsKept (execKickStatusClear s) :=
  memsKept_next (by grind [memsOk_foreignW1, memsOk_modQueue])
theorem memsKept_execKick {s : State} (h : s.memsOk) : MemsKept (execKick s) :=
  memsKept_next (by grind [memsOk_threadEntry, memsOk_refuseEntry, memsOk_objectWaits, entryResOk_takeKick, EntryResOk])
theorem memsKept_execKickPatchApply {s : State} (h : s.memsOk) : MemsKept (execKickPatchApply s) :=
  memsKept_next (by grind [memsOk_thread, memsOk_modQueue, memsOk_refuseEntry, memsOk_objectWaits, memsOk_writePatches, memsOk_createInstance])
theorem memsKept_execWaitEntry {s : State} (h : s.memsOk) : MemsKept (execWaitEntry s) :=
  memsKept_next (memsOk_threadEntry h 1 (fun _ _ _ => memsOk_pollWait (memsOk_modQueue h ..) ..))
theorem memsKept_execWaitReread {s : State} (h : s.memsOk) : MemsKept (execWaitReread s) := memsKept_next (by grind [memsOk_thread, memsOk_pollWait])
theorem memsKept_execCancelEntry {s : State} (h : s.memsOk) : MemsKept (execCancelEntry s) :=
  memsKept_next (by grind [memsOk_thread, memsOk_modQueue, memsOk_refuseEntry, memsOk_cancelInst, memsOk_cancelRecord, memsOk_journal,
    memsOk_cancelJob])
theorem memsKept_execRegisterEntry {s : State} (h : s.memsOk) : MemsKept (execRegisterEntry s) := by
  refine memsKept_next (memsOk_threadEntry h 3 (fun q job e => ?_))
  extract_lets base
  split
  · rename_i heq
    rcases Option.or_eq_some_iff.1 heq with hr | ⟨-, hr⟩
    · rcases Option.or_eq_some_iff.1 hr with hr | ⟨-, hr⟩
      · exact memsOk_resultWaits h hr
      · exact memsOk_objectWaits h hr
    · exact memsOk_targetsWait h hr
  · split
    · exact memsOk_resultWord (memsOk_refuseEntry h ..) ..
    · split
      · exact memsOk_resultWord (memsOk_refuseEntry h ..) ..
      · refine memsOk_resultWord (memsOk_journal ?_ _) ..
        exact h
theorem memsKept_execUnregisterEntry {s : State} (h : s.memsOk) : MemsKept (execUnregisterEntry s) := by
  refine memsKept_next ?_
  split
  · exact memsOk_thread h (memsOk_unregister h ..)
  · exact memsOk_threadEntry h 4 (fun _ _ _ => memsOk_unregister h ..)
theorem memsKept_execPhaseEntry {s : State} (h : s.memsOk) : MemsKept (execPhaseEntry s) := by
  refine memsKept_next (memsOk_threadEntry h 5 (fun q job e => ?_))
  extract_lets s1 p
  have h1 : s1.memsOk := by
    simp only [s1]
    split
    · exact memsOk_modPhase h ..
    · exact h
  refine memsOk_modJob ?_ ..
  exact memsOk_journal h1 .phaseChanged
theorem memsKept_execQueueBind {s : State} (h : s.memsOk) : MemsKept (execQueueBind s) := by
  refine memsKept_next ?_
  extract_lets q jid s1
  have h1 : s1.memsOk := by
    simp only [s1]
    split
    · exact memsOk_dropJob h _
    · exact h
  refine memsOk_ite h ?_
  exact h1

/-! ### Garnet and Spinel -/

theorem memsKept_execGarnetHeartbeat {s : State} (h : s.memsOk) : MemsKept (execGarnetHeartbeat s) := memsKept_next (by grind [memsOk_modFw])
theorem memsKept_execCommitPointRecord {s : State} (h : s.memsOk) : MemsKept (execCommitPointRecord s) :=
  memsKept_next (by grind [memsOk_garnet, memsOk_commitPoint])
theorem memsKept_execSpinelTakeover {s : State} (h : s.memsOk) : MemsKept (execSpinelTakeover s) :=
  memsKept_next (by grind [memsOk_abortHandover, memsOk_modFw, memsOk_devRecord])
theorem memsKept_execHandoverGo {s : State} (h : s.memsOk) : MemsKept (execHandoverGo s) := memsKept_next (by grind [memsOk_devRecord, memsOk_modFw])
theorem memsKept_execHandoverMeasured {s : State} (h : s.memsOk) : MemsKept (execHandoverMeasured s) := memsKept_next (by grind [memsOk_modFw])
theorem memsKept_execHandoverImageLoaded {s : State} (h : s.memsOk) : MemsKept (execHandoverImageLoaded s) := memsKept_next (by grind [memsOk_modFw])
theorem memsKept_execHandoverCommit {s : State} (h : s.memsOk) : MemsKept (execHandoverCommit s) :=
  memsKept_next (by grind [memsOk_modFw, memsOk_commitPoint])
theorem memsKept_execHandoverAbort {s : State} (h : s.memsOk) : MemsKept (execHandoverAbort s) := memsKept_next (by grind [memsOk_abortHandover])
theorem memsKept_execStandbyReload {s : State} (h : s.memsOk) : MemsKept (execStandbyReload s) := memsKept_next (by grind [memsOk_modFw])

/-! ### Registers -/

theorem memsKept_execUcmdResume {s : State} (h : s.memsOk) : MemsKept (execUcmdResume s) := memsKept_next (by grind [memsOk_ucmd, memsOk_resumeUnit])
theorem memsKept_execUcmdEndFaulted {s : State} (h : s.memsOk) : MemsKept (execUcmdEndFaulted s) :=
  memsKept_next (by grind [memsOk_ucmd, memsOk_endUnit])
theorem memsKept_execUcmdCancelLaunch {s : State} (h : s.memsOk) : MemsKept (execUcmdCancelLaunch s) :=
  memsKept_next (by grind [memsOk_ucmd, memsOk_cancelFrom])
theorem memsKept_execUcmdMoveOvft {s : State} (h : s.memsOk) : MemsKept (execUcmdMoveOvft s) :=
  memsKept_next (by grind [memsOk_ucmd, memsOk_resumeUnit, memsOk_modUnit])
theorem memsKept_execTlbShootdown {s : State} (h : s.memsOk) : MemsKept (execTlbShootdown s) := by
  refine memsKept_next ?_
  extract_lets v job s1 first n
  split
  · exact h
  · split
    · exact memsOk_foreign h
    · split <;> exact h
theorem memsKept_execTlbShootdownDone {s : State} (h : s.memsOk) : MemsKept (execTlbShootdownDone s) := memsKept_next (by grind [memsOk_modW2])
theorem memsKept_execDebugHalt {s : State} (h : s.memsOk) : MemsKept (execDebugHalt s) :=
  memsKept_next (by grind [memsOk_dbgctl, memsOk_modJobCluster, memsOk_modJob, memsOk_modJobPe])
theorem memsKept_execDebugResume {s : State} (h : s.memsOk) : MemsKept (execDebugResume s) :=
  memsKept_next (by grind [memsOk_dbgctl, memsOk_modJobCluster, memsOk_modJob, memsOk_modJobPe])
theorem memsKept_execDebugStep {s : State} (h : s.memsOk) : MemsKept (execDebugStep s) := memsKept_next (by grind [memsOk_dbgctl, memsOk_modJobPe])
theorem memsKept_execPoolcfgWrite {s : State} (h : s.memsOk) : MemsKept (execPoolcfgWrite s) :=
  memsKept_next (by grind [memsOk_ownedWrite, memsOk_modW2])
theorem memsKept_execPwrctlWrite {s : State} (h : s.memsOk) : MemsKept (execPwrctlWrite s) :=
  memsKept_next (by grind [State.memsOk, wf_mem, wf_wst, wf_lsm, wf_hmem, memsOk_ownedWrite])
theorem memsKept_execAttestationResult {s : State} (h : s.memsOk) : MemsKept (execAttestationResult s) :=
  memsKept_next (by grind [memsOk_modFw, memsOk_attSampled, memsOk_foldl, memsOk_invRemote, memsOk_sendSnoops, memsOk_devWrite])
theorem memsKept_execRegisterWrite {s : State} (h : s.memsOk) : MemsKept (execRegisterWrite s) :=
  memsKept_next (by grind [memsOk_writeRing, memsOk_ownedWrite, memsOk_modFw, memsOk_modW2, memsOk_foreign, memsOk_writeAttctl])

/-! ### Hosts and the fabric port -/

theorem memsKept_execHostReadShared {s : State} (h : s.memsOk) : MemsKept (execHostReadShared s) :=
  memsKept_next (by grind [memsOk_hostRequest, memsOk_toHost, memsOk_sendBisnp, memsOk_recall, memsOk_answerHost, memsOk_modDir])
theorem memsKept_execHostReadOwnership {s : State} (h : s.memsOk) : MemsKept (execHostReadOwnership s) :=
  memsKept_next (by grind [memsOk_hostRequest, memsOk_toHost, memsOk_sendBisnp, memsOk_invRemote, memsOk_recall, memsOk_answerHost, memsOk_modDir])
theorem memsKept_execHostWriteback {s : State} (h : s.memsOk) : MemsKept (execHostWriteback s) :=
  memsKept_next (by grind [memsOk_hostRequest, memsOk_modDir, memsOk_hostWrite])
theorem memsKept_execHostEvictClean {s : State} (h : s.memsOk) : MemsKept (execHostEvictClean s) :=
  memsKept_next (memsOk_hostRequest h (fun _ ht => ht) (fun _ _ _ _ => memsOk_modDir h ..))
theorem memsKept_execBiconflict {s : State} (h : s.memsOk) : MemsKept (execBiconflict s) := memsKept_next (by grind [memsOk_toHost])
theorem memsKept_execBisnpResponse {s : State} (h : s.memsOk) : MemsKept (execBisnpResponse s) :=
  memsKept_next (by grind [memsOk_hostWrite, memsOk_modDir])
theorem memsKept_execHostSnoop {s : State} (h : s.memsOk) : MemsKept (execHostSnoop s) := by
  refine memsKept_next ?_
  extract_lets xa half s1
  have h1 : s1.memsOk := memsOk_recall h ..
  split
  · exact h
  · refine memsOk_toHost ?_ ..
    exact h1
theorem memsKept_execHostLinkTraining {s : State} (h : s.memsOk) : MemsKept (execHostLinkTraining s) := memsKept_next (by grind [State.memsOk])
theorem memsKept_execHostPortDown {s : State} (h : s.memsOk) : MemsKept (execHostPortDown s) := memsKept_next (by grind [State.memsOk])

/-! ### Power, attestation and debug -/

theorem memsKept_execFyronPacketReceive {s : State} (h : s.memsOk) : MemsKept (execFyronPacketReceive s) := by
  refine memsKept_next ?_
  extract_lets p s1
  have h1 : s1.memsOk := memsOk_count h ..
  split
  · exact memsOk_dropPacket h1 _
  · split
    · exact memsOk_acceptPacket h1 _
    · split
      · exact memsOk_dropPacket h1 _
      · exact h1
theorem memsKept_execLaneFailure {s : State} (h : s.memsOk) : MemsKept (execLaneFailure s) := memsKept_next (by grind [State.memsOk])
theorem memsKept_execFyronPortTraining {s : State} (h : s.memsOk) : MemsKept (execFyronPortTraining s) := memsKept_next (by grind [State.memsOk])

/-! ### Repair and reset -/

theorem memsKept_execModuleReset {s : State} (h : s.memsOk) : MemsKept (execModuleReset s) := memsKept_next (by grind [State.memsOk])
theorem memsKept_execFirmwareReady {s : State} (h : s.memsOk) : MemsKept (execFirmwareReady s) := memsKept_next (by grind [State.memsOk])
theorem memsKept_execPowerAlarm {s : State} (h : s.memsOk) : MemsKept (execPowerAlarm s) :=
  memsKept_next (by grind [memsOk_raiseAlarm, memsOk_measured])
theorem memsKept_execStartHold {s : State} (h : s.memsOk) : MemsKept (execStartHold s) := memsKept_next (by grind [memsOk_modPow, memsOk_measured])
theorem memsKept_execOvertempPreempt {s : State} (h : s.memsOk) : MemsKept (execOvertempPreempt s) :=
  memsKept_next (by grind [memsOk_measured, memsOk_modFw, memsOk_modPow, memsOk_raiseAlarm, memsOk_foldl, memsOk_requestPreempt])
theorem memsKept_execPowerAlarmEnd {s : State} (h : s.memsOk) : MemsKept (execPowerAlarmEnd s) :=
  memsKept_next (by grind [memsOk_measured, memsOk_modPow])
theorem memsKept_execStartHoldEnd {s : State} (h : s.memsOk) : MemsKept (execStartHoldEnd s) :=
  memsKept_next (by grind [memsOk_modPow, memsOk_measured])
theorem memsKept_execOvertempEnd {s : State} (h : s.memsOk) : MemsKept (execOvertempEnd s) :=
  memsKept_next (by grind [memsOk_measured, memsOk_modFw, memsOk_modPow])
theorem memsKept_execCorrectedErrorThreshold {s : State} (h : s.memsOk) : MemsKept (execCorrectedErrorThreshold s) :=
  memsKept_next (by grind [memsOk_repair, memsOk_modFleet])
theorem memsKept_execClusterRemap {s : State} (h : s.memsOk) : MemsKept (execClusterRemap s) :=
  memsKept_next (by grind [memsOk_modCluster, memsOk_modFleet, memsOk_flushL1])

/-! ### Turns -/

theorem memsKept_execCntrSourceEmit {s : State} (h : s.memsOk) : MemsKept (execCntrSourceEmit s) := by
  unfold execCntrSourceEmit
  dsimp only
  split
  · refine memsKept_ite ?_ (memsKept_next h)
    refine memsKept_execCntrSource ?_ _
    exact h
  · exact memsKept_next h
theorem memsKept_execConstFreeFire {s : State} (h : s.memsOk) : MemsKept (execConstFreeFire s) := by
  unfold execConstFreeFire
  dsimp only
  split
  · refine memsKept_ite ?_ (memsKept_next h)
    refine memsKept_execConstFree ?_ _
    exact h
  · exact memsKept_next h
theorem memsKept_execHeadTokenToMatchingStore {s : State} (h : s.memsOk) : MemsKept (execHeadTokenToMatchingStore s) :=
  memsKept_next (by grind [memsOk_makeWay, memsOk_modUnit, memsOk_putMs])
theorem memsKept_execMatchingStoreRefill {s : State} (h : s.memsOk) : MemsKept (execMatchingStoreRefill s) :=
  memsKept_next (by grind [memsOk_makeWay, memsOk_leaveTable, memsOk_modCluster, memsOk_putMs])

/-! ### Every instruction -/

theorem memsKept_exec {s : State} (h : s.memsOk) (i) : MemsKept (exec i s) := by
  cases i with
  | ill w | unassignedOpc opc w => exact memsKept_next (memsOk_fireUnassigned h ..)
  | add w | sub w | neg w | mul w | mulh w | madd w | div w | rem w | min w | max w | abs w | absd w | adds w | subs w | cmp w | and w
    | or w | xor w | andn w | not w | shl w | shr w | sra w | rot w | clz w | ctz w | popc w | bext w | bins w | sext w | zext w | lea w
    | bchk w | sel w | move w | fadd w | fsub w | fmul w | fma w | fms w | fnma w | fmin w | fmax w | fabs w | fneg w | fcmp w | fdiv w
    | fsqrt w | frcpe w | frsqe w | fclass w | fcvt w | ftoi w | itof w | frnd w | lsum w | ldot w | lbc w | lshuf w | lpack w | lunpk w
    | lext w | lins w | lred w | fscale w => exact memsKept_next (memsOk_fireCalc h ..)
  | cbd w | cbe w => exact memsKept_next (memsOk_fireCalcIf h ..)
  | ld w | st w | pref w | span w | ldsp w | stsp w | ldws w | amo w | amx w | fence w | flushr w | memnop w | lda w | stl w => exact memsKept_next (memsOk_fireMem h ..)
  | ldxs w | stxs w | mdrnMem w | mbld w => exact memsKept_next (memsOk_fireMemT h ..)
  | mmul w | mdrn w | mdrnZero w => exact memsKept_next (memsOk_fireMatrix h ..)
  | seqAdd c | seqSub c | seqAnd c | seqOr c | seqXor c | seqShl c | seqShr c | seqSra c | seqMul c | seqMulh c | seqDiv c | seqRem c
    | slt c | sltu c | seqMin c | seqMax c => exact memsKept_next (memsOk_seqAlu h ..)
  | addi c | andi c | ori c | xori c | shli c | shri c | srai c | ldhi c | slti c => exact memsKept_next (memsOk_seqImm h ..)
  | beq c | bne c | blt c | bge c | bltu c | bgeu c => exact memsKept_next (memsOk_seqBranch h ..)
  | cred m | cagt m | crsc m | cbcs m | cbar m => exact memsKept_next (memsOk_runCollective h ..)
  | putm | pute | puts => exact memsKept_next (memsOk_putAtHome h ..)
  | inv | fwds | fwdm => exact memsKept_next (memsOk_homeAction h ..)
  | matrixRetire => exact memsKept_next (memsOk_retireMat h ..)
  | engineReply => exact memsKept_next (memsOk_completeRun h ..)
  | attestationQuote | attestationKeys => exact memsKept_next (memsOk_attGo h ..)
  | constFree w => exact memsKept_execConstFree h w
  | constTriggered w => exact memsKept_execConstTriggered h w
  | invOp w => exact memsKept_execInvOp h w
  | steer w => exact memsKept_execSteer h w
  | merge w => exact memsKept_execMerge h w
  | wadv w => exact memsKept_execWadv h w
  | tagnew w => exact memsKept_execTagnew h w
  | tagxl w => exact memsKept_execTagxl h w
  | tagend w => exact memsKept_execTagend h w
  | cntrSource w => exact memsKept_execCntrSource h w
  | cntrTriggered w => exact memsKept_execCntrTriggered h w
  | color w => exact memsKept_execColor h w
  | commit w => exact memsKept_execCommit h w
  | kill w => exact memsKept_execKill h w
  | gate w => exact memsKept_execGate h w
  | sink w => exact memsKept_execSink h w
  | scaletok w => exact memsKept_execScaletok h w
  | waitf w => exact memsKept_execWaitf h w
  | sete w => exact memsKept_execSete h w
  | fcvtTile w => exact memsKept_execFcvtTile h w
  | ldlk w => exact memsKept_execLdlk h w
  | red w => exact memsKept_execRed h w
  | send w => exact memsKept_execSend h w
  | ttq w => exact memsKept_execTtq h w
  | hoff w => exact memsKept_execHoff h w
  | hwait w => exact memsKept_execHwait h w
  | trap w => exact memsKept_execTrap h w
  | brk w => exact memsKept_execBrk h w
  | rdctr w => exact memsKept_execRdctr h w
  | rdst w => exact memsKept_execRdst h w
  | wrst w => exact memsKept_execWrst h w
  | ldg c => exact memsKept_execLdg h c
  | stg c => exact memsKept_execStg h c
  | amog c => exact memsKept_execAmog h c
  | jal c => exact memsKept_execJal h c
  | jr c => exact memsKept_execJr h c
  | cfgl c => exact memsKept_execCfgl h c
  | cfgs c => exact memsKept_execCfgs h c
  | qwait c => exact memsKept_execQwait h c
  | gateo c => exact memsKept_execGateo h c
  | gatec c => exact memsKept_execGatec h c
  | iset c => exact memsKept_execIset h c
  | inj c => exact memsKept_execInj h c
  | extr c => exact memsKept_execExtr h c
  | bankr c => exact memsKept_execBankr h c
  | resz c => exact memsKept_execResz h c
  | hoffs c => exact memsKept_execHoffs h c
  | hwaits c => exact memsKept_execHwaits h c
  | post c => exact memsKept_execPost h c
  | cancl c => exact memsKept_execCancl h c
  | yield c => exact memsKept_execYield h c
  | wfe c => exact memsKept_execWfe h c
  | trapc c => exact memsKept_execTrapc h c
  | eret c => exact memsKept_execEret h c
  | mfs c => exact memsKept_execMfs h c
  | mts c => exact memsKept_execMts h c
  | fenceg c => exact memsKept_execFenceg h c
  | sendc c => exact memsKept_execSendc h c
  | ttqc c => exact memsKept_execTtqc h c
  | gnudge c => exact memsKept_execGnudge h c
  | done c => exact memsKept_execDone h c
  | nopc c => exact memsKept_execNopc h c
  | reservedControlOpcode op c => exact memsKept_execReservedControlOpcode h op c
  | cmdMbld m => exact memsKept_execCmdMbld h m
  | cmdMmul m => exact memsKept_execCmdMmul h m
  | macc m => exact memsKept_execMacc h m
  | cmdMdrn m => exact memsKept_execCmdMdrn h m
  | mqnt m => exact memsKept_execMqnt h m
  | mzer m => exact memsKept_execMzer h m
  | mcbt m => exact memsKept_execMcbt h m
  | mgrp m => exact memsKept_execMgrp h m
  | cpy m => exact memsKept_execCpy h m
  | cpy2d m => exact memsKept_execCpy2d h m
  | fill m => exact memsKept_execFill h m
  | wsfl m => exact memsKept_execWsfl h m
  | cpyxs m => exact memsKept_execCpyxs h m
  | gth m => exact memsKept_execGth h m
  | sct m => exact memsKept_execSct h m
  | scta m => exact memsKept_execScta h m
  | gthxs m => exact memsKept_execGthxs h m
  | moduleReset => exact memsKept_execModuleReset h
  | hostLinkTraining => exact memsKept_execHostLinkTraining h
  | tokenArrival => exact memsKept_execTokenArrival h
  | headTokenToMatchingStore => exact memsKept_execHeadTokenToMatchingStore h
  | matchingStoreRefill => exact memsKept_execMatchingStoreRefill h
  | waveHoldRelease => exact memsKept_execWaveHoldRelease h
  | tagnewWaitEnd => exact memsKept_execTagnewWaitEnd h
  | colourRelease => exact memsKept_execColourRelease h
  | commitTokenPass => exact memsKept_execCommitTokenPass h
  | quiescenceReport => exact memsKept_execQuiescenceReport h
  | storeBufferIssue => exact memsKept_execStoreBufferIssue h
  | gets => exact memsKept_execGets h
  | getm => exact memsKept_execGetm h
  | upg => exact memsKept_execUpg h
  | data => exact memsKept_execData h
  | ack => exact memsKept_execAck h
  | wack => exact memsKept_execWack h
  | homeStore => exact memsKept_execHomeStore h
  | syncAccessAtHome => exact memsKept_execSyncAccessAtHome h
  | amoMerge => exact memsKept_execAmoMerge h
  | redRoundComplete => exact memsKept_execRedRoundComplete h
  | collectiveRoundComplete => exact memsKept_execCollectiveRoundComplete h
  | hostReadShared => exact memsKept_execHostReadShared h
  | hostReadOwnership => exact memsKept_execHostReadOwnership h
  | hostWriteback => exact memsKept_execHostWriteback h
  | hostEvictClean => exact memsKept_execHostEvictClean h
  | biconflict => exact memsKept_execBiconflict h
  | fyronPacketReceive => exact memsKept_execFyronPacketReceive h
  | laneFailure => exact memsKept_execLaneFailure h
  | refreshWindowEnd => exact memsKept_execRefreshWindowEnd h
  | handoffPush => exact memsKept_execHandoffPush h
  | matrixIssue => exact memsKept_execMatrixIssue h
  | handlerBusyTimeout => exact memsKept_execHandlerBusyTimeout h
  | tileTaskStart => exact memsKept_execTileTaskStart h
  | tileTaskBlockDone => exact memsKept_execTileTaskBlockDone h
  | unitStart => exact memsKept_execUnitStart h
  | unitPlacement => exact memsKept_execUnitPlacement h
  | quantumExpiry => exact memsKept_execQuantumExpiry h
  | preemptRequest => exact memsKept_execPreemptRequest h
  | drainComplete => exact memsKept_execDrainComplete h
  | drainOverrun => exact memsKept_execDrainOverrun h
  | unitRestore => exact memsKept_execUnitRestore h
  | deadlineMissed => exact memsKept_execDeadlineMissed h
  | watchdogExpiry => exact memsKept_execWatchdogExpiry h
  | migration => exact memsKept_execMigration h
  | nodeEvaluate => exact memsKept_execNodeEvaluate h
  | launchPoolAdmit => exact memsKept_execLaunchPoolAdmit h
  | phaseCurrent => exact memsKept_execPhaseCurrent h
  | phaseRun => exact memsKept_execPhaseRun h
  | phaseEnd => exact memsKept_execPhaseEnd h
  | kickRegisterWrite => exact memsKept_execKickRegisterWrite h
  | kickStatusClear => exact memsKept_execKickStatusClear h
  | kick => exact memsKept_execKick h
  | kickPatchApply => exact memsKept_execKickPatchApply h
  | waitEntry => exact memsKept_execWaitEntry h
  | waitReread => exact memsKept_execWaitReread h
  | cancelEntry => exact memsKept_execCancelEntry h
  | registerEntry => exact memsKept_execRegisterEntry h
  | unregisterEntry => exact memsKept_execUnregisterEntry h
  | phaseEntry => exact memsKept_execPhaseEntry h
  | queueBind => exact memsKept_execQueueBind h
  | garnetHeartbeat => exact memsKept_execGarnetHeartbeat h
  | commitPointRecord => exact memsKept_execCommitPointRecord h
  | spinelTakeover => exact memsKept_execSpinelTakeover h
  | handoverGo => exact memsKept_execHandoverGo h
  | handoverCommit => exact memsKept_execHandoverCommit h
  | handoverAbort => exact memsKept_execHandoverAbort h
  | standbyReload => exact memsKept_execStandbyReload h
  | ucmdResume => exact memsKept_execUcmdResume h
  | ucmdEndFaulted => exact memsKept_execUcmdEndFaulted h
  | ucmdCancelLaunch => exact memsKept_execUcmdCancelLaunch h
  | ucmdMoveOvft => exact memsKept_execUcmdMoveOvft h
  | tlbShootdown => exact memsKept_execTlbShootdown h
  | tlbShootdownDone => exact memsKept_execTlbShootdownDone h
  | debugHalt => exact memsKept_execDebugHalt h
  | debugResume => exact memsKept_execDebugResume h
  | debugStep => exact memsKept_execDebugStep h
  | poolcfgWrite => exact memsKept_execPoolcfgWrite h
  | pwrctlWrite => exact memsKept_execPwrctlWrite h
  | attestationResult => exact memsKept_execAttestationResult h
  | registerWrite => exact memsKept_execRegisterWrite h
  | powerAlarm => exact memsKept_execPowerAlarm h
  | startHold => exact memsKept_execStartHold h
  | overtempPreempt => exact memsKept_execOvertempPreempt h
  | powerAlarmEnd => exact memsKept_execPowerAlarmEnd h
  | startHoldEnd => exact memsKept_execStartHoldEnd h
  | overtempEnd => exact memsKept_execOvertempEnd h
  | correctedErrorThreshold => exact memsKept_execCorrectedErrorThreshold h
  | clusterRemap => exact memsKept_execClusterRemap h
  | unitStateError => exact memsKept_execUnitStateError h
  | invRepeat => exact memsKept_execInvRepeat h
  | cntrSourceEmit => exact memsKept_execCntrSourceEmit h
  | cntrTriggeredEmit => exact memsKept_execCntrTriggeredEmit h
  | ldlkLoad => exact memsKept_execLdlkLoad h
  | constFreeFire => exact memsKept_execConstFreeFire h
  | wfeWake => exact memsKept_execWfeWake h
  | bisnpResponse => exact memsKept_execBisnpResponse h
  | hostSnoop => exact memsKept_execHostSnoop h
  | firmwareReady => exact memsKept_execFirmwareReady h
  | fyronPortTraining => exact memsKept_execFyronPortTraining h
  | hostPortDown => exact memsKept_execHostPortDown h
  | handoverMeasured => exact memsKept_execHandoverMeasured h
  | handoverImageLoaded => exact memsKept_execHandoverImageLoaded h

/-! ### Turns of the agenda (log 2) -/

theorem memsKept_runPe {s : State} (h : s.memsOk) (cl x y) : MemsKept (s.runPe cl x y) := by
  refine memsKept_ite (memsKept_next h) ?_
  have h1 := memsOk_takeTurn h cl x y
  dsimp only
  split
  · exact memsKept_next h1
  · split
    · exact memsKept_next h1
    · refine memsKept_exec ?_ _
      exact h1

/-- The fetch of a control word writes no memory, whether it succeeds, faults or waits. -/
theorem memsKept_runWord {s : State} (h : s.memsOk) (uid) : MemsKept (s.runWord uid) := by
  unfold State.runWord
  split
  · exact memsKept_next h
  · rename_i u _
    refine memsKept_ite (memsKept_next h) ?_
    have hr := memsOk_readG h u.lead u.job u.ccnt.toNat 4 .fetch 3
    split <;> rename_i heq <;> rw [heq] at hr
    · refine memsKept_exec ?_ _
      exact hr
    · exact memsKept_next (memsOk_fetchFault hr ..)
    · exact memsKept_next hr

theorem memsKept_runMsg {s : State} (h : s.memsOk) (e) : MemsKept (s.runMsg e) := by
  unfold State.runMsg
  split
  · exact memsKept_next h
  · refine memsKept_ite (memsKept_next h) ?_
    split
    · exact memsKept_next (memsOk_nack (memsOk_setInbox h ..) ..)
    · refine memsKept_exec ?_ _
      exact h

theorem memsKept_runEvent {s : State} (h : s.memsOk) (i a) : MemsKept (s.runEvent i a) := by
  refine memsKept_ite (memsKept_exec ?_ _) (memsKept_next h)
  exact h

theorem memsKept_runPick {s : State} (h : s.memsOk) (p) : MemsKept (s.runPick p) := by
  cases p with
  | pe cl x y => exact memsKept_runPe h cl x y
  | word u => exact memsKept_runWord h u
  | msg e => exact memsKept_runMsg h e
  | access i ks => exact memsKept_next (memsOk_performAccess h ..)
  | event i a => exact memsKept_runEvent h i a
  | clock die => exact memsKept_next (memsOk_tickDie h _)
  | hubClock => exact memsKept_next (memsOk_tickHub h)
  | hostMem pa bs => exact memsKept_next (memsOk_hostOwnWrite h ..)
  | hostGrant half st => exact memsKept_next (memsOk_hostGrant h ..)
  | hostCxl i addr a =>
    refine memsKept_ite (memsKept_next h) ?_
    split
    · exact memsKept_runEvent h _ _
    · exact memsKept_next h
  | hdmDecoder host region base => exact memsKept_next (memsOk_programDecoder h ..)
  | assignRegion region code => exact memsKept_next (memsOk_assignRegion h ..)
  | correctedError e => exact memsKept_next (memsOk_logCorrected h _)
  | replay => exact memsKept_next (memsOk_replay h)
  | portTraining port => exact memsKept_next (memsOk_beginTraining h _)
  | memError line => exact memsKept_next (memsOk_failLine h _)
  | barWrite k r v => exact memsKept_next (memsOk_barWrite h ..)
  | busWrite k a n v =>
    rw [State.runPick]
    split
    · exact memsKept_runEvent h _ _
    · exact memsKept_next h
  | busRead k a => exact memsKept_next (memsOk_busRead h ..)

/-- Settles O2: an empty agenda leaves the state, and every turn of the agenda keeps the memories canonical by the lemmas above. -/
theorem stepKeepsMemoriesCanonical : Obligations.StepKeepsMemoriesCanonical := by
  unfold Obligations.StepKeepsMemoriesCanonical
  intro s t h hstep
  cases hag : s.agenda with
  | nil =>
    simp only [step, hag] at hstep
    exact memsKept_next h t hstep
  | cons p rest =>
    rw [step_cons hag] at hstep
    exact memsKept_runPick (s := { s with agenda := rest }) h p t hstep

end Sys2Proof.Proofs
